-- ==== Sys2Proof/Word.lean ====
section
/-!
DEFINITION. The word types of the OL-4200 model and their plainest arithmetic.
Values the manual treats as bits are bit vectors; counts, indices and table keys are natural numbers.
-/
namespace Sys2Proof

/-- One byte of memory or of a wire structure (R4: little-endian fields are made of these). -/
abbrev Byte := BitVec 8
/-- A 32-bit register. -/
abbrev Word := BitVec 32
/-- A 64-bit register, tally value or command word. -/
abbrev DWord := BitVec 64
/-- A beat stamp: the 56-bit count of beats since the Tactus epoch (R18). -/
abbrev Stamp := BitVec 56

end Sys2Proof
end

