-- ==== Sys2Proof/Machine/Bits.lean ====
section
/-!
DEFINITION. Bit fields, byte order, sign extension and saturating counts, used by every block.
-/
namespace Sys2Proof.Machine

/-- The `w` bits of `n` that begin at bit `i`: the field [i+w-1:i] of a register or header word. -/
def fld (n i w : Nat) : Nat := n / 2 ^ i % 2 ^ w

/-- Bit `i` of `n`. -/
def bitAt (n i : Nat) : Bool := n / 2 ^ i % 2 == 1

/-- The bit a Boolean stands for. -/
def b2n (b : Bool) : Nat := if b then 1 else 0

/-- The `n` bytes of `v`, byte 0 least significant (R4). -/
def leBytes (v : Nat) : Nat → List Byte
  | 0 => []
  | n + 1 => BitVec.ofNat 8 v :: leBytes (v / 256) n

/-- The number whose bytes are `bs`, byte 0 least significant (R4). -/
def leNat : List Byte → Nat
  | [] => 0
  | b :: bs => b.toNat + 256 * leNat bs

/-- Bytes [i, i+n) of a structure, as a little-endian number. -/
def leAt (bs : List Byte) (i n : Nat) : Nat := leNat ((bs.drop i).take n)

/-- The `w`-bit two's-complement reading of `n`. -/
def sext (n w : Nat) : Int := if n % 2 ^ w < 2 ^ (w - 1) then (n % 2 ^ w : Nat) else (n % 2 ^ w : Nat) - (2 ^ w : Nat)

/-- The `w`-bit two's-complement coding of an integer. -/
def twos (x : Int) (w : Nat) : Nat := (x % (2 ^ w : Nat)).toNat

/-- An addition that holds at `cap`. -/
def satAdd (cap a b : Nat) : Nat := min cap (a + b)

/-- R203: index `b` is later than index `a` modulo 2^32. -/
def idxLater (a b : Word) : Bool := decide (1 ≤ (b - a).toNat) && decide ((b - a).toNat ≤ 2 ^ 31 - 1)

/-- R203: index `b` is `a` or later. -/
def idxAtOrLater (a b : Word) : Bool := a == b || idxLater a b

/-- `n` is a power of two between `lo` and `hi`. -/
def pow2Between (n lo hi : Nat) : Bool :=
  decide (lo ≤ n) && decide (n ≤ hi) && (List.range 41).any fun e => n == 2 ^ e

/-- `⌈a / b⌉`. -/
def ceilDiv (a b : Nat) : Nat := (a + (b - 1)) / b

end Sys2Proof.Machine
end

