-- ==== Sys2Proof/Machine/Tab.lean ====
section
/-!
DEFINITION. Sparse tables. A register array, a queue file or a memory is a list of (key, value) pairs with strictly
rising keys. `Tab` is the table of a block, read over a default; `Mem` is a byte memory in canonical form, in which no
entry equals what an unlisted address reads as.
-/
namespace Sys2Proof.Machine

/-- A sparse table: keys strictly rising. An unlisted key reads as the default its accessor names. -/
abbrev Tab (α : Type) := List (Nat × α)

/-- The value at key `k`, or `d` where the table lists none. -/
def Tab.get {α : Type} (d : α) : Tab α → Nat → α
  | [], _ => d
  | (k', v) :: t, k => if k' = k then v else Tab.get d t k

/-- The entry at key `k`, if the table lists one. -/
def Tab.find {α : Type} : Tab α → Nat → Option α
  | [], _ => none
  | (k', v) :: t, k => if k' = k then some v else Tab.find t k

/-- The table with `v` at key `k`. -/
def Tab.put {α : Type} : Tab α → Nat → α → Tab α
  | [], k, v => [(k, v)]
  | (k', v') :: t, k, v =>
    if k < k' then (k, v) :: (k', v') :: t
    else if k = k' then (k, v) :: t
    else (k', v') :: Tab.put t k v

/-- The table without key `k`. -/
def Tab.del {α : Type} : Tab α → Nat → Tab α
  | [], _ => []
  | (k', v') :: t, k => if k = k' then t else (k', v') :: Tab.del t k

/-- Every listed value changed by `f`, which sees the key. -/
def Tab.mapVals {α : Type} (f : Nat → α → α) : Tab α → Tab α
  | [] => []
  | (k, v) :: t => (k, f k v) :: Tab.mapVals f t

/-- Keys strictly rise from `lo` on. -/
def Tab.sortedFrom {α : Type} : Nat → Tab α → Bool
  | _, [] => true
  | lo, (k, _) :: t => decide (lo ≤ k) && Tab.sortedFrom (k + 1) t

/-- The canonical form of a table: keys strictly rising. -/
def Tab.wf {α : Type} (t : Tab α) : Bool := Tab.sortedFrom 0 t

/-- A byte memory: (address, byte) pairs, addresses strictly rising, no listed byte equal to 0. -/
abbrev Mem := List Host.Cell

/-- What an unlisted address reads as. R159: the start-up fill writes zeros to every page. -/
def Mem.fill : Byte := 0

/-- The byte at address `a`. -/
def Mem.read (m : Mem) (a : Nat) : Byte := Tab.get Mem.fill m a

/-- The memory with byte `b` at address `a`; writing the fill value removes the entry. -/
def Mem.write (m : Mem) (a : Nat) (b : Byte) : Mem :=
  if b = Mem.fill then Tab.del m a else Tab.put m a b

/-- `n` bytes from address `a`, lowest address first. -/
def Mem.readN (m : Mem) (a : Nat) : Nat → List Byte
  | 0 => []
  | n + 1 => Mem.read m a :: Mem.readN m (a + 1) n

/-- The memory with the bytes of `bs` at `a`, `a + 1`, … -/
def Mem.writeN (m : Mem) (a : Nat) : List Byte → Mem
  | [] => m
  | b :: bs => Mem.writeN (Mem.write m a b) (a + 1) bs

/-- No listed byte equals the fill value. -/
def Mem.noFill (m : Mem) : Bool := m.all fun c => decide (c.2 ≠ Mem.fill)

/-- The canonical form of a memory: addresses strictly rising, no entry equal to what an unlisted address reads as. -/
def Mem.wf (m : Mem) : Bool := Tab.wf m && Mem.noFill m

end Sys2Proof.Machine
end

