-- ==== Sys2Proof/Machine/Types.lean ====
section
/-!
DEFINITION. The plain data each block of the OL-4200 holds, chapter by chapter: every register, queue, counter, mode
and buffer the manual gives the engine. `Machine/State.lean` puts the blocks together. Every field's initial value is
its value after reset; the assumption log says which of them the manual does not give.
-/
namespace Sys2Proof.Machine

/-! ### Operands of commands -/

/-- What a router's SECDED found on an arriving flit (R119). -/
inductive FlitError where
  | clean | single | doubleData | doubleSideband
deriving DecidableEq, Repr

/-- How a host read ended (R490). -/
inductive HostCpl where
  | data (bs : List Byte) | unsupported | abort | poisoned
deriving DecidableEq, Repr

/-- The path a management command came by (Table HST-6). -/
inductive MPath where
  | mailbox | smbus | vdm
deriving DecidableEq, Repr

/-- A management command over MCTP carries its arguments and input; over the mailbox they are in its registers. -/
structure MReq where
  path : MPath
  args : List DWord := []
  input : List Byte := []
deriving DecidableEq, Repr

/-- A change a configuration-space write makes (R483, R491, R493). -/
inductive CfgWrite where
  | bme (on : Bool) | d3hot (on : Bool) | msixEnable (on : Bool) | funcMask (on : Bool) | cplTimeout (v : Nat)
  | bar2Size (log2 : Nat)
deriving DecidableEq, Repr

/-- An expander that enumeration found: its port, its raw capacity in 64 MiB, RATE (1 32 GT/s, 2 64 GT/s) and its lanes (R495). -/
structure Expander where
  port : Nat
  raw : Nat
  rate : Nat
  width : Nat
deriving DecidableEq, Repr

/-- What the hardware finds while it starts up (Table PWR-1): the outcomes that no register decides. -/
structure Boot where
  fuseOk : Bool := true              -- the fuse map yields every logical unit (R11)
  pllOk : Bool := true
  phyOk : Bool := true               -- HBM4 training
  pprOk : Bool := true               -- factory repair (R155)
  repairBad : List Nat := []         -- stacks of field repair entries outside the geometry, one per entry (R156)
  noRoom : List (Nat × List Nat) := []   -- stack and pages of a row it refused (R157)
  expanders : List Expander := []
  sliceFail : List Nat := []         -- decoders 0-31 that fail self-test (R158)
  cxlFail : List Nat := []           -- decoders of ports 0-3 that fail
  fillOk : Bool := true
  images : List Nat := []            -- clusters whose resident image was loaded (R368)
deriving DecidableEq, Repr

/-! ### The Tactus (chapter 2) -/

/-- TACT_CTRL.MODE (R27, Table TAC-4). -/
inductive TactMode where
  | none | pinned | carried | conductor
deriving DecidableEq, Repr

/-- Table TAC-5: states of the Tactus unit. -/
inductive TactState where
  | free | acquiring | locked | holdover | steppedOut
deriving DecidableEq, Repr

/-- A timecode frame's fields after its sync word (R23, Table TAC-3). -/
structure Timecode where
  typ : Nat
  flags : Nat
  stamp : Stamp
  phrase : Nat          -- bits 88-127
  reserved : Nat        -- bits 128-159
  crc : BitVec 16
deriving DecidableEq, Repr

/-- An accepted frame and what the pulse after it said: none yet, or whether its beat agreed (R30). -/
structure FrameSeen where
  stamp : Stamp
  holdover : Bool
  pulse : Option Bool
deriving DecidableEq, Repr

/-- The Tactus unit. `stamp` counts beats; it is published only while the unit is LOCKED or in HOLDOVER. -/
structure Tactus where
  mode : TactMode := .none
  upstream : Nat := 0
  backup : Nat := 0
  backupEn : Bool := false
  state : TactState := .free
  ctrlRefused : Bool := false
  depth : Nat := 0
  srcHoldover : Bool := false
  inUse : Nat := 0                 -- UPSTREAM_IN_USE
  holdMeasures : Nat := 0
  redLimit : Nat := 4
  redLimitUsed : Nat := 4          -- in force since the last downbeat (R529)
  holdoverLimit : Nat := 64
  epoch : Stamp := 0
  lockStamp : Stamp := 0
  freq : BitVec 16 := 0            -- TACT_FREQ.OFFSET
  refLost : Bool := false
  pllLocked : Bool := false        -- the core PLL is locked to its reference
  stamp : Stamp := 0
  cycle : Nat := 0                 -- core cycle within the beat
  everLocked : Bool := false       -- LOCKED since the last cold or warm reset (R244)
  frames : List FrameSeen := []    -- accepted frames that follow one another, newest first, 3 at most
  frameThisMeasure : Bool := false
  pulseThisMeasure : Bool := false
  pulseMissing : Nat := 0          -- consecutive measures without a pulse
  displaced : Nat := 0             -- the last displaced pulse's offset
  displacedRun : Nat := 0          -- pulses displaced by it, running
  disagree : Nat := 0              -- consecutive accepted frames agreeing with each other, not with the count
  refGood : Nat := 0               -- consecutive measures in which the reference met R21
  qualified : Nat := 0             -- consecutive downbeats at which the source met its lock condition (R48)
  phaseError : Int := 0            -- the source's beat against the held beat, 50 ps units
  steer : Int := 0                 -- difference still to be removed at 0.2 ns per measure (R35, R48)
  lossPending : Bool := false      -- a CARRIED loss met with REF_LOST: move or step out at the next downbeat (R46)
  limitReached : Bool := false     -- TACT_HOLDOVER_LIMIT measures have passed (R49)
  refBad : Bool := false           -- a loss of the reference was declared in the present measure
  pulseSeen : Bool := false        -- a pulse has set the count since ACQUIRING began
  echoSince : Bool := false        -- an echo exchange has completed upstream since ACQUIRING or the loss (R31, R48)
  holdSince : Nat := 0             -- the beat in which the present holdover began
  outTc : Option Timecode := none  -- the frame TACT_OUT_TC carries for the next downbeat (R25)
deriving DecidableEq, Repr

/-! ### Voice ports and the slot (chapter 3) -/

/-- Table VOX-11: port states. -/
inductive PortState where
  | down | training | framing | aligned | inSchedule | outOfStep
deriving DecidableEq, Repr

/-- Table VOX-7: slot classes. `bad` is a reserved code. -/
inductive SlotClass where
  | rest | cue | choirHi | choirLo | stream | graft | openSlot | bad
deriving DecidableEq, Repr

/-- The descant field of a slot (Table VOX-6). -/
structure Descant where
  dtree : Nat := 0
  dop : Nat := 0
  dseq : Nat := 0
  dfmt : Nat := 0
  dvalid : Bool := false
  down : Bool := false
  arrivals : Nat := 0
  data : List Byte := []       -- 16 bytes
deriving DecidableEq, Repr

/-- A slot's fields (Tables VOX-2 to VOX-5). -/
structure Slot where
  cls : SlotClass := .rest
  typ : Nat := 0
  oos : Bool := false
  fallen : Bool := false
  retry : Bool := false
  shadow : Bool := false
  part : Nat := 0
  optag : Nat := 0
  segment : Nat := 0
  slotInSeg : Nat := 0
  last : Bool := false
  epoch : Nat := 0
  stamp : Nat := 0             -- 32 bits
  source : Nat := 0
  route : Nat := 0             -- 12 bits
  hops : Nat := 0
  otype : Nat := 0
  check : Nat := 0             -- the segment check, bytes 16-23
  descant : Descant := {}
  payload : List Byte := []    -- the VALID_LEN valid bytes
  payloadBad : Bool := false
deriving DecidableEq, Repr

/-- The tail slot's fields (Table VOX-8). -/
structure TailSlot where
  stamp : Stamp := 0
  eui : DWord := 0
  member : Option Nat := none
  depth : Nat := 0
  tact : TactState := .free
  origin : Bool := false
  srcHoldover : Bool := false
  pstate : Nat := 0
  oos : Bool := false
  echoReq : Bool := false
  fallen : Bool := false
  epoch : Nat := 0
  sequence : Word := 0
  fingerprint : DWord := 0
  mean : BitVec 16 := 0
  min : BitVec 16 := 0
  max : BitVec 16 := 0
  txTime : DWord := 0
  rxEcho : Option DWord := none
deriving DecidableEq, Repr

/-- A cue message (Table VOX-9). -/
structure Cue where
  typ : Nat
  neighbour : Bool := false
  dest : Nat := 0
  src : Nat := 0x3FF
  seq : Nat := 0
  body : List Byte := []       -- 64 bytes
deriving DecidableEq, Repr

/-- A cue send queue (R514), oldest first: each message, and whether this member relays it. 256 places of each kind. -/
structure CueQueue where
  items : List (Bool × Cue) := []
deriving DecidableEq, Repr

/-- Phase statistics of a measure: count, sum, least and greatest error in 50 ps units. -/
structure PhaseStat where
  n : Nat := 0
  sum : Int := 0
  min : Int := 0
  max : Int := 0
deriving DecidableEq, Repr

/-- One voice port. -/
structure Port where
  state : PortState := .down
  pmd : Nat := 0
  holdDown : Bool := false
  precode : Bool := true
  eq : DWord := 0x0280028002800280#64
  pmdUsed : Nat := 0               -- VP_CTRL.PMD and VP_EQ as of the last entry to TRAINING (R530)
  eqUsed : DWord := 0x0280028002800280#64
  nb : Option TailSlot := none     -- the last tail slot received
  shadowTx : Bool := false
  hMin : Nat := 0
  h : Nat := 0
  centre : Int := 0                -- the arrival phase taken as zero error, 50 ps units
  slew : Int := 0                  -- VP_CENTRE.SLEW
  phase : PhaseStat := {}          -- the measure under way
  lastPhase : PhaseStat := {}      -- the last measure (VP_PHASE)
  amber : PhaseStat := {}          -- its amber slots (R41)
  red : Nat := 0                   -- red count of the measure (R42)
  uncorr : Nat := 0                -- uncorrectable codewords of the measure (R79)
  delay : Word := 0
  offset : DWord := 0
  delayValid : Bool := false
  echoT1 : Option DWord := none    -- TX_TIME of the tail slot that asked for an echo
  echoDue : Bool := false          -- the neighbour asked: answer in the next tail slot (R34)
  rxArrival : Option DWord := none -- arrival time of the neighbour's last tail slot
  tails : List Stamp := []         -- full stamps of consecutive tail slots, newest first, 3 at most (R31)
  tailsLost : Nat := 0             -- consecutive tail slots lost
  tailPhase : Option (Int × Bool) := none   -- this measure's tail slot: its phase and whether its stamp agreed (R43)
  conflict : Bool := false         -- TACT_CONFLICT stands (R45)
  oosSeen : Bool := false          -- OOS_RX reported in this measure
  fallenSeen : Bool := false       -- FALLEN_RX reported in this measure
  matched : Bool := false          -- a full measure of tail slots that match the active score (R80)
  since : Nat := 0                 -- the beat at which the present port state was entered
  frame : Option (Stamp × Nat) := none     -- a sending beat of the neighbour and the local beat of its release (R39)
  aligner : List Slot := []        -- slots decoded and not yet released, oldest first
  ingress : List (Nat × Slot) := []   -- the ingress buffer (R73), each slot with the beat of its release
  fwd : Option Slot := none        -- the forwarded slot that holds this output port's beat `fwdDue` (R582)
  fwdDue : Nat := 0
  fwdAt : Nat := 0                 -- the core cycle in which its piece 0 reached the port
  cueIn : List Cue := []           -- cue messages of accepted slots, oldest first
  scrambler : BitVec 58 := 0
  txSymbols : List (BitVec 10) := []   -- message symbols of the last codeword sent
  txSlot : Slot := {}              -- the slot they carry
  txTail : Option TailSlot := none -- the last tail slot sent
deriving DecidableEq, Repr

/-! ### The score (chapter 4) -/

/-- SCR_STATUS.STANDBY. -/
inductive BankState where
  | empty | checking | ready | failed
deriving DecidableEq, Repr

/-- The two score banks and the score-control registers. Bank bytes not listed are 0. -/
structure ScoreCtl where
  bankA : Mem := []
  bankB : Mem := []
  active : Nat := 1                -- ACTIVE_BANK: 0 A, 1 B (R101)
  member : Bool := false           -- a real score is active
  standby : BankState := .empty
  target : Option Nat := none      -- the pending target phrase (R105)
  rootHold : Bool := false         -- the former bank keeps the rootstock (R107)
  rootReal : Bool := false         -- that rootstock was a real score
  writeRefused : Bool := false
  loadRefused : Bool := false
  targetPast : Bool := false
  busy : Bool := false
  targetRefused : Bool := false
  loadErr : Nat := 0
  errOffset : Nat := 0
  switchStamp : Stamp := 0
  deadStandby : Nat := 0           -- ESP_LOAD_INFO
  deadActive : Nat := 0
deriving DecidableEq, Repr

/-! ### The espalier (chapter 5) -/

/-- A router's inputs and outputs, in the coding of Table SCR-7. -/
inductive Link where
  | n | e | s | w | l0 | l1 | l2
deriving DecidableEq, Repr

/-- A flit: its 256 data bytes and its sideband (R112, Table ESP-1). -/
structure Flit where
  poison : Bool := false
  kind : Nat := 0
  piece : Nat := 3
  tag : Nat := 0
  age : Nat := 0
  data : List Byte := []
deriving DecidableEq, Repr

/-- Flits on the mesh: where each one is about to be routed or delivered. -/
structure Espalier where
  inflight : List (Nat × Link × Flit) := []    -- router, input, flit
  arrived : List (Nat × Link × Flit) := []     -- router, attach point, flit
  edgeOver : Tab Nat := []                     -- edge router -> the last core cycle in which ESP_EDGE_OVER was counted
  reqOwner : Tab (Nat × Nat) := []             -- request id -> the queue and issue of the command that owns it
deriving DecidableEq, Repr

/-! ### Memory (chapter 6) -/

/-- Who makes a memory request (Tables MEM-6 and MEM-7, R162). -/
inductive Requester where
  | fetch (q : Nat)                 -- a command fetch of queue q
  | command (q : Nat) (tok : Nat)   -- a CE or ME operand or result of a command
  | chan (c : Nat)                  -- a DMA channel
  | core (cl core : Nat)            -- a cluster core
  | host                            -- BAR2
  | stream (port : Nat)             -- STREAM landing at a voice port
  | service (q : Nat)               -- a record, RECORD or head write of a queue
  | scrub
  | recode
deriving DecidableEq, Repr

/-- A request that waits at a controller. `data` is the bytes of a write; a read asks for `len` bytes. -/
structure MemReq where
  who : Requester
  addr : Nat
  len : Nat
  data : Option (List Byte)
  lease : Option Nat := none        -- the lease it is under (R162)
  narrow : Bool := false            -- the read half of an RMW
  bytes : List Byte := []           -- a read: its bytes as they stood when the controller accepted it (R138)
deriving DecidableEq, Repr

/-- What a read gave its requester. -/
inductive MemReply where
  | data (bs : List Byte)
  | poisoned (page : Nat)           -- Table MEM-7
  | unbacked
  | held                            -- the access waits
deriving DecidableEq, Repr

/-- A page-lock entry (R142): the narrow parts merged so far, and whether its read half has been done. -/
structure PageLock where
  page : Nat
  parts : List MemReq
  read : Bool := false
  issued : Bool := false            -- its array write has been issued
deriving DecidableEq, Repr

/-- One of the twelve controllers that Table REG-14 counts: stacks 0-7, tier-2 ports 8-11. -/
structure MemPort where
  buffer : List Nat := []           -- decoded-page buffer, most recently used first (R139)
  locks : List PageLock := []       -- page-lock table, 256 entries (R142)
  lockWait : List MemReq := []      -- narrow writes waiting for an entry
  waiting : List MemReq := []       -- requests waiting for service, oldest first
  decoding : List MemReq := []      -- pages fetched and not yet decoded
  writeBack : List Nat := []        -- corrected pages to be written back, oldest first (R147)
  served : List Requester := []       -- requesters of level 6, the most recently served first
  scrubPage : Nat := 0              -- MEM_SCRUB_PTR.PAGE
  scrubPasses : Nat := 0
  scrubSince : Nat := 0             -- the beat at which the present scrub pass began
  scrubLate : Bool := false
  breach : Bool := false            -- LEASE_BREACH (R165)
  calm : Nat := 0                   -- consecutive beats with no lease behind
  hotRefresh : Bool := false
  retraining : Bool := false        -- PHY or CXL link retrain: accesses wait
  retrainSince : Nat := 0           -- the beat at which it began
deriving DecidableEq, Repr

/-- A memory region (R134), with its staged bounds (R535). -/
structure Region where
  valid : Bool := false
  base : Nat := 0
  limit : Nat := 0
  strength : Nat := 0
  strict : Bool := false
  group : Nat := 0
  stagedBase : Nat := 0
  stagedLimit : Nat := 0
deriving DecidableEq, Repr

/-- A tier-2 port's expander and link (MEM_CXL_STATUS, MEM_CXL_CAP). -/
structure Cxl where
  linkUp : Bool := false
  enumerated : Bool := false
  backed : Bool := false
  rate : Nat := 0
  width : Nat := 0
  raw : Nat := 0                    -- C of R132, in units of 64 MiB
deriving DecidableEq, Repr

/-- A lease's account (R164, R165, MEM_LEASE_STATE). -/
structure LeaseAcct where
  deficit : Int := 0                -- units of 1/400 service
  behind : Bool := false
  eligible : Bool := false
  run : Nat := 0
deriving DecidableEq, Repr

/-- A recode under way (R137). -/
structure Recode where
  region : Nat
  strength : Nat
  ptr : Nat
deriving DecidableEq, Repr

/-- Memory control, error and repair state. The bytes themselves are `State.ram`. -/
structure MemCtl where
  t1Next : Nat := 1
  t2Next : Nat := 1
  t1 : Nat := 1                     -- ceilings in force, 0-3 for S1-S4
  t2 : Nat := 1
  fillDone : Bool := false
  t1FillDone : Bool := false
  regionRefused : Bool := false
  recodeBusy : Bool := false
  recodeRegion : Nat := 0
  recodeStrength : Nat := 0
  recode : Option Recode := none
  recodePtr : Nat := 0
  scrubHours1 : Nat := 24
  scrubHours2 : Nat := 168
  leaseSlip : Nat := 256
  poisonAddr : DWord := 0
  poisonDone : Bool := false
  poisonBit : Bool := false
  poisonUnbacked : Bool := false
  repairWptr : Word := 0
  repairCand : Tab DWord := []
  slicePass : Word := 0             -- PGC_SELFTEST
  cxlPass : BitVec 4 := 0
  selftestDone : Bool := false
  injAddr : DWord := 0
  injCount : Nat := 1
  injStart : Nat := 0
  injStride : Nat := 1
  injPattern : Nat := 1
  injArmed : Bool := false
  regions : Tab Region := []
  ports : Tab MemPort := []
  cxl : Tab Cxl := []
  leases : Tab LeaseAcct := []
  poison : List Nat := []           -- poisoned pages, ascending page addresses
  errs : Tab (List (Nat × Nat)) := []   -- page address -> symbol errors standing in its stored codeword
  corrected : Tab Nat := []         -- page address -> the scrub pass in which it was last corrected (R152)
  reply : Option (Requester × MemReply) := none   -- the last reply a controller gave
deriving DecidableEq, Repr

/-! ### Queues and completion rings (chapters 8 and 21) -/

/-- Table QUE-8: queue states. -/
inductive QState where
  | disabled | running | suspended | halted | resetting
deriving DecidableEq, Repr

/-- Table RGE-4: HALT_CAUSE codes. -/
inductive HaltCause where
  | none | failed | fetchUe | badDoorbell | haltInsn | waitAbandoned | waitDeadlock | watchdog | unitReset
deriving DecidableEq, Repr

/-- A finished command's outcome, as its record will carry it (R215, R218, Tables QUE-5 to QUE-7). -/
structure Done where
  status : Nat
  cause : Nat := 0
  detail : Nat := 0
  sat : Nat := 0
  flush : Nat := 0
  drop : Nat := 0
  late : Option (Nat × Nat) := none     -- LATENESS, LAGGARD
  order : Nat := 0                      -- its place in the order of completion
deriving DecidableEq, Repr

/-- A command in flight: issued and not yet completed (R210). `cmd` holds the operands with IDX applied (R233). -/
structure Inflight where
  tok : Nat                              -- the number of its issue: an index repeats in a loop
  idx : Word
  cmd : BitVec 512
  since : Nat                            -- the beat of its issue
  chan : Option Nat := none              -- the DMA channel a data command holds
  msg : Option Nat := none               -- REMOTE_SIGNAL: the number of its message (R400)
  done : Option Done := none             -- finished, waiting for COMMAND_COMPLETE
deriving DecidableEq, Repr

/-- A command fetched ahead of issue (R207). `ue` is the page of an uncorrectable fetch (R225). -/
structure Fetched where
  idx : Word
  cmd : BitVec 512
  ue : Option Nat := none
deriving DecidableEq, Repr

/-- What the sequencer keeps about the command at its head while it waits there. -/
structure HeadState where
  since : Nat                            -- the beat in which the command reached the head
  target : Option Stamp := none          -- AT_BEAT's or AT_DOWNBEAT's target beat (R242, R243)
  arrived : Option Nat := none           -- ARRIVE_WAIT: its arrival stands at this context (R248)
  released : Bool := false               -- ARRIVE_WAIT: the context has released
deriving DecidableEq, Repr

/-- One command queue and its sequencer. -/
structure Queue where
  state : QState := .disabled
  cfgRefused : Bool := false
  resetRefused : Bool := false
  haltCause : HaltCause := .none
  haltIndex : Word := 0
  base : DWord := 0
  headAddr : DWord := 0
  size : Nat := 0
  initIndex : Word := 0
  tail : Word := 0
  fetch : Word := 0
  headWritten : Word := 0                -- HEAD as last written to Q_HEAD_ADDR
  producer : Nat := 0
  errRing : Nat := 0
  errContinue : Bool := false            -- ERR_POLICY
  foreignBell : Nat := 0
  badCtrl : Nat := 0
  watchdog : Nat := 0
  stalled : Nat := 0
  progress : Bool := false               -- a command has issued or completed since the last downbeat (R423)
  mark : Word := 0
  sregs : Tab DWord := []                -- S0-S7
  pin : List Word := []                  -- the pin stack, top first
  fetched : List Fetched := []
  inflight : List Inflight := []         -- in issue order
  head : Option HeadState := none
  lastHost : Option Nat := none          -- the last host address that a command of the queue wrote, since its last FENCE (R249)
deriving DecidableEq, Repr

/-- One completion ring. -/
structure Ring where
  base : DWord := 0
  size : Nat := 0
  enabled : Bool := false
  cfgRefused : Bool := false
  headRefused : Bool := false
  tail : Word := 0
  head : Word := 0
  vector : Nat := 0
  irqCount : Nat := 0
  irqDelay : Nat := 0
  unsignalled : Nat := 0                 -- records written since the last message
  oldest : Option Nat := none            -- the beat of the oldest of them
deriving DecidableEq, Repr

/-! ### Collectives (chapters 10 and 11) -/

/-- The algorithm a collective runs by (R273). -/
inductive Alg where
  | tree | canon | descant
deriving DecidableEq, Repr

/-- Causes of an input failure (Table COL-3). -/
inductive RetryCause where
  | crc | residue | slotLost | payloadBad
deriving DecidableEq, Repr

/-- A segment arriving on one input. -/
structure SegIn where
  slots : Tab (List Byte) := []            -- SLOT_IN_SEG -> valid payload
  bad : Bool := false                      -- a slot carried PAYLOAD_BAD
  poison : Bool := true                    -- every slot so far carried RETRY and PAYLOAD_BAD (R314)
  lastSlot : Option Nat := none            -- SLOT_IN_SEG of the LAST slot
  check : Nat := 0                         -- its segment check
  typ : Nat := 0                           -- TYPE of its slots
  lastAt : Option Nat := none              -- the beat of its LAST slot's release
  passed : Bool := false                   -- the input check has passed
  asked : Option (RetryCause × Nat) := none    -- SEGMENT_RETRY sent, and downbeats since the first request
  resent : Bool := false                   -- a resent slot has arrived
  retried : List RetryCause := []          -- causes whose one retry is used (R309)
  gaveUp : Bool := false
  freed : Bool := false
deriving DecidableEq, Repr

/-- One input of a collective: a gang and route from which it receives segments. -/
structure CInput where
  gang : Nat
  route : Nat                              -- the slot ROUTE field
  down : Bool
  stream : Nat := 0                        -- the stream it carries (R286)
  heard : Bool := false                    -- a RESERVE or a slot has come (R280)
  released : Nat := 0                      -- the released count sent
  firstAt : Tab Nat := []                  -- segment -> the beat in which its first slot was released
  segs : Tab SegIn := []
deriving DecidableEq, Repr

/-- One output of a collective: a gang and route on which it sends segments. -/
structure COutput where
  gang : Nat
  route : Nat
  down : Bool
  stream : Nat := 0
  granted : Option Nat := none             -- W' granted by a CONFIRM
  released : Nat := 0                      -- the receiver's released count
  seg : Nat := 0                           -- the next segment to send, as a count over this output's segments
  slot : Nat := 0                          -- its next slot
  resend : List (Nat × Nat) := []          -- segments to be sent again, with the next slot of each
deriving DecidableEq, Repr

/-- A segment this member has formed: its slots' payloads and its segment check. -/
structure SegOut where
  slots : List (List Byte) := []
  check : Nat := 0
  poisoned : Bool := false
  native : Bool := false                   -- it fell back to NATIVE (R187)
deriving DecidableEq, Repr

/-- A slotted or descant collective in flight, or kept by its root after completion (R260). -/
structure Coll where
  queue : Nat
  tok : Nat
  cmd : BitVec 512
  opcode : Nat
  part : Nat
  optag : Nat
  root : Nat
  dtree : Nat
  alg : Option Alg := none                 -- chosen, or waiting for the size (COUNTED)
  size : Nat := 0                          -- items per contribution
  window : Nat := 0                        -- W'
  staging : Nat := 0                       -- segments of staging held
  inputs : List CInput := []
  outputs : List COutput := []
  own : Tab (List Byte) := []              -- descant steps that have folded: STEP -> result
  adderRetried : List Nat := []            -- segments whose one recombination is used (R309)
  ready : Tab SegOut := []                 -- up-half (or only-half) segment -> formed segment
  down : Tab SegOut := []                  -- down-half segment held
  exps : Tab Int := []                     -- segment -> the agreed exponent E
  exps2 : Tab Int := []                    -- MOMENTS: E2
  pitchSent : Nat := 0                     -- PITCH operations, or descant steps, injected
  counts : Option (Nat × Nat) := none      -- the count exchange's sum and maximum
  fallback : Bool := false                 -- a segment fell back to NATIVE (R187)
  failure : Option (Nat × Nat) := none     -- the first failure: status and ERR_DETAIL
  tooSmall : Bool := false                 -- a receiver's COUNTED capacity is too small (R259)
  sat : Nat := 0
  flush : Nat := 0
  drop : Nat := 0
  breach : Bool := false                   -- an access was under a lease in breach (R166)
  stamp : Nat := 0                         -- bits [53:0] of the issue beat (R317)
  sized : Bool := false                    -- the size is known and the slots may run
  hostSrc : Option (List Byte) := none     -- SRC_HOST: the contribution, once read (R301)
  flushing : Bool := false                 -- DST_HOST: the read that follows the writes is outstanding (R302)
  ended : Option Done := none              -- complete but for that read
  written : List Nat := []                 -- result segments written
  late : Option (List Byte) := none        -- at the root: the folded lateness operation (R318)
  keep : Option Nat := none                -- the root keeps its down segments since this beat (R260)
deriving DecidableEq, Repr

/-- Who a descant context belongs to at this member. -/
inductive DOwner where
  | none
  | command (q : Nat) (tok : Nat)          -- DBCAST, DREDUCE, COUNTS, a pitch or count exchange
  | barrier (ctx : Nat)
  | lateness (q : Nat) (tok : Nat)
deriving DecidableEq, Repr

/-- A descant context (R295). -/
structure DCtx where
  dtree : Nat
  dop : Nat
  dseq : Nat
  dfmt : Nat := 0
  owner : DOwner := .none
  own : Option (List Byte) := none         -- this member's contribution
  numctl : Nat := 0                        -- NUMCTL of the command
  down : Bool := false                     -- a downward pass gives this member its result
  sat : Nat := 0                           -- what the fold counted (R198)
  flush : Nat := 0
  arrivals : Nat := 0                      -- ARRIVALS received
  parts : Tab (List Byte) := []            -- gang -> data received
  sent : Bool := false                     -- folded, and sent up or delivered at the root
  result : Option (List Byte) := none      -- what the fold or the downward pass gave
  since : Option Nat := none               -- the beat of the command's completion (R317)
deriving DecidableEq, Repr

/-- A descant operation ready to be sent on a gang (R298). -/
structure DSend where
  gang : Nat
  op : Descant
  since : Nat
deriving DecidableEq, Repr

/-- A CONFIRM that names a collective not yet issued (R281). -/
structure EarlyConfirm where
  part : Nat
  optag : Nat
  route : Nat
  down : Bool
  gang : Nat
  window : Nat
deriving DecidableEq, Repr

/-- A lateness entry (Table CHK-4). -/
structure LateEntry where
  measured : Nat := 0
  sum : Nat := 0
  max : Nat := 0
deriving DecidableEq, Repr

/-- The collective engines, the descant unit and the member-wide checking state. -/
structure Collectives where
  colls : List Coll := []                  -- in issue order
  early : List EarlyConfirm := []          -- oldest first, 512 at most
  muted : List (Nat × Nat) := []           -- (PART, OPTAG) whose slots and messages are dropped uncounted (R324, R340)
  discarded : List (Nat × Nat) := []       -- (DTREE, DSEQ) of lateness contexts discarded (R317)
  ctxs : List DCtx := []                   -- descant contexts, 1,024 at most
  dsend : List DSend := []                 -- descant operations ready to send, in order of readiness
  lateThresh : Nat := 0
  lostMeasures : Nat := 2
  lost : List Nat := []                    -- CE_LOST_MAP, ascending members
  declared : List Nat := []                -- host declarations that take effect at the next downbeat (R550)
  declareRefused : Bool := false
  badDowns : Tab Nat := []                 -- port -> consecutive downbeats DOWN or OUT_OF_STEP (R322)
  lateParts : Tab LateEntry := []
  lateMembers : Tab LateEntry := []        -- measured = TIMES_LAGGARD
  lateWindow : List (Nat × Nat) := []      -- the last 256 (laggard, lateness), newest first
  lateSel : Tab (Bool × Nat) := []         -- per CE: CE_LATE_SEL KIND and INDEX
  lateLatch : Tab DWord := []              -- per CE: DATA1 latched by a read of DATA0 (R549)
deriving DecidableEq, Repr

/-! ### Grafting and units (chapter 12) -/

/-- Table GRF-7: unit states. -/
inductive UnitState where
  | in_ | drain | quiesced | out | returning | probation
deriving DecidableEq, Repr

/-- GRF_STATE.PHASE. -/
inductive GraftPhase where
  | idle | distributing | receiving | ready | failed | prepared | committed
deriving DecidableEq, Repr

/-- GRF_UNIT_STATE of one unit, indexed as FC_TGT indices 0-48. -/
structure UnitReg where
  state : UnitState := .in_
  passed : Bool := false
  partner : Nat := 0
  noPartner : Bool := false
  probCount : Nat := 0
  patternDone : Bool := false      -- a tier-2 port's pattern pass has ended (R346)
  agreed : Bool := true            -- every comparison of the measure agreed
  worked : Bool := false           -- the partner did shadowed work in the measure
deriving DecidableEq, Repr

/-- One entry of the bundle being distributed (Table GRF-4), at the master. -/
structure BundleEntry where
  member : Nat
  prune : Bool
  offset : Nat
  length : Nat
  drainMask : Nat
  promoteMask : Nat
deriving DecidableEq, Repr

/-- The graft controller. -/
structure Graft where
  vector : Nat := 0
  irqEn : Bool := false
  pace : Nat := 64
  paceUsed : Nat := 64             -- PACE as read at SUBMIT
  mboxBusy : Bool := false
  result : Nat := 0
  detail : Nat := 0
  args : Tab DWord := []           -- GRF_MBOX_ARG0-3
  graftId : Nat := 0
  phase : GraftPhase := .idle
  master : Bool := false
  outcome : Nat := 0
  reason : Nat := 0
  tgt : Nat := 0                   -- GRF_STATE.TARGET
  probation : Nat := 256
  probationUsed : Nat := 256       -- in force since the last downbeat (R539)
  units : Tab UnitReg := []
  acked : List Nat := []           -- GRF_ACK_MAP at the master
  -- the master's distribution
  entries : List BundleEntry := [] -- transfers still to be sent, the first in progress
  allEntries : List BundleEntry := []
  bundle : Nat := 0                -- device address of the bundle
  sent : Nat := 0                  -- slots of the first transfer already sent
  sentMeasure : Nat := 0           -- GRAFT slots this master sent in the present measure
  newFp : DWord := 0
  newSeq : Word := 0
  newEpoch : Nat := 0
  baseFp : DWord := 0
  baseSeq : Word := 0
  acks : Tab (Nat × Nat × Nat) := []   -- member -> STATUS, LOAD_ERR, DETAIL
  cancelled : Bool := false
  decided : Bool := false
  -- a member's side
  locked : Bool := false           -- the graft lock (R333)
  masterNo : Nat := 0
  rx : Tab (List Byte) := []       -- received slots of this member's transfer: 128 * SEGMENT + SLOT_IN_SEG -> payload
  rxTail : Tab (Nat × Nat) := []   -- segment -> slots in it, CRC-64 of its LAST slot
  rxFailed : Bool := false         -- a segment failed its CRC
  pruned : Bool := false           -- the transfer carried PRUNE and is complete
  imageDone : Bool := false        -- the image is READY or FAILED, or the PRUNE transfer is complete
  drainMask : Nat := 0
  promoteMask : Nat := 0
  prepare : Option Cue := none     -- the PREPARE held
  ackSent : Bool := false
  relay : List Slot := []          -- the relay buffer, 1,024 slots (R332)
  flooded : List (Nat × Nat) := [] -- (graft id, type) of floods already relayed (R334)
deriving DecidableEq, Repr

/-! ### Matrix engines and core clusters (chapter 13) -/

/-- The armed top-k unit of an ME (R355). A list holds (score, item, member) candidates as 16-byte records. -/
structure TopK where
  q : Nat
  k : Nat
  loff : Nat
  order : Bool                             -- NUMCTL.ORDER
  lists : Tab (List (BitVec 128)) := []    -- per query, in rank order
deriving DecidableEq, Repr

/-- One matrix engine. -/
structure MatrixEngine where
  sram : Tab Byte := []                    -- 16 MiB operand SRAM
  undef : Option Nat := none               -- bytes not written since a block reset are undefined: the draw they come from
  batches : Tab (Nat × Nat) := []          -- QOFF -> Q and DIM of the batch that LOADQ placed there (R263)
  topk : Option TopK := none
  arrayCycles : DWord := 0                 -- ME_ARRAY_CYCLES
deriving DecidableEq, Repr

/-- CL_CORE_STATE. -/
inductive CoreState where
  | reset | idle | busy
deriving DecidableEq, Repr

/-- One cluster core: what the spec gives it beyond the RISC-V standard (Table MXE-6). -/
structure Core where
  state : CoreState := .reset
  asleep : Bool := false
  sleepSince : Nat := 0
  wake : DWord := 0                        -- olswake
  wpend : DWord := 0                       -- olswpend
  pushResult : Nat := 0                    -- olspush, as read
  entry : DWord := 0                       -- olsentry
  arg0 : DWord := 0
  arg1 : DWord := 0
  launchSeq : Nat := 0                     -- olslaunch [15:0]
  launchPending : Bool := false            -- olslaunch [16] and mip bit 16
  irqPending : Bool := false               -- another interrupt that mie enables is pending
  dirty : Mem := []                        -- bytes of device memory written and not cleaned (L1D), with their values
  dirtyAt : List Nat := []                 -- the addresses of those bytes, ascending
  dataUe : Option Nat := none              -- the page of an access fault taken while BUSY (R367)
  pc : DWord := 0x38000000000#64
  machine : Bool := true                   -- M mode
deriving DecidableEq, Repr

/-- The LAUNCH whose cores are BUSY (CL_LAUNCH). -/
structure Launch where
  queue : Nat
  tok : Nat
  mask : Nat
  breach : Bool := false
deriving DecidableEq, Repr

/-- One core cluster. -/
structure Cluster where
  sram : Mem := []                         -- 8 MiB shared SRAM
  imageValid : Bool := false
  strayDone : Nat := 0
  cores : Tab Core := []
  launches : List Launch := []
deriving DecidableEq, Repr

/-! ### The DMA engine (chapter 14) -/

/-- A channel's register set (Table DMA-1). -/
structure DmaSet where
  src : DWord := 0
  dst : DWord := 0
  len : DWord := 0
  aux : DWord := 0
  opctl : DWord := 0
  event : DWord := 0
  thresh : DWord := 0
deriving DecidableEq, Repr

/-- Table DMA-2: channel states. -/
inductive ChState where
  | idle | armed | running | completing | halted
deriving DecidableEq, Repr

/-- One piece of a remote transfer's source: the extent of a COPY, or of one list entry of a GATHER. `bad`: the ERR_CAUSE of
an entry that breaks a rule of Table DMA-4. -/
structure SrcPiece where
  host : Bool := false
  addr : Nat
  len : Nat
  bad : Option Nat := none
  entry : Nat := 0
deriving DecidableEq, Repr

/-- A remote transfer's sending side: its stream (R389, R391). Segments are counted from 0. -/
structure RemoteTx where
  seg0 : Nat                               -- SEG of its first segment
  total : Nat                              -- segments
  bytes : Nat
  optag : Nat
  member : Nat
  pieces : List SrcPiece                   -- the source, kept for resends
  prio : Nat := 0
  startedAt : Nat := 0                     -- order of start
  owner : Option Nat := none               -- the queue that issued it; none for SOFTWARE
  granted : Nat := 0                       -- W'
  released : Nat := 0
  nextSeg : Nat := 0                       -- the segment being sent
  nextSlot : Nat := 0
  buf : List Byte := []                    -- its bytes read so far
  resend : List Nat := []                  -- segments to be sent again, the first in hand
  againSlot : Nat := 0
  againBuf : List Byte := []
  hostWait : Option (Nat × Bool) := none   -- a host read outstanding: its request, and whether it fills `againBuf`
  retried : List Nat := []
  stall : Nat := 0                         -- downbeats without an advance (R395)
  reservedAt : Option Nat := none          -- the beat of the first RESERVE
deriving DecidableEq, Repr

/-- What an outstanding host read of a channel is for. -/
inductive HostUse where
  | a | b | flush
deriving DecidableEq, Repr

/-- One DMA channel. -/
structure Channel where
  software : Bool := false                 -- OWNER
  flagged : Bool := false                  -- WCOMP
  active : DmaSet := {}
  shadow : DmaSet := {}
  state : ChState := .idle
  shadowArmed : Bool := false
  cfgRefused : Bool := false
  lateFail : Bool := false
  setRefused : Nat := 0
  lastStatus : Nat := 0
  entry : Nat := 0                         -- ENTRY
  progress : Nat := 0                      -- BYTES
  entryAt : Nat := 0                       -- the list entry at hand
  entryOff : Nat := 0                      -- bytes of it already moved
  cursor : Nat := 0                        -- bytes of the transfer already handled
  cmd : Option (Nat × Nat) := none         -- the queue and issue of the command that holds the channel
  startedAt : Nat := 0                     -- order of start
  met : Option Bool := none                -- ARMED: the event of its start condition has come, and with success
  done : Option Done := none               -- the transfer's outcome, while COMPLETING
  mismatch : Nat := 0                      -- COMPARE: mismatching bytes so far
  firstMis : Option Nat := none
  breach : Bool := false                   -- touched a lease in breach
  scrambled : Bool := false                -- source and destination overlap (R253)
  hostWait : Option (Nat × HostUse) := none    -- a host read outstanding: its request
  hostA : Option (List Byte) := none       -- host bytes delivered and not yet used
  hostB : Option (List Byte) := none
  lastHost : Option Nat := none            -- the last host address written
  flushed : Bool := false                  -- the read that follows posted host writes has completed
  remote : Option RemoteTx := none
  trail : Option RemoteTx := none          -- the open trail of an earlier transfer (R396)
deriving DecidableEq, Repr

/-- A landing window (R387). -/
structure LandWin where
  base : DWord := 0
  limit : DWord := 0
  enable : Bool := false
  window : Nat := 8
  tally : Nat := 0
  inc : Nat := 0
  source : Nat := 0
  anySource : Bool := true
deriving DecidableEq, Repr

/-- A receive stream entry (R392). -/
structure StreamRx where
  source : Nat
  optag : Nat
  total : Nat
  window : Nat                             -- the landing window
  segs : Tab SegIn := []                   -- by SEG
  firstAt : Tab Nat := []                  -- SEG -> the beat in which its first slot landed
  ends : Tab Nat := []                     -- SEG -> bytes of the segment, once its LAST slot has come
  landed : List Nat := []                  -- SEGs that have landed
  asked : List Nat := []                   -- SEGs for which SEGMENT_RETRY was sent
  completeAt : Option Nat := none          -- the beat of completion
deriving DecidableEq, Repr

/-- A page being gathered in the landing buffer (R393): the stream and segment it belongs to and the bytes present. -/
structure LandPage where
  source : Nat
  optag : Nat
  seg : Nat
  port : Nat                               -- the voice port that brought its last slot
  bytes : Tab Byte := []                   -- offset in the page -> byte
deriving DecidableEq, Repr

/-- A write that failed after its transfer had completed (R383), until a FENCE of the queue reports it. -/
structure LateFail where
  queue : Nat
  page : Nat
  remote : Bool                            -- the trail of a remote transfer, which a FENCE of scope REMOTE covers
deriving DecidableEq, Repr

/-- The DMA engine. -/
structure Dma where
  serial : Bool := false                   -- DMA_CTRL.SHARE
  shareRefused : Bool := false
  landCfgRefused : Bool := false
  streamStall : Nat := 4
  channels : Tab Channel := []
  windows : Tab LandWin := []
  streams : List StreamRx := []            -- 256 at most
  landing : Tab LandPage := []             -- by page address; 128 at most
  lastIssued : Nat := 63
  holder : Option Nat := none              -- SERIAL: the channel that keeps the engine
  order : Nat := 0                         -- starts counted
  lateFails : List LateFail := []
deriving DecidableEq, Repr

/-! ### The sync unit (chapters 15 and 21) -/

/-- Table SYN-1 OWNER_KIND with its OWNER. -/
inductive Owner where
  | none | queue (q : Nat) | host | cluster (c : Nat)
deriving DecidableEq, Repr

/-- One tally (R397). -/
structure Tally where
  value : DWord := 0
  remote : Bool := false
  owner : Owner := .none
  abandoned : Bool := false
deriving DecidableEq, Repr

/-- States of a barrier context (R405). -/
inductive BarState where
  | idle | armed | abandoned
deriving DecidableEq, Repr

/-- One barrier context (R405, Table SYN-3). -/
structure Barrier where
  chorus : Bool := false
  part : Nat := 0
  dtree : Nat := 0
  expect : Nat := 1
  owner : Owner := .none
  state : BarState := .idle
  arrivals : Nat := 0
  arrived : List Nat := []     -- queues that have arrived for the current generation
  gen : DWord := 0
  cause : Nat := 0             -- Table SYN-6
deriving DecidableEq, Repr

/-- Table SYN-4 KIND. -/
inductive WakeKind where
  | off | tallyGe | barrier | ring | downbeat | software
deriving DecidableEq, Repr

/-- One wake wire (R412). -/
structure Wake where
  kind : WakeKind := .off
  object : Nat := 0
  step : Nat := 0
  thresh : DWord := 0
deriving DecidableEq, Repr

/-- The sync unit. -/
structure Sync where
  tallies : Tab Tally := []
  barriers : Tab Barrier := []
  wakes : Tab Wake := []
  wakeAbandoned : DWord := 0
  cfgRefused : Bool := false
  txSeq : Tab Nat := []          -- next REMOTE_SIGNAL number to each destination (R400)
  rxSeq : Tab Nat := []          -- next expected number from each source (R402)
  cueTx : Tab Nat := []          -- next number of other cue messages to each destination
  cueRx : Tab Nat := []          -- next expected number of other cue messages from each source (CUE_ORDER)
  rebarSeen : List Nat := []     -- pairs whose REBAR of this phrase has arrived (R417)
  dlMask : List Nat := []        -- SYN_DL_MASK, the queues watched, ascending
  dlWindow : Nat := 64
  dlBreak : Bool := false
  dlCount : Nat := 0             -- consecutive blocked beats
  dlDisarmed : Bool := false     -- reported and not unblocked since (R427)
  dlReport : List Nat := []
  dlWaitObj : Tab Nat := []
deriving DecidableEq, Repr

/-! ### Fault collection (chapter 16) -/

/-- A unit as the fault log names it (R434, Table FLT-3; kinds 0–5 as in Table GRF-1). -/
inductive UnitId where
  | vp (n : Nat) | me (n : Nat) | cl (n : Nat) | ce (n : Nat) | cxl (n : Nat) | member
  | queue (n : Nat) | chan (n : Nat) | sync | host | stack (n : Nat) | espalier | mgmt | engine
deriving DecidableEq, Repr

/-- R437: the recovery state of a target. -/
inductive TgtState where
  | serving | contained | held
deriving DecidableEq, Repr

/-- R428: the class of an event. -/
inductive FClass where
  | c | u | f
deriving DecidableEq, Repr

/-- One FC_TGT register (R437) and whether a class-U event has named the target since the last downbeat (R439). -/
structure Target where
  state : TgtState := .serving
  recoveries : Nat := 0      -- RECOVERY_COUNT, 0-255
  quiet : Nat := 0           -- QUIET_COUNT
  lastDetector : Nat := 0
  named : Bool := false
deriving DecidableEq, Repr

/-- One fault-log entry (R434, Table FLT-3). -/
structure LogEntry where
  stamp : Stamp
  cycle : Nat
  detector : Nat
  cls : FClass
  conseq : Bool
  injected : Bool
  unit : UnitId
  rcount : Nat
  tstate : TgtState
  detail : DWord
  seq : Word
deriving DecidableEq, Repr

/-- R449: the last-gasp record the management controller holds in standby SRAM (Table FLT-8). -/
structure LastGasp where
  stamp : Stamp
  detector : Nat
  safe : Bool
  powerLoss : Bool
  later : Bool
  unit : UnitId
  seq : Word
  tj : BitVec 16
  power : BitVec 16
  tactState : Nat
  grpCounts : List Word
  ring : List LogEntry
deriving DecidableEq, Repr

/-- A unit's block resets (R441, R442, R444): when they were asserted, whether one is asserted now, and its shadow. -/
structure ResetState where
  asserted : List Nat := []        -- beats at which a reset was asserted, newest first
  inReset : Option Nat := none     -- the beat at which the reset now asserted began
  shadow : Option Nat := none      -- an open shadow: downbeats still to pass after the release
deriving DecidableEq, Repr

/-- The fault collector (chapters 16 and 21). -/
structure Collector where
  vecC : Nat := 0
  vecU : Nat := 0
  irqEn : Bool := false
  clearRefused : Bool := false
  irqStatus : BitVec 6 := 0        -- FC_IRQ_STATUS
  cthresh : Word := 0              -- FC_CTHRESH_STATUS
  quietMeasures : Nat := 1024
  recoveryLimit : Nat := 8
  resetShadow : Nat := 4
  grpThresh : Tab Word := []       -- FC_GRP_THRESH
  wptr : Word := 0
  rptr : Word := 0
  log : Tab LogEntry := []         -- 512 places, SEQ mod 512
  mirror : Tab LogEntry := []      -- 8,192 places in the tier-1 system area
  mirrorSel : Word := 0
  mirrorDone : Bool := false
  mirrorData : Option LogEntry := none
  logged : List (Nat × UnitId) := []   -- class-C (detector, unit) logged in this measure (R435)
  targets : Tab Target := []       -- FC_TGT
  resets : Tab ResetState := []    -- by target index 0-47
  safe : Bool := false             -- the engine is in the safe state
  standby : List LogEntry := []    -- the standby ring, newest first, 64 at most
  lastGasp : Option LastGasp := none
deriving DecidableEq, Repr

/-! ### Power-up, reset, stored configuration and joining (chapter 17) -/

/-- A flash copy slot: its header fields (Table PWR-3) and body. `sigOk` stands for the outcome of the P-384 and
SHA-384 checks of R462 on these very bytes, which the model does not compute. -/
structure FlashCopy where
  magic : Word
  object : Nat
  keySlot : Nat
  format : Nat
  sequence : Word
  bodyLen : Nat
  bodyCrc : Word
  version : Nat
  hdrCrcOk : Bool
  commit : Byte
  sigOk : Bool
  body : Mem
deriving DecidableEq, Repr

/-- A flash write in progress (R465): the object, the copy being written and the step of Table PWR-4. -/
structure FlashWrite where
  object : Nat
  copyB : Bool
  step : Nat
  image : FlashCopy
  failAt : Option Nat              -- the step whose read-back will not match
  mailbox : Bool                   -- FLASH_WRITE; otherwise a PLDM update
deriving DecidableEq, Repr

/-- A join-table entry of the convener (R471, Table REG-10). -/
structure JoinEntry where
  eui : DWord
  fingerprint : DWord
  sequence : Word
  matches_ : Bool
  refused : Bool
  epoch : Nat
  unheard : Nat                    -- measures since the request was last heard
  stamp : Stamp
deriving DecidableEq, Repr

/-- Start-up, fuses, flash, pins and roll-call state. -/
structure Sys where
  phase : Nat := 0                 -- OLS_STATUS.PHASE
  recovery : Bool := false
  run : Bool := false
  blockRefused : Bool := false
  cfgSkipped : Nat := 0
  ctrlUnit : Nat := 0              -- OLS_CTRL.UNIT
  serial : DWord := 0              -- OLS_SERIAL, from the fuses
  keyRevoked : BitVec 4 := 0
  rollback : Nat := 0              -- the fused anti-rollback count
  signAll : Bool := false
  unitsOk : Bool := true           -- the fuse map yields every logical unit (R11)
  flash : Tab FlashCopy := []      -- 2 * object + copy
  flashWrite : Option FlashWrite := none
  fwVersion : Nat := 0             -- VERSION of the running firmware
  readyAt : Stamp := 0             -- the beat at which the engine became ready (JOIN REQUEST STAMP)
  join : Tab JoinEntry := []
  joinRelayed : List Nat := []     -- source members whose REQUEST was relayed in this measure (R470)
  admitted : Bool := false         -- this convener has flooded ADMIT in this fresh start (R472)
  admits : List (Nat × Nat) := []  -- graft-admitted members and target, repeated at each downbeat (R475)
  admitSeen : Option Nat := none   -- target phrase of the last ADMIT flood sent or relayed
  lastHere : Tab Cue := []         -- per port: the last HERE or HOLD received
  pwrgd : Bool := true
  vstby : Bool := true
  safeN : Bool := false            -- pin SAFE_N (true = high, not asserted); asserted until start-up step 1 ends
  thermTripN : Bool := true
  perstN : Bool := true
  selfRefresh : Bool := false      -- the tier-1 stacks are in self-refresh
deriving DecidableEq, Repr

/-! ### Host interface and management (chapter 18) -/

/-- An outstanding engine read of host memory (R490). -/
structure HostRead where
  id : Nat
  addr : Nat
  len : Nat
  chan : Option Nat := none            -- a DMA channel
  cmd : Option (Nat × Nat) := none     -- a command: a collective's operand, or a flush read
  flush : Bool := false                -- the zero-length read after posted writes (R488)
  since : Nat := 0                     -- the beat of its issue
deriving DecidableEq, Repr

/-- An MSI-X table entry. -/
structure MsixEntry where
  addr : DWord := 0
  data : Word := 0
  masked : Bool := true
deriving DecidableEq, Repr

/-- The host port. -/
structure HostPort where
  bar2Base : DWord := 0
  bar2Size : Nat := 0x400000000        -- 16 GiB (Table HST-1)
  linkUp : Bool := false
  rate : Nat := 0
  width : Nat := 0
  flit : Bool := false
  bme : Bool := false
  d3hot : Bool := false
  cplTimeout : Nat := 0                -- Device Control 2 value; 0 is 50 us to 50 ms, the 50 ms default (R491)
  ptmMaster : DWord := 0
  ptmBeat : DWord := 0
  ptmSeq : Word := 0
  msixEnable : Bool := false
  funcMask : Bool := false
  vectors : Tab MsixEntry := []
  pba : List Nat := []                 -- pending vectors, ascending
  sent : Tab Nat := []                 -- vector -> messages sent
  reads : List HostRead := []
  nextRead : Nat := 0
  written : Mem := []                  -- bytes the engine has posted to host memory, by bus address
  barReply : Option (Option Nat) := none   -- the last BAR read: some none = completer abort, none = no read yet
  barPoison : Bool := false            -- that completion was poisoned
  latch : Option (Nat × Nat) := none   -- a split read: the address of the upper half and its latched value (R7)
  lowHalf : Option (Nat × Nat) := none -- a split write: the address and value of the lower half (R7)
deriving DecidableEq, Repr

/-- The management controller, its mailbox, and the TAP. -/
structure Mgmt where
  busy : Bool := false
  result : Nat := 0
  detail : Nat := 0
  args : Tab DWord := []
  vector : Nat := 0
  irqEn : Bool := false
  buffer : Mem := []                   -- the 4 KiB buffer
  mctpReply : List Byte := []          -- the last response sent over MCTP
  eid : Nat := 0
  eventReceiver : Nat := 0             -- set by SetEventReceiver
  nonce : Option (BitVec 256) := none  -- the nonce last issued and not used
  failedTokens : Nat := 0
  jtag : Nat := 0                      -- 0 locked, 1 BOUNDARY, 2 DEBUG
  updating : Bool := false             -- a flash write or PLDM update is in progress
  sensors : Tab Nat := []              -- by sensor ID, as last refreshed
  eventsC : Nat := 0                   -- class C, U and F events since cold reset (sensors 30-32)
  eventsU : Nat := 0
  eventsF : Nat := 0
  spdm : List Byte := []               -- the last SPDM response
  deviceKey : Nat := 0                 -- which derivation of the device key is in force: counts cold resets
  ir : Nat := 0xFF                     -- TAP instruction register
  dr : BitVec 128 := 0                 -- the data register of the instruction in force, as the next Capture-DR loads it
  pinsTaken : Bool := false            -- a boundary instruction has taken the scanned pins
  restarts : Nat := 0                  -- restarts of the controller
  reports : List Nat := []             -- detectors reported over MCTP, newest first
deriving DecidableEq, Repr

/-! ### Power and temperature (chapters 19 and 22) -/

/-- The power governor and the sensors it reads. -/
structure Power where
  cap : Nat := 690                     -- OLS_PWR_CAP
  meDuty : Nat := 16
  clDuty : Nat := 16
  power : BitVec 16 := 0               -- mean of the last measure, 0.125 W
  tj : BitVec 16 := 0                  -- hottest of the last measure, 0.125 C
  sum : Nat := 0                       -- samples of the measure under way
  samples : Nat := 0
  hottest : Int := -32768              -- hottest reading of the measure under way
  last : Nat := 0                      -- the last sample, 0.125 W
  clamp : Option (Nat × Nat) := none   -- duties before a clamp of this measure (R520)
  tjHold : Bool := false               -- duties held at 1 until Tj falls below 100 C (R522)
  coolRun : Nat := 0                   -- consecutive cool downbeats (R521)
  failed : List Nat := []              -- failed sensors, taken as 105 C: 0-63 on the die, 64-71 in stacks 0-7
deriving DecidableEq, Repr

end Sys2Proof.Machine
end

