-- ==== Sys2Proof/Syntax.lean ====
section
/-!
DEFINITION. The commands of the block: one constructor per row of the operation table, in the table's order. The table
gives its rows no operand fields; each constructor's operands are what the rule of its row needs from outside: which
port, queue or object, what a register write carries, what arrived, and what the analogue hardware measured.
-/
namespace Sys2Proof
open Sys2Proof.Machine

/-- The operations and events of the OL-4200 (opcode_table.json). -/
inductive Instr where
  -- Tactus
  | referenceLoss (lanes : Bool)                  -- R21; `lanes`: the upstream lanes, not TACT_REF
  | downbeatPulse (offset : Int) (phase : Int)    -- R22; beats from the counted beat 0, and 50 ps units
  | dbDisplaced
  | downbeatMissing
  | timecodeFrame (f : Timecode)                  -- R24
  | downbeat
  | holdoverLimit
  | tactCtrlWrite (epoch : Bool) (v : DWord)      -- R529; a write to TACT_EPOCH, or to TACT_CTRL
  -- voice ports
  | tailSlotTx (p : Nat) (frac : Nat)             -- R68; the fraction of a beat of TX_TIME
  | tailSlotRx (p : Nat) (code : Option (Nat × List Byte)) (arrival : DWord) (phase : Int)  -- R69; none: uncorrectable
  | slotRx (p : Nat) (code : Option (Nat × List Byte)) (corr : List Nat) (phase : Int)      -- R74; beat word, slot bytes
  | outOfStep (p : Nat)
  | portDownbeat (p : Nat)
  | trainingDone (p : Nat)
  | portAlign (p : Nat) (spacing : List Nat) (skew : Nat) (phase : Int)   -- R78; codewords between markers, skew in ps
  | framingTimeout (p : Nat)
  | portDown (p : Nat) (signal : Bool)            -- R79; loss of signal, or uncorrectable codewords
  | portRetrain (p : Nat)
  | slotTx (p : Nat)
  | slotRelease (p : Nat)
  | cueMessage (p : Nat)
  | rollCall (p : Nat) (c : Cue)
  | here (p : Nat) (c : Cue)
  | hold (p : Nat) (c : Cue)
  -- score
  | bankWrite (bank off len : Nat) (v : DWord)
  | scoreLoad
  | scoreDiscard
  | loadCheckDone
  | scrTargetWrite (v : DWord)
  | scoreSwitch
  | rootstockRelease
  -- espalier
  | flitHop (r : Nat) (input : Link) (inject : Option Flit) (cycle : Nat) (err : FlitError)
  | flitDeliver (r : Nat) (l : Link) (err : FlitError)
  -- memory
  | memoryRead (who : Requester) (addr len : Nat)
  | memoryWrite (who : Requester) (addr : Nat) (data : List Byte)
  | pageLockGrant (k : Nat)
  | pageService (k : Nat)
  | pageDecode (k : Nat)
  | rmwWriteDone (k : Nat)
  | scrubRead (k : Nat)
  | recodeStart (v : Word)
  | recodePage
  | leaseAccount
  | leaseBreach (k : Nat)
  | leaseBreachEnd (k : Nat)
  | regionAttrWrite (n : Nat) (v : Word)
  | regionBoundWrite (n : Nat) (limit : Bool) (v : DWord)
  | poisonQuery (v : DWord)
  | injectArm (v : DWord)
  | cxlLinkLost (j : Nat)
  -- queues
  | doorbell (q : Nat) (v : Word)
  | commandFetch (q : Nat)
  | commandComplete (q : Nat) (idx : Word)
  | qCtrlEnable (q : Nat) (v : Word)
  | qCtrlDisable (q : Nat) (v : Word)
  | qCtrlSuspend (q : Nat) (v : Word)
  | qCtrlResume (q : Nat) (v : Word)
  | qCtrlReset (q : Nat) (v : Word)
  | qFetchWrite (q : Nat) (v : Word)
  | qWatchdogWrite (q : Nat) (v : Word)
  | crCtrlEnable (r : Nat)
  | crCtrlDisable (r : Nat)
  | crHeadWrite (r : Nat) (v : Word)
  | crIrqDelay (r : Nat)
  -- Mamus: the command at the head of queue q
  | nop (q : Nat)
  | jump (q : Nat)
  | loop (q : Nat)
  | call (q : Nat)
  | ret (q : Nat)
  | halt (q : Nat)
  | sets (q : Nat)
  | adds (q : Nat)
  | brs (q : Nat)
  | atBeat (q : Nat)
  | atDownbeat (q : Nat)
  | wait (q : Nat)
  | waitTimeout (q : Nat)
  | signal (q : Nat)
  | remoteSignal (q : Nat)
  | arrive (q : Nat)
  | arriveWait (q : Nat)
  | arriveWaitTimeout (q : Nat)
  | fence (q : Nat)
  | fenceComplete (q : Nat)
  | copy (q : Nat)
  | fill (q : Nat)
  | compare (q : Nat)
  | gather (q : Nat)
  | scatter (q : Nat)
  | bcast (q : Nat)
  | reduce (q : Nat)
  | harvest (q : Nat)
  | dbcast (q : Nat)
  | dreduce (q : Nat)
  | counts (q : Nat)
  | loadq (q : Nat)
  | score (q : Nat)
  | topk (q : Nat)
  | quant (q : Nat)
  | dequant (q : Nat)
  | launch (q : Nat)
  | launchTimeout (q : Nat) (idx : Word)
  | record (q : Nat)
  | mark (q : Nat)
  -- collectives
  | windowReserve (p : Nat) (c : Cue)
  | windowConfirm (p : Nat) (c : Cue)
  | windowRelease (p : Nat) (c : Cue)
  | segmentRetry (p : Nat) (c : Cue)
  | combine (part optag seg : Nat) (adderFault : Bool)
  | segmentIncomplete (part optag input seg : Nat)
  | retryGiveUp (part optag input seg : Nat)
  | pitchInject (part optag : Nat)
  | rootStagingRelease (part optag : Nat)
  | lateDiscard (dtree optag : Nat)
  | neighbourLost (x : Nat)
  | memberLost (p : Nat) (c : Cue)
  | ceLostDeclare (v : Word)
  -- grafting and units
  | submit
  | cancel
  | drain
  | out
  | returnUnit
  | unitQuiesced (i : Nat)
  | returnDone (i : Nat) (pass : Bool)
  | shadowCompare (i : Nat) (agree : Bool)
  | probationPass (i : Nat)
  | graftSlotRx (p : Nat) (s : Slot)
  | prepare (p : Nat) (c : Cue)
  | ack (p : Nat) (c : Cue)
  | ackDeadline
  | graftDecide
  | commit (p : Nat) (c : Cue)
  | abort (p : Nat) (c : Cue)
  | noDecision
  -- cluster cores
  | wfi (cl core : Nat)
  | coreWake (cl core : Nat)
  | olspush (cl core : Nat) (v : DWord)
  | olsdone (cl core : Nat)
  | olswpendClear (cl core : Nat) (mask : DWord)
  -- DMA
  | dmaGo (ch : Nat)
  | dmaArm (ch : Nat)
  | dmaDisarm (ch : Nat)
  | dmaAbort (ch : Nat)
  | dmaClear (ch : Nat)
  | dmaChCfgWrite (ch : Nat) (v : Word)
  | dmaStart (ch : Nat)
  | dmaBurst
  | dmaComplete (ch : Nat)
  | streamLanding (p : Nat)
  | landingSegmentDone (source optag seg : Nat)
  | streamStall (ch : Nat)
  | streamEntryExpiry (source optag : Nat)
  | dmaShareWrite (v : Word)
  | dmaLandCtrlWrite (w : Nat) (v : DWord)
  -- sync unit
  | tallySet (t : Nat) (v : DWord)
  | tallyCfgWrite (t : Nat) (v : Word)
  | tallyRearm (t : Nat) (v : Word)
  | barrierArm (b : Nat)
  | barrierDisarm (b : Nat)
  | barrierRearm (b : Nat)
  | wakeSrcWrite (w : Nat) (v : DWord)
  | wakeThreshWrite (w : Nat) (v : DWord)
  | wakeFire (v : DWord)
  | remoteSignalMsg (c : Cue)
  | rebar (c : Cue)
  | watchdog (q : Nat)
  | deadlock
  | dlCfgWrite (mask : Option Nat) (v : Word)     -- SYN_DL_MASK[i], or SYN_DL_CFG
  -- fault collector
  | blockResetRelease (i : Nat)
  | shadowClose (i : Nat)
  | recovered (t : Nat)
  | fcTgtClear (t : Nat)
  | fcInject (v : DWord)
  | safeRequest (v : Word)
  | mirrorSelect (v : Word)
  | lockstep (parity : Bool)
  -- resets and joining
  | coldReset (b : Boot)
  | release
  | warmReset (b : Boot)
  | flr
  | pwrgdLost
  | joinRequest (p : Nat) (c : Cue)
  | joinGo
  | joinAdmit (p : Nat) (c : Cue)
  | joinRefuse (p : Nat) (c : Cue)
  | joinEntryExpiry (m : Nat)
  -- host port
  | bar2Read (off len : Nat)
  | bar2Write (off : Nat) (data : List Byte) (poisoned : Bool)
  | ptmDialog (time : DWord)
  | hostReadCompletion (id : Nat) (r : HostCpl)
  | cplTimeout (id : Nat)
  | hostLinkDown
  | hostRefclkLoss
  | msixTableWrite (off : Nat) (v : Word)
  | configSpaceWrite (w : CfgWrite)
  -- management
  | getInfo (r : MReq)
  | readLastgasp (r : MReq)
  | clearLastgasp (r : MReq)
  | readSensors (r : MReq)
  | flashWrite (r : MReq) (sigOk : Bool) (failAt : Option Nat)  -- the step whose read-back fails
  | jtagNonce (r : MReq) (nonce : BitVec 256)
  | jtagUnlock (r : MReq) (keyOk sigOk : Bool)
  | advanceRollback (r : MReq)
  | revokeKey (r : MReq) (keyOk sigOk : Bool)
  | pldmFirmwareUpdate (object : Nat) (image : List Byte) (sigOk : Bool) (failAt : Option Nat)
  | spdmRequest (code : Nat) (body : List Byte)
  | pldmSensorRefresh (readings : List (Nat × Nat))
  | mcWatchdog
  | svcAccess (dr : BitVec 128)
  -- CXL, clocks, power
  | cxlRetrain (j : Nat)
  | cxlRetrainTimeout (j : Nat)
  | cxlViral (j : Nat)
  | serdesPllUnlock (p : Nat)
  | corePllUnlock
  | crossingErr
  | powerSample (eighthWatts : Nat)
  | tjMax (eighthDegrees : Int)
  | thermTrip
  | sensorFail (id : Nat)
  | railWarn (rail : Nat)
  | railFault (rail : Nat)
  -- registers
  | olsBlockReset (v : Word)
  | vpHoldDown (p : Nat) (v : Word)
  | ceLateRead (c : Nat) (data1 : Bool)
  | rcRead (off : Nat) (wide : Bool)
  | registerWrite (off : Nat) (wide : Bool) (v : DWord)
  -- further events
  | vstbyUp
  | vstbyLoss
  | hostLinkUp (rate width : Nat) (flit : Bool)
  | cxlRetrainDone (j : Nat)
  | expanderFillDone (j : Nat) (ok : Bool)
  | hotRefresh (k : Nat) (enter : Bool)
  | phyRetrain (slice : Nat) (ok : Bool)
  | thermTripRelease (eighthDegrees : Int)
  | coreReinitialised (cl core : Nat)
  | mctpControl (code : Nat) (v : Nat)
  | pldmPlatformRequest (code : Nat) (arg : Nat)
  | tapInstruction (ir : Nat)
deriving DecidableEq, Repr

end Sys2Proof
end

