-- ==== Sys2Proof/Decode.lean ====
section
/-!
DEFINITION. The command that a word spells by the operation table. The table of the OL-4200 gives its rows no bits, so no
word spells a command.
-/
namespace Sys2Proof

/-- No row of the operation table gives bits: no word spells a command. -/
def decodeTableWord (_nbits _w : Nat) : Option Instr := none

end Sys2Proof
end

