-- ==== Sys2Proof/Config.lean ====
section
/-!
DEFINITION. The free values of the model: results that the manual calls undefined or does not state, after which the
engine goes on. Each is a constant without a body, applied to the step's value of `State.fresh`; nothing can be proved of
what it answers, so a claim that mentions one holds for every value.
-/
namespace Sys2Proof.Config

/-- Byte `i` of the destinations of a data command cancelled by a queue reset (R227). -/
opaque cancelledByte : Nat → Nat → Byte
/-- Byte `i` of the destination of a data command whose source and destination overlap (R253). -/
opaque overlapByte : Nat → Nat → Byte
/-- Byte `i` of the outputs of a collective on which its members disagree (R255). -/
opaque disagreeByte : Nat → Nat → Byte
/-- A score that a SCORE computes from a `Q` or `DIM` other than its LOADQ's (R263). -/
opaque wrongScore : Nat → Nat → BitVec 32
/-- Byte `i` of the payload of a poisoned segment (R314). -/
opaque poisonedByte : Nat → Nat → Byte
/-- Byte `i` of the data of a poisoned BAR2 completion (Table MEM-7). -/
opaque poisonedData : Nat → Nat → Byte
/-- Byte `i` of a matrix engine's SRAM after a block reset, a warm reset or its return (R350, R441). -/
opaque sramByte : Nat → Nat → Byte

/-- NUMCTL under which a member that has no command of its own folds a descant operation (R197 gives it no NUMCTL). -/
opaque relayNumctl : Nat → Nat
/-- The order in which a NATIVE reduction combines its contributions (R182): the place among those left of the one taken at a
given step. -/
opaque nativeOrder : Nat → Nat → Nat

/-- TACT_FREQ.OFFSET as the frequency monitor measured it over a measure (R21): a measurement, not a rule. -/
opaque refOffset : Nat → BitVec 16

/-- The beat at which the management firmware expects the engine to be ready (R468); the estimate binds nothing. -/
opaque readyEstimate : Nat → BitVec 56

/-- The channel, pseudo-channel, stack ID, bank and row (bits 3–36 of Table MEM-8) that hold a page: the manual does not give
the map from a slice offset to the HBM4 geometry (R152). -/
opaque rowOf : Nat → BitVec 34

/-- The nonce that the management controller issues (R505): the manual does not say how it is drawn. -/
opaque nonce : Nat → BitVec 256
/-- Whether a signature or a key hash verifies, where no command carries the outcome (R462, R505): the model computes neither. -/
opaque verifies : Nat → Bool
/-- Byte `i` of a digest, certificate or signature in an SPDM response (R506). -/
opaque digestByte : Nat → Nat → Byte
/-- Yorath's JEDEC manufacturer code in IDCODE (R507), which the manual does not give. -/
opaque jedec : Nat → BitVec 11

/-- Byte `i` of the PRBS-31 payload that a voice port in probation sends (Table GRF-9): the manual gives no seed. -/
opaque prbsByte : Nat → Nat → Byte

end Sys2Proof.Config
end

