-- ==== Sys2Proof/Machine/Addr.lean ====
section
/-!
DEFINITION. BAR0 addresses of the RC counters that commands count in (R525 and the register tables).
-/
namespace Sys2Proof.Machine.Cnt

-- Table REG-6
def tcBad : Nat := 0x010040
def dbSlip : Nat := 0x010044
def holdover : Nat := 0x010048
def stepOut : Nat := 0x01004C
/-- A counter of voice port `p` (Table REG-8). -/
def vp (p off : Nat) : Nat := 0x020000 + 0x1000 * p + off
def edge : Nat := 0x040
def slotLost : Nat := 0x044
def slewLimit : Nat := 0x048
def outOfStep : Nat := 0x04C
def echoMiss : Nat := 0x050
def fecCorr (l : Nat) : Nat := 0x080 + 4 * l
def phase : Nat := 0x090
def payloadCrc : Nat := 0x094
def badClass : Nat := 0x098
def epochForeign : Nat := 0x09C
def badCue : Nat := 0x0A0
def ingressOvf : Nat := 0x0A4
def tailLost : Nat := 0x0A8
def fecUncorr : Nat := 0x0AC
def cueRelayOvf : Nat := 0x0B0
def hdrCrc : Nat := 0x0B4
def stamp : Nat := 0x0B8
def fwdNoSlot : Nat := 0x0BC
-- Table REG-11
def espDrop : Nat := 0x300010
def espMisroute : Nat := 0x300014
def espEccCorr : Nat := 0x300018
def espPoison : Nat := 0x30001C
def espLate : Nat := 0x300020
def espEdgeOver : Nat := 0x300024
/-- ESP_EDGE[r]: LATE in [15:0], EDGE_OVER in [31:16]. -/
def espEdge (r : Nat) : Nat := 0x300100 + 4 * r
-- Tables REG-12 and REG-14
def unbacked : Nat := 0x340034
def memErr (k off : Nat) : Nat := 0x340400 + 0x40 * k + off
def corrPages : Nat := 0x00
def corrSymbols : Nat := 0x04
def wbSkip : Nat := 0x08
def poisonReads : Nat := 0x0C
def narrowWrite : Nat := 0x10
def scrubLate : Nat := 0x14
def leaseBreach : Nat := 0x18
def repairBad : Nat := 0x1C
def repairNoroom : Nat := 0x20
def inject : Nat := 0x24
def lockWait : Nat := 0x28
/-- CR_FULL_STALL of ring `r` (Table RGE-5). -/
def fullStall (r : Nat) : Nat := 0x440024 + 0x40 * r
/-- Counter `i` of CE `c` (Table RGE-6): CHK_RETRY_OK, CHK_RESIDUE, CHK_GIVE_UP, CHK_POISON_IN, LATE_DISCARD,
WINDOW_EARLY_DROP, WIDE_FALLBACK, SEGMENT_RETRY_RX, LATE. -/
def ce (c i : Nat) : Nat := 0x480040 + 0x4000 * c + 4 * i
/-- Member-wide counter `i` (Table RGE-7), kept at its address in CE0: DESCANT_OVF, LOST_STILL_LISTED, MEMBER_LOST_RX. -/
def ceMw (i : Nat) : Nat := 0x480140 + 4 * i
/-- Counters of ME `m` (Table RGE-9). -/
def me (m off : Nat) : Nat := 0x500000 + 0x1000 * m + off
def topkStall : Nat := 0x040
def streamWait : Nat := 0x044
def dutyWait : Nat := 0x048
def meSramCorr : Nat := 0x04C
/-- Counter `i` of cluster `c` (Table RGE-10): CL_KILL, SRAM_CORR, L1_PARITY, WAKE_PARITY, then CL_SLEEP[0]–[7]. -/
def cl (c i : Nat) : Nat := 0x540040 + 0x2000 * c + 4 * i
/-- Counter `i` of the DMA engine (Table RGE-11): DMA_LATE_START, LAND_REFUSED, STREAM_STRAY, LAND_OUTSIDE, LATE_FAIL,
TRAIL_STALL. -/
def dma (i : Nat) : Nat := 0x580040 + 4 * i
/-- Counter `i` of the sync unit (Table RGE-15): REMOTE_EPOCH, REMOTE_REFUSED, REMOTE_ABANDONED, REMOTE_GAP,
REMOTE_TO_LOST, DRIFT, REBAR_MISS, REBAR_STRAY, SIG_DROPPED, WATCHDOG, DEADLOCK. -/
def syn (i : Nat) : Nat := 0x5CE040 + 4 * i
/-- FC_GRP_CCNT[g] and FC_DET_CNT[d] (Table RGE-16). -/
def grp (g : Nat) : Nat := 0x600100 + 4 * g
def det (d : Nat) : Nat := 0x600400 + 4 * d
/-- Counter `i` of the graft block (Table REG-19): MBOX_IGNORED, GRF_RELAY_OVF, GRF_BUSY_DROP, GRF_PROMOTE_SKIP,
NO_DECISION, PRUNED. -/
def grf (i : Nat) : Nat := 0x640050 + 4 * i
/-- HOST_ERR_CNT counter `i` (Table REG-17): PCIE_CORR, PCIE_UNCORR, POISONED_TLP, CPL_TIMEOUT, LINK_DOWN, MSI_BLOCKED. -/
def host (i : Nat) : Nat := 0x680040 + 4 * i

end Sys2Proof.Machine.Cnt
end

