-- ==== Sys2Proof/Machine/Codec.lean ====
section
/-!
DEFINITION. The wire formats: the CRCs (R23, R60, R62), the scrambler (R58), and the layouts of the slot (Tables VOX-2 to
VOX-7), the tail slot (Table VOX-8), the cue message (Table VOX-9) and the timecode frame (Table TAC-3).
-/
namespace Sys2Proof.Machine

/-! ### CRCs -/

/-- One reflected step of CRC-32C. -/
def crc32Bit (r : BitVec 32) : BitVec 32 := if r.getLsbD 0 then (r >>> 1) ^^^ 0x82F63B78#32 else r >>> 1

/-- One byte taken into a CRC-32C register. -/
def crc32Byte (r : BitVec 32) (b : Byte) : BitVec 32 :=
  crc32Bit (crc32Bit (crc32Bit (crc32Bit (crc32Bit (crc32Bit (crc32Bit (crc32Bit (r ^^^ b.setWidth 32))))))))

/-- R60: CRC-32C. -/
def crc32c (bs : List Byte) : BitVec 32 := (bs.foldl crc32Byte 0xFFFFFFFF#32) ^^^ 0xFFFFFFFF#32

/-- One step of the CRC-64 of R62. -/
def crc64Bit (r : BitVec 64) : BitVec 64 := if r.getLsbD 63 then (r <<< 1) ^^^ 0x42F0E1EBA9EA3693#64 else r <<< 1

/-- One byte taken into a CRC-64 register. -/
def crc64Byte (r : BitVec 64) (b : Byte) : BitVec 64 :=
  crc64Bit (crc64Bit (crc64Bit (crc64Bit (crc64Bit (crc64Bit (crc64Bit (crc64Bit (r ^^^ (b.setWidth 64 <<< 56)))))))))

/-- R62: CRC-64 (ECMA-182). -/
def crc64 (bs : List Byte) : BitVec 64 := bs.foldl crc64Byte 0#64

/-- R23: one bit taken into the timecode's CRC-16. -/
def crc16Bit (r : BitVec 16) (b : Bool) : BitVec 16 :=
  if b != r.getLsbD 15 then (r <<< 1) ^^^ 0x1021#16 else r <<< 1

/-- The `n` low bits of a field, least significant first. -/
def bitsOf (v : Nat) : Nat → List Bool
  | 0 => []
  | n + 1 => (v % 2 == 1) :: bitsOf (v / 2) n

/-- R23: the CRC-16 of frame bits 16–159. -/
def Timecode.crcOf (f : Timecode) : BitVec 16 :=
  (bitsOf f.typ 8 ++ bitsOf f.flags 8 ++ bitsOf f.stamp.toNat 56 ++ bitsOf f.phrase 40 ++ bitsOf f.reserved 32).foldl
    crc16Bit 0xFFFF#16

/-- R24: the frame is accepted. -/
def Timecode.accepted (f : Timecode) : Bool :=
  f.crc == f.crcOf && f.typ == 1 && f.stamp.toNat % 4096 == 0 && f.phrase == f.stamp.toNat / 2 ^ 18

/-! ### The slot -/

/-- Class codes of Table VOX-7. -/
def SlotClass.code : SlotClass → Nat
  | .rest => 0 | .cue => 1 | .choirHi => 2 | .choirLo => 3 | .stream => 4 | .graft => 5 | .openSlot => 6 | .bad => 15

/-- The class a code names. -/
def SlotClass.ofCode (n : Nat) : SlotClass :=
  match n with
  | 0 => .rest | 1 => .cue | 2 => .choirHi | 3 => .choirLo | 4 => .stream | 5 => .graft | 6 => .openSlot | _ => .bad

/-- A list of bytes filled with zeros to `n`. -/
def padTo (n : Nat) (bs : List Byte) : List Byte := bs.take n ++ List.replicate (n - bs.length) 0

/-- Table VOX-3 as one 64-bit field. -/
def Slot.control (s : Slot) : Nat :=
  s.cls.code + s.typ * 2 ^ 4 + b2n s.oos * 2 ^ 8 + b2n s.fallen * 2 ^ 9 + b2n s.retry * 2 ^ 10 + b2n s.shadow * 2 ^ 11
    + s.part * 2 ^ 12 + s.optag * 2 ^ 20 + s.segment * 2 ^ 32 + s.slotInSeg * 2 ^ 48 + b2n s.last * 2 ^ 55 + s.epoch * 2 ^ 56

/-- Table VOX-4 as one 64-bit field. -/
def Slot.addressing (s : Slot) : Nat :=
  s.stamp + s.source * 2 ^ 32 + s.route * 2 ^ 42 + s.hops * 2 ^ 54 + s.otype * 2 ^ 60

/-- Table VOX-6 as one 64-bit field. -/
def Descant.control (d : Descant) : Nat :=
  d.dtree + d.dop * 2 ^ 6 + d.dseq * 2 ^ 10 + d.dfmt * 2 ^ 26 + b2n d.dvalid * 2 ^ 30 + b2n d.down * 2 ^ 31
    + d.arrivals * 2 ^ 32

/-- Slot bytes 0–47, which the header CRC covers. -/
def Slot.header (s : Slot) : List Byte :=
  leBytes s.control 8 ++ leBytes s.addressing 8 ++ leBytes s.check 8 ++ leBytes s.descant.control 8 ++ padTo 16 s.descant.data

/-- R55–R63: the 640 bytes of a slot. -/
def Slot.encode (s : Slot) : List Byte :=
  let h := s.header
  let p := padTo 576 s.payload
  h ++ leBytes (crc32c h).toNat 4 ++ List.replicate 4 0 ++ p ++ leBytes (crc32c p).toNat 4
    ++ leBytes (s.payload.length + b2n s.payloadBad * 2 ^ 10) 4

/-- A slot read from its bytes, with the outcome of the header CRC and of the payload CRC. -/
structure SlotRead where
  slot : Slot
  hdrOk : Bool
  payOk : Bool
deriving DecidableEq, Repr

/-- The fields of a descant lane. -/
def Descant.decode (bs : List Byte) : Descant :=
  let c := leAt bs 24 8
  { dtree := fld c 0 6, dop := fld c 6 4, dseq := fld c 10 16, dfmt := fld c 26 4, dvalid := bitAt c 30, down := bitAt c 31
    arrivals := fld c 32 11, data := (bs.drop 32).take 16 }

/-- The fields of a slot. -/
def Slot.decode (bs : List Byte) : SlotRead :=
  let c := leAt bs 0 8
  let a := leAt bs 8 8
  let t := leAt bs 636 4
  { slot :=
      { cls := SlotClass.ofCode (fld c 0 4), typ := fld c 4 4, oos := bitAt c 8, fallen := bitAt c 9, retry := bitAt c 10
        shadow := bitAt c 11, part := fld c 12 8, optag := fld c 20 12, segment := fld c 32 16, slotInSeg := fld c 48 7
        last := bitAt c 55, epoch := fld c 56 8, stamp := fld a 0 32, source := fld a 32 10, route := fld a 42 12
        hops := fld a 54 6, otype := fld a 60 4, check := leAt bs 16 8, descant := Descant.decode bs
        payload := ((bs.drop 56).take 576).take (fld t 0 10), payloadBad := bitAt t 10 }
    hdrOk := (crc32c (bs.take 48)).toNat == leAt bs 48 4
    payOk := (crc32c ((bs.drop 56).take 576)).toNat == leAt bs 632 4 }

/-- The class whose rules govern a slot: an OPEN slot is of the class that it carries (R66). -/
def Slot.eclass (s : Slot) : SlotClass := if s.cls = .openSlot then SlotClass.ofCode s.typ else s.cls

/-- The TYPE that qualifies that class. -/
def Slot.etype (s : Slot) : Nat := if s.cls = .openSlot then s.otype else s.typ

/-- R65, R66: the TYPE is one that Table VOX-7 gives the class. -/
def typeOk (c : SlotClass) (t : Nat) : Bool :=
  match c with
  | .rest => t == 0
  | .cue => decide (t ≤ 8)
  | .choirHi | .choirLo => decide (t ≤ 4)
  | .stream | .graft => decide (t ≤ 1)
  | .openSlot | .bad => false

/-- R65, R66: class and type are not reserved, and only an OPEN slot carries an OTYPE. -/
def Slot.classOk (s : Slot) : Bool :=
  match s.cls with
  | .bad => false
  | .openSlot => decide (1 ≤ s.typ) && decide (s.typ ≤ 5) && typeOk (SlotClass.ofCode s.typ) s.otype
  | c => s.otype == 0 && typeOk c s.typ

/-! ### The tail slot -/

/-- Tactus states in the coding of Table VOX-8. -/
def TactState.code : TactState → Nat
  | .free => 0 | .acquiring => 1 | .locked => 2 | .holdover => 3 | .steppedOut => 4

/-- The state that a code names; a reserved code names no state that has a count. -/
def TactState.ofCode (n : Nat) : TactState :=
  match n with
  | 1 => .acquiring | 2 => .locked | 3 => .holdover | 4 => .steppedOut | _ => .free

/-- R68: symbol `k` of the alignment markers, 2 ≤ k ≤ 49. -/
def markerSymbol (k : Nat) : Nat :=
  let i := (k - 2) / 4
  let m := fun j => if j = 0 ∨ j = 2 then 0x2B5 else if j = 1 ∨ j = 3 then 0x14A else if j = 4 then 0x3E0 else 0x2C8 + k % 4
  if i < 6 then m i else 0x3FF - m (i - 6)

/-- Tail bytes 0–59: the 48 marker symbols, ten bits each, least significant bit first. -/
def markerBytes : List Byte :=
  leBytes ((List.range 48).foldr (fun i acc => markerSymbol (i + 2) + 1024 * acc) 0) 60

/-- Tail bytes 60–631, which its CRC covers. -/
def TailSlot.body (t : TailSlot) : List Byte :=
  leBytes t.stamp.toNat 8 ++ leBytes t.eui.toNat 8
    ++ leBytes (match t.member with
        | some m => m + 2 ^ 15
        | none => 0) 2
    ++ leBytes t.depth 1 ++ leBytes (t.tact.code + b2n t.origin * 8 + b2n t.srcHoldover * 16) 1
    ++ leBytes (t.pstate + b2n t.oos * 8 + b2n t.echoReq * 16 + b2n t.fallen * 32) 1 ++ leBytes t.epoch 1
    ++ leBytes 0 2 ++ leBytes t.sequence.toNat 4 ++ leBytes t.fingerprint.toNat 8
    ++ leBytes t.mean.toNat 2 ++ leBytes t.min.toNat 2 ++ leBytes t.max.toNat 2 ++ leBytes 0 2
    ++ leBytes t.txTime.toNat 8 ++ leBytes (t.rxEcho.getD 0).toNat 8 ++ leBytes (b2n t.rxEcho.isSome) 1
    ++ List.replicate 511 0

/-- Table VOX-8: the 640 bytes of a tail slot. -/
def TailSlot.encode (t : TailSlot) : List Byte :=
  markerBytes ++ t.body ++ leBytes (crc32c t.body).toNat 4 ++ List.replicate 4 0

/-- The fields of a tail slot whose CRC holds. -/
def TailSlot.decode (bs : List Byte) : Option TailSlot :=
  if (crc32c ((bs.drop 60).take 572)).toNat == leAt bs 632 4 then
    let m := leAt bs 76 2
    let a := leAt bs 79 1
    let b := leAt bs 80 1
    some
      { stamp := BitVec.ofNat 56 (leAt bs 60 8), eui := BitVec.ofNat 64 (leAt bs 68 8)
        member := if bitAt m 15 then some (fld m 0 10) else none
        depth := fld (leAt bs 78 1) 0 6, tact := TactState.ofCode (fld a 0 3), origin := bitAt a 3, srcHoldover := bitAt a 4
        pstate := fld b 0 3, oos := bitAt b 3, echoReq := bitAt b 4, fallen := bitAt b 5, epoch := leAt bs 81 1
        sequence := BitVec.ofNat 32 (leAt bs 84 4), fingerprint := BitVec.ofNat 64 (leAt bs 88 8)
        mean := BitVec.ofNat 16 (leAt bs 96 2), min := BitVec.ofNat 16 (leAt bs 98 2), max := BitVec.ofNat 16 (leAt bs 100 2)
        txTime := BitVec.ofNat 64 (leAt bs 104 8)
        rxEcho := if bitAt (leAt bs 120 1) 0 then some (BitVec.ofNat 64 (leAt bs 112 8)) else none }
  else none

/-! ### The codeword (R55, R57, R58) -/

/-- R57: the beat word of a beat in measure. -/
def beatWord (b : Nat) : Nat := b + 0xA5 * 4096

/-- R58: one bit through the scrambler 1 + x^39 + x^58. -/
def scrambleBit (x : BitVec 58 × List Bool) (b : Bool) : BitVec 58 × List Bool :=
  let o := b != (x.1.getLsbD 38 != x.1.getLsbD 57)
  ((x.1 <<< 1) ||| (if o then 1#58 else 0#58), o :: x.2)

/-- One ten-bit symbol scrambled. -/
def scrambleSymbol (st : BitVec 58) (sym : Nat) : BitVec 58 × Nat :=
  let r := (bitsOf sym 10).foldl scrambleBit (st, [])
  (r.1, r.2.reverse.foldr (fun b acc => b2n b + 2 * acc) 0)

/-- The 514 message symbols before scrambling: the beat word, then the slot, least significant bit first. -/
def messageSymbols (w : Nat) (bs : List Byte) : List Nat :=
  let v := w + 2 ^ 20 * leNat bs
  (List.range 514).map fun i => fld v (10 * i) 10

/-- The message symbols as sent: scrambled, but for the markers of a tail slot, which bypass the scrambler. -/
def scrambleAll (tail : Bool) (st : BitVec 58) : Nat → List Nat → BitVec 58 × List (BitVec 10)
  | _, [] => (st, [])
  | i, x :: xs =>
    if tail && decide (2 ≤ i) && decide (i ≤ 49) then
      let r := scrambleAll tail st (i + 1) xs
      (r.1, BitVec.ofNat 10 x :: r.2)
    else
      let y := scrambleSymbol st x
      let r := scrambleAll tail y.1 (i + 1) xs
      (r.1, BitVec.ofNat 10 y.2 :: r.2)

/-! ### The cue message -/

/-- Table VOX-9: the 72 bytes of a cue message. -/
def Cue.encode (c : Cue) : List Byte :=
  leBytes c.typ 1 ++ leBytes (b2n c.neighbour) 1 ++ leBytes c.dest 2 ++ leBytes c.src 2 ++ leBytes c.seq 2 ++ padTo 64 c.body

/-- The fields of a cue message. -/
def Cue.decode (bs : List Byte) : Cue :=
  { typ := leAt bs 0 1, neighbour := bitAt (leAt bs 1 1) 0, dest := fld (leAt bs 2 2) 0 10, src := fld (leAt bs 4 2) 0 10
    seq := leAt bs 6 2, body := padTo 64 (bs.drop 8) }

/-- The cue messages of a CUE slot, in position order (R70). -/
def cuesOf (payload : List Byte) (n : Nat) : List Cue := (List.range n).map fun i => Cue.decode ((payload.drop (72 * i)).take 72)

/-- The `n`-byte field of a cue's body at body byte `o`. -/
def Cue.at (c : Cue) (o n : Nat) : Nat := leAt c.body o n

/-- A 64-byte body from fields, each at its offset: (offset, bytes, value). -/
def bodyOf (fs : List (Nat × Nat × Nat)) : List Byte :=
  leBytes (fs.foldl (fun acc x => acc + x.2.2 % 256 ^ x.2.1 * 256 ^ x.1) 0) 64

/-- Table VOX-10: message types that are not reserved. -/
def cueTypeOk (t : Nat) : Bool :=
  decide (t ∈ [0x01, 0x02, 0x03, 0x04, 0x10, 0x11, 0x12, 0x13, 0x20, 0x21, 0x30, 0x31, 0x32, 0x33, 0x40])

end Sys2Proof.Machine
end

