-- ==== Sys2Proof/Machine/Det.lean ====
section
/-!
DEFINITION. The detectors of Table FLT-2 by name, and their classes (R428, R429). Detector d belongs to group d div 8.
-/
namespace Sys2Proof.Machine.Det

-- group 0, FC_SELF
def regParity : Nat := 0
def lockstep : Nat := 1
def logEccCorr : Nat := 2
def logEccUncorr : Nat := 3
def mirrorFail : Nat := 4
-- group 1, TACTUS
def tcBad : Nat := 8
def dbSlip : Nat := 9
def holdoverEntry : Nat := 10
def dbDisplaced : Nat := 11
def tcDisagree : Nat := 12
def holdoverLimit : Nat := 13
def returnMismatch : Nat := 14
def ctrlRefused : Nat := 15
-- group 2, PORT_TIMING
def edge : Nat := 16
def slewLimit : Nat := 17
def echoMiss : Nat := 18
def outOfStep : Nat := 19
def tactConflict : Nat := 20
def landRange : Nat := 21
def tailLost : Nat := 22
def hminChange : Nat := 23
-- group 3, PORT_LINK
def fecCorr : Nat := 24
def fecUncorr : Nat := 25
def hdrCrc : Nat := 26
def stamp : Nat := 27
def phase : Nat := 28
def payloadCrc : Nat := 29
def portDown : Nat := 30
def framingTimeout : Nat := 31
-- group 4, PORT_CONTENT
def badClass : Nat := 32
def epochForeign : Nat := 33
def badCue : Nat := 34
def ingressOvf : Nat := 35
def cueOrder : Nat := 36
def rollcallReject : Nat := 37
def oosRx : Nat := 38
def fallenRx : Nat := 39
-- group 5, SCORE
def loadErr : Nat := 40
def writeRefused : Nat := 41
def targetRefused : Nat := 42
def flashScoreFail : Nat := 43
def bankEccCorr : Nat := 44
def bankEccUe : Nat := 45
def fingerprintDiff : Nat := 46
def bootstrapRun : Nat := 47
-- group 6, ESPALIER
def espDrop : Nat := 48
def espMisroute : Nat := 49
def espEccCorr : Nat := 50
def espPoison : Nat := 51
def espLate : Nat := 52
def espEdgeOver : Nat := 53
def espDeadPath : Nat := 54
-- group 7, MEM_CORRECT
def corrPages : Nat := 56
def wbSkip : Nat := 57
def repairCand : Nat := 58
def scrubLate : Nat := 59
def repairBad : Nat := 60
def repairNoroom : Nat := 61
def addrUnbacked : Nat := 62
-- group 8, MEM_UNCORR
def pageUe : Nat := 64
def poisonRead : Nat := 65
def fetchUe : Nat := 66
def strictHostWrite : Nat := 67
def crToStrict : Nat := 68
def rmwUe : Nat := 69
def lockTableFull : Nat := 70
-- group 9, MEM_META
def bitmapRepair : Nat := 72
def bitmapDouble : Nat := 73
def decoderSelftest : Nat := 74
def fillFail : Nat := 75
def sysareaCorr : Nat := 76
def repairMapInvalid : Nat := 77
def pprFail : Nat := 78
-- group 10, MEM_POLICY
def narrowWrite : Nat := 80
def regionRefused : Nat := 81
def recodeBusy : Nat := 82
def inject : Nat := 83
def recodeSkip : Nat := 84
-- group 11, LEASE
def leaseBreach : Nat := 88
def rmwStall : Nat := 89
def scrubPause : Nat := 90
-- group 12, HBM_PHY
def refreshHot : Nat := 96
def phyRetrain : Nat := 97
def phyFail : Nat := 98
def caParity : Nat := 99
def hbmTempHigh : Nat := 100
-- group 13, QUEUE
def badDoorbell : Nat := 104
def foreignBell : Nat := 105
def qCfgRefused : Nat := 106
def errRingDrop : Nat := 107
def fullStall : Nat := 108
def badCtrl : Nat := 109
def badCommand : Nat := 110
def resetRefused : Nat := 111
-- group 14, CE_ARITH
def adderResidue : Nat := 112
def dupLane : Nat := 113
def harvestOrder : Nat := 114
def wideResidue : Nat := 115
def momentsResidue : Nat := 116
def roundCheck : Nat := 117
-- group 15, CE_STATE
def stagingCorr : Nat := 120
def stagingUe : Nat := 121
def descantOvf : Nat := 122
def windowEarlyDrop : Nat := 123
def descantResidue : Nat := 124
def windowProto : Nat := 125
def segmentRetryRx : Nat := 126
-- group 16, COLLECTIVE
def chkRetryOk : Nat := 128
def chkGiveUp : Nat := 129
def chkPoisonIn : Nat := 130
def lateDiscard : Nat := 131
def late : Nat := 132
def retryResend : Nat := 133
def wideFallback : Nat := 134
-- group 17, MEMBERSHIP
def neighbourLost : Nat := 136
def selfNamedLost : Nat := 137
def lostStillListed : Nat := 138
def remoteToLost : Nat := 139
def memberLostRx : Nat := 140
def joinConflict : Nat := 141
-- group 18, ME
def sramCorr : Nat := 144
def sramUe : Nat := 145
def arrayParity : Nat := 146
def topkCheck : Nat := 147
def streamBufUe : Nat := 148
def seqErr : Nat := 149
-- group 19, CLUSTER
def clSramCorr : Nat := 152
def clSramUe : Nat := 153
def l1Parity : Nat := 154
def clKill : Nat := 155
def strayDone : Nat := 156
def l1dUe : Nat := 157
def wakeParity : Nat := 158
-- group 20, DMA
def lateFail : Nat := 160
def dmaLateStart : Nat := 161
def setRefused : Nat := 162
def landRefused : Nat := 163
def streamStray : Nat := 164
def landOutside : Nat := 165
def descParity : Nat := 166
def trailStall : Nat := 167
-- group 21, SYNC_REMOTE
def remoteEpoch : Nat := 168
def remoteRefused : Nat := 169
def remoteAbandoned : Nat := 170
def remoteGap : Nat := 171
def drift : Nat := 172
def rebarBreach : Nat := 173
def rebarMiss : Nat := 174
def rebarStray : Nat := 175
-- group 22, WAIT
def watchdog : Nat := 176
def deadlock : Nat := 177
def genMismatch : Nat := 178
def sigDropped : Nat := 179
def cmdTimeout : Nat := 180
def synCfgRefused : Nat := 181
def wakeAbandoned : Nat := 182
-- group 23, GRAFT
def scoreSplit : Nat := 184
def returnFail : Nat := 185
def probationMismatch : Nat := 186
def grfRelayOvf : Nat := 187
def grfBusyDrop : Nat := 188
def noDecision : Nat := 189
def pruned : Nat := 190
def grfPromoteSkip : Nat := 191
-- group 24, HOST_PORT
def pcieCorr : Nat := 192
def pcieUncorr : Nat := 193
def poisonedTlp : Nat := 194
def cplTimeout : Nat := 195
def hostLinkDown : Nat := 196
def flrRx : Nat := 197
def msiBlocked : Nat := 198
-- group 25, CXL
def cxlCorr : Nat := 200
def cxlPoison : Nat := 201
def cxlLinkLost : Nat := 202
def cxlRetrain : Nat := 203
def cxlMedia : Nat := 204
def cxlViral : Nat := 205
-- group 26, MGMT
def mctpErr : Nat := 208
def fwUpdateFail : Nat := 209
def spdmFail : Nat := 210
def mcWatchdog : Nat := 211
def flashReadErr : Nat := 212
def rollbackRefused : Nat := 213
def writeFail : Nat := 214
-- group 27, POWER
def governorCap : Nat := 216
def railWarn : Nat := 217
def railFault : Nat := 218
def pwrgdLost : Nat := 219
def vcoreAdaptLimit : Nat := 220
def powerOver : Nat := 221
-- group 28, THERMAL
def throttle : Nat := 224
def tjMax : Nat := 225
def thermTrip : Nat := 226
def sensorFail : Nat := 227
-- group 29, CLOCK
def corePllUnlock : Nat := 232
def crossingErr : Nat := 233
def serdesPllUnlock : Nat := 234
def hostRefclkLoss : Nat := 235
-- group 30, REACTION
def fuseShortfall : Nat := 240
def reactionLoop : Nat := 241
def safeRequest : Nat := 242
def holdEntered : Nat := 243
def recovered : Nat := 244
-- group 31, INJECT
def injectC : Nat := 248
def injectU : Nat := 249
def injectF : Nat := 250

/-- The detectors of class U (Table FLT-2). -/
def classU : List Nat :=
  [11, 12, 13, 14, 19, 20, 21, 30, 43, 45, 51, 64, 65, 66, 67, 68, 69, 104, 107, 112, 113, 114, 115, 116, 117,
   121, 124, 129, 136, 137, 145, 146, 147, 148, 149, 153, 157, 160, 166, 173, 176, 177, 178, 180, 184, 185, 186,
   193, 194, 195, 196, 201, 202, 205, 211, 227, 234, 235, 249]

/-- The detectors of class F (Table FLT-2). -/
def classF : List Nat :=
  [0, 1, 73, 74, 75, 78, 98, 218, 219, 226, 232, 233, 240, 241, 242, 250]

end Sys2Proof.Machine.Det
end

