-- ==== Sys2Proof/Machine/State.lean ====
section
/-!
DEFINITION. The state of the OL-4200: every block's registers, buffers and counters, the bytes of both memory tiers, and
the queue of commands that wait. All of it is plain data.
-/
namespace Sys2Proof.Machine

/-- Why the block could stop with a fault. It has no constructor: for every command the manual says what the engine
does, so no command of this model ends in a fault (safe). -/
inductive Fault where
deriving DecidableEq, Repr

/-- Why a command has no meaning. -/
inductive Refusal where
  /-- Raised by `exec` for a command that the model does not give a meaning yet (safe). -/
  | notModelled (mnemonic : String)
  /-- Raised by every command whose operand names a port, queue, ring, unit or object that the engine does not have,
  such as voice port 16: no sender can send it (safe). -/
  | illFormed
deriving DecidableEq, Repr

/-- The state of the engine. -/
structure State where
  /-- The commands that wait, first in, first out. -/
  pending : List Instr := []
  /-- A count of beats that never stops: what the durations of the rules are measured with. -/
  now : Nat := 0
  /-- MODEL's own: the number of free values drawn so far. -/
  fresh : Nat := 0
  /-- MODEL's own: commands issued so far, which number each issue, and commands finished so far. -/
  issued : Nat := 0
  finished : Nat := 0
  /-- The bytes of tier 1 and tier 2, by device address (chapter 6). -/
  ram : Mem := []
  /-- Every 32-bit RC counter, by BAR0 address (R525). -/
  counters : Tab Word := []
  /-- Cue send queues, by gang (R514). -/
  cueQ : Tab CueQueue := []
  ports : Tab Port := []
  tact : Tactus := {}
  score : ScoreCtl := {}
  esp : Espalier := {}
  mem : MemCtl := {}
  queues : Tab Queue := []
  rings : Tab Ring := []
  /-- Per unit (FC_TGT index): the queue that issued last on it (R212). -/
  lastIssued : Tab Nat := []
  ce : Collectives := {}
  mes : Tab MatrixEngine := []
  clusters : Tab Cluster := []
  dma : Dma := {}
  sync : Sync := {}
  fc : Collector := {}
  graft : Graft := {}
  sys : Sys := {}
  host : HostPort := {}
  mgmt : Mgmt := {}
  power : Power := {}
deriving DecidableEq, Repr

/-- The engine right after reset: every register at the reset value its table gives, nothing stored, no command waiting. -/
def State.reset : State := {}

/-- The outcome of a command. -/
abbrev Out := Host.Outcome State Fault Refusal

/-- A command whose operands are within the engine has its effect; any other is ill-formed. -/
def within (ok : Bool) (s : State) : Out :=
  if ok then .next s else .refused .illFormed

end Sys2Proof.Machine
end

