-- ==== Sys2Proof/Machine/Image.lean ====
section
/-!
DEFINITION. The score image: where each field of chapter 4 lies in a bank, and the active score's tables as the rest of
the engine reads them. Under the bootstrap score there is no image (R100).
-/
namespace Sys2Proof.Machine

namespace Img

/-- `n` bytes of an image at offset `o`, as a little-endian number (R83). -/
def u (m : Mem) (o n : Nat) : Nat := leNat (m.readN o n)

-- Table SCR-1
def magic (m : Mem) : Nat := u m 0 4
def format (m : Mem) : Nat := u m 4 2
def flags (m : Mem) : Nat := u m 6 2
def scion (m : Mem) : Bool := bitAt (flags m) 0
def length (m : Mem) : Nat := u m 8 4
def sequence (m : Mem) : Word := BitVec.ofNat 32 (u m 12 4)
def fingerprint (m : Mem) : DWord := BitVec.ofNat 64 (u m 16 8)
def baseFingerprint (m : Mem) : DWord := BitVec.ofNat 64 (u m 24 8)
def baseSequence (m : Mem) : Word := BitVec.ofNat 32 (u m 32 4)
def chorusSize (m : Mem) : Nat := u m 36 2
def topology (m : Mem) : Nat := u m 38 1
def epoch (m : Mem) : Nat := u m 39 1
def dimX (m : Mem) : Nat := u m 40 2
def dimY (m : Mem) : Nat := u m 42 2
def dimZ (m : Mem) : Nat := u m 44 2
def self (m : Mem) : Nat := u m 46 2
def partCount (m : Mem) : Nat := u m 48 2
def routeCount (m : Mem) : Nat := u m 50 2
def dtreeCount (m : Mem) : Nat := u m 52 1
def cycleCount (m : Mem) : Nat := u m 53 1
def leaseCount (m : Mem) : Nat := u m 54 2
def pairCount (m : Mem) : Nat := u m 56 2
def placement (m : Mem) : Nat := u m 58 1
def crc (m : Mem) : Nat := u m 120 8

/-- OFFSET of section `n` (R84). -/
def off (m : Mem) (n : Nat) : Nat := u m (128 + 8 * n) 4
/-- LENGTH of section `n` (R84). -/
def len (m : Mem) (n : Nat) : Nat := u m (132 + 8 * n) 4

/-- The length that Table SCR-2 gives section `n`. -/
def wantLen (m : Mem) (n : Nat) : Nat :=
  match n with
  | 0 => 8192 | 1 => 1024 | 2 => 65536
  | 3 => partCount m * 160 | 4 => routeCount m * 32 | 5 => dtreeCount m * 16
  | 6 => 2048 | 7 => cycleCount m * 5120 | 8 => leaseCount m * 8 | 9 => pairCount m * 16
  | _ => 0

/-- The EUI-64 of member `k`, or 0 (R85). -/
def roster (m : Mem) (k : Nat) : Nat := if k < 1024 then u m (off m 0 + 8 * k) 8 else 0

-- Table SCR-3
def portOff (m : Mem) (p : Nat) : Nat := off m 1 + 64 * p
def neighbour (m : Mem) (p : Nat) : Nat := u m (portOff m p) 2
def gang (m : Mem) (p : Nat) : Nat := u m (portOff m p + 2) 1
def land (m : Mem) (p : Nat) : Nat := u m (portOff m p + 3) 1
def farPort (m : Mem) (p : Nat) : Nat := u m (portOff m p + 4) 1
def portFlags (m : Mem) (p : Nat) : Nat := u m (portOff m p + 5) 1
def enabled (m : Mem) (p : Nat) : Bool := bitAt (portFlags m p) 0
def express (m : Mem) (p : Nat) : Bool := bitAt (portFlags m p) 1
def dim (m : Mem) (p : Nat) : Nat := u m (portOff m p + 6) 1
def sense (m : Mem) (p : Nat) : Nat := u m (portOff m p + 7) 1
/-- The weight of class index `c` (7 is TAIL) in direction `d` (0 transmit, 1 receive). -/
def weight (m : Mem) (p d c : Nat) : Nat := u m (portOff m p + 8 + 16 * d + 2 * c) 2

/-- Entry `b` of a packed table of four-bit codes at offset `o` (R88, R94). -/
def nibble (m : Mem) (o b : Nat) : Nat := fld (m.read (o + b / 2)).toNat (4 * (b % 2)) 4

/-- The class code of entry `b` of port `p`'s table in direction `d` (R88). -/
def classCode (m : Mem) (p d b : Nat) : Nat := nibble m (off m 2 + (2 * p + d) * 2048) b

/-- A part entry (Table SCR-4). -/
structure Part where
  valid : Bool
  lo : Bool
  count : Nat
  rank : Nat
  threshold : Nat
  root : Nat
  dtree : Nat
  reduceTree : Nat
  bcastTree : Nat
  canonFirst : Nat
  canonCount : Nat
  window : Nat
deriving DecidableEq, Repr

def partOff (m : Mem) (p : Nat) : Nat := off m 3 + 160 * p

/-- Part entry `p`. -/
def part (m : Mem) (p : Nat) : Part :=
  let o := partOff m p
  { valid := decide (p < partCount m) && bitAt (u m (o + 138) 1) 0
    lo := bitAt (u m (o + 138) 1) 1
    count := u m (o + 128) 2
    rank := u m (o + 130) 2
    threshold := u m (o + 132) 4
    root := u m (o + 136) 2
    dtree := u m (o + 139) 1
    reduceTree := u m (o + 140) 2
    bcastTree := u m (o + 142) 2
    canonFirst := u m (o + 144) 2
    canonCount := u m (o + 146) 1
    window := u m (o + 147) 1 }

/-- Member `k` belongs to part `p` (R90). -/
def inPart (m : Mem) (p k : Nat) : Bool := decide (k < 1024) && bitAt (m.read (partOff m p + k / 8)).toNat (k % 8)

/-- The members of part `p`, ascending. -/
def members (m : Mem) (p : Nat) : List Nat := (List.range 1024).filter (inPart m p)

/-- A route entry (Table SCR-5). -/
structure Route where
  part : Nat
  kind : Nat
  id : Nat
  root : Nat
  role : Nat
  dim : Nat
  up : Nat
  inGang : Nat
  children : Nat
  below : Nat
  span : Nat
deriving DecidableEq, Repr

/-- R286: the number of dimensions. -/
def dims (m : Mem) : Nat := max 1 (min 3 (topology m))

def routeOff (m : Mem) (i : Nat) : Nat := off m 4 + 32 * i

/-- Route entry number `i` of the table. -/
def routeAt (m : Mem) (i : Nat) : Route :=
  let o := routeOff m i
  { part := u m o 1, kind := u m (o + 1) 1, id := u m (o + 2) 2, root := u m (o + 4) 2, role := u m (o + 6) 1
    dim := u m (o + 7) 1, up := u m (o + 8) 1, inGang := u m (o + 9) 1, children := u m (o + 10) 2
    below := u m (o + 12) 2, span := u m (o + 14) 2 }

/-- The entry of route `id` of part `p`, if SELF has a role in it (R91). -/
def route (m : Mem) (p id : Nat) : Option Route :=
  ((List.range (routeCount m)).map (routeAt m)).find? fun r => r.part == p && r.id == id

/-- SELF is at the route's ROOT or TAIL. -/
def Route.isRoot (r : Route) : Bool := bitAt r.role 0
/-- SELF is a LEAF, or the HEAD of a canon. -/
def Route.isLeaf (r : Route) : Bool := bitAt r.role 1
/-- SELF's data enters here. -/
def Route.contrib (r : Route) : Bool := bitAt r.role 2
/-- SELF combines inputs. -/
def Route.combine (r : Route) : Bool := bitAt r.role 3

/-- A descant-tree entry (Table SCR-6). -/
structure DTree where
  root : Nat
  up : Nat
  valid : Bool
  member : Bool
  children : Nat
  arrivals : Nat
  part : Nat
  depth : Nat
deriving DecidableEq, Repr

/-- Descant-tree entry `t`; one at or beyond DTREE_COUNT is not usable (R93). -/
def dtree (m : Mem) (t : Nat) : DTree :=
  let o := off m 5 + 16 * t
  { root := u m o 2, up := u m (o + 2) 1
    valid := decide (t < dtreeCount m) && bitAt (u m (o + 3) 1) 0
    member := bitAt (u m (o + 3) 1) 1
    children := u m (o + 4) 2, arrivals := u m (o + 6) 2, part := u m (o + 8) 1, depth := u m (o + 9) 1 }

/-- The cycle table of the beat whose beat in measure is `b` (R94). -/
def selector (m : Mem) (b : Nat) : Nat := nibble m (off m 6) b

/-- The cycle entry of router `r` in core cycle `c` of cycle table `t` (R94). -/
def cycleEntry (m : Mem) (t r c : Nat) : Nat := u m (off m 7 + 5120 * t + (20 * r + c) * 4) 4

/-- A lease entry (Table SCR-8). -/
structure Lease where
  stack : Nat
  group : Nat
  share : Nat
  dir : Nat
  consumer : Nat
  unit : Nat
deriving DecidableEq, Repr

def lease (m : Mem) (i : Nat) : Lease :=
  let o := off m 8 + 8 * i
  { stack := u m o 1, group := u m (o + 1) 1, share := u m (o + 2) 1, dir := u m (o + 3) 1
    consumer := u m (o + 4) 1, unit := u m (o + 5) 1 }

/-- A tally pair (R98). -/
structure Pair where
  prod : Nat
  prodTally : Nat
  cons : Nat
  consTally : Nat
  tol : Nat
deriving DecidableEq, Repr

def pair (m : Mem) (i : Nat) : Pair :=
  let o := off m 9 + 16 * i
  { prod := u m o 2, prodTally := u m (o + 2) 2, cons := u m (o + 4) 2, consTally := u m (o + 6) 2
    tol := u m (o + 8) 4 }

end Img

/-! ### The active score -/

/-- The bank that ACTIVE_BANK names. -/
def State.activeBank (s : State) : Mem := if s.score.active = 0 then s.score.bankA else s.score.bankB
/-- The standby bank. -/
def State.standbyBank (s : State) : Mem := if s.score.active = 0 then s.score.bankB else s.score.bankA
/-- The state with the standby bank's bytes changed. -/
def State.setStandby (s : State) (m : Mem) : State :=
  if s.score.active = 0 then { s with score.bankB := m } else { s with score.bankA := m }

/-- The image in force, or none while the bootstrap score runs (R100). -/
def State.img (s : State) : Option Mem := if s.score.member then some s.activeBank else none

/-- The active epoch; the bootstrap score has epoch 0 (R82). -/
def State.epoch (s : State) : Nat := (s.img.map Img.epoch).getD 0
/-- SELF under a real score. -/
def State.self (s : State) : Nat := (s.img.map Img.self).getD 0x3FF
/-- Part `p` of the active score, if it is valid. -/
def State.part (s : State) (p : Nat) : Option Img.Part := s.img.bind fun m => if (Img.part m p).valid then some (Img.part m p) else none
/-- A member of the active score's roster. -/
def State.inRoster (s : State) (k : Nat) : Bool := (s.img.map fun m => Img.roster m k != 0).getD false
/-- Member `k` belongs to valid part `p` of the active score. -/
def State.inPart (s : State) (p k : Nat) : Bool := (s.img.map fun m => (Img.part m p).valid && Img.inPart m p k).getD false
/-- The entry of a route of the active score. -/
def State.route (s : State) (p id : Nat) : Option Img.Route := s.img.bind fun m => Img.route m p id
/-- A usable descant tree of the active score (R93). -/
def State.dtree (s : State) (t : Nat) : Option Img.DTree := s.img.bind fun m => if (Img.dtree m t).valid then some (Img.dtree m t) else none
/-- The placement in force is UNIFORM: the score's, or UNIFORM under the bootstrap score (R123, R127). -/
def State.uniform (s : State) : Bool := (s.img.map fun m => Img.placement m == 1).getD true
/-- Port `p` is used by the active score. -/
def State.enabled (s : State) (p : Nat) : Bool := (s.img.map fun m => Img.enabled m p).getD false
/-- The gang of port `p` in the active score. -/
def State.gangOf (s : State) (p : Nat) : Option Nat := s.img.bind fun m => if Img.enabled m p then some (Img.gang m p) else none
/-- The ports of gang `g`, ascending. -/
def State.gangPorts (s : State) (g : Nat) : List Nat := (List.range 16).filter fun p => s.gangOf p == some g
/-- The number of leases of the active score. -/
def State.leaseCount (s : State) : Nat := (s.img.map Img.leaseCount).getD 0
/-- The leases of the active score with their numbers. -/
def State.leases (s : State) : List (Nat × Img.Lease) :=
  (s.img.map fun m => (List.range (Img.leaseCount m)).map fun i => (i, Img.lease m i)).getD []
/-- The tally pairs of the active score with their numbers. -/
def State.pairs (s : State) : List (Nat × Img.Pair) :=
  (s.img.map fun m => (List.range (Img.pairCount m)).map fun i => (i, Img.pair m i)).getD []

end Sys2Proof.Machine
end

