-- ==== Sys2Proof/WellFormed.lean ====
section
/-!
DEFINITION. Well-formed commands: every operand names something the engine has and fits the field that carries it. A
command that is not well-formed is one that no sender can send.
-/
namespace Sys2Proof
open Sys2Proof.Machine

/-- Voice ports VP0–VP15. -/
def okPort (p : Nat) : Bool := decide (p < 16)
/-- Queues Q0–Q255 (R199). -/
def okQueue (q : Nat) : Bool := decide (q < 256)
/-- Completion rings CR0–CR63 (R220). -/
def okRing (r : Nat) : Bool := decide (r < 64)
/-- DMA channels 0–63. -/
def okChan (c : Nat) : Bool := decide (c < 64)
/-- Memory controllers as Table REG-14 counts them: stacks 0–7, tier-2 ports 8–11. -/
def okCtrl (k : Nat) : Bool := decide (k < 12)
/-- Tier-2 ports CXL0–CXL3. -/
def okCxl (j : Nat) : Bool := decide (j < 4)
/-- Clusters CL0–CL7 and their cores 0–7. -/
def okCore (cl core : Nat) : Bool := decide (cl < 8) && decide (core < 8)
/-- Routers of the 8 × 8 espalier. -/
def okRouter (r : Nat) : Bool := decide (r < 64)
/-- Units that a block reset names: FC_TGT indices 0–47 (Table FLT-4). -/
def okUnit (i : Nat) : Bool := decide (i < 48)
/-- FC_TGT indices 0–50 and 64–383 (Table FLT-4). -/
def okTarget (t : Nat) : Bool := decide (t < 51) || (decide (64 ≤ t) && decide (t < 384))
/-- Members 0–1,023. -/
def okMember (m : Nat) : Bool := decide (m < 1024)
/-- A part and an operation tag. -/
def okOp (part optag : Nat) : Bool := decide (part < 256) && decide (optag < 4096)
/-- A cue message's fields fit Table VOX-9. -/
def okCue (c : Cue) : Bool :=
  decide (c.typ < 256) && decide (c.dest < 1024) && decide (c.src < 1024) && decide (c.seq < 65536)
    && decide (c.body.length = 64)
/-- A received codeword is a beat word and the 640 bytes of a slot. -/
def okCode : Option (Nat × List Byte) → Bool
  | none => true
  | some (w, bs) => decide (w < 2 ^ 20) && decide (bs.length = 640)
/-- A flit carries 256 bytes and its sideband fields fit Table ESP-1. -/
def okFlit : Option Flit → Bool
  | none => true
  | some f => decide (f.data.length = 256) && decide (f.kind < 8) && decide (f.piece < 4) && decide (f.tag < 2 ^ 32)
      && decide (f.age < 64)
/-- The requester of a memory access names something the engine has. -/
def okWho : Requester → Bool
  | .fetch q => okQueue q
  | .command q _ => okQueue q
  | .chan c => okChan c
  | .core cl core => okCore cl core
  | .stream p => okPort p
  | .service q => okQueue q
  | .host | .scrub | .recode => true
/-- A management command has at most four arguments and 4 KiB of input (R538). -/
def okReq (r : MReq) : Bool := decide (r.args.length ≤ 4) && decide (r.input.length ≤ 4096)
/-- A flash write's read-back can fail at steps 2 and 3 of Table PWR-4. -/
def okFail : Option Nat → Bool
  | none => true
  | some n => n == 2 || n == 3
/-- A write to a block is a naturally aligned offset of BAR0's 16 MiB (R7). -/
def okBar0 (off : Nat) (wide : Bool) : Bool := decide (off < 0x1000000) && decide (off % (if wide then 8 else 4) = 0)
/-- The images of a start-up name cluster numbers, and its decoders are decoders the engine has. -/
def okBoot (b : Boot) : Bool :=
  b.images.all (fun c => decide (c < 8)) && b.sliceFail.all (fun i => decide (i < 32))
    && b.cxlFail.all (fun j => okCxl j) && b.repairBad.all (fun k => decide (k < 8))
    && b.noRoom.all (fun x => decide (x.1 < 8)) && b.expanders.all (fun x => okCxl x.port && (x.rate == 1 || x.rate == 2) && (x.width == 8 || x.width == 16))

/-- The command can be sent. -/
def Instr.wf : Instr → Bool
  | .referenceLoss _ | .downbeatPulse _ _ | .dbDisplaced | .downbeatMissing | .downbeat | .holdoverLimit
  | .tactCtrlWrite _ _ => true
  | .timecodeFrame f => decide (f.typ < 256) && decide (f.flags < 256) && decide (f.phrase < 2 ^ 40)
      && decide (f.reserved < 2 ^ 32)
  | .tailSlotTx p _ | .outOfStep p | .portDownbeat p | .trainingDone p | .framingTimeout p | .portDown p _
  | .portRetrain p | .slotTx p | .slotRelease p | .cueMessage p => okPort p
  | .tailSlotRx p code _ _ => okPort p && okCode code
  | .slotRx p code corr _ => okPort p && okCode code && decide (corr.length ≤ 4)
  | .portAlign p _ _ _ => okPort p
  | .rollCall p c | .here p c | .hold p c => okPort p && okCue c
  | .bankWrite bank off len _ => decide (bank < 2) && decide (off < 0x100000)
      && (decide (len = 4) || decide (len = 8)) && decide (off % len = 0)
  | .scoreLoad | .scoreDiscard | .loadCheckDone | .scrTargetWrite _ | .scoreSwitch | .rootstockRelease => true
  | .flitHop r _ inject cycle _ => okRouter r && okFlit inject && decide (cycle < 20)
  | .flitDeliver r _ _ => okRouter r
  | .memoryRead who addr _ => okWho who && decide (addr < 2 ^ 64)
  | .memoryWrite who addr _ => okWho who && decide (addr < 2 ^ 64)
  | .pageLockGrant k | .pageService k | .pageDecode k | .rmwWriteDone k | .scrubRead k | .leaseBreach k
  | .leaseBreachEnd k => okCtrl k
  | .recodeStart _ | .recodePage | .leaseAccount | .poisonQuery _ | .injectArm _ => true
  | .regionAttrWrite n _ | .regionBoundWrite n _ _ => decide (n < 16)
  | .cxlLinkLost j => okCxl j
  | .doorbell q _ | .commandFetch q | .commandComplete q _ | .qCtrlEnable q _ | .qCtrlDisable q _ | .qCtrlSuspend q _
  | .qCtrlResume q _ | .qCtrlReset q _ | .qFetchWrite q _ | .qWatchdogWrite q _ => okQueue q
  | .crCtrlEnable r | .crCtrlDisable r | .crHeadWrite r _ | .crIrqDelay r => okRing r
  | .nop q | .jump q | .loop q | .call q | .ret q | .halt q | .sets q | .adds q | .brs q | .atBeat q | .atDownbeat q
  | .wait q | .waitTimeout q | .signal q | .remoteSignal q | .arrive q | .arriveWait q | .arriveWaitTimeout q | .fence q
  | .fenceComplete q | .copy q | .fill q | .compare q | .gather q | .scatter q | .bcast q | .reduce q | .harvest q
  | .dbcast q | .dreduce q | .counts q | .loadq q | .score q | .topk q | .quant q | .dequant q | .launch q
  | .launchTimeout q _ | .record q | .mark q => okQueue q
  | .windowReserve p c | .windowConfirm p c | .windowRelease p c | .segmentRetry p c | .memberLost p c
  | .prepare p c | .ack p c | .commit p c | .abort p c | .joinRequest p c | .joinAdmit p c | .joinRefuse p c =>
      okPort p && okCue c
  | .combine part optag _ _ | .segmentIncomplete part optag _ _ | .retryGiveUp part optag _ _ | .pitchInject part optag
  | .rootStagingRelease part optag => okOp part optag
  | .lateDiscard dtree optag => decide (dtree < 64) && decide (optag < 4096)
  | .neighbourLost x => okMember x
  | .ceLostDeclare _ | .submit | .cancel | .drain | .out | .returnUnit => true
  | .unitQuiesced i | .returnDone i _ | .shadowCompare i _ | .probationPass i => okUnit i || decide (i = 48)
  | .graftSlotRx p sl => okPort p && decide (sl.payload.length ≤ 576)
  | .ackDeadline | .graftDecide | .noDecision => true
  | .wfi cl core | .coreWake cl core | .olspush cl core _ | .olsdone cl core | .olswpendClear cl core _
  | .coreReinitialised cl core => okCore cl core
  | .dmaGo ch | .dmaArm ch | .dmaDisarm ch | .dmaAbort ch | .dmaClear ch | .dmaChCfgWrite ch _ | .dmaStart ch
  | .dmaComplete ch | .streamStall ch => okChan ch
  | .dmaBurst | .dmaShareWrite _ => true
  | .streamLanding p => okPort p
  | .landingSegmentDone source optag seg => okMember source && decide (optag < 4096) && decide (seg < 65536)
  | .streamEntryExpiry source optag => okMember source && decide (optag < 4096)
  | .dmaLandCtrlWrite w _ => decide (w < 64)
  | .tallySet t _ | .tallyCfgWrite t _ | .tallyRearm t _ => decide (t < 4096)
  | .barrierArm b | .barrierDisarm b | .barrierRearm b => decide (b < 64)
  | .wakeSrcWrite w _ | .wakeThreshWrite w _ => decide (w < 64)
  | .wakeFire _ => true
  | .remoteSignalMsg c | .rebar c => okCue c
  | .watchdog q => okQueue q
  | .deadlock => true
  | .dlCfgWrite mask _ => match mask with
      | none => true
      | some i => decide (i < 8)
  | .blockResetRelease i | .shadowClose i => okUnit i
  | .recovered t | .fcTgtClear t => okTarget t
  | .fcInject _ | .safeRequest _ | .mirrorSelect _ | .lockstep _ => true
  | .coldReset b | .warmReset b => okBoot b
  | .release | .flr | .pwrgdLost | .joinGo => true
  | .joinEntryExpiry m => okMember m
  | .bar2Read _ len => decide (len ≤ 4096)
  | .bar2Write _ data _ => decide (data.length ≤ 4096)
  | .ptmDialog _ => true
  | .hostReadCompletion _ _ | .cplTimeout _ | .hostLinkDown | .hostRefclkLoss | .configSpaceWrite _ => true
  | .msixTableWrite off _ => decide (off < 0x8000) && decide (off % 4 = 0)
  | .getInfo r | .readLastgasp r | .clearLastgasp r | .readSensors r | .jtagNonce r _
  | .jtagUnlock r _ _ | .advanceRollback r | .revokeKey r _ _ => okReq r
  | .flashWrite r _ failAt => okReq r && okFail failAt
  | .pldmFirmwareUpdate _ _ _ failAt => okFail failAt
  | .spdmRequest _ _ | .pldmSensorRefresh _ | .mcWatchdog | .svcAccess _ => true
  | .cxlRetrain j | .cxlRetrainTimeout j | .cxlViral j | .cxlRetrainDone j | .expanderFillDone j _ => okCxl j
  | .serdesPllUnlock p => okPort p
  | .corePllUnlock | .crossingErr | .powerSample _ | .tjMax _ | .thermTrip | .olsBlockReset _ => true
  | .sensorFail id => decide (id < 72)
  | .railWarn rail | .railFault rail => decide (rail < 6)
  | .vpHoldDown p _ => okPort p
  | .ceLateRead c _ => decide (c < 4)
  | .rcRead off wide => okBar0 off wide
  | .registerWrite off wide _ => okBar0 off wide
  | .vstbyUp | .vstbyLoss => true
  | .hostLinkUp rate width flit =>
    decide (3 ≤ rate) && decide (rate ≤ 5) && [1, 2, 4, 8, 16].contains width && flit == (rate == 5)
  | .hotRefresh k _ => decide (k < 8)
  | .phyRetrain slice _ => decide (slice < 32)
  | .thermTripRelease _ | .mctpControl _ _ | .pldmPlatformRequest _ _ => true
  | .tapInstruction ir => decide (ir < 256)

end Sys2Proof
end

