-- ==== Sys2Proof/Machine/Ops.lean ====
section
/-!
DEFINITION. The named reads and writes of the state: one accessor and one update per table, counters, host interrupts and
the class-C side of the fault collector (R431–R436).
-/
namespace Sys2Proof.Machine

/-! ### Tables -/

def State.port (s : State) (p : Nat) : Port := Tab.get {} s.ports p
def State.setPort (s : State) (p : Nat) (v : Port) : State := { s with ports := Tab.put s.ports p v }
def State.modPort (s : State) (p : Nat) (f : Port → Port) : State := s.setPort p (f (s.port p))

def State.queue (s : State) (q : Nat) : Queue := Tab.get {} s.queues q
def State.setQueue (s : State) (q : Nat) (v : Queue) : State := { s with queues := Tab.put s.queues q v }
def State.modQueue (s : State) (q : Nat) (f : Queue → Queue) : State := s.setQueue q (f (s.queue q))

def State.ring (s : State) (r : Nat) : Ring := Tab.get {} s.rings r
def State.setRing (s : State) (r : Nat) (v : Ring) : State := { s with rings := Tab.put s.rings r v }
def State.modRing (s : State) (r : Nat) (f : Ring → Ring) : State := s.setRing r (f (s.ring r))

def State.ctrl (s : State) (k : Nat) : MemPort := Tab.get {} s.mem.ports k
def State.setCtrl (s : State) (k : Nat) (v : MemPort) : State := { s with mem.ports := Tab.put s.mem.ports k v }
def State.modCtrl (s : State) (k : Nat) (f : MemPort → MemPort) : State := s.setCtrl k (f (s.ctrl k))

/-- Region `n`; region 15 is always valid (R134). -/
def State.region (s : State) (n : Nat) : Region := Tab.get { valid := n == 15 } s.mem.regions n
def State.setRegion (s : State) (n : Nat) (v : Region) : State := { s with mem.regions := Tab.put s.mem.regions n v }

def State.cxl (s : State) (j : Nat) : Cxl := Tab.get {} s.mem.cxl j
def State.setCxl (s : State) (j : Nat) (v : Cxl) : State := { s with mem.cxl := Tab.put s.mem.cxl j v }
def State.modCxl (s : State) (j : Nat) (f : Cxl → Cxl) : State := s.setCxl j (f (s.cxl j))

def State.lease (s : State) (l : Nat) : LeaseAcct := Tab.get {} s.mem.leases l
def State.setLease (s : State) (l : Nat) (v : LeaseAcct) : State := { s with mem.leases := Tab.put s.mem.leases l v }

def State.chan (s : State) (c : Nat) : Channel := Tab.get {} s.dma.channels c
def State.setChan (s : State) (c : Nat) (v : Channel) : State := { s with dma.channels := Tab.put s.dma.channels c v }
def State.modChan (s : State) (c : Nat) (f : Channel → Channel) : State := s.setChan c (f (s.chan c))

def State.landWin (s : State) (w : Nat) : LandWin := Tab.get {} s.dma.windows w
def State.setLandWin (s : State) (w : Nat) (v : LandWin) : State := { s with dma.windows := Tab.put s.dma.windows w v }

def State.me (s : State) (m : Nat) : MatrixEngine := Tab.get {} s.mes m
def State.setMe (s : State) (m : Nat) (v : MatrixEngine) : State := { s with mes := Tab.put s.mes m v }

def State.cl (s : State) (c : Nat) : Cluster := Tab.get {} s.clusters c
def State.setCl (s : State) (c : Nat) (v : Cluster) : State := { s with clusters := Tab.put s.clusters c v }
def State.core (s : State) (c k : Nat) : Core := Tab.get {} (s.cl c).cores k
def State.setCore (s : State) (c k : Nat) (v : Core) : State :=
  s.setCl c { s.cl c with cores := Tab.put (s.cl c).cores k v }
def State.modCore (s : State) (c k : Nat) (f : Core → Core) : State := s.setCore c k (f (s.core c k))

def State.tally (s : State) (t : Nat) : Tally := Tab.get {} s.sync.tallies t
def State.setTally (s : State) (t : Nat) (v : Tally) : State := { s with sync.tallies := Tab.put s.sync.tallies t v }
def State.barrier (s : State) (b : Nat) : Barrier := Tab.get {} s.sync.barriers b
def State.setBarrier (s : State) (b : Nat) (v : Barrier) : State := { s with sync.barriers := Tab.put s.sync.barriers b v }
def State.wake (s : State) (w : Nat) : Wake := Tab.get {} s.sync.wakes w
def State.setWake (s : State) (w : Nat) (v : Wake) : State := { s with sync.wakes := Tab.put s.sync.wakes w v }

def State.tgt (s : State) (t : Nat) : Target := Tab.get {} s.fc.targets t
def State.setTgt (s : State) (t : Nat) (v : Target) : State := { s with fc.targets := Tab.put s.fc.targets t v }
def State.resetOf (s : State) (i : Nat) : ResetState := Tab.get {} s.fc.resets i
def State.setResetOf (s : State) (i : Nat) (v : ResetState) : State := { s with fc.resets := Tab.put s.fc.resets i v }
def State.unit (s : State) (i : Nat) : UnitReg := Tab.get {} s.graft.units i
def State.setUnit (s : State) (i : Nat) (v : UnitReg) : State := { s with graft.units := Tab.put s.graft.units i v }
def State.modUnit (s : State) (i : Nat) (f : UnitReg → UnitReg) : State := s.setUnit i (f (s.unit i))

def State.cueQueue (s : State) (g : Nat) : CueQueue := Tab.get {} s.cueQ g
def State.setCueQueue (s : State) (g : Nat) (v : CueQueue) : State := { s with cueQ := Tab.put s.cueQ g v }

/-- `f` applied for each of `xs` in turn. -/
def forEach {α : Type} (xs : List α) (f : α → State → State) (s : State) : State := xs.foldl (fun st x => f x st) s

/-- `f` where `c` holds. -/
def State.onlyIf (s : State) (c : Bool) (f : State → State) : State := if c then f s else s

/-- The list with `x` in its ascending place, once. -/
def insertAsc (x : Nat) : List Nat → List Nat
  | [] => [x]
  | y :: ys => if x < y then x :: y :: ys else if x = y then y :: ys else y :: insertAsc x ys

/-! ### Counters (R525) -/

/-- The value of the RC counter at BAR0 address `a`. -/
def State.counter (s : State) (a : Nat) : Word := Tab.get 0 s.counters a

/-- R525: the counter at `a` rises by `n`, saturating at 0xFFFF_FFFF. -/
def State.countN (s : State) (a n : Nat) : State :=
  { s with counters := Tab.put s.counters a (BitVec.ofNat 32 (satAdd 0xFFFFFFFF (s.counter a).toNat n)) }

/-- R525: the counter at `a` rises by 1. -/
def State.count (s : State) (a : Nat) : State := s.countN a 1

/-! ### Time -/

/-- The Tactus unit is LOCKED or in HOLDOVER: the stamp is published (Table REG-2). -/
def State.timed (s : State) : Bool :=
  match s.tact.state with
  | .locked | .holdover => true
  | .free | .acquiring | .steppedOut => false

/-- The beat stamp as software, records and the log see it: 0 while it is not valid (Table REG-2). -/
def State.stamp (s : State) : Stamp := if s.timed then s.tact.stamp else 0

/-- The beat in measure of the engine's own count. -/
def State.beat (s : State) : Nat := s.tact.stamp.toNat % 4096
/-- The phrase number of the engine's own count. -/
def State.phrase (s : State) : Nat := s.tact.stamp.toNat / 2 ^ 18

/-! ### Free values -/

/-- The state after one free value has been drawn. -/
def State.drawn (s : State) : State := { s with fresh := s.fresh + 1 }

/-! ### Units (Tables FLT-3, FLT-4 and GRF-1) -/

/-- A unit's kind and index (Table FLT-3). -/
def UnitId.code : UnitId → Nat × Nat
  | .vp n => (0, n) | .me n => (1, n) | .cl n => (2, n) | .ce n => (3, n) | .cxl n => (4, n) | .member => (5, 0)
  | .queue n => (6, n) | .chan n => (7, n) | .sync => (8, 0) | .host => (9, 0) | .stack n => (10, n)
  | .espalier => (11, 0) | .mgmt => (12, 0) | .engine => (0xFF, 0)

/-- The 16-bit UNIT field. -/
def UnitId.word (u : UnitId) : Nat := 256 * u.code.1 + u.code.2

/-- The unit that a kind and an index name. -/
def UnitId.ofCode (kind idx : Nat) : Option UnitId :=
  match kind with
  | 0 => if idx < 16 then some (.vp idx) else none
  | 1 => if idx < 16 then some (.me idx) else none
  | 2 => if idx < 8 then some (.cl idx) else none
  | 3 => if idx < 4 then some (.ce idx) else none
  | 4 => if idx < 4 then some (.cxl idx) else none
  | 5 => if idx = 0 then some .member else none
  | 6 => if idx < 256 then some (.queue idx) else none
  | 7 => if idx < 64 then some (.chan idx) else none
  | 8 => if idx = 0 then some .sync else none
  | 9 => if idx = 0 then some .host else none
  | 10 => if idx < 8 then some (.stack idx) else none
  | 11 => if idx = 0 then some .espalier else none
  | 12 => if idx = 0 then some .mgmt else none
  | 0xFF => some .engine
  | _ => none

/-- The FC_TGT index of a unit (Table FLT-4). -/
def UnitId.target : UnitId → Option Nat
  | .vp n => some n | .me n => some (16 + n) | .cl n => some (32 + n) | .ce n => some (40 + n)
  | .cxl n => some (44 + n) | .member => some 48 | .sync => some 49 | .host => some 50
  | .queue n => some (64 + n) | .chan n => some (320 + n)
  | .stack _ | .espalier | .mgmt | .engine => none

/-- The unit at FC_TGT index `i`. -/
def unitAt (i : Nat) : UnitId :=
  if i < 16 then .vp i else if i < 32 then .me (i - 16) else if i < 40 then .cl (i - 32) else if i < 44 then .ce (i - 40)
  else if i < 48 then .cxl (i - 44) else if i = 48 then .member else if i = 49 then .sync else if i = 50 then .host
  else if i < 320 then .queue (i - 64) else .chan (i - 320)

/-- R199: the FC_TGT index of the CE, ME or cluster that queue `q` is bound to. -/
def unitOfQueue (q : Nat) : Option Nat :=
  if q < 128 then some (40 + q / 32) else if q < 192 then some (16 + (q - 128) / 4)
  else if q < 208 then none else if q < 240 then some (32 + (q - 208) / 4) else none

/-- R199: the queues bound to the unit at FC_TGT index `i`. -/
def queuesOf (i : Nat) : List Nat := (List.range 256).filter fun q => unitOfQueue q == some i

/-- A unit injects and accepts nothing while it is DRAIN, QUIESCED, OUT or RETURNING (R125, R201). -/
def UnitState.stopped : UnitState → Bool
  | .drain | .quiesced | .out | .returning => true
  | .in_ | .probation => false

/-! ### Host interrupts (R493) -/

/-- The vector's table entry is masked, or the function cannot send (R483, R493). -/
def State.msixBlocked (s : State) (v : Nat) : Bool :=
  s.host.funcMask || (Tab.get {} s.host.vectors v).masked || !s.host.msixEnable || !s.host.bme || s.host.d3hot
    || !s.host.linkUp

/-- The state with vector `v` pending. -/
def State.pendVector (s : State) (v : Nat) : State := { s with host.pba := insertAsc v s.host.pba }

/-- The state after the message of vector `v` has been sent. -/
def State.sendVector (s : State) (v : Nat) : State :=
  { s with host.sent := Tab.put s.host.sent v (Tab.get 0 s.host.sent v + 1) }

/-! ### The fault log and class-C events (R431–R436) -/

/-- R436: the entry takes the next SEQ, in the ring and in its mirror; an entry not yet read that it overwrites sets
LOG_LOST. R449: class-U and class-F entries go to the standby ring too. -/
def Collector.push (c : Collector) (e : LogEntry) : Collector :=
  let e := { e with seq := c.wptr }
  let lost := decide (512 ≤ (c.wptr - c.rptr).toNat) && (Tab.find c.log (c.wptr.toNat % 512)).isSome
  { c with
    log := Tab.put c.log (c.wptr.toNat % 512) e
    mirror := Tab.put c.mirror (c.wptr.toNat % 8192) e
    wptr := c.wptr + 1
    irqStatus := if lost then c.irqStatus ||| 0x08#6 else c.irqStatus
    standby := if e.cls = .c then c.standby else (e :: c.standby).take 64 }

/-- The log entry of an event: RCOUNT and TSTATE are those of its target after the event (R434). -/
def State.entry (s : State) (det : Nat) (cls : FClass) (conseq injected : Bool) (unit : UnitId) (tgt : Option Nat)
    (detail : Nat) : LogEntry :=
  { stamp := s.stamp, cycle := s.tact.cycle, detector := det, cls := cls, conseq := conseq, injected := injected
    unit := unit
    rcount := (tgt.map fun t => (s.tgt t).recoveries).getD 0
    tstate := (tgt.map fun t => (s.tgt t).state).getD .serving
    detail := BitVec.ofNat 64 detail, seq := 0 }

/-- The state with one entry written to the log. -/
def State.log (s : State) (e : LogEntry) : State := { s with fc := s.fc.push e }

/-- R431: FC_DET_CNT of the detector. -/
def State.countDet (s : State) (det : Nat) : State := s.count (Cnt.det det)

/-- R432: the group's class-C count has reached its nonzero threshold. -/
def State.threshHit (s : State) (g : Nat) : Bool :=
  let th := Tab.get 0 s.fc.grpThresh g
  th != 0 && decide (th.toNat ≤ (s.counter (Cnt.grp g)).toNat)

/-- A class-C event without the interrupts it may cause: the counts of R431, the log rule of R435 and the threshold bit of
R432. -/
def State.eventC' (s : State) (det : Nat) (unit : UnitId) (tgt : Option Nat) (detail : Nat) (conseq injected : Bool) : State :=
  let s := { (s.countDet det).count (Cnt.grp (det / 8)) with mgmt.eventsC := s.mgmt.eventsC + 1 }
  let s := if s.fc.logged.contains (det, unit) then s
    else { (s.log (s.entry det .c conseq injected unit tgt detail)) with fc.logged := (det, unit) :: s.fc.logged }
  if s.threshHit (det / 8) then { s with fc.cthresh := s.fc.cthresh ||| (1#32 <<< (det / 8)) } else s

/-- R432: where the event of detector `det` has set its group's threshold bit, the message of VEC_C is sent; one that is blocked
becomes pending, with the effect `blocked`. -/
def State.threshSend (before s : State) (det : Nat) (blocked : State → State) : State :=
  if s.fc.irqEn && !bitAt before.fc.cthresh.toNat (det / 8) && bitAt s.fc.cthresh.toNat (det / 8) then
    if s.host.pba.contains s.fc.vecC then s
    else if s.msixBlocked s.fc.vecC then blocked (s.pendVector s.fc.vecC) else s.sendVector s.fc.vecC
  else s

/-- A class-C event with its threshold message (R432). A message that is blocked is itself a class-C event (R493), so the
depth of nesting is bounded: a vector that is already pending merges. -/
def State.eventCN : Nat → State → Nat → UnitId → Option Nat → Nat → Bool → Bool → State
  | 0, s, det, unit, tgt, detail, conseq, injected =>
    State.threshSend s (s.eventC' det unit tgt detail conseq injected) det fun t => t
  | n + 1, s, det, unit, tgt, detail, conseq, injected =>
    State.threshSend s (s.eventC' det unit tgt detail conseq injected) det fun t =>
      State.eventCN n (t.count (Cnt.host 5)) Det.msiBlocked .host none t.fc.vecC false false

/-- R493: a source fires vector `v`. -/
def State.fire (s : State) (v : Nat) : State :=
  if s.host.pba.contains v then s
  else if s.msixBlocked v then
    State.eventCN 2 ((s.pendVector v).count (Cnt.host 5)) Det.msiBlocked .host none v false false
  else s.sendVector v

/-- R433: bits of FC_IRQ_STATUS are set, and the message of VEC_U is sent when any of them was 0. -/
def State.irqSet (s : State) (bits : BitVec 6) : State :=
  let new := bits &&& ~~~ s.fc.irqStatus
  let s := { s with fc.irqStatus := s.fc.irqStatus ||| bits }
  if new != 0 && s.fc.irqEn then s.fire s.fc.vecU else s

/-- LOG_LOST set by a log write also sends VEC_U (R433). -/
def State.logIrq (before s : State) : State :=
  if !bitAt before.fc.irqStatus.toNat 3 && bitAt s.fc.irqStatus.toNat 3 && s.fc.irqEn then s.fire s.fc.vecU else s

/-- A shadow is open on the unit at FC_TGT index `i` (R442). -/
def State.inShadow (s : State) (i : Nat) : Bool :=
  let r := s.resetOf i
  r.inReset.isSome || r.shadow.isSome

/-- Table FLT-6: the units whose open shadow would cover an event of detector `det` on `unit` with target `tgt`; `via` names
the units whose flits or windows it concerns. -/
def State.coverers (s : State) (det : Nat) (unit : UnitId) (tgt : Option Nat) (via : List Nat) : List Nat :=
  let g := det / 8
  let ofTgt := match tgt.map unitAt with
    | some (.queue q) => if g == 8 || g == 13 || g == 22 then (unitOfQueue q).toList else []
    | some (.chan c) => if g == 20 then ((s.chan c).cmd.bind fun x => unitOfQueue x.1).toList else []
    | _ => []
  let ofUnit := match unit with
    | .vp n => if g == 2 || g == 3 || g == 4 then [n] else []
    | .cxl j => if g == 25 then [44 + j] else []
    | _ => []
  let ofVia := if g == 6 then via else if g == 8 then via.filter fun i => decide (44 ≤ i) else []
  ofTgt ++ ofUnit ++ ofVia

/-- R443: the event is covered by an open shadow. -/
def State.covered (s : State) (det : Nat) (unit : UnitId) (tgt : Option Nat) (via : List Nat) : Bool :=
  (s.coverers det unit tgt via).any s.inShadow

/-- A class-C event of detector `det` about `unit`, with the DETAIL its chapter reports. -/
def State.eventC (s : State) (det : Nat) (unit : UnitId) (detail : Nat := 0) (via : List Nat := []) : State :=
  State.logIrq s (State.eventCN 2 s det unit unit.target detail (s.covered det unit unit.target via) false)

/-! ### Class-U and class-F events (R433–R439) -/

/-- What the collector lets a class-U event do besides logging it (R438). -/
inductive React where
  | quiet      -- consequential, or its target is HELD: no reaction
  | react      -- the detector's reaction
  | hold       -- the target has become HELD: the hold effect in place of a block reset
deriving DecidableEq, Repr

/-- R433, R434: a class-U event logged about a target as it now stands, with its bits of FC_IRQ_STATUS. -/
def State.logU (s : State) (det : Nat) (unit : UnitId) (tgt : Option Nat) (detail : Nat) (injected : Bool) (bits : BitVec 6) : State :=
  let s' := { (s.countDet det).log (s.entry det .u false injected unit tgt detail) with mgmt.eventsU := s.mgmt.eventsU + 1 }
  (State.logIrq s s').irqSet bits

/-- R438: a class-U event changes the state of its target: CONTAINED, or HELD when its recoveries are used up. -/
def State.contain (s : State) (det : Nat) (unit : UnitId) (t detail : Nat) (injected : Bool) : State × React :=
  let g := s.tgt t
  match g.state with
  | .held =>
    ((s.setTgt t { g with lastDetector := det }).logU det unit (some t) detail injected 0x01#6, .quiet)
  | .serving | .contained =>
    if g.recoveries < s.fc.recoveryLimit then
      ((s.setTgt t { g with state := .contained, quiet := 0, lastDetector := det, named := true }).logU det unit (some t)
        detail injected 0x01#6, .react)
    else
      (((s.setTgt t { g with state := .held, lastDetector := det, named := true }).logU det unit (some t) detail injected
        0x03#6).eventC Det.holdEntered unit, .hold)

/-- R438, R443: a class-U event of detector `det` about `unit`, with its target; its counts, log entry and interrupts, and
what it lets the detector's reaction do. -/
def State.eventU (s : State) (det : Nat) (unit : UnitId) (tgt : Option Nat) (detail : Nat) (via : List Nat) : State × React :=
  if s.covered det unit tgt via then
    (State.logIrq s (State.eventCN 2 s det unit tgt detail true false), .quiet)
  else
    match tgt with
    | none => (s.logU det unit none detail false 0x01#6, .react)
    | some t => s.contain det unit t detail false

end Sys2Proof.Machine
end

