-- ==== Sys2Proof/Machine/PageCode.lean ====
section
/-!
DEFINITION. The page code (R130, R131): Reed–Solomon over GF(2^12), generated by x^12 + x^6 + x^4 + x + 1. Codeword
position i is the coefficient of x^i: parity at 0 to 2t - 1, data symbol j at 2t + j. The code is linear, so what the
decoder answers depends on the errors alone; errors are lists of (position, XOR value), one entry a position.
-/
namespace Sys2Proof.Machine.PageCode

/-- x · a in GF(2^12). -/
def timesX (a : Nat) : Nat := if 2 * a < 4096 then 2 * a else (2 * a) ^^^ 0x1053

/-- The product of `a` and `b`, `b` taken from bit `n - 1` down. -/
def mulBits : Nat → Nat → Nat → Nat → Nat
  | 0, _, _, acc => acc
  | n + 1, a, b, acc => mulBits n a b (if bitAt b n then timesX acc ^^^ a else timesX acc)

/-- The product in GF(2^12). -/
def mul (a b : Nat) : Nat := mulBits 12 a b 0

/-- `a` raised to `e`, the exponent taken from bit `n - 1` down. -/
def powBits : Nat → Nat → Nat → Nat → Nat
  | 0, _, _, acc => acc
  | n + 1, a, e, acc => powBits n a e (if bitAt e n then mul (mul acc acc) a else mul acc acc)

/-- `a` raised to `e`; the multiplicative order divides 4,095. -/
def pow (a e : Nat) : Nat := powBits 12 a (e % 4095) 1

/-- The inverse of a nonzero `a`. -/
def inv (a : Nat) : Nat := pow a 4094

/-- α to the `e`; α is a root of the field polynomial. -/
def alpha (e : Nat) : Nat := pow 2 e

/-- A polynomial's value at `x`; coefficients from x^0 up. -/
def eval (p : List Nat) (x : Nat) : Nat := p.foldr (fun c acc => mul acc x ^^^ c) 0

/-- The sum of two polynomials. -/
def addPoly : List Nat → List Nat → List Nat
  | [], q => q
  | p, [] => p
  | a :: p, b :: q => (a ^^^ b) :: addPoly p q

/-- `c · x^m · p`. -/
def shiftScale (c m : Nat) (p : List Nat) : List Nat := List.replicate m 0 ++ p.map (mul c)

/-- The generator polynomial (x - α)(x - α²)…(x - α^n), coefficients from x^0 up (R130). -/
def generator : Nat → List Nat
  | 0 => [1]
  | n + 1 => addPoly (0 :: generator n) ((generator n).map (mul (alpha (n + 1))))

/-- One step of division by the monic generator: the remainder register takes the next data symbol, highest first. -/
def divStep (g : List Nat) (r : List Nat) (d : Nat) : List Nat :=
  let q := r.getLastD 0 ^^^ d
  addPoly (0 :: r.dropLast) ((g.dropLast).map (mul q))

/-- R130: the 2t parity symbols of data symbols `d`, the remainder of Σ dⱼ x^(2t + j) divided by the generator. -/
def parity (t : Nat) (d : List Nat) : List Nat :=
  d.reverse.foldl (divStep (generator (2 * t))) (List.replicate (2 * t) 0)

/-- The 2t syndromes of an error pattern: its values at α to α^2t. -/
def syndromes (t : Nat) (e : List (Nat × Nat)) : List Nat :=
  (List.range (2 * t)).map fun j => e.foldl (fun acc x => acc ^^^ mul x.2 (alpha (x.1 * (j + 1)))) 0

/-- The shortest register that generates the syndromes: (connection polynomial, length) after the syndromes from `n` on. -/
def register (syn : List Nat) : Nat → Nat → List Nat → List Nat → Nat → Nat → Nat → List Nat × Nat
  | 0, _, c, _, l, _, _ => (c, l)
  | k + 1, n, c, b, l, m, bd =>
    let d := (List.range (l + 1)).foldl (fun acc i => acc ^^^ mul (c.getD i 0) (syn.getD (n - i) 0)) 0
    if d = 0 then register syn k (n + 1) c b l (m + 1) bd
    else
      let c' := addPoly c (shiftScale (mul d (inv bd)) m b)
      if 2 * l ≤ n then register syn k (n + 1) c' c (n + 1 - l) 1 d
      else register syn k (n + 1) c' b l (m + 1) bd

/-- The corrections that the located errors call for, or none when the syndromes show more than t errors. -/
def located (t : Nat) (syn : List Nat) : Option (List (Nat × Nat)) :=
  let (c, l) := register syn (2 * t) 0 [1] [1] 0 1 1
  let roots := (List.range 4095).filter fun i => eval c (alpha (4095 - i)) == 0
  if t < l ∨ roots.length ≠ l then none
  else
    let omega := (List.range (2 * t)).map fun n =>
      (List.range (n + 1)).foldl (fun acc i => acc ^^^ mul (c.getD i 0) (syn.getD (n - i) 0)) 0
    let deriv := (List.range c.length).map fun i => if i % 2 = 0 then c.getD (i + 1) 0 else 0
    some (roots.map fun i =>
      let x := alpha (4095 - i)
      (i, mul (eval omega x) (inv (eval deriv x))))

/-- R131: the decoder refuses a correction outside the codeword or in bits [11:4] of symbol 1,365. -/
def allowed (t : Nat) (c : List (Nat × Nat)) : Bool :=
  c.all fun x => decide (x.1 < 1366 + 2 * t) && (decide (x.1 ≠ 2 * t + 1365) || decide (x.2 < 16))

/-- What a decoder of correction power `t` finds in a codeword with errors `e`: none when uncorrectable, else the symbols it
corrected and the errors that remain (a pattern of more than t errors can decode to another codeword). -/
def decode (t : Nat) (e : List (Nat × Nat)) : Option (Nat × List (Nat × Nat)) :=
  if e.length ≤ t then (if allowed t e then some (e.length, []) else none)
  else
    match located t (syndromes t e) with
    | none => none
    | some c =>
      if allowed t c then
        let left := (e.map fun x => (x.1, x.2 ^^^ ((c.find? fun y => y.1 == x.1).map (·.2)).getD 0))
          ++ c.filter fun y => (e.find? fun x => x.1 == y.1).isNone
        some (c.length, left.filter fun x => x.2 != 0)
      else none

/-- The correction power of a strength (Table MEM-2). -/
def power (strength : Nat) : Nat := 4 * 2 ^ (strength % 4)

/-- The parity bytes of a strength (Table MEM-2). -/
def parityBytes (strength : Nat) : Nat := 12 * 2 ^ (strength % 4)

/-- The bytes of a page that errors left in data symbols change: (offset in the page, XOR value) of each touched byte. -/
def dataFlips (t : Nat) (left : List (Nat × Nat)) : List (Nat × Nat) :=
  left.flatMap fun x =>
    if x.1 < 2 * t then []
    else
      let bit := 12 * (x.1 - 2 * t)
      let v := x.2 * 2 ^ (bit % 8)
      [(bit / 8, v % 256), (bit / 8 + 1, v / 256 % 256), (bit / 8 + 2, v / 65536)].filter
        fun y => y.2 != 0 && decide (y.1 < 2048)

/-- Errors `new` XORed into a stored codeword that already holds errors `old`. -/
def combineErrs (old new : List (Nat × Nat)) : List (Nat × Nat) :=
  ((old.map fun x => (x.1, x.2 ^^^ ((new.find? fun y => y.1 == x.1).map (·.2)).getD 0))
    ++ new.filter fun y => (old.find? fun x => x.1 == y.1).isNone).filter fun x => x.2 != 0

end Sys2Proof.Machine.PageCode
end

