-- ==== Sys2Proof/Machine/MemOps.lean ====
section
/-!
DEFINITION. Memory as the rest of the engine reads and writes it: the address map (R126–R129), regions (R134), whole-page
reads with correction and poison (R147–R152), whole-page and narrow writes (R141, R145), and leases (R162). Bytes are kept
by physical page: slice and offset for tier 1, so that a placement change shows the same bytes at other addresses (R127).
-/
namespace Sys2Proof.Machine

/-- 64 MiB. -/
def mib64 : Nat := 0x4000000

/-- R132: usable bytes of raw capacity `c` at a ceiling. -/
def usableOf (c strength : Nat) : Nat := c * 2048 / (2048 + PageCode.parityBytes strength) / mib64 * mib64

/-- Usable bytes of a tier-1 slice at the ceiling in force (Table MEM-3). -/
def State.sliceUsable (s : State) : Nat := usableOf 0x300000000 s.mem.t1
/-- Usable bytes of expander `j` at the ceiling in force. -/
def State.cxlUsable (s : State) (j : Nat) : Nat := usableOf ((s.cxl j).raw * mib64) s.mem.t2

/-- R127: the slice and slice offset of a tier-1 address. -/
def State.slice (s : State) (a : Nat) : Option (Nat × Nat) :=
  let us := s.sliceUsable
  if s.uniform then
    if 32 * us ≤ a then none else some (a / 4096 % 32, a / 131072 * 4096 + a % 4096)
  else
    let o := a % 0x600000000
    if 2 * us ≤ o then none else some (2 * (a / 0x600000000) + o / 4096 % 2, o / 8192 * 4096 + o % 4096)

/-- R126–R128: the controller (stack 0–7, tier-2 port 8–11) and the physical location of an address, or none where it is
unbacked or not memory. A tier-1 location is numbered as the UNIFORM address of its slice and offset. -/
def State.locate (s : State) (a : Nat) : Option (Nat × Nat) :=
  if a < 0x6000000000 then
    (s.slice a).map fun x => (x.1 / 4, x.2 / 4096 * 131072 + x.1 * 4096 + x.2 % 4096)
  else if a < 0x10000000000 then none
  else if a < 0x30000000000 then
    let j := (a - 0x10000000000) / 2 ^ 39
    if (s.cxl j).backed && decide ((a - 0x10000000000) % 2 ^ 39 < s.cxlUsable j) then some (8 + j, a) else none
  else none

/-- Every byte of the extent is backed (R126–R128). -/
def State.backed (s : State) (a n : Nat) : Bool :=
  if n = 0 then true
  else if a < 0x6000000000 then
    if s.uniform then decide (a + n ≤ 32 * s.sliceUsable)
    else decide (a % 0x600000000 + n ≤ 2 * s.sliceUsable)
  else if a < 0x10000000000 then false
  else if a < 0x30000000000 then
    let j := (a - 0x10000000000) / 2 ^ 39
    (s.cxl j).backed && decide ((a - 0x10000000000) % 2 ^ 39 + n ≤ s.cxlUsable j)
  else false

/-- The extent lies in the usable area of tier 1. -/
def State.inTier1 (s : State) (a n : Nat) : Bool := decide (a < 0x6000000000) && s.backed a n

/-- R134: the region of an address. -/
def State.regionOf (s : State) (a : Nat) : Nat :=
  ((List.range 15).find? fun n =>
    let r := s.region n
    r.valid && decide (r.base ≤ a) && decide (a < r.limit)).getD 15

/-- The policy of the address's region is STRICT. -/
def State.isStrict (s : State) (a : Nat) : Bool := (s.region (s.regionOf a)).strict

/-- The strength of the tier's ceiling at an address. -/
def State.ceiling (s : State) (a : Nat) : Nat := if a < 0x6000000000 then s.mem.t1 else s.mem.t2

/-- R134, R137: the strength at which the page of an address is coded. -/
def State.strengthAt (s : State) (a : Nat) : Nat :=
  let n := s.regionOf a
  if n = 15 then s.ceiling a
  else match s.mem.recode with
    | some rc => if rc.region = n && decide (a / 2048 * 2048 < rc.ptr) then rc.strength else (s.region n).strength
    | none => (s.region n).strength

/-- One piece for each page that an extent touches. -/
def pieces : Nat → Nat → Nat → List (Nat × Nat)
  | 0, _, _ => []
  | f + 1, a, n =>
    if n = 0 then [] else
      let k := min n (2048 - a % 2048)
      (a, k) :: pieces f (a + k) (n - k)

/-- R141: the parts of an extent, split at page boundaries. -/
def extent (a n : Nat) : List (Nat × Nat) := pieces (n / 2048 + 2) a n

/-- The narrow parts of an extent: those that cover less than a page. -/
def narrowParts (a n : Nat) : List (Nat × Nat) := (extent a n).filter fun x => decide (x.2 < 2048)

/-- R145: the extent has a narrow part in a STRICT region. The address is that part's. -/
def State.strictPart (s : State) (a n : Nat) : Option Nat :=
  ((narrowParts a n).find? fun x => s.isStrict x.1).map (·.1)

/-- The byte of device address `a` as stored; an unbacked address holds none. -/
def State.peek (s : State) (a : Nat) : Option Byte := (s.locate a).map fun x => s.ram.read x.2

/-- `n` bytes as stored, 0 where nothing is backed. -/
def State.peekN (s : State) (a : Nat) : Nat → List Byte
  | 0 => []
  | n + 1 => (s.peek a).getD 0 :: State.peekN s (a + 1) n

/-- The unit that the log names for controller `k`. -/
def ctrlUnit (k : Nat) : UnitId := if k < 8 then .stack k else .cxl (k - 8)

/-- R129: an access to an unbacked address is counted. -/
def State.unbackedEvent (s : State) (a : Nat) : State := (s.count Cnt.unbacked).eventC Det.addrUnbacked .engine (a / 2048)

/-- Page `pg` is the most recently used of the decoded-page buffer (R139); a page that holds a lock is not evicted. -/
def MemPort.touch (c : MemPort) (pg : Nat) : MemPort :=
  let b := pg :: c.buffer.filter fun x => x != pg
  if b.length ≤ 128 then { c with buffer := b }
  else
    match b.reverse.find? fun x => x != pg && !(c.locks.any fun l => l.page == x) with
    | some v => { c with buffer := b.filter fun x => x != v }
    | none => c

/-- The buffer without page `pg`. -/
def MemPort.forget (c : MemPort) (pg : Nat) : MemPort := { c with buffer := c.buffer.filter fun x => x != pg }

/-- The bytes of page `pg` with the flips of a decoded error pattern applied. -/
def flipBytes (m : Mem) (pg : Nat) (fs : List (Nat × Nat)) : Mem :=
  fs.foldl (fun m x => m.write (pg + x.1) ((m.read (pg + x.1)) ^^^ BitVec.ofNat 8 x.2)) m

/-- R152: a page that needs a second correction within one scrub pass is recorded in MEM_REPAIR_CAND. -/
def State.repairCand (s : State) (k pg : Nat) : State :=
  let pass := (s.ctrl k).scrubPasses
  let again := Tab.find s.mem.corrected pg == some pass
  let s := { s with mem.corrected := Tab.put s.mem.corrected pg pass }
  if again && decide (k < 8) then
    let e : DWord := BitVec.ofNat 64 (k % 8 + 8 * (Config.rowOf pg).toNat)
    { s with mem.repairCand := Tab.put s.mem.repairCand (s.mem.repairWptr.toNat % 64) e
             mem.repairWptr := s.mem.repairWptr + 1 }.eventC Det.repairCand (ctrlUnit k) (pg / 2048)
  else s

/-- R147: a correctable page is delivered corrected, counted, and queued for write-back unless the queue is full. -/
def State.correct (s : State) (k a pg n : Nat) (left : List (Nat × Nat)) (errs : List (Nat × Nat)) : State :=
  let s := (s.count (Cnt.memErr k Cnt.corrPages)).countN (Cnt.memErr k Cnt.corrSymbols) n
  let s := { s with
    ram := flipBytes s.ram pg (PageCode.dataFlips (PageCode.power (s.strengthAt a)) left)
    mem.errs := Tab.put s.mem.errs pg (PageCode.combineErrs errs left) }
  let s := s.eventC Det.corrPages (ctrlUnit k) (pg / 2048)
  let c := s.ctrl k
  let s := if c.writeBack.contains pg then s
    else if c.writeBack.length < 64 then s.setCtrl k { c with writeBack := c.writeBack ++ [pg] }
    else (s.count (Cnt.memErr k Cnt.wbSkip)).eventC Det.wbSkip (ctrlUnit k) (pg / 2048)
  s.repairCand k pg

/-- R139, R147–R150: the page of address `a`, at controller `k` and physical page `pg`, is read. The answer is none when its
data is delivered, else the detector of the failure. -/
def State.fetchPage (s : State) (a k pg : Nat) : State × Option Nat :=
  if s.mem.poison.contains pg then (s.count (Cnt.memErr k Cnt.poisonReads), some Det.poisonRead)
  else if (s.ctrl k).buffer.contains pg then (s.modCtrl k (·.touch pg), none)
  else
    match Tab.find s.mem.errs pg with
    | none => (s.modCtrl k (·.touch pg), none)
    | some errs =>
      match PageCode.decode (PageCode.power (s.strengthAt a)) errs with
      | none => ({ s with mem.poison := insertAsc pg s.mem.poison }, some Det.pageUe)
      | some (n, left) => ((s.correct k a pg n left errs).modCtrl k (·.touch pg), none)

/-- What an operand read gave. -/
inductive Loaded where
  | data (bs : List Byte)
  | ue (page det : Nat)         -- page address ÷ 2,048, and the detector
  | unbacked (a : Nat)
deriving DecidableEq, Repr

/-- The parts of an extent read in ascending order; the first failure stops the read. -/
def State.loadParts (s : State) : List (Nat × Nat) → List Byte → State × Loaded
  | [], acc => (s, .data acc)
  | (a, n) :: ps, acc =>
    match s.locate a with
    | none => (s, .unbacked a)
    | some (k, ph) =>
      match s.fetchPage a k (ph / 2048 * 2048) with
      | (s', none) => State.loadParts s' ps (acc ++ s'.ram.readN ph n)
      | (s', some d) => (s', .ue (a / 2048) d)

/-- R138: a read of `n` bytes at device address `a`. -/
def State.load (s : State) (a n : Nat) : State × Loaded := s.loadParts (extent a n) []

/-- What a write met. -/
inductive Stored where
  | ok
  | strict (page : Nat)
  | ue (page : Nat)
  | unbacked (a : Nat)
deriving DecidableEq, Repr

/-- R161, R536: an armed injection corrupts the codeword of the page just written. -/
def State.injectOn (s : State) (a k pg : Nat) : State :=
  if s.mem.injArmed && (s.locate s.mem.injAddr.toNat).map (fun x => x.2 / 2048 * 2048) == some pg then
    let e := (List.range s.mem.injCount).map fun j => (s.mem.injStart + j * s.mem.injStride, s.mem.injPattern)
    (({ s with mem.injArmed := false
               mem.errs := Tab.put s.mem.errs pg (PageCode.combineErrs [] e) }).modCtrl k (·.forget pg)
      |>.count (Cnt.memErr k Cnt.inject)).eventC Det.inject (ctrlUnit k) (a / 2048)
  else s

/-- R141, R148, R150: one whole page written. It clears the poison bit and replaces a waiting write-back. -/
def State.storePage (s : State) (a k ph : Nat) (bs : List Byte) : State :=
  let s := { s with ram := s.ram.writeN ph bs, mem.poison := s.mem.poison.filter fun x => x != ph
                    mem.errs := Tab.del s.mem.errs ph }
  (s.modCtrl k fun c => { c with writeBack := c.writeBack.filter fun x => x != ph }).injectOn a k ph

/-- R142: a narrow part merged into its page: the page is read, the bytes are merged, and the page is encoded again. -/
def State.storeNarrow (s : State) (a k ph : Nat) (bs : List Byte) : State × Stored :=
  let pg := ph / 2048 * 2048
  match s.fetchPage a k pg with
  | (s', some _) => (s', .ue (a / 2048))
  | (s', none) =>
    let s' := { s' with ram := s'.ram.writeN ph bs, mem.errs := Tab.del s'.mem.errs pg }
    ((s'.modCtrl k fun c => { c with writeBack := c.writeBack.filter fun x => x != pg }).injectOn a k pg, .ok)

/-- One part of a write, within one page, under the policy of its region (R141, R145). -/
def State.storePart (s : State) (a : Nat) (bs : List Byte) : State × Stored :=
  match s.locate a with
  | none => (s, .unbacked a)
  | some (k, ph) =>
    if bs.length = 2048 then (s.storePage a k ph bs, .ok)
    else if s.isStrict a then
      ((s.count (Cnt.memErr k Cnt.narrowWrite)).eventC Det.narrowWrite (ctrlUnit k) (a / 2048), .strict (a / 2048))
    else s.storeNarrow a k ph bs

/-- The parts of a write in ascending order; the first failure stops the write. -/
def State.storeParts (s : State) : List (Nat × Nat) → List Byte → State × Stored
  | [], _ => (s, .ok)
  | (a, n) :: ps, bs =>
    match s.storePart a (bs.take n) with
    | (s', .ok) => State.storeParts s' ps (bs.drop n)
    | (s', r) => (s', r)

/-- R141: a write of `bs` at device address `a`. -/
def State.store (s : State) (a : Nat) (bs : List Byte) : State × Stored := s.storeParts (extent a bs.length) bs

/-! ### Leases (R162) -/

/-- R162: lease consumer kinds of Table SCR-8. -/
inductive Consumer where
  | ce | stream | me | cluster | dma | host
deriving DecidableEq, Repr

/-- The code of a consumer kind. -/
def Consumer.code : Consumer → Nat
  | .ce => 1 | .stream => 2 | .me => 3 | .cluster => 4 | .dma => 5 | .host => 6

/-- R162: the lowest-numbered lease that an access is under. -/
def State.leaseFor (s : State) (c : Consumer) (unit : Nat) (write : Bool) (a : Nat) : Option Nat :=
  match s.locate a with
  | none => none
  | some (k, _) =>
    let g := (s.region (s.regionOf a)).group
    ((s.leases.find? fun x =>
      let l := x.2
      l.stack == k && l.group == g && l.consumer == c.code && (l.unit == unit || l.unit == 0xFF)
        && bitAt l.dir (if write then 1 else 0)).map (·.1))

/-- R166: an access of the extent is under a lease whose stack or tier-2 port is in breach. -/
def State.breached (s : State) (c : Consumer) (unit : Nat) (write : Bool) (a n : Nat) : Bool :=
  (List.range 12).any (fun k => (s.ctrl k).breach) && (extent a n).any fun x =>
    match s.locate x.1 with
    | some (k, _) => (s.ctrl k).breach && (s.leaseFor c unit write x.1).isSome
    | none => false

end Sys2Proof.Machine
end

