-- ==== Sys2Proof/Machine/DmaRegs.lean ====
section
/-!
DEFINITION. A DMA channel's register set (Table DMA-1), the entries of a GATHER or SCATTER list (Table DMA-4), and the extents that
a transfer names.
-/
namespace Sys2Proof.Machine

namespace DmaSet
def op (d : DmaSet) : Nat := fld d.opctl.toNat 0 3
/-- PWIDTH: the bytes of a FILL pattern. -/
def width (d : DmaSet) : Nat := 2 ^ fld d.opctl.toNat 3 2
def aHost (d : DmaSet) : Bool := bitAt d.opctl.toNat 5
def bHost (d : DmaSet) : Bool := bitAt d.opctl.toNat 6
def remote (d : DmaSet) : Bool := bitAt d.opctl.toNat 7
def waitw (d : DmaSet) : Bool := bitAt d.opctl.toNat 8
def resultEn (d : DmaSet) : Bool := bitAt d.opctl.toNat 9
/-- START: 0 SOFTWARE, 1 AT_BEAT, 2 ON_DONE, 3 ON_TALLY (Table DMA-3). -/
def start (d : DmaSet) : Nat := fld d.opctl.toNat 10 2
def prio (d : DmaSet) : Nat := fld d.opctl.toNat 12 3
def ring (d : DmaSet) : Nat := fld d.opctl.toNat 15 6
def sigInc (d : DmaSet) : Nat := fld d.opctl.toNat 21 3
def sigTally (d : DmaSet) : Nat := fld d.opctl.toNat 24 12
def tag (d : DmaSet) : Nat := fld d.opctl.toNat 36 16
def member (d : DmaSet) : Nat := fld d.opctl.toNat 52 10
/-- ON_DONE: the channel; ON_TALLY: the tally. -/
def eventChan (d : DmaSet) : Nat := fld d.event.toNat 0 6
def eventTally (d : DmaSet) : Nat := fld d.event.toNat 0 12
def eventStamp (d : DmaSet) : Stamp := BitVec.ofNat 56 d.event.toNat
/-- GATHER or SCATTER. -/
def listed (d : DmaSet) : Bool := d.op == 3 || d.op == 4
/-- LEN: bytes, or entries. -/
def count (d : DmaSet) : Nat := if d.listed then fld d.len.toNat 0 32 else d.len.toNat
/-- The list address. -/
def list (d : DmaSet) : Nat := if d.op = 3 then d.src.toNat else d.dst.toNat
/-- R388: the landing window and the byte offset within it. -/
def window (d : DmaSet) : Nat := fld d.dst.toNat 58 6
def winOff (d : DmaSet) : Nat := fld d.dst.toNat 0 58
end DmaSet

/-- R372: the register set of a data command. Its header supplies the record and the signal. -/
def setOfCommand (c : BitVec 512) : DmaSet :=
  let op := fld c.toNat 0 8 - 0x30
  let at8 := fun o => fld c.toNat (8 * o) 64
  let flags := fld c.toNat 320 5
  { src := BitVec.ofNat 64 (if op = 1 then 0 else at8 16)
    dst := BitVec.ofNat 64 (at8 24)
    len := BitVec.ofNat 64 (if op = 3 ∨ op = 4 then fld c.toNat 256 32 else at8 32)
    aux := BitVec.ofNat 64 (if op = 1 then at8 16 else if op = 2 then at8 48 else 0)
    opctl := BitVec.ofNat 64 (op + fld c.toNat 360 2 * 2 ^ 3 + flags * 2 ^ 5 + fld c.toNat 57 3 * 2 ^ 12
      + fld c.toNat 336 10 * 2 ^ 52) }

/-- A list entry. -/
structure ListEntry where
  addr : Nat
  len : Nat
  host : Bool
  reserved : Bool
deriving DecidableEq, Repr

/-- Table DMA-4: the entry in 16 bytes. -/
def listEntry (bs : List Byte) : ListEntry :=
  { addr := leAt bs 0 8, len := leAt bs 8 4, host := bitAt (leAt bs 12 4) 0, reserved := leAt bs 12 4 / 2 != 0 }

/-- The entries of a list as its bytes stand in memory. -/
def State.listAt (s : State) (d : DmaSet) : List ListEntry :=
  if d.listed then (List.range d.count).map fun i => listEntry (s.peekN (d.list + 16 * i) 16) else []

/-- Bytes that a transfer moves: LEN, or the sum of its entries' lengths. -/
def State.moves (s : State) (d : DmaSet) : Nat :=
  if d.listed then (s.listAt d).foldl (fun a e => a + e.len) 0 else d.count

/-- The rule of Table DMA-4 that an entry breaks: ERR_CAUSE 1 for a reserved bit, 4 for an unbacked extent (R380). -/
def State.entryFault (s : State) (e : ListEntry) : Option Nat :=
  if e.reserved then some 1 else if !e.host && !s.backed e.addr e.len then some 4 else none

/-- The device extents that a transfer reads, apart from a list. -/
def State.readExtents (s : State) (d : DmaSet) : List (Nat × Nat) :=
  match d.op with
  | 0 => if d.aHost then [] else [(d.src.toNat, d.count)]
  | 3 => ((s.listAt d).filter fun e => !e.host).map fun e => (e.addr, e.len)
  | 4 => if d.aHost then [] else [(d.src.toNat, s.moves d)]
  | _ => []

/-- The device extents of this member that a transfer writes. -/
def State.writeExtents (s : State) (d : DmaSet) : List (Nat × Nat) :=
  match d.op with
  | 0 | 3 => if d.remote || d.bHost then [] else [(d.dst.toNat, s.moves d)]
  | 1 => if d.bHost then [] else [(d.dst.toNat, d.count)]
  | 4 => ((s.listAt d).filter fun e => !e.host).map fun e => (e.addr, e.len)
  | _ => []

/-- Two extents share a byte. -/
def meets (x y : Nat × Nat) : Bool := decide (x.1 < y.1 + y.2) && decide (y.1 < x.1 + x.2)

/-- R253: source and destination of the transfer overlap. -/
def State.overlaps (s : State) (d : DmaSet) : Bool :=
  (s.writeExtents d).any fun w => (s.readExtents d).any fun r => meets w r

/-- Bytes of memory that hold undefined contents from now on. -/
def State.scribble (s : State) (f : Nat → Byte) (xs : List (Nat × Nat)) : State :=
  let put := fun (m : Mem) (x : Nat × Nat) =>
    (List.range x.2).foldl (fun m i =>
      match s.locate (x.1 + i) with
      | some y => m.write y.2 (f (x.1 + i))
      | none => m) m
  { s with ram := xs.foldl put s.ram }

end Sys2Proof.Machine
end

