-- ==== Sys2Proof/Machine/QueueOps.lean ====
section
/-!
DEFINITION. The sequencer's shared operations: a command's fields, HEAD, halting, issue, completion, the end of a head
waiter (R425), and the tallies, barriers and wake wires they meet.
-/
namespace Sys2Proof.Machine

/-! ### Statuses (Table QUE-5) and causes (Table QUE-7) -/

namespace St
def ok : Nat := 0x00
def okWideFallback : Nat := 0x01
def fetchUe : Nat := 0x10
def dataUe : Nat := 0x11
def memberLost : Nat := 0x20
def segmentCrc : Nat := 0x21
def residue : Nat := 0x22
def slotLost : Nat := 0x23
def abandoned : Nat := 0x30
def timeout : Nat := 0x31
def deadlock : Nat := 0x32
def badCommand : Nat := 0x40
def narrowWrite : Nat := 0x41
def leaseBreach : Nat := 0x42
def compareMismatch : Nat := 0x50
def abortedGraft : Nat := 0x60

/-- R215: the success class. -/
def success (st : Nat) : Bool := st == ok || st == okWideFallback || st == leaseBreach || st == compareMismatch
end St

/-! ### A command's fields (Table QUE-2) -/

/-- The `n`-byte operand at byte `o` of a command (R230). -/
def cf (c : BitVec 512) (o n : Nat) : Nat := fld c.toNat (8 * o) (8 * n)

def opcodeOf (c : BitVec 512) : Nat := fld c.toNat 0 8
def tagOf (c : BitVec 512) : Nat := fld c.toNat 8 16
def waitTally (c : BitVec 512) : Nat := fld c.toNat 24 12
def sigTally (c : BitVec 512) : Nat := fld c.toNat 36 12
def ringOf (c : BitVec 512) : Nat := fld c.toNat 48 6
def sigInc (c : BitVec 512) : Nat := fld c.toNat 54 3
def prioOf (c : BitVec 512) : Nat := fld c.toNat 57 3
def waitCmp (c : BitVec 512) : Nat := fld c.toNat 60 2
def orderedOf (c : BitVec 512) : Bool := bitAt c.toNat 62
def quietOf (c : BitVec 512) : Bool := bitAt c.toNat 63
def waitThresh (c : BitVec 512) : Nat := cf c 8 8

/-- The tag that ERR_DETAIL carries for a cancelled command. -/
def cancelled : Nat := 0xFFFFFFFF
/-- ERR_DETAIL of a TIMEOUT that waited on no object (Table QUE-7). -/
def noObject : Nat := 0xFFFFFFFE

/-- Table QUE-3: the header's wait is met by the tally's current value. The reserved mode 3 has no condition, so that its
command reaches the check that refuses it. -/
def State.headerMet (s : State) (c : BitVec 512) : Bool :=
  let v := (s.tally (waitTally c)).value.toNat
  match waitCmp c with
  | 1 => decide (waitThresh c ≤ v)
  | 2 => v == waitThresh c
  | _ => true

/-- R245: WAIT's operand condition holds on the tally's current value. -/
def State.waitMet (s : State) (c : BitVec 512) : Bool :=
  let v := (s.tally (fld (cf c 16 2) 0 12)).value.toNat
  let th := cf c 24 8
  match cf c 18 1 with
  | 0 => decide (th ≤ v)
  | 1 => v == th
  | 2 => v != th
  | _ => decide (v < th)

/-! ### HEAD and halting (R207, R225) -/

/-- The earlier of two indices (R203). -/
def earlier (a b : Word) : Word := if idxLater b a then b else a

/-- R207: the earliest of FETCH, every fetched command not completed and every pinned index. -/
def Queue.headIdx (q : Queue) : Word :=
  q.pin.foldl earlier (q.inflight.foldl (fun a x => earlier a x.idx) q.fetch)

/-- The queue is empty: FETCH equals TAIL and nothing is in flight. -/
def Queue.empty (q : Queue) : Bool := q.fetch == q.tail && q.inflight.isEmpty

/-- R207: HEAD written to Q_HEAD_ADDR, as one 8-byte narrow write over the service path. -/
def State.writeHead (s : State) (q : Nat) : State :=
  let h := (s.queue q).headIdx
  let s := s.modQueue q fun x => { x with headWritten := h }
  match s.store (s.queue q).headAddr.toNat (leBytes h.toNat 8) with
  | (s', .ok) => s'
  | (s', .strict _) => s'
  | (s', .ue page) => (s'.eventU Det.rmwUe (.queue q) (some (64 + q)) page []).1
  | (s', .unbacked a) => s'.unbackedEvent a

/-- R207: HEAD is written when it has advanced by 16 or more, or when the queue becomes empty. -/
def State.headDue (s : State) (q : Nat) : State :=
  let x := s.queue q
  if 16 ≤ (x.headIdx - x.headWritten).toNat ∨ (x.empty ∧ x.headIdx ≠ x.headWritten) then s.writeHead q else s

/-- R225: the queue halts from RUNNING, or, when `force`, from SUSPENDED too: cause, index, and HEAD written. -/
def State.haltQueue (s : State) (q : Nat) (cause : HaltCause) (idx : Word) (force : Bool) : State :=
  let x := s.queue q
  if x.state = .running ∨ (force ∧ x.state = .suspended) then
    (s.setQueue q { x with state := .halted, haltCause := cause, haltIndex := idx }).writeHead q
  else s

/-- R225: a failure halts the queue when ERR_POLICY is HALT. -/
def State.failPolicy (s : State) (q : Nat) (idx : Word) (status : Nat) : State :=
  if St.success status || (s.queue q).errContinue then s else s.haltQueue q .failed idx false

/-- The command at the head of a queue, with its index. -/
def Queue.headCmd (q : Queue) : Option (Word × BitVec 512) :=
  match q.fetched with
  | f :: _ => if f.ue.isNone && f.idx == q.fetch then some (f.idx, f.cmd) else none
  | [] => none

/-- The object a head waits on: a tally, or a barrier context with bit 31 set (Table QUE-7). A head waiter is held by its
header wait, by WAIT or by ARRIVE_WAIT. -/
def State.headWaits (s : State) (q : Nat) : Option Nat :=
  let x := s.queue q
  match x.headCmd with
  | none => none
  | some (_, c) =>
    if !s.headerMet c then some (waitTally c)
    else if opcodeOf c = 0x20 && !s.waitMet c then some (fld (cf c 16 2) 0 12)
    else if opcodeOf c = 0x24 then
      match x.head.bind (·.arrived) with
      | some b => if (x.head.map (·.released)).getD false then none else some (2 ^ 31 + b)
      | none =>
        let b := s.barrier (cf c 16 1)
        if b.state = .armed ∧ b.arrived.contains q then some (2 ^ 31 + cf c 16 1) else none
    else none

/-- Every queue that the state lists. -/
def State.queueIds (s : State) : List Nat := s.queues.map (·.1)

/-! ### Wake wires (R412–R414) -/

/-- R365: wire `w` sets its bit in olswpend of every core that enables it. -/
def State.fireWire (s : State) (w : Nat) : State :=
  { s with clusters := Tab.mapVals (fun _ cl => { cl with cores := Tab.mapVals (fun _ k =>
      if bitAt k.wake.toNat w then { k with wpend := k.wpend ||| (1#64 <<< w) } else k) cl.cores }) s.clusters }

/-- R413: one firing of a TALLY_GE wire adds STEP to its threshold. -/
def State.fireGe (s : State) (w : Nat) : State :=
  let x := s.wake w
  (s.setWake w { x with thresh := x.thresh + BitVec.ofNat 64 x.step }).fireWire w

/-- The wires of one kind and object. -/
def State.wiresOf (s : State) (k : WakeKind) (obj : Nat) : List Nat :=
  (s.sync.wakes.filter fun x => x.2.kind == k && x.2.object == obj).map (·.1)

/-- R413: an update of a tally fires each TALLY_GE wire whose threshold its value has reached. -/
def State.wakeTally (s : State) (t : Nat) : State :=
  forEach (s.wiresOf .tallyGe t)
    (fun w st => if (st.wake w).thresh.toNat ≤ (st.tally t).value.toNat then st.fireGe w else st) s

/-- R414: the wires of an object that becomes ABANDONED fire once and show it. -/
def State.wakeAbandoned (s : State) (k : WakeKind) (obj : Nat) : State :=
  forEach (s.wiresOf k obj)
    (fun w st => ({ st with sync.wakeAbandoned := st.sync.wakeAbandoned ||| (1#64 <<< w) }.fireWire w).eventC
      Det.wakeAbandoned .sync w) s

/-! ### Tallies (R398, R420) -/

/-- R427: an update of an object that a watched head waits on restarts the deadlock detector's count. -/
def State.dlTouch (s : State) (obj : Nat) : State :=
  if s.sync.dlMask.any fun q => s.headWaits q == some obj then { s with sync.dlCount := 0 } else s

/-- R420: a signal to an ABANDONED tally is dropped and counted. -/
def State.sigDropped (s : State) (t : Nat) : State := (s.count (Cnt.syn 8)).eventC Det.sigDropped .sync t

/-- Table DMA-3: an update of tally `t` to `v` meets the start condition of an ARMED channel. -/
def Channel.seeTally (t v : Nat) (c : Channel) : Channel :=
  if c.state = .armed ∧ c.active.start = 3 ∧ c.active.eventTally = t ∧ c.active.thresh.toNat ≤ v then { c with met := some true }
  else c

/-- R398: a tally's new value, with the waits, wires and channels that see it. -/
def State.putTally (s : State) (t : Nat) (v : DWord) : State :=
  let x := s.tally t
  if x.abandoned then s.sigDropped t
  else
    let s := ((s.dlTouch t).setTally t { x with value := v }).wakeTally t
    { s with dma.channels := Tab.mapVals (fun _ c => c.seeTally t v.toNat) s.dma.channels }

/-- R398: an addition to a tally, modulo 2^64. -/
def State.addTally (s : State) (t n : Nat) : State := s.putTally t ((s.tally t).value + BitVec.ofNat 64 n)

/-! ### Issue and completion -/

/-- The state that the sequencer keeps about a head reached in this beat. -/
def State.freshHead (s : State) (x : Queue) : Queue :=
  { x with head := if x.fetched.isEmpty then none else some { since := s.now } }

/-- A command leaves the head: FETCH advances, and the next fetched command is at the head. -/
def State.advance (s : State) (q : Nat) : State :=
  let x := s.queue q
  s.setQueue q (s.freshHead { x with fetch := x.fetch + 1, fetched := x.fetched.drop 1, progress := true })

/-- R237: a branch sets FETCH, and the commands fetched beyond it are discarded. -/
def State.branchTo (s : State) (q : Nat) (target : Word) : State :=
  s.modQueue q fun x => { x with fetch := target, fetched := [], head := none }

/-- Collective and compute commands run on the unit that their queue is bound to (Table QUE-4). -/
def isUnitOp (op : Nat) : Bool := decide (0x40 ≤ op) && decide (op ≤ 0x55)

/-- The command at the head issues and stays in flight. `cmd` holds its operands with IDX applied. -/
def State.issue (s : State) (q : Nat) (idx : Word) (cmd : BitVec 512) (chan : Option Nat) : State :=
  let s' := (s.advance q).modQueue q fun x =>
    { x with inflight := x.inflight ++ [{ tok := s.issued, idx := idx, cmd := cmd, since := s.now, chan := chan }] }
  let s' := { s' with issued := s.issued + 1 }
  match unitOfQueue q with
  | some u => if isUnitOp (opcodeOf cmd) then { s' with lastIssued := Tab.put s'.lastIssued u q } else s'
  | none => s'

/-- R209, R269: the command writes a record: QUIET leaves out that of a command whose status is OK, but for a MARK with IRQ. -/
def needsRecord (c : BitVec 512) (d : Done) : Bool :=
  !(quietOf c && d.status == St.ok) || (opcodeOf c == 0x61 && bitAt (cf c 20 1) 0)

/-- R376: an ARMED channel whose start waits on the completion of channel `ch`. -/
def Channel.seeDone (ch : Nat) (ok : Bool) (c : Channel) : Channel :=
  if c.state = .armed ∧ c.active.start = 2 ∧ c.active.eventChan = ch then { c with met := some ok } else c

/-- R376: the channels that wait on the completion of channel `ch` see it. -/
def State.seeDone (s : State) (ch status : Nat) : State :=
  { s with dma.channels := Tab.mapVals (fun _ c => c.seeDone ch (St.success status)) s.dma.channels }

/-- Table QUE-4: a data command gives up the channel that it still holds. -/
def State.freeChan (s : State) (q : Nat) (x : Inflight) (status : Nat) : State :=
  match x.chan with
  | some ch =>
    let c := s.chan ch
    if c.cmd = some (q, x.tok) then
      (s.setChan ch { c with state := .idle, cmd := none, done := none, remote := none, lastStatus := status }).seeDone ch status
    else s
  | none => s

/-- R216, R217: a command gives up its in-flight place, and signals its tally when its status is in the success class. -/
def State.retire (s : State) (q : Nat) (x : Inflight) (d : Done) : State :=
  let s := s.freeChan q x d.status
  let s := s.modQueue q fun y => { y with inflight := y.inflight.filter fun z => z.tok != x.tok, progress := true }
  let s := if St.success d.status && sigInc x.cmd != 0 then s.addTally (sigTally x.cmd) (sigInc x.cmd) else s
  s.headDue q

/-- R215: issue `tok` of queue `q` has finished with an outcome; the first outcome stands. It retires at once when it writes no
record, and waits for COMMAND_COMPLETE otherwise. A failure follows ERR_POLICY. -/
def State.finish (s : State) (q tok : Nat) (d : Done) : State :=
  match (s.queue q).inflight.find? fun x => x.tok == tok && x.done.isNone with
  | none => s
  | some x =>
    let d := { d with order := s.finished }
    let s := { (s.modQueue q fun y => { y with
      inflight := y.inflight.map fun z => if z.tok == tok then { z with done := some d } else z
      progress := true }) with finished := s.finished + 1 }
    (if needsRecord x.cmd d then s else s.retire q x d).failPolicy q x.idx d.status

/-- A command completes at its head, issued or not (R210, R231, R425). -/
def State.completeHead (s : State) (q : Nat) (idx : Word) (cmd : BitVec 512) (d : Done) : State :=
  (s.issue q idx cmd none).finish q s.issued d

/-- A command that breaks a rule checked at issue completes with BAD_COMMAND (R210, Table QUE-7). -/
def State.badCommand (s : State) (q : Nat) (idx : Word) (cmd : BitVec 512) (cause detail : Nat) : State :=
  (s.completeHead q idx cmd { status := St.badCommand, cause := cause, detail := detail }).eventC Det.badCommand (.queue q) detail

/-- Table MAM-12: the instruction may complete with this status (TIMEOUT, ABANDONED or DEADLOCK). -/
def mayEnd (opcode status : Nat) : Bool :=
  if status = St.abandoned then
    decide (opcode ∈ [0x10, 0x11, 0x20, 0x21, 0x23, 0x24, 0x30, 0x31, 0x32, 0x33, 0x34, 0x40, 0x41, 0x42, 0x43, 0x44, 0x45,
      0x50, 0x51, 0x52, 0x53, 0x54, 0x55])
  else if status = St.timeout then
    decide (opcode ∈ [0x20, 0x24, 0x25, 0x40, 0x41, 0x42, 0x43, 0x44, 0x45, 0x55])
  else if status = St.deadlock then decide (opcode ∈ [0x20, 0x24])
  else false

/-- R425: the halt cause of a head that cannot complete with the status that ends its wait. -/
def waitCause (status : Nat) : HaltCause :=
  if status = St.abandoned then .waitAbandoned else if status = St.deadlock then .waitDeadlock else .watchdog

/-- R425: ABANDONED, DEADLOCK or TIMEOUT ends the waiter at the head of a RUNNING queue. -/
def State.endHead (s : State) (q status detail : Nat) : State :=
  let x := s.queue q
  match x.state, x.headCmd with
  | .running, some (idx, c) =>
    if mayEnd (opcodeOf c) status then s.completeHead q idx c { status := status, detail := detail }
    else s.haltQueue q (waitCause status) idx false
  | _, _ => s

/-! ### Objects that become ABANDONED (R419, R420) -/

/-- R419, R420: a tally becomes ABANDONED: its head waiters end and its wires fire. -/
def State.abandonTally (s : State) (t : Nat) : State :=
  let x := s.tally t
  if x.abandoned then s
  else
    let waiters := s.queueIds.filter fun q => s.headWaits q == some t
    forEach waiters (fun q st => st.endHead q St.abandoned t)
      ((s.setTally t { x with abandoned := true }).wakeAbandoned .tallyGe t)

/-! ### Barriers (R410, R419) -/

/-- R419, R420: a barrier context becomes ABANDONED with a cause (Table SYN-6). -/
def State.abandonBarrier (s : State) (b cause : Nat) : State :=
  let x := s.barrier b
  if x.state = .abandoned then s
  else
    let waiters := s.queueIds.filter fun q => s.headWaits q == some (2 ^ 31 + b)
    forEach waiters (fun q st => st.endHead q St.abandoned (2 ^ 31 + b))
      ((s.setBarrier b { x with state := .abandoned, cause := cause }).wakeAbandoned .barrier b)

/-- R419: every CHORUS context that is ARMED, and that `sel` selects, becomes ABANDONED. -/
def State.abandonChorus (s : State) (cause : Nat) (sel : Barrier → Bool) : State :=
  let bs := (s.sync.barriers.filter fun x => x.2.chorus && x.2.state == .armed && sel x.2).map (·.1)
  forEach bs (fun b st => st.abandonBarrier b cause) s

/-- R410: the ARRIVE_WAIT at the head is released if its arrival stands at context `b`. -/
def Queue.releaseFrom (q : Queue) (b : Nat) : Queue :=
  match q.head with
  | some h => if h.arrived = some b then { q with head := some { h with released := true } } else q
  | none => q

/-- R410: a context releases: GEN rises, the arrivals restart, the ARRIVE_WAITs that arrived are released and its wires
fire. -/
def State.releaseBarrier (s : State) (b : Nat) : State :=
  let x := s.barrier b
  let s := s.dlTouch (2 ^ 31 + b)
  let s := s.setBarrier b { x with gen := x.gen + 1, arrivals := 0, arrived := [] }
  let s := { s with queues := Tab.mapVals (fun _ q => q.releaseFrom b) s.queues }
  forEach (s.wiresOf .barrier b) (fun w st => st.fireWire w) s

/-- R419: every tally and context of owner `o` becomes ABANDONED with cause OWNER_RESET. -/
def State.abandonOwned (s : State) (o : Owner → Bool) : State :=
  let ts := (s.sync.tallies.filter fun x => o x.2.owner && !x.2.abandoned).map (·.1)
  let bs := (s.sync.barriers.filter fun x => o x.2.owner && x.2.state != .abandoned).map (·.1)
  forEach bs (fun b st => st.abandonBarrier b 1) (forEach ts (fun t st => st.abandonTally t) s)

end Sys2Proof.Machine
end

