-- ==== Sys2Proof/Machine/FaultOps.lean ====
section
/-!
DEFINITION. Reactions to class-U and class-F events: cancelling a unit's work, block resets and their shadows (R441–R444),
DRAIN (R344), the safe state (R446) and the last-gasp record (R449).
-/
namespace Sys2Proof.Machine

/-- The main domain has power and the engine is not in the safe state. -/
def State.live (s : State) : Bool := s.sys.pwrgd && !s.fc.safe

/-- R454: the sequencers, CEs, MEs, clusters and DMA accept work. -/
def State.released (s : State) : Bool := s.live && s.sys.run

/-- R447: a host access to a register other than the collector's has an effect only outside the safe state. -/
def State.whenLive (s : State) (f : State → State) : State := if s.live then f s else s

/-- R447, R454: a write to the queue, DMA or sync block has an effect only after release, outside the safe state. -/
def State.whenReleased (s : State) (f : State → State) : State := if s.released then f s else s

/-- R328, R346: the graft controller's message, sent when a command ends, a graft is decided or a unit changes state. -/
def State.graftMsg (s : State) : State := if s.graft.irqEn then s.fire s.graft.vector else s

/-- The state after a unit's change of state (Table GRF-7). -/
def State.setUnitState (s : State) (i : Nat) (st : UnitState) : State := (s.modUnit i fun u => { u with state := st }).graftMsg

/-! ### Ending work in flight -/

/-- The outcome of a cancelled command or transfer (Table QUE-7). -/
def cancelDone : Done := { status := St.abandoned, detail := cancelled }

/-- R384, Table DMA-6: a channel's transfer stops at the burst boundary with ABANDONED; its open trail closes. -/
def Channel.stop (c : Channel) : Channel :=
  { c with state := .completing, done := some cancelDone, remote := none, trail := none, hostWait := none, hostA := none, hostB := none }

/-- The stop of channel `ch`, which gives up the engine. -/
def State.stopChan (s : State) (ch : Nat) : State :=
  let s := s.modChan ch (·.stop)
  if s.dma.holder = some ch then { s with dma.holder := none } else s

/-- R367: a core is reset; what it wrote and did not clean is lost. -/
def resetCore : Core := {}

/-- R367: the cores of a cluster that `sel` selects and that are BUSY are reset, each counted as CL_KILL. -/
def State.killCores (s : State) (c : Nat) (sel : Nat → Bool) : State :=
  forEach (List.range 8) (fun k st =>
    if sel k && (st.core c k).state == .busy then
      ((st.setCore c k resetCore).count (Cnt.cl c 0)).eventC Det.clKill (.cl c) k
    else st) s

/-- R441.2, R368: every core of a cluster is reset; its SRAM keeps its contents. -/
def State.resetCores (s : State) (c : Nat) : State :=
  let s := s.killCores c fun _ => true
  let s := forEach (List.range 8) (fun k st => st.setCore c k resetCore) s
  s.setCl c { s.cl c with launches := [] }

/-- R324, R424, R441: a collective sends nothing more, frees its staging and descant contexts, and its later slots and
window messages are dropped without being counted. -/
def Collectives.dropColl (c : Collectives) (part optag : Nat) : Collectives :=
  match c.colls.find? fun x => x.part == part && x.optag == optag with
  | none => c
  | some x =>
    { c with
      colls := c.colls.filter fun y => !(y.part == part && y.optag == optag)
      ctxs := c.ctxs.filter fun y => !(y.owner == .command x.queue x.tok || y.owner == .lateness x.queue x.tok)
      muted := (part, optag) :: c.muted.filter fun y => y != (part, optag) }

/-- The descant contexts that a command holds are freed. -/
def Collectives.dropCtxs (c : Collectives) (q tok : Nat) : Collectives :=
  { c with ctxs := c.ctxs.filter fun y => !(y.owner == .command q tok) }

/-- R441.2: the CE of index `i` forgets every collective it serves; their later slots are dropped without being counted. -/
def Collectives.resetCe (c : Collectives) (i : Nat) : Collectives :=
  let gone := (c.colls.filter fun x => x.part % 4 == i).map fun x => (x.part, x.optag)
  { c with colls := c.colls.filter fun x => x.part % 4 != i
           early := c.early.filter fun e => e.part % 4 != i
           muted := gone ++ c.muted.filter fun y => !gone.contains y }

/-- The state after a command in flight has been stripped of the unit it runs on. -/
def State.stripCommand (s : State) (q : Nat) (x : Inflight) : State :=
  let s := match x.chan with
    | some c => if (s.chan c).cmd = some (q, x.tok) then s.stopChan c else s
    | none => s
  let op := opcodeOf x.cmd
  if 0x40 ≤ op ∧ op ≤ 0x45 then
    { s with ce := (s.ce.dropColl (cf x.cmd 40 1) (fld (cf x.cmd 44 2) 0 12)).dropCtxs q x.tok }
  else if op = 0x55 then
    let c := (q - 208) / 4
    let s := s.killCores c fun k => bitAt (cf x.cmd 40 1) k
    s.setCl c { s.cl c with launches := (s.cl c).launches.filter fun l => !(l.queue == q && l.tok == x.tok) }
  else s

/-- Every command in flight on a queue, and not finished, completes with ABANDONED. -/
def State.cancelQueue (s : State) (q : Nat) : State :=
  forEach ((s.queue q).inflight.filter fun x => x.done.isNone)
    (fun x st => (st.stripCommand q x).finish q x.tok cancelDone) s

/-- R344: a RUNNING queue is suspended; HEAD is written. -/
def State.suspendQueue (s : State) (q : Nat) : State :=
  if (s.queue q).state = .running then (s.modQueue q fun x => { x with state := .suspended }).writeHead q else s

/-- R160: an expander whose link fails leaves its window unbacked; accesses that wait at its port end. -/
def State.unbackCxl (s : State) (j : Nat) : State :=
  ((s.modCxl j fun x => { x with linkUp := false, backed := false }).modCtrl (8 + j) fun c =>
    { c with waiting := [], decoding := [], lockWait := [], locks := [], buffer := [], writeBack := [] })

/-! ### DRAIN (R344, Table GRF-8) -/

/-- The queues of a unit, and every queue for the whole member. -/
def queuesUnder (i : Nat) : List Nat := if i = 48 then List.range 240 else queuesOf i

/-- R356: the top-k unit is disarmed and its lists are lost. -/
def MatrixEngine.disarm (m : MatrixEngine) : MatrixEngine := { m with topk := none }

/-- Table GRF-8: what entering DRAIN does to a unit's work. -/
def State.drainWork (s : State) (i : Nat) : State :=
  if i < 16 then s
  else if i < 44 then
    let s := forEach (queuesOf i) (fun q st => (st.suspendQueue q).cancelQueue q) s
    if i < 32 then s.setMe (i - 16) (s.me (i - 16)).disarm else s
  else if i < 48 then s.unbackCxl (i - 44)
  else forEach (queuesUnder 48) (fun q st => st.suspendQueue q) s

/-- R344: a unit that is IN enters DRAIN. -/
def State.enterDrain (s : State) (i : Nat) : State :=
  if (s.unit i).state = .in_ then (s.drainWork i).setUnitState i .drain else s

/-! ### The safe state (R446–R449) -/

/-- R449, Table FLT-8: what the last-gasp record holds. -/
def State.gaspNow (s : State) (det : Nat) (unit : UnitId) (safe powerLoss : Bool) : LastGasp :=
  { stamp := s.stamp, detector := det, safe := safe, powerLoss := powerLoss, later := false, unit := unit
    seq := s.fc.wptr - 1, tj := s.power.tj, power := s.power.power, tactState := s.tact.state.code
    grpCounts := (List.range 32).map fun g => s.counter (Cnt.grp g), ring := s.fc.standby.reverse }

/-- R449, Table FLT-8: the last-gasp record, or only LATER in one that has not been cleared. -/
def State.gasp (s : State) (det : Nat) (unit : UnitId) (safe powerLoss : Bool) : State :=
  let r := match s.fc.lastGasp with
    | some g => { g with later := true }
    | none => s.gaspNow det unit safe powerLoss
  { s with fc.lastGasp := some r }

/-- A voice port goes DOWN: its link state is lost. -/
def Port.toDown (p : Port) (now : Nat) : Port :=
  { p with state := .down, since := now, aligner := [], ingress := [], fwd := none, tails := [], tailsLost := 0
           matched := false, echoT1 := none, echoDue := false, rxArrival := none, tailPhase := none }

/-- Table FLT-7: the engine enters the safe state on a class-F event. -/
def State.enterSafe (s : State) (det : Nat) (unit : UnitId) : State :=
  let s := s.gasp det unit true (det == Det.pwrgdLost)
  let s := { s with fc.safe := true, sys.safeN := false, sys.selfRefresh := true, tact.outTc := none }
  let s := if det = Det.corePllUnlock ∨ det = Det.crossingErr then
      { s with ports := Tab.mapVals (fun _ p => p.toDown s.now) s.ports } else s
  s.irqSet 0x20#6

/-- R428, R446: a class-F event. In the safe state a further one is logged and changes nothing else. -/
def State.raiseF (s : State) (det : Nat) (unit : UnitId) (detail : Nat) : State :=
  let s' := { (s.countDet det).log (s.entry det .f false false unit none detail) with mgmt.eventsF := s.mgmt.eventsF + 1 }
  let s' := State.logIrq s s'
  if s.fc.safe then s' else s'.enterSafe det unit

/-! ### Block resets (R441–R444, R527) -/

/-- R441.1: every command in flight on the unit's queues completes with ABANDONED, the queues halt with UNIT_RESET, and the
objects they own become ABANDONED. -/
def State.resetQueues (s : State) (i : Nat) : State :=
  forEach (queuesOf i) (fun q st =>
    ((st.haltQueue q .unitReset (st.queue q).fetch true).cancelQueue q).abandonOwned (fun o => o == .queue q)) s

/-- R441.2: the unit's own state. An ME's SRAM becomes undefined. -/
def State.resetBlock (s : State) (i : Nat) : State :=
  if i < 16 then s.modPort i (·.toDown s.now)
  else if i < 32 then
    (s.setMe (i - 16) { (s.me (i - 16)).disarm with sram := [], batches := [], undef := some s.fresh }).drawn
  else if i < 40 then (s.resetCores (i - 32)).abandonOwned fun o => o == .cluster (i - 32)
  else if i < 44 then { s with ce := s.ce.resetCe (i - 40) }
  else s.unbackCxl (i - 44)

/-- R442: the times of the unit's block resets that still count, the reset asserted now, and its shadow restarted. -/
def State.markReset (s : State) (i : Nat) : State :=
  let r := s.resetOf i
  s.setResetOf i { asserted := s.now :: r.asserted.filter (fun t => decide (s.now < t + 262144)), inReset := some s.now
                   shadow := none }

/-- R444: the block resets of the unit in the last 262,144 beats. -/
def State.recentResets (s : State) (i : Nat) : Nat :=
  ((s.resetOf i).asserted.filter fun t => decide (s.now < t + 262144)).length

/-- R441, R444: a block reset of the unit at FC_TGT index `i`; a third within a phrase is withheld and raises REACTION_LOOP. -/
def State.blockReset (s : State) (i : Nat) : State :=
  if 2 ≤ s.recentResets i then s.raiseF Det.reactionLoop (unitAt i) 0
  else ((s.resetQueues i).resetBlock i).markReset i

/-! ### Class-U events with their reactions (R438) -/

/-- Table FLT-4: what HELD does to a target. -/
def State.holdEffect (s : State) (t : Nat) : State := if t < 48 then s.enterDrain t else s

/-- R438: a class-U event with its reaction: the block reset of unit `reset`, if the detector applies one, and `rest`. -/
def State.raise (s : State) (det : Nat) (unit : UnitId) (tgt : Option Nat) (detail : Nat := 0) (via : List Nat := [])
    (reset : Option Nat := none) (rest : State → State := id) : State :=
  match s.eventU det unit tgt detail via with
  | (s', .quiet) => s'
  | (s', .react) =>
    rest (match reset with
      | some i => s'.blockReset i
      | none => s')
  | (s', .hold) =>
    rest (match tgt with
      | some t => s'.holdEffect t
      | none => s')

/-- A class-U event whose target is the unit itself, with no reaction beyond the owning chapter's. -/
def State.raiseOn (s : State) (det : Nat) (unit : UnitId) (detail : Nat := 0) : State := s.raise det unit unit.target detail

/-- R438: the target is HELD. -/
def State.held (s : State) (t : Nat) : Bool := (s.tgt t).state == .held

/-- An event reported by the management controller over MCTP. -/
def State.report (s : State) (det : Nat) : State := { s with mgmt.reports := det :: s.mgmt.reports }

end Sys2Proof.Machine
end

