-- ==== Sys2Proof/Machine/TactOps.lean ====
section
/-!
DEFINITION. The Tactus unit's shared operations: holdover (R46), return (R47, R48), locking (R30–R32) and stepping out (R50).
Phase and offset are in units of 50 ps, 256 to the beat.
-/
namespace Sys2Proof.Machine

/-- 3.2 ns in 50 ps units: the green zone (Table TAC-6), the slew range (R41) and the return window (R47, R48). -/
def near : Int := 64

/-- The absolute value of a phase. -/
def magnitude (x : Int) : Int := if x < 0 then -x else x

/-- A signed 64-bit register as an integer. -/
def asInt (v : DWord) : Int := sext v.toNat 64

/-- Port `p` is ALIGNED or IN_SCHEDULE. -/
def State.portUp (s : State) (p : Nat) : Bool :=
  match (s.port p).state with
  | .aligned | .inSchedule => true
  | .down | .training | .framing | .outOfStep => false

/-- The last tail slot of a port reports LOCKED or HOLDOVER. -/
def Port.nbTimed (p : Port) : Bool :=
  match p.nb with
  | some t => t.tact == .locked || t.tact == .holdover
  | none => false

/-- R28, R31: the port's member has a count to follow, at a depth below 32. -/
def Port.followable (p : Port) : Bool :=
  p.nbTimed && match p.nb with
    | some t => decide (t.depth < 32)
    | none => false

/-- R31: two consecutive tail slots whose stamps differ by exactly 4,096. -/
def twoTails : List Stamp → Bool
  | a :: b :: _ => a == b + 4096
  | _ => false

/-- R31: the lock condition on an upstream port. -/
def State.carriedOk (s : State) (p : Nat) : Bool :=
  let x := s.port p
  s.portUp p && x.followable && twoTails x.tails && s.tact.echoSince && x.delayValid

/-- R30: two consecutive accepted frames that differ by 4,096, each followed by an agreeing pulse. -/
def pinnedOk : List FrameSeen → Bool
  | a :: b :: _ => a.stamp == b.stamp + 4096 && a.pulse == some true && b.pulse == some true
  | _ => false

/-- R50: a time command that waits at the head of a RUNNING queue completes with ABANDONED (R244). -/
def State.endTimeHead (s : State) (q : Nat) : State :=
  let x := s.queue q
  match x.state, x.headCmd with
  | .running, some (idx, c) =>
    if (opcodeOf c = 0x10 || opcodeOf c = 0x11) && s.headerMet c then
      s.completeHead q idx c { status := St.abandoned, detail := cancelled }
    else s
  | _, _ => s

/-- R50: a port that was in the schedule runs the bootstrap pattern, keeping its centre and H_min. -/
def Port.toBootstrap (p : Port) (now : Nat) : Port :=
  match p.state with
  | .inSchedule | .outOfStep => { p with state := .aligned, since := now, h := p.hMin, conflict := false, matched := false }
  | .down | .training | .framing | .aligned => { p with h := p.hMin }

/-- R333: the graft lock ends, and with it whatever was held for the graft. -/
def Graft.unlock (g : Graft) : Graft :=
  { g with locked := false, rx := [], rxTail := [], rxFailed := false, imageDone := false, prepare := none, ackSent := false
           pruned := false, phase := .idle, entries := [], decided := true }

/-- R50: the member enters STEPPED_OUT and runs the bootstrap score. -/
def State.leaveChorus (s : State) : State :=
  match s.tact.state with
  | .free | .steppedOut => s
  | .acquiring | .locked | .holdover =>
    let s := s.count Cnt.stepOut
    let s := { s with
      tact.state := .steppedOut, tact.srcHoldover := false, tact.holdMeasures := 0, tact.lossPending := false
      tact.limitReached := false, tact.steer := 0, tact.frames := [], tact.qualified := 0, tact.outTc := none
      score.member := false, score.target := none, score.rootHold := false
      sys.admitted := false, sys.admitSeen := none, sys.admits := []
      graft := s.graft.unlock
      ports := Tab.mapVals (fun _ p => p.toBootstrap s.now) s.ports }
    ((forEach s.queueIds (fun q st => st.endTimeHead q) s).abandonChorus 4 fun _ => true).eventC Det.bootstrapRun .member

/-- Table TAC-11, R438: the member steps out with a class-U event; a member that is HELD stays out. -/
def State.stepOut (s : State) (det : Nat) (detail : Nat := 0) : State :=
  match s.tact.state with
  | .free | .steppedOut => s
  | .acquiring | .locked | .holdover => s.raise det .member (some 48) detail (rest := State.leaveChorus)

/-- R46: HOLDOVER begins at the beat on which a loss is detected. A CARRIED engine whose TACT_REF is lost waits for the next
downbeat instead. -/
def State.enterHoldover (s : State) : State :=
  match s.tact.state with
  | .locked =>
    if s.tact.mode = .carried ∧ s.tact.refLost then { s with tact.lossPending := true }
    else
      let s := { s with tact.state := .holdover, tact.holdSince := s.now, tact.holdMeasures := 0, tact.qualified := 0
                        tact.refGood := 0, tact.limitReached := false, tact.echoSince := false, tact.frames := [] }
      (s.count Cnt.holdover).eventC Det.holdoverEntry .member
  | .free | .acquiring | .holdover | .steppedOut => s

/-- The unit enters LOCKED with stamp `st` at the present beat. -/
def State.lockAt (s : State) (st : Stamp) (depth : Nat) (srcHoldover : Bool) : State :=
  { s with tact.state := .locked, tact.stamp := st, tact.cycle := 0, tact.lockStamp := st, tact.everLocked := true
           tact.depth := depth, tact.srcHoldover := srcHoldover, tact.holdMeasures := 0, tact.pulseMissing := 0
           tact.displacedRun := 0, tact.disagree := 0, tact.lossPending := false, tact.limitReached := false
           tact.qualified := 0 }

/-- The unit returns from HOLDOVER to LOCKED: the count goes on, and `diff` is removed at 0.2 ns per measure (R48). -/
def State.backToLock (s : State) (diff : Int) (depth : Nat) (srcHoldover : Bool) : State :=
  { s.lockAt s.tact.stamp depth srcHoldover with tact.steer := diff }

/-- The unit begins to acquire on the source that TACT_CTRL names (Table TAC-5). -/
def State.acquire (s : State) : State :=
  { s with tact.state := .acquiring, tact.inUse := s.tact.upstream, tact.frames := [], tact.pulseSeen := false
           tact.echoSince := false, tact.disagree := 0, tact.displacedRun := 0, tact.qualified := 0 }

/-- R47: the backup upstream port can be moved to: in step, its member LOCKED or in HOLDOVER at a depth below 32, its stamp
agreeing and its beat within 3.2 ns. -/
def State.backupUsable (s : State) : Bool :=
  let x := s.port s.tact.backup
  s.tact.backupEn && s.portUp s.tact.backup && x.followable && x.delayValid
    && decide (magnitude (asInt x.offset) ≤ near)

/-- R28: the depth of an engine that follows port `p`. -/
def State.depthOf (s : State) (p : Nat) : Nat := (((s.port p).nb.map (·.depth)).getD 0) + 1

/-- The source of port `p` is in holdover (R51). -/
def State.srcHoldoverOf (s : State) (p : Nat) : Bool :=
  ((s.port p).nb.map fun t => t.srcHoldover || t.tact == .holdover).getD false

/-- R47: the backup becomes the upstream port in use and the unit is LOCKED. -/
def State.useBackup (s : State) : State :=
  let b := s.tact.backup
  { s.backToLock (asInt (s.port b).offset) (s.depthOf b) (s.srcHoldoverOf b) with tact.inUse := b }

/-- R48: what a downbeat in HOLDOVER decides: none while the source has not qualified, else whether stamp and phase agree. -/
def State.returnCheck (s : State) : State × Option Bool :=
  let ok := match s.tact.mode with
    | .pinned => pinnedOk s.tact.frames
    | .carried => s.carriedOk s.tact.inUse
    | .conductor => decide (1 ≤ s.tact.refGood)
    | .none => false
  let s := { s with tact.qualified := if ok then s.tact.qualified + 1 else 0 }
  if s.tact.qualified < 2 then (s, none)
  else
    match s.tact.mode with
    | .pinned => (s, some ((s.tact.frames.head?.map fun f => f.stamp == s.tact.stamp).getD false
        && decide (magnitude s.tact.phaseError ≤ near)))
    | .carried => (s, some (decide (magnitude (asInt (s.port s.tact.inUse).offset) ≤ near)))
    | .conductor => (s, some true)
    | .none => (s, none)

/-- R48: the unit returns to LOCKED on the source it lost. -/
def State.returnLock (s : State) : State :=
  match s.tact.mode with
  | .pinned => s.backToLock s.tact.phaseError 0 ((s.tact.frames.head?.map (·.holdover)).getD false)
  | .carried => s.backToLock (asInt (s.port s.tact.inUse).offset) (s.depthOf s.tact.inUse) (s.srcHoldoverOf s.tact.inUse)
  | .conductor | .none => s.backToLock 0 0 false

/-- A downbeat in HOLDOVER: the backup at the first downbeat (R47), the return or the step-out (R48), or the limit (R49). -/
def State.holdoverDownbeat (s : State) : State :=
  let m := (s.now - s.tact.holdSince) / 4096
  let first := decide (s.now < s.tact.holdSince + 4096)
  let s := { s with tact.holdMeasures := min 0xFFFF m }
  if s.tact.mode = .carried ∧ first ∧ s.backupUsable then s.useBackup
  else
    match s.returnCheck with
    | (s, some true) => s.returnLock
    | (s, some false) => s.stepOut Det.returnMismatch
    | (s, none) => { s with tact.limitReached := decide (s.tact.holdoverLimit ≤ m) }

/-- A downbeat while ACQUIRING: R30, R31, R32. -/
def State.acquiringDownbeat (s : State) : State :=
  match s.tact.mode with
  | .pinned =>
    match s.tact.frames with
    | f :: _ => if pinnedOk s.tact.frames then s.lockAt f.stamp 0 f.holdover else s
    | [] => s
  | .carried =>
    if s.carriedOk s.tact.inUse then
      s.lockAt s.tact.stamp (s.depthOf s.tact.inUse) (s.srcHoldoverOf s.tact.inUse)
    else s
  | .conductor =>
    if s.tact.pllLocked ∧ !s.tact.refLost then s.lockAt (s.tact.epoch / 0x40000#56 * 0x40000#56) 0 false else s
  | .none => s

/-- The source that TACT_CTRL names is valid (Table TAC-5). -/
def State.sourceValid (s : State) : Bool :=
  match s.tact.mode with
  | .pinned | .conductor => s.tact.pllLocked && !s.tact.refLost
  | .carried => s.tact.pllLocked && s.portUp s.tact.upstream && (s.port s.tact.upstream).followable
  | .none => false

/-- A downbeat while LOCKED: a CARRIED loss that met a lost TACT_REF moves to the backup or steps out (R46); a PINNED engine
counts its missing pulses (Table TAC-8); any remaining difference is steered out by 0.2 ns (R35, R48). -/
def State.lockedDownbeat (s : State) : State :=
  if s.tact.lossPending then
    if s.backupUsable then s.useBackup else s.stepOut Det.holdoverLimit
  else
    let step := if s.tact.steer < -4 then -4 else if 4 < s.tact.steer then 4 else s.tact.steer
    { s with tact.steer := s.tact.steer - step
             tact.pulseMissing := if s.tact.mode = .pinned ∧ !s.tact.pulseThisMeasure then s.tact.pulseMissing + 1 else 0 }

/-- R46: a frame that is missing in a measure counts as TC_BAD and breaks the run of frames. -/
def State.missingFrame (s : State) : State :=
  if s.tact.mode = .pinned ∧ !s.tact.frameThisMeasure then
    ({ s with tact.frames := [] }.count Cnt.tcBad).eventC Det.tcBad .member
  else s

/-- R21, R46: the reference monitor at a downbeat. A measure without a declared loss has met R21. -/
def State.refDownbeat (s : State) : State :=
  let good := if s.tact.refBad then 0 else s.tact.refGood + 1
  { s with tact.refGood := good, tact.refLost := if s.tact.refBad then s.tact.refLost else false, tact.refBad := false
           tact.freq := Config.refOffset s.fresh }.drawn

/-- R23, R25: the frame that names the coming downbeat. -/
def State.outFrame (s : State) : Option Timecode :=
  if s.timed && !s.fc.safe then
    let next := s.tact.stamp + 4096
    let f : Timecode :=
      { typ := 1
        flags := b2n (s.tact.state == .holdover || s.tact.srcHoldover) + 2 * b2n (s.tact.mode == .conductor)
        stamp := next, phrase := next.toNat / 2 ^ 18, reserved := 0, crc := 0 }
    some { f with crc := f.crcOf }
  else none

/-- The Tactus unit at a local downbeat (Table TAC-5). -/
def State.tactDownbeat (s : State) : State :=
  let s := s.refDownbeat
  let s := { s with tact.redLimitUsed := s.tact.redLimit }
  let s := match s.tact.state with
    | .free => s
    | .acquiring => s.missingFrame.acquiringDownbeat
    | .locked => s.missingFrame.lockedDownbeat
    | .holdover => s.missingFrame.holdoverDownbeat
    | .steppedOut => if s.live && !s.held 48 && s.sourceValid then s.acquire else s
  { s with tact.frameThisMeasure := false, tact.pulseThisMeasure := false, tact.outTc := s.outFrame }

end Sys2Proof.Machine
end

