-- ==== Sys2Proof/Machine/CueOps.lean ====
section
/-!
DEFINITION. Cue messages: the dimension-order route (R581), the cue send queues (R514), numbering, and roll call (R80, R467,
R584).
-/
namespace Sys2Proof.Machine

/-! ### The dimension-order route (R581) -/

/-- One dimension of size `n`, from coordinate `a` to `b`: none when they agree, else the SENSE to go. -/
def senseOf (n a b : Nat) : Option Nat :=
  let d := (b + n - a % n) % n
  if n ≤ 1 ∨ d = 0 then none else if n = 2 then some 0 else if 2 * d ≤ n then some 0 else some 1

/-- The ports that carry the next hop from `me` to `dest`. -/
def Img.hopPorts (m : Mem) (me dest : Nat) : List Nat :=
  let x := Img.dimX m
  let y := Img.dimY m
  let ports := (List.range 16).filter fun p => Img.enabled m p && !Img.express m p
  let towards := fun dim sense => ports.filter fun p => (Img.topology m == 1 || Img.dim m p == dim) && Img.sense m p == sense
  if Img.topology m = 0 then ports.filter fun p => Img.neighbour m p == dest
  else
    match senseOf x (me % x) (dest % x) with
    | some q => towards 0 q
    | none =>
      match senseOf y (me / x % y) (dest / x % y) with
      | some q => towards 1 q
      | none =>
        match senseOf (Img.dimZ m) (me / (x * y)) (dest / (x * y)) with
        | some q => towards 2 q
        | none => []

/-- The image that routes: the active score, or the READY image while the bootstrap score is active. -/
def State.routeImg (s : State) : Option Mem :=
  match s.img with
  | some m => some m
  | none => if s.score.standby = .ready then some s.standbyBank else none

/-- The ports of the onward gang to `dest`, if one of them is ALIGNED or IN_SCHEDULE. -/
def State.onward (s : State) (dest : Nat) : List Nat :=
  match s.routeImg with
  | none => []
  | some m =>
    let ps := Img.hopPorts m (Img.self m) dest
    if ps.any s.portUp then ps else []

/-- The gang on which a message or slot for `dest` leaves. -/
def State.gangTo (s : State) (dest : Nat) : Option Nat :=
  match s.onward dest with
  | p :: _ => s.gangOf p
  | [] => none

/-! ### Cue send queues (R514)

Queue g serves gang g of the active score; queue 256 + p serves port p alone, for roll call and while the bootstrap score
runs. -/

/-- The send queue of a message that leaves on port `p` alone. -/
def portKey (p : Nat) : Nat := 256 + p

/-- The send queue toward a set of ports: their gang's under a real score, else that of the lowest port that is up. -/
def State.keyOf (s : State) (ps : List Nat) : Option Nat :=
  match ps with
  | [] => none
  | p :: _ =>
    match s.gangOf p with
    | some g => some g
    | none => (ps.find? s.portUp).map portKey

/-- How many messages of one kind a queue holds. -/
def CueQueue.count (q : CueQueue) (relayed : Bool) : Nat := (q.items.filter fun x => x.1 == relayed).length

/-- R514: the share of the queue that a message would use has room. -/
def State.cueRoom (s : State) (key : Nat) (relayed : Bool) : Bool := decide ((s.cueQueue key).count relayed < 256)

/-- A message at the end of a send queue. -/
def State.enqueueCue (s : State) (key : Nat) (relayed : Bool) (c : Cue) : State :=
  let q := s.cueQueue key
  s.setCueQueue key { q with items := q.items ++ [(relayed, c)] }

/-- Key of a pair of members in the numbering tables. -/
def pairKey (src dest : Nat) : Nat := 1024 * src + dest

/-- Table VOX-9: the number that the next message to `dest` carries. REMOTE_SIGNALs have numbers of their own (R400). -/
def State.nextSeq (s : State) (remote : Bool) (dest : Nat) : Nat :=
  if remote then Tab.get 0 s.sync.txSeq dest else Tab.get 0 s.sync.cueTx dest

/-- The state after that number has been used. -/
def State.useSeq (s : State) (remote : Bool) (dest : Nat) : State :=
  if remote then { s with sync.txSeq := Tab.put s.sync.txSeq dest ((s.nextSeq true dest + 1) % 65536) }
  else { s with sync.cueTx := Tab.put s.sync.cueTx dest ((s.nextSeq false dest + 1) % 65536) }

/-- The member that a send queue's ports reach, or 0x3FF where the active score names none. -/
def State.keyNeighbour (s : State) (key : Nat) : Nat :=
  match s.img with
  | none => 0x3FF
  | some m =>
    let p := if key < 256 then (s.gangPorts key).headD 0 else key - 256
    if Img.enabled m p then Img.neighbour m p else 0x3FF

/-- A message as this member sends it into queue `key`: its source, its number, and the neighbour as its destination where NEIGHBOUR
is set. -/
def State.numberCue (s : State) (key : Nat) (c : Cue) : State × Cue :=
  let remote := c.typ == 0x20
  let dest := if c.neighbour then s.keyNeighbour key else c.dest
  (s.useSeq remote dest, { c with dest := dest, src := s.self, seq := s.nextSeq remote dest })

/-- R514: a message that this member originates joins send queue `key`; false when its share is full and it must wait. -/
def State.originate (s : State) (key : Nat) (c : Cue) : State × Bool :=
  if s.cueRoom key false then
    let r := s.numberCue key c
    (r.1.enqueueCue key false r.2, true)
  else (s, false)

/-- A message to a neighbour on port `p`, whatever its number. -/
def State.tellNeighbour (s : State) (p typ : Nat) (body : List Byte) : State :=
  (s.originate (portKey p) { typ := typ, neighbour := true, dest := 0x3FF, body := body }).1

/-- A message toward member `dest` along the dimension-order route; false when it must wait or has no route. -/
def State.sendCue (s : State) (typ dest : Nat) (body : List Byte) : State × Bool :=
  match s.keyOf (s.onward dest) with
  | some key => s.originate key { typ := typ, dest := dest, body := body }
  | none => (s, false)

/-- R70, R581: BAD_CUE, counted at port `p`. -/
def State.badCue (s : State) (p typ : Nat) : State := (s.count (Cnt.vp p Cnt.badCue)).eventC Det.badCue (.vp p) typ

/-- R581, R514: a message for another member goes on along its route, or is dropped and counted. -/
def State.relayCue (s : State) (p : Nat) (c : Cue) : State :=
  let ps := s.onward c.dest
  match s.keyOf ps with
  | none => s.badCue p c.typ
  | some key => if s.cueRoom key true then s.enqueueCue key true c else s.count (Cnt.vp (ps.headD 0) Cnt.cueRelayOvf)

/-- The gangs of enabled ports of the routing image: their ports. -/
def State.floodGangs (s : State) : List (List Nat) :=
  match s.routeImg with
  | none => []
  | some m => (List.range 16).map fun g => (List.range 16).filter fun p => Img.enabled m p && Img.gang m p == g

/-- The ports of a gang reach member `x`. -/
def State.gangReaches (s : State) (ps : List Nat) (x : Nat) : Bool :=
  match s.routeImg with
  | none => false
  | some m => ps.any fun p => Img.neighbour m p == x

/-- R323, R334: a flood goes, with NEIGHBOUR set, to the neighbours on every gang of enabled ports but the one it came by and any
that reaches `avoid`. A relayed message goes on under this member's own source and number, in the share of relays (R514). -/
def State.flood (s : State) (relayed : Bool) (except avoid : Option Nat) (c : Cue) : State :=
  let skip := fun (ps : List Nat) =>
    (except.map ps.contains).getD false || (avoid.map (s.gangReaches ps)).getD false || !ps.any s.portUp
  forEach s.floodGangs (fun ps st =>
    if skip ps then st
    else match st.keyOf ps with
      | none => st
      | some key =>
        if st.cueRoom key relayed then
          let r := st.numberCue key { c with neighbour := true }
          r.1.enqueueCue key relayed r.2
        else if relayed then st.count (Cnt.vp (ps.headD 0) Cnt.cueRelayOvf) else st) s

/-! ### Roll call -/

/-- R584: sequence and fingerprint of the newest score this engine holds, active or READY. -/
def State.newest (s : State) : Word × DWord :=
  let act := match s.img with
    | some m => some (Img.sequence m, Img.fingerprint m)
    | none => none
  let rdy := if s.score.standby = .ready then some (Img.sequence s.standbyBank, Img.fingerprint s.standbyBank) else none
  match act, rdy with
  | some a, some r => if idxLater a.1 r.1 then r else a
  | some a, none => a
  | none, some r => r
  | none, none => (0, 0)

/-- R467: the engine is ready. -/
def State.ready (s : State) : Bool :=
  s.tact.state == .locked && s.sys.run && (s.score.member || s.score.standby == .ready)
    && ((s.unit 48).state != .probation || (s.unit 48).passed)

/-- R468: the stamp that HOLD carries. -/
def State.estimate (s : State) : Stamp :=
  if s.tact.state = .locked ∧ (s.score.member ∨ s.score.standby = .ready ∨ s.score.standby = .checking) then
    Config.readyEstimate s.fresh
  else 0xFFFFFFFFFFFFFF#56

/-- R584: the body of HERE, and of HOLD with its estimate. -/
def State.hereBody (s : State) (hold : Bool) : List Byte :=
  let n := s.newest
  bodyOf [(0, 8, s.sys.serial.toNat), (8, 1, s.tact.state.code), (9, 1, s.tact.depth), (12, 4, n.1.toNat), (16, 8, n.2.toNat),
    (32, 8, if hold then s.estimate.toNat else 0)]

/-- R584: the body of ROLL_CALL. -/
def State.rollCallBody (s : State) : List Byte :=
  let act := match s.img with
    | some m => ((Img.sequence m).toNat, (Img.fingerprint m).toNat, Img.epoch m, Img.self m + 2 ^ 15)
    | none => (0, 0, 0, 0)
  bodyOf [(0, 8, s.sys.serial.toNat), (8, 2, act.2.2.2), (12, 4, act.1), (16, 8, act.2.1), (24, 1, act.2.2.1)]

/-- R467: each ROLL_CALL is answered on its port with HERE, or with HOLD. -/
def State.answerRollCall (s : State) (p : Nat) : State :=
  if s.ready then s.tellNeighbour p 0x02 (s.hereBody false) else (s.tellNeighbour p 0x03 (s.hereBody true)).drawn

/-- HERE or HOLD is kept as the last answer on its port. -/
def State.noteHere (s : State) (p : Nat) (c : Cue) : State := { s with sys.lastHere := Tab.put s.sys.lastHere p c }

end Sys2Proof.Machine
end

