-- ==== Sys2Proof/Machine/HostOps.lean ====
section
/-!
DEFINITION. The engine's own accesses to host memory (R483, R488, R490): posted writes and reads.
-/
namespace Sys2Proof.Machine

/-- R483, R492: the engine may issue requests to the host. -/
def State.hostOpen (s : State) : Bool := s.host.bme && !s.host.d3hot && s.host.linkUp

/-- R490: ERR_DETAIL of a host access that failed: bits [42:11] of the address. -/
def hostDetail (a : Nat) : Nat := fld a 11 32

/-- R488: a posted write of `bs` at bus address `a`. -/
def State.postHost (s : State) (a : Nat) (bs : List Byte) : State := { s with host.written := s.host.written.writeN a bs }

/-- R490: a read of `len` bytes of host memory, for a channel or for a command. A zero-length read is a flush (R488). -/
def State.readHost (s : State) (a len : Nat) (chan : Option Nat) (cmd : Option (Nat × Nat)) (flush : Bool) : State :=
  { s with
    host.reads := s.host.reads ++
      [{ id := s.host.nextRead, addr := a, len := len, chan := chan, cmd := cmd, flush := flush, since := s.now }]
    host.nextRead := s.host.nextRead + 1 }

end Sys2Proof.Machine
end

