-- ==== Sys2Proof/Machine/Numerics.lean ====
section
/-!
DEFINITION. Numbers and arithmetic (chapter 7): the element formats, one rounding, NATIVE and WIDE addition, the order of
candidates, block scales, and the two accumulations of a matrix engine. Values are exact; rounding comes last.
-/
namespace Sys2Proof.Machine.Num

/-! ### Formats (R168, Tables NUM-1 and NUM-2) -/

/-- An element format: an integer format, a floating format or the candidate. A floating format has `eb` exponent and `fb`
fraction bits; `top` is the code of MAX, `inf` and `nan` those of infinity and the canonical quiet NaN, where it has them. -/
inductive Fmt where
  | int (bits : Nat) (signed : Bool)
  | float (eb fb bias top : Nat) (inf nan : Option Nat)
  | cand
deriving DecidableEq, Repr

/-- Table NUM-1. -/
def Fmt.ofCode (c : Nat) : Fmt :=
  match c with
  | 0x0 => .int 4 true
  | 0x1 => .int 8 true
  | 0x2 => .int 8 false
  | 0x3 => .int 16 true
  | 0x4 => .int 32 true
  | 0x5 => .int 64 true
  | 0x6 => .float 2 1 1 0x7 none none
  | 0x7 => .float 4 3 7 0x7E none (some 0x7F)
  | 0x8 => .float 5 2 15 0x7B (some 0x7C) (some 0x7E)
  | 0x9 => .float 8 7 127 0x7F7F (some 0x7F80) (some 0x7FC0)
  | 0xA => .float 5 10 15 0x7BFF (some 0x7C00) (some 0x7E00)
  | 0xB => .float 8 23 127 0x7F7FFFFF (some 0x7F800000) (some 0x7FC00000)
  | _ => .cand

/-- Width in bits. -/
def Fmt.bits : Fmt → Nat
  | .int b _ => b
  | .float eb fb _ _ _ _ => 1 + eb + fb
  | .cand => 128

/-- A floating format. -/
def Fmt.isFloat : Fmt → Bool
  | .float _ _ _ _ _ _ => true
  | _ => false

/-- An exact value: NaN, an infinity, or ± m · 2^e. -/
inductive Val where
  | nan
  | inf (neg : Bool)
  | fin (neg : Bool) (m : Nat) (e : Int)
deriving DecidableEq, Repr

/-- The value of an integer. -/
def Val.ofInt (x : Int) : Val := .fin (decide (x < 0)) x.natAbs 0

/-- The exponent and significand fields of a magnitude as (m, e): m · 2^e. -/
def magOf (fb bias mag : Nat) : Nat × Int :=
  let ex := mag / 2 ^ fb
  let fr := mag % 2 ^ fb
  if ex = 0 then (fr, 1 - (bias : Int) - (fb : Int)) else (2 ^ fb + fr, (ex : Int) - (bias : Int) - (fb : Int))

/-- The value of an element code (Table NUM-2; R177: every NaN is a NaN). -/
def Fmt.decode (f : Fmt) (code : Nat) : Val :=
  match f with
  | .int b true => .ofInt (sext code b)
  | .int b false => .fin false (code % 2 ^ b) 0
  | .float eb fb bias top inf _ =>
    let neg := bitAt code (eb + fb)
    let mag := code % 2 ^ (eb + fb)
    if inf = some mag then .inf neg
    else if top < mag then .nan
    else .fin neg (magOf fb bias mag).1 (magOf fb bias mag).2
  | .cand => .fin false 0 0

/-! ### Counters (R198) -/

/-- What Table NUM-9 counts, and whether a FAST running sum overflowed: that counts once per command (R189). -/
structure Counts where
  sat : Nat := 0
  flush : Nat := 0
  drop : Nat := 0
  fast : Bool := false
deriving DecidableEq, Repr

/-- The counts of two parts together. -/
def Counts.plus (a b : Counts) : Counts :=
  { sat := a.sat + b.sat, flush := a.flush + b.flush, drop := a.drop + b.drop, fast := a.fast || b.fast }

/-- One saturation. -/
def oneSat : Counts := { sat := 1 }

/-- NUMCTL's fields (Table NUM-4). -/
def satBit (n : Nat) : Bool := bitAt n 0
def ovfBit (n : Nat) : Bool := bitAt n 1
def propagate (n : Nat) : Bool := bitAt n 2
def znorm (n : Nat) : Bool := bitAt n 3
def wideBit (n : Nat) : Bool := bitAt n 4
def exactBit (n : Nat) : Bool := bitAt n 5
def smaller (n : Nat) : Bool := bitAt n 6

/-! ### Rounding (R174–R180) -/

/-- n / d rounded to nearest, ties to even. -/
def rne (n d : Nat) : Nat :=
  let q := n / d
  let r := n % d
  if d < 2 * r ∨ (2 * r = d ∧ q % 2 = 1) then q + 1 else q

/-- n / d · 2^e in units of 2^q, rounded. -/
def rneAt (n d : Nat) (e q : Int) : Nat := rne (n * 2 ^ (e - q).toNat) (d * 2 ^ (q - e).toNat)

/-- m · 2^q ≤ n / d · 2^e. -/
def atLeast (n d : Nat) (e : Int) (m : Nat) (q : Int) : Bool :=
  decide (m * d * 2 ^ (q - e).toNat ≤ n * 2 ^ (e - q).toNat)

/-- ⌊log₂ (n / d · 2^e)⌋ of a nonzero n. -/
def log2At (n d : Nat) (e : Int) : Int :=
  let k : Int := (n.log2 : Int) - (d.log2 : Int)
  (if atLeast n d 0 1 k then k else k - 1) + e

/-- The code of a zero (R179). -/
def zeroCode (width : Nat) (neg : Bool) (numctl : Nat) : Nat := if neg && !znorm numctl then 2 ^ (width - 1) else 0

/-- R174, R175, R180: ± n / d · 2^e (n nonzero) in a floating format. -/
def roundFloat (eb fb bias top : Nat) (inf : Option Nat) (numctl : Nat) (flush neg : Bool) (n d : Nat) (e : Int) : Nat × Counts :=
  let sign := if neg then 2 ^ (eb + fb) else 0
  let t := magOf fb bias top
  let grid : Int := 1 - (bias : Int) - (fb : Int)
  if atLeast n d e (2 * t.1 + 1) (t.2 - 1) then
    (sign + (if satBit numctl then top else inf.getD top), oneSat)
  else
    let free := log2At n d e - (fb : Int)
    if flush && !atLeast (rneAt n d e free) 1 free (2 ^ fb) grid then (zeroCode (1 + eb + fb) neg numctl, { flush := 1 })
    else
      let q := max free grid
      let k := rneAt n d e q
      if k = 0 then (zeroCode (1 + eb + fb) neg numctl, {}) else (sign + (q - grid).toNat * 2 ^ fb + k, {})

/-- R176: an integer in an integer format, under OVF. -/
def fitInt (bits : Nat) (signed : Bool) (numctl : Nat) (x : Int) : Nat × Counts :=
  let lo : Int := if signed then -(2 ^ (bits - 1) : Nat) else 0
  let hi : Int := if signed then (2 ^ (bits - 1) : Nat) - 1 else (2 ^ bits : Nat) - 1
  if lo ≤ x ∧ x ≤ hi then (twos x bits, {})
  else if ovfBit numctl then (twos x bits, {})
  else (twos (if x < lo then lo else hi) bits, oneSat)

/-- R174–R180: ± n / d · 2^e in a format. -/
def Fmt.encodeRat (f : Fmt) (numctl : Nat) (flush neg : Bool) (n d : Nat) (e : Int) : Nat × Counts :=
  match f with
  | .int b s =>
    let k : Int := rneAt n d e 0
    fitInt b s numctl (if neg then -k else k)
  | .float eb fb bias top inf _ =>
    if n = 0 then (zeroCode (1 + eb + fb) neg numctl, {}) else roundFloat eb fb bias top inf numctl flush neg n d e
  | .cand => (0, {})

/-- R174–R180: a value in a format. -/
def Fmt.encode (f : Fmt) (numctl : Nat) (flush : Bool) (v : Val) : Nat × Counts :=
  match v, f with
  | .fin neg m e, _ => f.encodeRat numctl flush neg m 1 e
  | .nan, .float _ _ _ _ _ (some c) => (c, {})
  | .nan, _ => (0, oneSat)
  | .inf neg, .float eb fb _ top inf _ =>
    let sign := if neg then 2 ^ (eb + fb) else 0
    match inf with
    | some c => if satBit numctl then (sign + top, oneSat) else (sign + c, {})
    | none => (sign + top, oneSat)
  | .inf neg, .int b s =>
    let hi : Nat := if s then 2 ^ (b - 1) - 1 else 2 ^ b - 1
    (if neg then (if s then 2 ^ (b - 1) else 0) else hi, oneSat)
  | .inf _, .cand => (0, {})

/-- The canonical quiet NaN of a format (R177). -/
def Fmt.nanCode (f : Fmt) : Nat := (f.encode 0 false .nan).1

/-- R179: a −0 result delivered under ZNORM. -/
def Fmt.znormCode (f : Fmt) (numctl code : Nat) : Nat :=
  if f.isFloat && znorm numctl && code == 2 ^ (f.bits - 1) then 0 else code

/-! ### Exact operations -/

/-- The product (R177: 0 × ∞ is NaN). -/
def Val.mul : Val → Val → Val
  | .nan, _ | _, .nan => .nan
  | .inf a, .inf b => .inf (a != b)
  | .inf a, .fin b m _ | .fin b m _, .inf a => if m = 0 then .nan else .inf (a != b)
  | .fin a m e, .fin b n g => .fin (a != b) (m * n) (e + g)

/-- A finite value in units of 2^q, bits below discarded toward zero; the flag says whether any nonzero bit was lost. -/
def unitsOf (neg : Bool) (m : Nat) (e q : Int) : Int × Bool :=
  let num := m * 2 ^ (e - q).toNat
  let den := 2 ^ (q - e).toNat
  ((if neg then -((num / den : Nat) : Int) else (num / den : Nat)), num % den != 0)

/-- ⌊log₂ |x|⌋ of a finite nonzero value. -/
def Val.exponent : Val → Option Int
  | .fin _ m e => if m = 0 then none else some ((m.log2 : Int) + e)
  | _ => none

/-- NaN or an infinity. -/
def Val.special : Val → Bool
  | .fin _ _ _ => false
  | _ => true

/-- What a sum with an infinite or NaN term gives (R177); none where every term is finite. -/
def specialSum (vs : List Val) : Option Val :=
  if vs.all fun v => !v.special then none
  else if vs.contains .nan then some .nan
  else if vs.contains (.inf true) && vs.contains (.inf false) then some .nan
  else some (.inf (vs.contains (.inf true)))

/-! ### NATIVE addition (R181, R183) -/

/-- R181: two finite operands, aligned with 3 guard bits and no sticky bit; the sum in units of 2^(e - 3). -/
def nativeUnits (na : Bool) (ma : Nat) (ea : Int) (nb : Bool) (mb : Nat) (eb : Int) : Int × Int :=
  let e := max ea eb
  ((unitsOf na ma ea (e - 3)).1 + (unitsOf nb mb eb (e - 3)).1, e - 3)

/-- R181, R183: one NATIVE adder on two codes. -/
def nativeAdd (f : Fmt) (numctl a b : Nat) : Nat × Counts :=
  match f with
  | .int bits s =>
    let val := fun c => if s then sext c bits else ((c % 2 ^ bits : Nat) : Int)
    fitInt bits s numctl (val a + val b)
  | .cand => (0, {})
  | .float _ _ _ _ _ _ =>
    match f.decode a, f.decode b with
    | .fin na ma ea, .fin nb mb eb =>
      let r := nativeUnits na ma ea nb mb eb
      if r.1 = 0 then f.encodeRat numctl true (ma == 0 && mb == 0 && na && nb) 0 1 0
      else f.encodeRat numctl true (decide (r.1 < 0)) r.1.natAbs 1 r.2
    | x, y => f.encode numctl true ((specialSum [x, y]).getD .nan)

/-- R193: x² for a NATIVE SUMSQ. -/
def nativeSquare (f : Fmt) (numctl a : Nat) : Nat × Counts :=
  let v := f.decode a
  f.encode numctl true (v.mul v)

/-! ### MAX, MIN, MAXLOC and MINLOC (R178, R194) -/

/-- m · 2^e < n · 2^g. -/
def magLt (m : Nat) (e : Int) (n : Nat) (g : Int) : Bool := decide (m * 2 ^ (e - g).toNat < n * 2 ^ (g - e).toNat)

/-- R178: the order of values that are not NaN, −0 below +0. -/
def Val.below : Val → Val → Bool
  | .inf a, .inf b => a && !b
  | .inf a, _ => a
  | _, .inf b => !b
  | .fin a m e, .fin b n g =>
    match a, b with
    | false, false => magLt m e n g
    | true, true => magLt n g m e
    | true, false => true
    | false, true => false
  | _, _ => false

/-- R178: the MAX or MIN of two codes. -/
def pickBest (f : Fmt) (isMax : Bool) (numctl a b : Nat) : Nat :=
  let va := f.decode a
  let vb := f.decode b
  let r := if va = .nan ∨ vb = .nan then
      if propagate numctl ∨ (va = .nan ∧ vb = .nan) then f.nanCode else if va = .nan then b else a
    else if (if isMax then va.below vb else vb.below va) then b else a
  f.znormCode numctl r

/-- R194: the MAXLOC or MINLOC of two (value, index) pairs. -/
def pickLoc (f : Fmt) (isMax : Bool) (numctl : Nat) (a b : Nat × Nat) : Nat × Nat :=
  let va := f.decode a.1
  let vb := f.decode b.1
  if va = .nan ∧ vb = .nan then (f.nanCode, min a.2 b.2)
  else if va = .nan then if propagate numctl then (f.nanCode, a.2) else (f.znormCode numctl b.1, b.2)
  else if vb = .nan then if propagate numctl then (f.nanCode, b.2) else (f.znormCode numctl a.1, a.2)
  else if (if isMax then va.below vb else vb.below va) then (f.znormCode numctl b.1, b.2)
  else if (if isMax then vb.below va else va.below vb) then (f.znormCode numctl a.1, a.2)
  else (f.znormCode numctl a.1, min a.2 b.2)

/-! ### WIDE (R184–R188) -/

/-- R184: what a member reports for a segment of a SUM or SUMSQ. -/
def pitchOf (square : Bool) (vs : List Val) : Int :=
  if vs.any Val.special then 0x7FFF
  else vs.foldl (fun a v => match (if square then v.mul v else v).exponent with
    | some e => max a e
    | none => a) (-0x8000)

/-- R185: the WIDE64 partial of one contribution, as 64 bits; the count says whether nonzero bits were lost. -/
def widePartial (square : Bool) (e : Int) (h : Nat) (v : Val) : Nat × Counts :=
  match (if square then v.mul v else v) with
  | .fin neg m g =>
    let r := unitsOf neg m g (e + h - 62)
    (twos r.1 64, { drop := b2n r.2 })
  | _ => (0, {})

/-- R186: WIDE64 partials add as integers. -/
def wideAdd (a b : Nat) : Nat := (a + b) % 2 ^ 64

/-- R186, R187: the root's rounding of S · u; a zero result is +0. -/
def wideRound (f : Fmt) (numctl : Nat) (e : Int) (s : Nat) : Nat × Counts :=
  let x := sext s 64
  if x = 0 ∨ e = -0x8000 then (0, {})
  else
    let r := f.encodeRat numctl false (decide (x < 0)) x.natAbs 1 (e + 10 - 62)
    (if r.1 = 2 ^ (f.bits - 1) then 0 else r.1, r.2)

/-- R307: one word's share of the residue mod 2^31 − 1, at payload index `j`. -/
def residueWord (w j : Nat) : Nat := ((sext w 64) % (2 ^ 31 - 1)).toNat * 2 ^ (j % 31) % (2 ^ 31 - 1)

/-- R307: the residue of partial words from payload index `j` on. -/
def residue : Nat → List Nat → Nat
  | _, [] => 0
  | j, w :: ws => (residueWord w j + residue (j + 1) ws) % (2 ^ 31 - 1)

/-! ### MOMENTS (R195) -/

/-- R195: the headroom for N values. -/
def momentsHead (n : Nat) : Nat := if n ≤ 1 then 10 else max 10 ((n - 1).log2 + 1)

/-- R195: MEAN and VAR of a lane, from N, S, Q and the exponents E and E₂. -/
def momentsOut (f : Fmt) (numctl n : Nat) (e e2 : Int) (s q : Nat) : (Nat × Nat) × Counts :=
  let h : Int := momentsHead n
  if n = 0 then ((f.nanCode, f.nanCode), {})
  else
    let x := sext s 64
    let mean := f.encodeRat numctl false (decide (x < 0)) x.natAbs n (e + h - 62)
    -- N·Q·u₂ and (S·u)² over one unit, 2^g
    let g := min (e2 + h - 62) (2 * (e + h - 62))
    let a : Int := n * sext q 64 * (2 ^ ((e2 + h - 62) - g).toNat : Nat)
    let b : Int := x * x * (2 ^ (2 * (e + h - 62) - g).toNat : Nat)
    let var := if a - b ≤ 0 then (0, {}) else f.encodeRat numctl false false (a - b).toNat (n * n) g
    ((mean.1, var.1), mean.2.plus var.2)

/-! ### Candidates (R172, R196) -/

/-- A harvest candidate, 128 bits (Table NUM-3). -/
abbrev Cand := BitVec 128

def Cand.score (c : Cand) : Nat := fld c.toNat 0 32
def Cand.item (c : Cand) : Nat := fld c.toNat 32 48
def Cand.member (c : Cand) : Nat := fld c.toNat 80 10
def Cand.valid (c : Cand) : Bool := bitAt c.toNat 90
def Cand.aux (c : Cand) : Nat := fld c.toNat 96 32

/-- A VALID candidate. -/
def Cand.make (score item member aux : Nat) : Cand :=
  BitVec.ofNat 128 (score + item * 2 ^ 32 + member * 2 ^ 80 + 2 ^ 90 + aux * 2 ^ 96)

/-- −0 taken as +0. -/
def Val.unsignedZero : Val → Val
  | .fin _ 0 _ => .fin false 0 0
  | v => v

/-- R196: candidate `a` ranks before `b`. -/
def Cand.before (order : Bool) (a b : Cand) : Bool :=
  let va := ((Fmt.ofCode 0xB).decode a.score).unsignedZero
  let vb := ((Fmt.ofCode 0xB).decode b.score).unsignedZero
  let tie := decide (a.item < b.item) || (a.item == b.item && (decide (a.member < b.member)
    || (a.member == b.member && decide (a.aux < b.aux))))
  if va = .nan then vb == .nan && tie
  else if vb = .nan then true
  else if va.below vb then order
  else if vb.below va then !order
  else tie

/-- A candidate in its place in a ranked list. -/
def insertCand (order : Bool) (c : Cand) : List Cand → List Cand
  | [] => [c]
  | x :: xs => if c.before order x then c :: x :: xs else x :: insertCand order c xs

/-- R196: the best `k` VALID candidates of a list, in rank order. -/
def bestOf (order : Bool) (k : Nat) (cs : List Cand) : List Cand :=
  ((cs.filter Cand.valid).foldl (fun acc c => (insertCand order c acc).take k) [])

/-- R196: the list padded with invalid entries to `k`. -/
def padTo (k : Nat) (cs : List Cand) : List Cand := cs ++ List.replicate (k - cs.length) 0

/-! ### Elements in bytes (R169, R4) -/

/-- `n` element codes of a format, from byte 0. -/
def unpackCodes (f : Fmt) (n : Nat) (bs : List Byte) : List Nat :=
  if f.bits = 4 then (List.range n).map fun i => fld (leAt bs (i / 2) 1) (4 * (i % 2)) 4
  else (List.range n).map fun i => leAt bs (f.bits / 8 * i) (f.bits / 8)

/-- 4-bit codes, two to a byte. -/
def packNibbles : List Nat → List Byte
  | [] => []
  | [a] => [BitVec.ofNat 8 (a % 16)]
  | a :: b :: cs => BitVec.ofNat 8 (a % 16 + 16 * (b % 16)) :: packNibbles cs

/-- Element codes as bytes. -/
def packCodes (f : Fmt) (cs : List Nat) : List Byte :=
  if f.bits = 4 then packNibbles cs else cs.flatMap fun c => leBytes c (f.bits / 8)

/-- Bytes of `n` packed elements. -/
def packedLen (f : Fmt) (n : Nat) : Nat := (f.bits * n + 7) / 8

/-! ### Block scales (R170, R171) -/

/-- R170: an element under its block's scale. -/
def scaled (s : Nat) (v : Val) : Val :=
  if s = 0xFF then .nan
  else match v with
    | .fin neg m e => .fin neg m (e + (s : Int) - 127)
    | v => v

/-- Each code's value, under the scale of its block of 32 where there are scales. -/
def valuesOf (f : Fmt) (scales : Option (List Nat)) (codes : List Nat) : List Val :=
  codes.zipIdx.map fun x =>
    match scales with
    | none => f.decode x.1
    | some ss => scaled (ss.getD (x.2 / 32) 0) (f.decode x.1)

/-- The largest exponent that a block element reaches (R171). -/
def blockMax (f : Fmt) : Int :=
  match f with
  | .float 2 _ _ _ _ _ => 2
  | .float 4 _ _ _ _ _ => 8
  | _ => 15

/-- R171: a block's scale and codes. -/
def quantBlock (f : Fmt) (numctl : Nat) (vs : List Val) : (Nat × List Nat) × Counts :=
  let bad := (vs.filter Val.special).length
  if 0 < bad then ((0xFF, vs.map fun _ => 0), { sat := bad })
  else
    match vs.filterMap Val.exponent with
    | [] => ((0, vs.map fun _ => 0), {})
    | e :: es =>
      let s := (max 0 (min 254 ((es.foldl max e) - blockMax f + 127))).toNat
      let rs := vs.map fun v => match v with
        | .fin neg m g => f.encode (numctl ||| 1) false (.fin neg m (g + 127 - (s : Int)))
        | v => f.encode (numctl ||| 1) false v
      ((s, rs.map (·.1)), rs.foldl (fun a r => a.plus r.2) {})

/-- Blocks of 32. -/
def blocks {α : Type} : Nat → List α → List (List α)
  | 0, _ => []
  | n + 1, xs => xs.take 32 :: blocks n (xs.drop 32)

/-- R266: QUANT of elements, into codes and, when SCALED, block scales. -/
def quant (fin fout : Fmt) (numctl : Nat) (isScaled : Bool) (codes : List Nat) : (List Nat × List Nat) × Counts :=
  let vs := codes.map fin.decode
  if isScaled then
    let bs := (blocks (vs.length / 32) vs).map (quantBlock fout numctl)
    ((bs.flatMap (·.1.2), bs.map (·.1.1)), bs.foldl (fun a b => a.plus b.2) {})
  else
    let rs := vs.map (fout.encode numctl false)
    ((rs.map (·.1), []), rs.foldl (fun a r => a.plus r.2) {})

/-- R266: DEQUANT of elements. -/
def dequant (fin fout : Fmt) (numctl : Nat) (scales : Option (List Nat)) (codes : List Nat) : List Nat × Counts :=
  let rs := (valuesOf fin scales codes).map (fout.encode numctl false)
  (rs.map (·.1), rs.foldl (fun a r => a.plus r.2) {})

/-- R266: the legal pairings of QUANT. -/
def quantLegal (fin fout : Nat) (isScaled : Bool) : Bool :=
  let io := fun c => decide (c ≤ 0xB) && c != 0x6
  io fin && (if isScaled then fout == 0x6 || fout == 0x7 || fout == 0x8 else io fout)

/-- R266: the legal pairings of DEQUANT. -/
def dequantLegal (fin fout : Nat) (isScaled : Bool) : Bool :=
  (fout == 0x9 || fout == 0xA || fout == 0xB) && decide (fin ≤ 0xB) && (!isScaled || fin == 0x6 || fin == 0x7 || fin == 0x8)

/-! ### Matrix-engine accumulation (R189–R191) -/

/-- R189: one block of 32 products added to the running FP32 sum, and whether the sum overflowed. -/
def fastBlock (run : Val) (ps : List Val) : Val × Counts :=
  match specialSum (run :: ps) with
  | some v => (v, {})
  | none =>
    match (run :: ps).filterMap Val.exponent with
    | [] => (.fin ((run :: ps).all fun v => match v with
        | .fin neg _ _ => neg
        | _ => false) 0 0, {})
    | e :: es =>
      let q := es.foldl max e - 27
      let tot := (run :: ps).foldl (fun (a : Int) v => match v with
        | .fin neg m g => a + (unitsOf neg m g q).1
        | _ => a) 0
      let r := (Fmt.ofCode 0xB).encodeRat 0 true (decide (tot < 0)) tot.natAbs 1 q
      ((Fmt.ofCode 0xB).decode r.1, { flush := r.2.flush, fast := r.2.sat != 0 })

/-- R189: the FAST sum of products. -/
def fastSum (ps : List Val) : Val × Counts :=
  (blocks ((ps.length + 31) / 32) ps).foldl (fun a b =>
    let r := fastBlock a.1 b
    (r.1, a.2.plus r.2)) (.fin false 0 0, {})

/-- R190: one product into the 320-bit register, in units of 2^−160; the flag says that the register stays at its bound. -/
def exactStep (acc : Int × Bool) (v : Val) : (Int × Bool) × Counts :=
  match v with
  | .fin neg m e =>
    let r := unitsOf neg m e (-160)
    let c : Counts := { drop := b2n r.2 }
    if acc.2 then (acc, c)
    else
      let x := acc.1 + r.1
      if x < -(2 ^ 319 : Nat) then ((-(2 ^ 319 : Nat), true), c)
      else if (2 ^ 319 : Nat) ≤ x then (((2 ^ 319 : Nat) - 1, true), c)
      else ((x, false), c)
  | _ => (acc, {})

/-- R190: the EXACT sum of products, as a value and its counts. A register at its bound overflows with the bound's sign. -/
def exactSum (f : Fmt) (numctl : Nat) (ps : List Val) : Nat × Counts :=
  match specialSum ps with
  | some v => f.encode numctl false v
  | none =>
    let r := ps.foldl (fun (a : (Int × Bool) × Counts) v =>
      let s := exactStep a.1 v
      (s.1, a.2.plus s.2)) ((0, false), {})
    let out := f.encodeRat numctl false (decide (r.1.1 < 0)) r.1.1.natAbs 1 (-160)
    (out.1, r.2.plus out.2)

/-- R189–R191: the dot product of two vectors of values. -/
def dot (ints : Bool) (fout : Fmt) (numctl : Nat) (a b : List Val) : Nat × Counts :=
  let ps := List.zipWith Val.mul a b
  if ints then
    let tot := ps.foldl (fun (x : Int) v => match v with
      | .fin neg m _ => x + (if neg then -(m : Int) else m)
      | _ => x) 0
    fout.encodeRat numctl false (decide (tot < 0)) tot.natAbs 1 0
  else if exactBit numctl then exactSum fout numctl ps
  else
    let r := fastSum ps
    let out := fout.encode numctl false r.1
    (out.1, r.2.plus out.2)

/-! ### Operations of a CE (R192, Table NUM-8) -/

/-- Table NUM-8: the CE takes operation `op` on the format of code `f`. -/
def ceLegal (op f : Nat) : Bool :=
  let isInt := decide (1 ≤ f) && decide (f ≤ 5)
  let isFloat := decide (7 ≤ f) && decide (f ≤ 0xB)
  match op with
  | 0 | 1 | 2 | 3 => isInt || isFloat
  | 4 | 5 => (isInt && f != 5) || isFloat
  | 6 | 7 | 8 => isInt
  | 9 => isFloat
  | _ => false

/-- One combining step of NATIVE on two element codes (R181–R183, R178): SUM and SUMSQ add, MAX and MIN pick, AND, OR and XOR act
bit by bit. -/
def combine (op : Nat) (f : Fmt) (numctl a b : Nat) : Nat × Counts :=
  match op with
  | 0 | 1 => nativeAdd f numctl a b
  | 2 => (pickBest f true numctl a b, {})
  | 3 => (pickBest f false numctl a b, {})
  | 6 => (a &&& b, {})
  | 7 => (a ||| b, {})
  | 8 => (a ^^^ b, {})
  | _ => (b, {})

end Sys2Proof.Machine.Num
end

