-- ==== Sys2Proof/Machine/DescantOps.lean ====
section
/-!
DEFINITION. The descant unit (R293–R299): contexts, the fold of R197 and R296, the downward pass of R297 and the choice of R298.
-/
namespace Sys2Proof.Machine
open Sys2Proof.Machine.Num

/-! ### Operations on the 16 data bytes -/

namespace Dop
def sum : Nat := 1
def max : Nat := 2
def min : Nat := 3
def and : Nat := 4
def or : Nat := 5
def xor : Nat := 6
def bcast : Nat := 7
def pitch : Nat := 8
def counts : Nat := 9
def barrier : Nat := 10
end Dop

/-- The lane format of a DFMT (Table VOX-6). -/
def dfmtLane (dfmt : Nat) : Fmt :=
  match dfmt with
  | 1 => Fmt.ofCode 0x5
  | 2 | 8 => .int 64 false
  | 3 => Fmt.ofCode 0xB
  | 4 => Fmt.ofCode 0x4
  | 5 => Fmt.ofCode 0x9
  | 6 => Fmt.ofCode 0xA
  | 7 => Fmt.ofCode 0x3
  | _ => .int 8 false

/-- R197, Table VOX-6: the operation may carry the format. -/
def dfmtLegal (dop dfmt : Nat) : Bool :=
  match dop with
  | 1 | 2 | 3 => decide (1 ≤ dfmt) && decide (dfmt ≤ 6)
  | 4 | 5 | 6 => dfmt == 0 || dfmt == 1 || dfmt == 2 || dfmt == 4
  | 7 => decide (dfmt ≤ 6)
  | 8 => dfmt == 7
  | 9 | 10 => dfmt == 8
  | _ => false

/-- One lane of the fold: lane `i` of two operands (R197, R296, R408). -/
def foldLane (dop i : Nat) (f : Fmt) (numctl a b : Nat) : Nat × Counts :=
  if dop = Dop.sum then nativeAdd f numctl a b
  else if dop = Dop.min then (pickBest f false numctl a b, {})
  else if (dop = Dop.counts ∨ dop = Dop.barrier) ∧ i = 0 then nativeAdd f numctl a b
  else (pickBest f true numctl a b, {})

/-- R197: two data fields combined. -/
def foldData (dop dfmt numctl : Nat) (a b : List Byte) : List Byte × Counts :=
  if dop = Dop.and then (List.zipWith (· &&& ·) a b, {})
  else if dop = Dop.or then (List.zipWith (· ||| ·) a b, {})
  else if dop = Dop.xor then (List.zipWith (· ^^^ ·) a b, {})
  else
    let f := dfmtLane dfmt
    let n := 128 / f.bits
    let rs := (List.range n).map fun i =>
      foldLane dop i f numctl (leAt a (f.bits / 8 * i) (f.bits / 8)) (leAt b (f.bits / 8 * i) (f.bits / 8))
    (packCodes f (rs.map (·.1)), rs.foldl (fun c r => c.plus r.2) {})

/-- R197: the operands in their fixed order. -/
def foldAll (dop dfmt numctl : Nat) : List (List Byte) → List Byte × Counts
  | [] => ([], {})
  | x :: xs => xs.foldl (fun acc y =>
      let r := foldData dop dfmt numctl acc.1 y
      (r.1, acc.2.plus r.2)) (x, {})

/-! ### Contexts (R294, R295) -/

/-- R294: DSEQ of a collective's operation. -/
def dseqOf (optag step : Nat) : Nat := optag + 4096 * (step % 16)

/-- The context of an operation. -/
def DCtx.isFor (c : DCtx) (dtree dop dseq : Nat) : Bool := c.dtree == dtree && c.dop == dop && c.dseq == dseq

def State.ctx (s : State) (dtree dop dseq : Nat) : Option DCtx := s.ce.ctxs.find? (·.isFor dtree dop dseq)
def State.dropCtx (s : State) (dtree dop dseq : Nat) : State :=
  { s with ce.ctxs := s.ce.ctxs.filter fun c => !c.isFor dtree dop dseq }
/-- The context replaced, or opened. -/
def State.putCtx (s : State) (c : DCtx) : State :=
  if s.ce.ctxs.any (·.isFor c.dtree c.dop c.dseq) then
    { s with ce.ctxs := s.ce.ctxs.map fun x => if x.isFor c.dtree c.dop c.dseq then c else x }
  else { s with ce.ctxs := s.ce.ctxs ++ [c] }

/-- R295: a context is free. -/
def State.ctxRoom (s : State) (n : Nat) : Bool := decide (s.ce.ctxs.length + n ≤ 1024)

/-- The gangs of a mask. -/
def gangsOf (mask : Nat) : List Nat := (List.range 16).filter (bitAt mask)

/-! ### Fold and downward pass -/

/-- What an operation gives this member: the owner of its context, and the data. -/
structure Given where
  owner : DOwner
  dop : Nat
  dseq : Nat
  data : List Byte
  sat : Nat := 0
  flush : Nat := 0
deriving DecidableEq, Repr

/-- An operation becomes ready on gangs. -/
def State.readyOn (s : State) (gs : List Nat) (op : Descant) : State :=
  { s with ce.dsend := s.ce.dsend ++ gs.map fun g => { gang := g, op := op, since := s.now } }

/-- A downward pass follows the fold, as the operation alone shows (R297); a DREDUCE with ALL is known by its command. -/
def dopDown (dop : Nat) : Bool := dop == Dop.bcast || dop == Dop.pitch || dop == Dop.counts || dop == Dop.barrier

/-- The operation that carries a context's data. -/
def DCtx.op (c : DCtx) (down : Bool) (arrivals : Nat) (data : List Byte) : Descant :=
  { dtree := c.dtree, dop := c.dop, dseq := c.dseq, dfmt := c.dfmt, dvalid := true, down := down, arrivals := arrivals, data := data }

/-- R296, R297: the total has reached the entry's ARRIVALS: the fold goes up, or, at the root, gives the result. NUMCTL of a
member without a command is not stated. -/
def State.foldCtx (s : State) (e : Img.DTree) (c : DCtx) : State × Option Given :=
  let relay := c.owner == .none
  let numctl := if relay then Config.relayNumctl s.fresh else c.numctl
  let s := s.onlyIf relay (·.drawn)
  let r := foldAll c.dop c.dfmt numctl (c.own.toList ++ c.parts.map (·.2))
  let c := { c with sent := true, result := some r.1, sat := r.2.sat, flush := r.2.flush }
  let given : Given := { owner := c.owner, dop := c.dop, dseq := c.dseq, data := r.1, sat := r.2.sat, flush := r.2.flush }
  if s.self = e.root then
    let s := s.dropCtx c.dtree c.dop c.dseq
    let s := s.onlyIf (c.down || (relay && dopDown c.dop)) (·.readyOn (gangsOf e.children) (c.op true e.arrivals r.1))
    (s, some given)
  else
    let s := s.readyOn [e.up] (c.op false e.arrivals r.1)
    (if relay then s.dropCtx c.dtree c.dop c.dseq else s.putCtx c, none)

/-- R296: the fold, once every arrival has come. -/
def State.tryFold (s : State) (dtree dop dseq : Nat) : State × Option Given :=
  match s.ctx dtree dop dseq, s.dtree dtree with
  | some c, some e =>
    if !c.sent && c.arrivals + b2n (e.member && c.own.isSome) == e.arrivals && (c.own.isSome || !e.member) then s.foldCtx e c
    else (s, none)
  | _, _ => (s, none)

/-- R295, R296: this member's own contribution. -/
def State.contribute (s : State) (c : DCtx) : State × Option Given :=
  let c := match s.ctx c.dtree c.dop c.dseq with
    | some o => if o.owner == .none then { c with arrivals := o.arrivals, parts := o.parts, result := o.result } else c
    | none => c
  (s.putCtx c).tryFold c.dtree c.dop c.dseq

/-- R295: a context for an arrival, or the operation is dropped and counted. -/
def State.openCtx (s : State) (op : Descant) : State × Option DCtx :=
  match s.ctx op.dtree op.dop op.dseq with
  | some c => (s, some c)
  | none =>
    if s.ctxRoom 1 then (s, some { dtree := op.dtree, dop := op.dop, dseq := op.dseq, dfmt := op.dfmt })
    else ((s.count (Cnt.ceMw 0)).eventC Det.descantOvf .engine op.dseq, none)

/-- R296: an operation arrives from child gang `g`. -/
def State.descantUp (s : State) (g : Nat) (op : Descant) : State × Option Given :=
  match s.openCtx op with
  | (s, none) => (s, none)
  | (s, some c) =>
    if c.sent || (Tab.find c.parts g).isSome then (s, none)
    else (s.putCtx { c with arrivals := c.arrivals + op.arrivals, parts := Tab.put c.parts g op.data }).tryFold op.dtree op.dop op.dseq

/-- R297: an operation comes down: it goes on to the child gangs, and this member takes the result. A result that comes before
this member's command is kept. -/
def State.descantDown (s : State) (e : Img.DTree) (op : Descant) : State × Option Given :=
  let s := s.readyOn (gangsOf e.children) op
  if !e.member then (s, none)
  else
    match s.openCtx op with
    | (s, none) => (s, none)
    | (s, some c) =>
      if c.owner = .none then (s.putCtx { c with result := some op.data }, none)
      else
        (s.dropCtx op.dtree op.dop op.dseq,
          some { owner := c.owner, dop := op.dop, dseq := op.dseq, data := op.data, sat := c.sat, flush := c.flush })

/-- R317, R324: an operation that is dropped without a word: its command or its lateness context is gone. -/
def State.descantMuted (s : State) (e : Img.DTree) (op : Descant) : Bool :=
  (op.dop == Dop.max && s.ce.discarded.contains (op.dtree, op.dseq))
    || (op.dop != Dop.barrier && s.ce.muted.contains (e.part, op.dseq % 4096))

/-- R293: the descant field of a slot that the port accepted, released on gang `g`. -/
def State.descantIn (s : State) (g : Nat) (op : Descant) : State × Option Given :=
  match s.dtree op.dtree with
  | none => (s, none)
  | some e =>
    if !op.dvalid || !dfmtLegal op.dop op.dfmt || s.descantMuted e op then (s, none)
    else if op.down then (if g = e.up ∧ s.self ≠ e.root then s.descantDown e op else (s, none))
    else if bitAt e.children g then s.descantUp g op else (s, none)

/-! ### Sending (R298) -/

/-- R298: the level of an operation. -/
def DSend.level (x : DSend) : Nat :=
  (if x.op.dop = Dop.pitch then 0 else if x.op.dop = Dop.barrier then 2 else if x.op.dop = Dop.counts then 4 else 6)
    + (if x.op.down then 0 else 1)

/-- R298: `a` goes before `b`. -/
def DSend.before (a b : DSend) : Bool :=
  if a.level ≠ b.level then decide (a.level < b.level)
  else if a.since ≠ b.since then decide (a.since < b.since)
  else decide (a.op.dtree < b.op.dtree)

/-- R298: the operation that port `p` sends in the present beat: the first of those that became ready before it. -/
def State.nextDescant (s : State) (p : Nat) : Option DSend :=
  match s.gangOf p with
  | none => none
  | some g =>
    (s.ce.dsend.filter fun x => x.gang == g && decide (x.since < s.now)).foldl (fun b x =>
      match b with
      | some y => if x.before y then some x else b
      | none => some x) none

/-- The operation of a context has left on every gang that carries it. -/
def State.descantLeft (s : State) (dtree dop dseq : Nat) : Bool :=
  !(s.ce.dsend.any fun x => x.op.dtree == dtree && x.op.dop == dop && x.op.dseq == dseq)

end Sys2Proof.Machine
end

