-- ==== Sys2Proof/Machine/Operands.lean ====
section
/-!
DEFINITION. The operand area of a Mamus command (chapter 9): which bits each instruction names (R230, R5), the codes and
ranges of its fields, and the IDX byte (R233). A fault is an (ERR_CAUSE, ERR_DETAIL) pair of Table QUE-7.
-/
namespace Sys2Proof.Machine

/-! ### Which bits an instruction names -/

/-- The named bits of an operand area as (byte offset, mask) pairs. -/
abbrev Layout := List (Nat × Nat)

/-- The bits of a layout in the 512-bit command. -/
def Layout.bits (l : Layout) : Nat := l.foldl (fun a x => a ||| (x.2 * 2 ^ (8 * x.1))) 0

/-- A whole field of `n` bytes at byte `o`. -/
def whole (o n : Nat) : Nat × Nat := (o, 2 ^ (8 * n) - 1)

/-- The IDX byte (Table MAM-2). -/
def idxByte : Nat × Nat := (63, 0x3F)

/-- Tables MAM-3 to MAM-11: the named bits of each instruction's operand area. A data flag that names no field of the
instruction is reserved for it. -/
def layoutOf (op : Nat) : Option Layout :=
  let coll := [whole 16 8, whole 24 8, whole 32 8, whole 40 1, whole 41 1, whole 42 1, (43, 0x7F), (44, 0xFFF), whole 46 2,
    whole 48 1, whole 49 1, (50, 0x0F), idxByte]
  let quant := [whole 16 8, whole 24 8, whole 32 8, (40, 0x17FFF), idxByte]
  match op with
  | 0x00 | 0x04 | 0x05 => some []
  | 0x01 | 0x03 => some [whole 16 4]
  | 0x02 => some [whole 16 1, (17, 7), (18, 1), whole 20 4, whole 24 8]
  | 0x06 => some [(16, 7), whole 17 1, (18, 7), (20, 0xFFF), whole 24 8]
  | 0x07 => some [(16, 7), (17, 7), (18, 7), (19, 1), whole 24 8]
  | 0x08 => some [(16, 7), (17, 7), whole 18 1, (19, 1), whole 20 4, whole 24 8]
  | 0x10 => some [whole 16 7, whole 24 1, (25, 7), whole 26 1]
  | 0x11 => some [whole 16 1, whole 17 1, (18, 1), whole 20 4]
  | 0x20 => some [(16, 0xFFF), whole 18 1, whole 20 4, whole 24 8]
  | 0x21 => some [(16, 0xFFF), whole 18 1, whole 24 8]
  | 0x22 => some [(16, 0x3FF), (18, 0xFFF), whole 24 4]
  | 0x23 => some [whole 16 1]
  | 0x24 => some [whole 16 1, whole 20 4]
  | 0x25 => some [(16, 7)]
  | 0x30 => some [whole 16 8, whole 24 8, whole 32 8, (40, 0x0F), (42, 0x3FF), whole 44 1, idxByte]
  | 0x31 => some [whole 16 8, whole 24 8, whole 32 8, (40, 0x0A), whole 44 1, (45, 3), idxByte]
  | 0x32 => some [whole 16 8, whole 24 8, whole 32 8, (40, 0x1B), whole 44 1, whole 48 8, idxByte]
  | 0x33 => some [whole 16 8, whole 24 8, whole 32 4, (40, 0x0E), (42, 0x3FF), whole 44 1, idxByte]
  | 0x34 => some [whole 16 8, whole 24 8, whole 32 4, (40, 0x09), whole 44 1, idxByte]
  | 0x40 | 0x43 | 0x44 | 0x45 => some coll
  | 0x41 | 0x42 => some (whole 52 4 :: coll)
  | 0x50 => some [whole 16 8, whole 32 8, (40, 0x1F), idxByte]
  | 0x51 => some [whole 16 8, whole 24 8, whole 32 6, whole 40 4, whole 44 4, whole 48 4, whole 52 1, (53, 0x7F), (54, 3),
      idxByte]
  | 0x52 => some [whole 16 8, whole 24 8, whole 32 8, whole 40 4, whole 52 1, (53, 0x7F), whole 56 6, idxByte]
  | 0x53 | 0x54 => some quant
  | 0x55 => some [whole 16 8, whole 24 8, whole 32 8, whole 40 1, whole 44 4]
  | 0x60 => some [whole 16 8, (24, 7), (25, 7), (26, 0xFFF)]
  | 0x61 => some [whole 16 4, (20, 1)]
  | _ => none

/-- R230: the first operand byte with a reserved bit set. -/
def reservedByte (l : Layout) (c : BitVec 512) : Option Nat :=
  let used := l.bits
  ((List.range 48).map (16 + ·)).find? fun b =>
    let v := cf c b 1
    let m := fld used (8 * b) 8
    (v &&& m) != v

/-- A number format code of Table NUM-1. -/
def fmtOk (f : Nat) : Bool := decide (f ≤ 0xC)

/-- Fields whose codes are reserved (R5): the offsets of those that hold a reserved code. -/
def reservedCodes (op : Nat) (c : BitVec 512) : List Nat :=
  let bad := fun (ok : Bool) (o : Nat) => if ok then [] else [o]
  let le := fun (o m : Nat) => bad (decide (cf c o 1 ≤ m)) o
  let coll := le 48 3 ++ bad (decide (cf c 46 2 < 1024) || cf c 46 2 == 0xFFFF) 46
  match op with
  | 0x02 => le 16 1
  | 0x06 => le 17 4
  | 0x08 => le 18 5
  | 0x10 => le 24 2
  | 0x11 => le 16 1 ++ bad (!(cf c 16 1 == 1 && bitAt (cf c 18 1) 0 && cf c 17 1 != 0)) 17
  | 0x20 => le 18 3
  | 0x21 => le 18 1
  | 0x40 => le 41 9 ++ bad (cf c 42 1 == 0) 42 ++ coll
  | 0x41 => le 41 9 ++ bad (fmtOk (fld (cf c 42 1) 0 4) && fmtOk (fld (cf c 42 1) 4 4)) 42 ++ coll
      ++ bad (cf c 52 4 == 0 || cf c 41 1 == 9) 52
  | 0x42 => le 41 9 ++ bad (cf c 42 1 == 0xCC) 42 ++ coll
  | 0x43 => le 41 9 ++ bad (decide (cf c 42 1 ≤ 9)) 42 ++ coll
  | 0x44 => bad (decide (1 ≤ cf c 41 1) && decide (cf c 41 1 ≤ 6)) 41 ++ bad (decide (cf c 42 1 ≤ 9)) 42 ++ coll
  | 0x45 => le 41 9 ++ bad (cf c 42 1 == 0) 42 ++ coll
  | 0x50 => bad (fmtOk (fld (cf c 40 1) 0 4)) 40
  | 0x51 => bad (fmtOk (fld (cf c 52 1) 0 4) && fmtOk (fld (cf c 52 1) 4 4)) 52
  | 0x52 => le 52 2
  | 0x53 | 0x54 => bad (fmtOk (fld (cf c 40 1) 0 4) && fmtOk (fld (cf c 40 1) 4 4)) 40
  | _ => []

/-- R233: which of the fields that IDX can select the instruction has: the address at byte 16, the one at byte 24, OPTAG. -/
def idxFields (op : Nat) : Bool × Bool × Bool :=
  match op with
  | 0x31 => (false, true, false)
  | 0x50 => (true, false, false)
  | 0x30 | 0x32 | 0x33 | 0x34 | 0x51 | 0x52 | 0x53 | 0x54 => (true, true, false)
  | 0x40 | 0x41 | 0x42 | 0x43 | 0x44 | 0x45 => (true, true, true)
  | _ => (false, false, false)

/-- R233: IDX selects a field that the instruction does not have. -/
def idxReserved (op : Nat) (c : BitVec 512) : Bool :=
  let x := cf c 63 1
  let f := idxFields op
  f != (false, false, false) && ((bitAt x 3 && !f.1) || (bitAt x 4 && !f.2.1) || (bitAt x 5 && !f.2.2))

/-- The command with `n` bytes at byte `o` replaced by `v`. -/
def putField (c : BitVec 512) (o n v : Nat) : BitVec 512 :=
  let old := cf c o n * 2 ^ (8 * o)
  BitVec.ofNat 512 (c.toNat - old + v % 2 ^ (8 * n) * 2 ^ (8 * o))

/-- S register `r` of a queue. -/
def Queue.sreg (q : Queue) (r : Nat) : DWord := Tab.get 0 q.sregs r

/-- R233: the command with S[REG] added to the fields that IDX selects. -/
def withIdx (x : Queue) (c : BitVec 512) : BitVec 512 :=
  let i := cf c 63 1
  let f := idxFields (opcodeOf c)
  let v := (x.sreg (fld i 0 3)).toNat
  let c := if bitAt i 3 && f.1 then putField c 16 8 (cf c 16 8 + v) else c
  let c := if bitAt i 4 && f.2.1 then putField c 24 8 (cf c 24 8 + v) else c
  if bitAt i 5 && f.2.2 then putField c 44 2 ((cf c 44 2 + v) % 4096) else c

/-! ### Legal queues (R229, Table MAM-1) -/

/-- The four kinds of unit that queues are bound to. -/
inductive QClass where
  | ce | me | sync | cluster | none
deriving DecidableEq, Repr

/-- Table QUE-1. -/
def classOfQueue (q : Nat) : QClass :=
  if q < 128 then .ce else if q < 192 then .me else if q < 208 then .sync else if q < 240 then .cluster else .none

/-- Table MAM-1: the instruction is legal on the queue. -/
def legalOn (op q : Nat) : Bool :=
  match op with
  | 0x40 | 0x41 | 0x42 | 0x43 | 0x44 | 0x45 => classOfQueue q == .ce
  | 0x50 | 0x51 | 0x52 => classOfQueue q == .me
  | 0x53 | 0x54 => classOfQueue q == .ce || classOfQueue q == .me
  | 0x55 => classOfQueue q == .cluster
  | _ => true

/-! ### Faults that the encoding alone shows -/

/-- The least of a list of offsets. -/
def leastOf : List Nat → Option Nat
  | [] => none
  | x :: xs => some (xs.foldl min x)

/-- R228–R230: a reserved opcode, then an instruction illegal on the queue, then a reserved field or code. Where several are
wrong at once the manual gives no order. -/
def encodingFault (q : Nat) (c : BitVec 512) : Option (Nat × Nat) :=
  let op := opcodeOf c
  match layoutOf op with
  | none => some (1, 0)
  | some l =>
    if !legalOn op q then some (2, 0)
    else
      (leastOf ((if waitCmp c = 3 then [7] else []) ++ (reservedByte l c).toList ++ reservedCodes op c
        ++ (if idxReserved op c then [63] else []))).map fun o => (1, o)

/-- Ranges of fields that need no state: the offsets of those out of range. -/
def rangeFaults (c : BitVec 512) : List Nat :=
  let bad := fun (ok : Bool) (o : Nat) => if ok then [] else [o]
  let chan := bad (decide (cf c 44 1 < 64) || cf c 44 1 == 255) 44
  match opcodeOf c with
  | 0x10 => bad (decide (cf c 26 1 < 20)) 26
  | 0x11 => bad (decide (cf c 17 1 < 64)) 17
  | 0x22 => bad (cf c 24 4 != 0) 24
  | 0x23 | 0x24 => bad (decide (cf c 16 1 < 64)) 16
  | 0x30 | 0x31 | 0x32 => bad (decide (cf c 32 8 ≤ 2 ^ 40)) 32 ++ chan
  | 0x33 | 0x34 => bad (decide (1 ≤ cf c 32 4) && decide (cf c 32 4 ≤ 65536)) 32 ++ chan
  | _ => []

end Sys2Proof.Machine
end

