-- ==== Sys2Proof/Machine/SeqOps.lean ====
section
/-!
DEFINITION. The sequencer at work (chapters 8 and 9): when the command at a head may issue (R210), records and completion
rings (R217–R224), doorbells (R204, R206) and the transitions of Table QUE-8.
-/
namespace Sys2Proof.Machine

/-! ### Faults of the reader (Table MEM-7) -/

/-- The tier-2 port of a page, as the units whose shadow covers the event (Table FLT-6). -/
def pageVia (page : Nat) : List Nat :=
  let a := page * 2048
  if 0x10000000000 ≤ a ∧ a < 0x30000000000 then [44 + (a - 0x10000000000) / 2 ^ 39] else []

/-- R149, R150: a class-U fault of the reader for a page that could not be read. -/
def State.memFault (s : State) (unit : UnitId) (det page : Nat) : State :=
  s.raise det unit unit.target page (via := pageVia page)

/-! ### The head (R210) -/

/-- R225: an uncorrectable fetch has reached the head: a FETCH_UE record to ERR_RING, and the queue halts. -/
def State.fetchFail (s : State) (q : Nat) (idx : Word) (page : Nat) : State :=
  let s := s.haltQueue q .fetchUe idx true
  (s.completeHead q idx 0 { status := St.fetchUe, detail := page }).memFault (.queue q) Det.fetchUe page

/-- R210, R231, R249: nothing holds the head but its own conditions: the queue has fewer than 32 commands in flight, no FENCE,
and, for ORDERED, HALT and FENCE, none at all. -/
def Queue.headFree (x : Queue) (c : BitVec 512) : Bool :=
  decide (x.inflight.length < 32)
    && !(x.inflight.any fun y => opcodeOf y.cmd == 0x25 && y.done.isNone)
    && (!(orderedOf c || opcodeOf c == 0x05 || opcodeOf c == 0x25) || x.inflight.isEmpty)

/-- R420: the header waits on an ABANDONED tally. -/
def State.headerAbandoned (s : State) (c : BitVec 512) : Bool :=
  (waitCmp c == 1 || waitCmp c == 2) && (s.tally (waitTally c)).abandoned

/-- The first fault that the encoding and the ranges of a command show, and RING (R221). -/
def State.plainFault (s : State) (q : Nat) (c : BitVec 512) : Option (Nat × Nat) :=
  match encodingFault q c with
  | some f => some f
  | none =>
    match leastOf (rangeFaults c) with
    | some o => some (3, o)
    | none => if (s.ring (ringOf c)).enabled then none else some (5, 6)

/-- What stands at the head of a queue when its sequencer looks at it. -/
inductive HeadView where
  | nothing                                  -- no command, or its queue does not issue
  | fetchUe (idx : Word) (page : Nat)
  | abandoned (tally : Nat)                  -- its header waits on an ABANDONED tally
  | held                                     -- a condition of R210 holds it
  | bad (idx : Word) (cmd : BitVec 512) (cause detail : Nat)
  | open_ (idx : Word) (cmd : BitVec 512)    -- checked so far, with IDX applied
deriving DecidableEq, Repr

/-- R210: the head of queue `q`. -/
def State.viewHead (s : State) (q : Nat) : HeadView :=
  let x := s.queue q
  if !s.released || x.state != .running then .nothing
  else
    match x.fetched with
    | [] => .nothing
    | f :: _ =>
      match f.ue with
      | some page => .fetchUe f.idx page
      | none =>
        if s.headerAbandoned f.cmd then .abandoned (waitTally f.cmd)
        else if !s.headerMet f.cmd || !x.headFree f.cmd then .held
        else
          match s.plainFault q f.cmd with
          | some (cause, detail) => .bad f.idx f.cmd cause detail
          | none => .open_ f.idx (withIdx x f.cmd)

/-- The head of queue `q`, met by the row of opcode `op`. A head that completes without an effect does so whatever the row: an
uncorrectable fetch, an abandoned wait, a reserved opcode. `check` gives the faults that the instruction's own operands
show. -/
def State.runHead (s : State) (q op : Nat) (check : State → BitVec 512 → Option (Nat × Nat))
    (run : State → Word → BitVec 512 → State) : State :=
  match s.viewHead q with
  | .nothing | .held => s
  | .fetchUe idx page => s.fetchFail q idx page
  | .abandoned t => s.endHead q St.abandoned t
  | .bad idx c cause detail =>
    if opcodeOf c = op ∨ layoutOf (opcodeOf c) = none then s.badCommand q idx c cause detail else s
  | .open_ idx c =>
    if opcodeOf c = op then
      match check s c with
      | some (cause, detail) => s.badCommand q idx c cause detail
      | none => run s idx c
    else s

/-! ### The unit (R210, R212, Table QUE-4) -/

/-- Table QUE-4: the unit's limit of commands in flight. -/
def unitLimit (u : Nat) : Nat := if u < 40 then 8 else 128

/-- Commands in flight on the unit at FC_TGT index `u`. -/
def State.unitLoad (s : State) (u : Nat) : Nat :=
  (queuesOf u).foldl (fun a q => a + ((s.queue q).inflight.filter fun x => isUnitOp (opcodeOf x.cmd)).length) 0

/-- The unit takes work: it is not stopped, not in reset, and below its limit. -/
def State.unitTakes (s : State) (u : Nat) : Bool :=
  !(s.unit u).state.stopped && (s.resetOf u).inReset.isNone && decide (s.unitLoad u < unitLimit u)

/-- Places after the queue that issued last on the unit (R212). -/
def State.turnOf (s : State) (u q : Nat) : Nat :=
  match Tab.find s.lastIssued u with
  | some l => (q + 511 - l) % 256
  | none => q

/-- R212: among the unit's queues with a command ready, `q` goes first. `ready` tells which commands the unit could start. -/
def State.winsUnit (s : State) (u q : Nat) (cmd : BitVec 512) (ready : Nat → BitVec 512 → Bool) : Bool :=
  (queuesOf u).all fun o =>
    o == q || match s.viewHead o with
      | .open_ _ c =>
        !(isUnitOp (opcodeOf c) && ready o c)
          || decide (prioOf c < prioOf cmd) || (prioOf c == prioOf cmd && decide (s.turnOf u q < s.turnOf u o))
      | _ => true

/-- No checks beyond those of every instruction. -/
def noCheck (_ : State) (_ : BitVec 512) : Option (Nat × Nat) := none

/-- R231: a sequencer command completes in its issue cycle with OK. -/
def State.completeOk (s : State) (q : Nat) (idx : Word) (c : BitVec 512) : State := s.completeHead q idx c { status := St.ok }

/-! ### Completion records (R217–R224) -/

/-- R218, R219, Table QUE-6: a completion record. -/
def recordBytes (q : Nat) (x : Inflight) (d : Done) (stamp : Stamp) (phase : Bool) : List Byte :=
  let late := d.late.getD (0, 0)
  let sat := min 0xFFFFFF d.sat
  let flush := min 0xFFFFFF d.flush
  let drop := min 0xFFFFFF d.drop
  let lateness := min 0xFFFF late.1
  let held := sat == 0xFFFFFF || flush == 0xFFFFFF || drop == 0xFFFFFF || lateness == 0xFFFF
  leBytes (tagOf x.cmd + q * 2 ^ 16 + d.status * 2 ^ 24 + opcodeOf x.cmd * 2 ^ 32 + b2n phase * 2 ^ 40
    + b2n d.late.isSome * 2 ^ 41 + b2n held * 2 ^ 42 + late.2 % 1024 * 2 ^ 48) 8
  ++ leBytes stamp.toNat 8
  ++ leBytes (sat + flush * 2 ^ 24 + lateness * 2 ^ 48) 8
  ++ leBytes (drop + d.cause * 2 ^ 24 + min 0xFFFFFFFF d.detail * 2 ^ 32) 8

/-- R221: the ring that a record goes to: RING, or ERR_RING for FETCH_UE and for a command whose RING is not enabled. -/
def State.recordRing (s : State) (q : Nat) (x : Inflight) (d : Done) : Nat :=
  if d.status = St.fetchUe ∨ (d.status = St.badCommand ∧ d.cause = 5) ∨ (s.ring (ringOf x.cmd)).enabled = false then
    (s.queue q).errRing
  else ringOf x.cmd

/-- R221: the ring is full. -/
def Ring.full (r : Ring) : Bool := decide (r.size ≤ (r.tail - r.head).toNat)

/-- R224: the message of a ring, with its count restarted. -/
def State.ringMessage (s : State) (r : Nat) : State :=
  (s.modRing r fun x => { x with unsignalled := 0, oldest := none }).fire (s.ring r).vector

/-- R222, R224, R413: a record has been accepted by its controller. -/
def State.recordAccepted (s : State) (r : Nat) (force : Bool) : State :=
  let s := s.modRing r fun x => { x with
    tail := x.tail + 1, unsignalled := x.unsignalled + 1, oldest := some (x.oldest.getD s.now) }
  let s := forEach (s.wiresOf .ring r) (fun w st => st.fireWire w) s
  let x := s.ring r
  if force || (x.irqCount != 0 && decide (x.irqCount ≤ x.unsignalled)) then s.ringMessage r else s

/-- R217, R221, R146: the record of a finished command, into a ring that has room. A record that cannot be written is dropped. -/
def State.writeRecord (s : State) (q : Nat) (x : Inflight) (d : Done) (r : Nat) : State :=
  let g := s.ring r
  if !g.enabled then s.raiseOn Det.errRingDrop (.queue q)
  else
    let i := g.tail.toNat % g.size
    let phase := g.tail.toNat / g.size % 2 == 0
    match s.store (g.base.toNat + 32 * i) (recordBytes q x d s.stamp phase) with
    | (s', .ok) => s'.recordAccepted r (opcodeOf x.cmd == 0x61 && bitAt (cf x.cmd 20 1) 0)
    | (s', .strict page) => s'.memFault (.queue q) Det.crToStrict page
    | (s', .ue page) => s'.memFault (.queue q) Det.rmwUe page
    | (s', .unbacked a) => s'.unbackedEvent a

/-- R227.3: a RESETTING queue whose commands are all gone writes HEAD and is DISABLED. -/
def State.resetDone (s : State) (q : Nat) : State :=
  let x := s.queue q
  if x.state = .resetting ∧ x.inflight = [] then (s.writeHead q).modQueue q fun x => { x with state := .disabled } else s

/-- R223: a command that finished earlier has a record waiting for ring `r`. -/
def State.earlierRecord (s : State) (r : Nat) (order : Nat) : Bool :=
  s.queues.any fun y => y.2.inflight.any fun z =>
    match z.done with
    | some d => decide (d.order < order) && s.recordRing y.1 z d == r
    | none => false

/-- R217, R221, R223: a finished command completes: its record in its turn, when the ring has room, then its signal. A full
ring counts as stalled. -/
def State.completeOne (s : State) (q : Nat) (x : Inflight) (d : Done) : State :=
  let r := s.recordRing q x d
  if s.earlierRecord r d.order then s
  else if (s.ring r).enabled && (s.ring r).full then s
  else ((s.writeRecord q x d r).retire q x d).resetDone q

/-! ### Doorbells (R204, R206) -/

/-- R206: a bell from an agent that is not the producer, or in a state that takes none. -/
def State.foreignBell (s : State) (q : Nat) : State :=
  (s.modQueue q fun x => { x with foreignBell := satAdd 0xFFFF x.foreignBell 1 }).eventC Det.foreignBell (.queue q)

/-- R204, R206: a doorbell write or push of value `v` from `agent` (0 host, 1–8 clusters). -/
def State.bell (s : State) (q : Nat) (v : Word) (agent : Nat) : State :=
  let x := s.queue q
  if x.producer ≠ agent ∨ x.state = .disabled ∨ x.state = .resetting then s.foreignBell q
  else if v = x.tail then s
  else if idxLater x.tail v && decide ((v - x.headIdx).toNat ≤ x.size) then s.modQueue q fun x => { x with tail := v }
  else (s.haltQueue q .badDoorbell x.fetch true).raiseOn Det.badDoorbell (.queue q)

/-! ### Queue control (R201, R202, R225–R227, R544, R545) -/

/-- The extent lies in the usable area of tier 1 and in one RMW region (R202, R220). Region bounds are multiples of 64 MiB. -/
def State.oneRmwRegion (s : State) (a n : Nat) : Bool :=
  let marks := a :: (a + n - 1) :: ((List.range (n / mib64 + 2)).map fun i => (a / mib64 + i) * mib64)
  s.inTier1 a n && !s.isStrict a
    && marks.all fun m => decide (m < a) || decide (a + n ≤ m) || s.regionOf m == s.regionOf a

/-- R202, R201, Table FLT-4: the queue may be enabled. -/
def State.mayEnable (s : State) (q : Nat) : Bool :=
  let x := s.queue q
  let stopped := match unitOfQueue q with
    | some u => (s.unit u).state.stopped
    | none => false
  decide (q < 240) && !stopped && !s.held (64 + q) && pow2Between x.size 32 65536
    && decide (x.base.toNat % 2048 = 0) && s.oneRmwRegion x.base.toNat (64 * x.size)
    && decide (x.headAddr.toNat % 8 = 0) && s.oneRmwRegion x.headAddr.toNat 8

/-- Q_STATUS.CFG_REFUSED. -/
def State.refuseQueue (s : State) (q : Nat) : State :=
  (s.modQueue q fun x => { x with cfgRefused := true }).eventC Det.qCfgRefused (.queue q)

/-- R545: a control bit that names no transition. -/
def State.badCtrl (s : State) (q : Nat) : State :=
  (s.modQueue q fun x => { x with badCtrl := satAdd 0xFFFF x.badCtrl 1 }).eventC Det.badCtrl (.queue q)

/-- R227.1: the destinations of the data commands that a queue reset cancels hold undefined contents. -/
def State.spoilQueue (s : State) (q : Nat) : State :=
  forEach ((s.queue q).inflight.filter fun x => x.done.isNone && x.chan.isSome)
    (fun x st => (st.scribble (Config.cancelledByte st.fresh) (st.writeExtents (setOfCommand x.cmd))).drawn) s

/-- R227: RESET of a queue: its commands are cancelled, its objects ABANDONED and its sequencer state cleared. -/
def State.resetQueue (s : State) (q : Nat) : State :=
  let s := (s.modQueue q fun x => { x with state := .resetting }).spoilQueue q
  let s := (s.cancelQueue q).abandonOwned fun o => o == .queue q
  (s.modQueue q fun x => { x with sregs := [], pin := [], fetched := [], head := none }).resetDone q

/-- R202: ENABLE of a DISABLED queue: TAIL, FETCH and HEAD are Q_INIT_INDEX. -/
def State.enableQueue (s : State) (q : Nat) : State :=
  if s.mayEnable q then
    s.modQueue q fun x => { x with
      state := .running, tail := x.initIndex, fetch := x.initIndex, headWritten := x.initIndex, haltCause := .none
      stalled := 0, progress := false, pin := [], fetched := [], head := none }
  else s.refuseQueue q

/-- A collective of the queue is in flight (R227). -/
def Queue.hasCollective (x : Queue) : Bool :=
  x.inflight.any fun y => decide (0x40 ≤ opcodeOf y.cmd) && decide (opcodeOf y.cmd ≤ 0x45)

/-- Table QUE-8: one control bit of Q_CTRL (0 ENABLE, 1 DISABLE, 2 SUSPEND, 3 RESUME, 4 RESET). -/
def State.queueCtrl (s : State) (q bit : Nat) : State :=
  let x := s.queue q
  match bit, x.state with
  | 0, .disabled => s.enableQueue q
  | 1, .running => if x.empty then s.modQueue q fun x => { x with state := .disabled } else s.badCtrl q
  | 2, .running => s.suspendQueue q
  | 3, .suspended | 3, .halted =>
    if s.held (64 + q) then s.refuseQueue q else s.modQueue q fun x => { x with state := .running }
  | 4, .suspended | 4, .halted =>
    if x.hasCollective then
      (s.modQueue q fun x => { x with resetRefused := true }).eventC Det.resetRefused (.queue q)
    else s.resetQueue q
  | _, _ => s.badCtrl q

/-- R544, R545: a write to Q_CTRL: first the configuration fields, then the control bit. -/
def State.writeQCtrl (s : State) (q v : Nat) : State :=
  let disabled := (s.queue q).state == .disabled
  if disabled && decide (8 < fld v 8 4) then s
  else
    let s := if disabled then s.modQueue q fun x => { x with
        producer := fld v 8 4, errRing := fld v 16 6, errContinue := bitAt v 24 } else s
    match (List.range 5).filter (bitAt v) with
    | [] => s
    | [b] => s.queueCtrl q b
    | _ => s.badCtrl q

end Sys2Proof.Machine
end

