-- ==== Sys2Proof/Machine/CollPlan.lean ====
section
/-!
DEFINITION. What a collective command asks for (Tables MAM-8 and MAM-9, COL-2), the checks at its issue (R255–R257, R271–R274,
R278), its algorithm (R273) and its legs: the gangs and routes on which this member receives and sends (R284–R287).
-/
namespace Sys2Proof.Machine
open Sys2Proof.Machine.Num

/-! ### Operands -/

/-- What a collective carries. -/
inductive CKind where
  | bcast | native | wide | moments | harvest
  | descant                                  -- DBCAST, DREDUCE and COUNTS
deriving DecidableEq, Repr

namespace Cc
def src (c : BitVec 512) : Nat := cf c 16 8
def dst (c : BitVec 512) : Nat := cf c 24 8
def count (c : BitVec 512) : Nat := cf c 32 8
def part (c : BitVec 512) : Nat := cf c 40 1
def op (c : BitVec 512) : Nat := cf c 41 1
def fin (c : BitVec 512) : Nat := fld (cf c 42 1) 0 4
def fout (c : BitVec 512) : Nat := fld (cf c 42 1) 4 4
def numctl (c : BitVec 512) : Nat := cf c 43 1
def optag (c : BitVec 512) : Nat := fld (cf c 44 2) 0 12
def alg (c : BitVec 512) : Nat := cf c 48 1
def srcHost (c : BitVec 512) : Bool := bitAt (cf c 50 1) 0
def dstHost (c : BitVec 512) : Bool := bitAt (cf c 50 1) 1
def counted (c : BitVec 512) : Bool := bitAt (cf c 50 1) 2
def all (c : BitVec 512) : Bool := bitAt (cf c 50 1) 3
/-- MOMENTS: rows of this member. HARVEST: K and LISTS. -/
def rows (c : BitVec 512) : Nat := cf c 52 4
def k (c : BitVec 512) : Nat := cf c 52 2
def lists (c : BitVec 512) : Nat := cf c 54 2

/-- R188, R195: the kind of payload. -/
def kind (c : BitVec 512) : CKind :=
  match opcodeOf c with
  | 0x40 => .bcast
  | 0x41 =>
    if op c = 9 then .moments
    else if op c ≤ 1 ∧ wideBit (numctl c) ∧ (Fmt.ofCode (fin c)).isFloat then .wide else .native
  | 0x42 => .harvest
  | _ => .descant

/-- MAXLOC or MINLOC. -/
def isLoc (c : BitVec 512) : Bool := op c == 4 || op c == 5

/-- Bytes of one element of the input: a pair for MAXLOC and MINLOC. -/
def inBytes (c : BitVec 512) : Nat := if isLoc c then 8 else (Fmt.ofCode (fin c)).bits / 8
/-- Bytes of one result. -/
def outBytes (c : BitVec 512) : Nat :=
  match kind c with
  | .bcast | .descant => 1
  | .native => inBytes c
  | .wide => (Fmt.ofCode (fout c)).bits / 8
  | .moments | .harvest => 16

/-- Table COL-2: payload bytes of one item. -/
def itemBytes (c : BitVec 512) : Nat :=
  match kind c with
  | .bcast | .descant => 1
  | .native => inBytes c
  | .wide => 8
  | .moments => 24
  | .harvest => 16
/-- Table COL-2: items of a full segment. -/
def perSeg (c : BitVec 512) : Nat := 73728 / itemBytes c
/-- Table COL-2: TYPE of a contribution's slots. -/
def upType (c : BitVec 512) : Nat :=
  match kind c with
  | .bcast | .descant => 0
  | .native => 2
  | .wide => 1
  | .moments => 4
  | .harvest => 3
/-- R272: TYPE of a result's slots. -/
def downType (c : BitVec 512) : Nat := if kind c = .harvest then 3 else 0

/-- The command has an up half: contributions to the root. -/
def hasUp (c : BitVec 512) : Bool := opcodeOf c == 0x41 || opcodeOf c == 0x42
/-- The command has a down half: data from the root. -/
def hasDown (c : BitVec 512) : Bool := opcodeOf c == 0x40 || (hasUp c && all c)

/-- R278: the segments of staging beside the windows. -/
def slack (c : BitVec 512) : Nat := if kind c = .wide ∨ kind c = .moments then 3 else 1

/-- R273: the size per member in bytes, where FIXED mode gives it. -/
def fixedSize (c : BitVec 512) : Nat :=
  match opcodeOf c with
  | 0x41 => count c * inBytes c * (if op c = 9 then rows c else 1)
  | _ => count c

/-- R275: the DOP and DFMT of a REDUCE in the descant lane. -/
def descantMap (c : BitVec 512) : Option (Nat × Nat) :=
  match opcodeOf c with
  | 0x40 => some (Dop.bcast, 0)
  | 0x41 =>
    let dfmt := match fin c with
      | 0x5 => some 1
      | 0x4 => some 4
      | 0xB => some 3
      | 0x9 => some 5
      | 0xA => some 6
      | _ => none
    match op c with
    | 0 => dfmt.map fun d => (Dop.sum, d)
    | 2 => dfmt.map fun d => (Dop.max, d)
    | 3 => dfmt.map fun d => (Dop.min, d)
    | 6 => some (Dop.and, 0)
    | 7 => some (Dop.or, 0)
    | 8 => some (Dop.xor, 0)
    | _ => none
  | _ => none
end Cc

/-- The member that ROOT names. -/
def State.collRoot (s : State) (c : BitVec 512) : Nat :=
  if cf c 46 2 = 0xFFFF then ((s.part (Cc.part c)).map (·.root)).getD 0x3FF else cf c 46 2
/-- The descant tree that DTREE names. -/
def State.collTree (s : State) (c : BitVec 512) : Nat :=
  if cf c 49 1 = 0xFF then ((s.part (Cc.part c)).map (·.dtree)).getD 0xFF else cf c 49 1
/-- SELF is the root. -/
def State.collIsRoot (s : State) (c : BitVec 512) : Bool := s.collRoot c == s.self

/-! ### The algorithm (R273, R274) -/

/-- R273: AUTO's choice for `size` bytes per member. -/
def State.autoAlg (s : State) (c : BitVec 512) (size : Nat) : Alg :=
  let p := s.part (Cc.part c)
  if size ≤ 16 ∧ (Cc.descantMap c).isSome ∧ (s.dtree (s.collTree c)).isSome then .descant
  else if size ≤ (p.map (·.threshold)).getD 0 ∨ (p.map (·.canonCount)).getD 0 = 0 then .tree
  else .canon

/-- The algorithm for `size` bytes per member. -/
def State.algOf (s : State) (c : BitVec 512) (size : Nat) : Alg :=
  match Cc.kind c, Cc.alg c with
  | .descant, _ => .descant
  | .harvest, _ => .tree
  | _, 1 => .tree
  | _, 2 => .canon
  | _, 3 => .descant
  | _, _ => s.autoAlg c size

/-! ### Legs -/

/-- A member's place in one route or stream: the gang and route toward the root, and those away from it. -/
structure Node where
  up : Option (Nat × Nat) := none
  ins : List (Nat × Nat) := []
deriving DecidableEq, Repr

/-- The slot ROUTE field of a route. -/
def routeField (id : Nat) : Nat := 2048 + id

/-- R284, R285: SELF's place in a tree. In the up half only a combining member or the root receives. -/
def treeNode (r : Img.Route) (upHalf : Bool) : Node :=
  { up := if r.isRoot then none else some (r.up, routeField r.id)
    ins := if !upHalf || r.combine || r.isRoot then (gangsOf r.children).map fun g => (g, routeField r.id) else [] }

/-- R287: the chains of one stream that SELF is on, from dimension `e` up: the next one only where SELF is the tail of this one. -/
def chainsFrom (m : Mem) (p first d s : Nat) : Nat → Nat → List Img.Route
  | 0, _ => []
  | n + 1, e =>
    match Img.route m p (first + s * d + e) with
    | none => []
    | some r => r :: (if r.isRoot then chainsFrom m p first d s n (e + 1) else [])

/-- R287: SELF's place in stream `s`. -/
def canonNode (m : Mem) (p : Nat) (x : Img.Part) (s : Nat) : Node :=
  let d := Img.dims m
  let rs := chainsFrom m p x.canonFirst d s d 0
  { up := match rs.reverse with
      | r :: _ => if r.isRoot then none else some (r.up, routeField r.id)
      | [] => none
    ins := (rs.filter fun r => !r.isLeaf).map fun r => (r.inGang, routeField r.id) }

/-- The places of SELF, one for each stream, in one half of a collective; none where its score holds no such route. -/
def State.nodes (s : State) (c : BitVec 512) (a : Alg) (upHalf : Bool) : Option (List Node) :=
  match s.img, s.part (Cc.part c) with
  | some m, some x =>
    match a with
    | .tree =>
      (Img.route m (Cc.part c) (if upHalf then x.reduceTree else x.bcastTree)).bind fun r =>
        if r.kind = 1 then some [treeNode r upHalf] else none
    | .canon =>
      let n := x.canonCount / Img.dims m
      if n = 0 ∨ (List.range n).any (fun i => (Img.route m (Cc.part c) (x.canonFirst + i * Img.dims m)).isNone) then none
      else some ((List.range n).map (canonNode m (Cc.part c) x))
    | .descant => some []
  | _, _ => none

/-- The list with its places numbered. -/
def numbered {α : Type} : Nat → List α → List (Nat × α)
  | _, [] => []
  | i, x :: xs => (i, x) :: numbered (i + 1) xs

/-- The inputs and outputs of the two halves. -/
def legsOf (up down : List Node) : List CInput × List COutput :=
  let us := numbered 0 up
  let ds := numbered 0 down
  (us.flatMap (fun x => x.2.ins.map fun g => { gang := g.1, route := g.2, down := false, stream := x.1 })
      ++ ds.flatMap (fun x => x.2.up.toList.map fun g => { gang := g.1, route := g.2, down := true, stream := x.1 }),
    us.flatMap (fun x => x.2.up.toList.map fun g => { gang := g.1, route := g.2, down := false, stream := x.1 })
      ++ ds.flatMap (fun x => x.2.ins.map fun g => { gang := g.1, route := g.2, down := true, stream := x.1 }))

/-- SELF's legs under an algorithm. -/
def State.legs (s : State) (c : BitVec 512) (a : Alg) : Option (List CInput × List COutput) :=
  let up := if Cc.hasUp c then s.nodes c a true else some []
  let down := if Cc.hasDown c then s.nodes c a false else some []
  match up, down with
  | some u, some d => some (legsOf u d)
  | _, _ => none

/-- The ROOT of the routes or tree that an algorithm uses. -/
def State.algRoots (s : State) (c : BitVec 512) (a : Alg) : List Nat :=
  match s.img, s.part (Cc.part c) with
  | some m, some x =>
    match a with
    | .tree =>
      let of := fun id => ((Img.route m (Cc.part c) id).map (·.root)).toList
      (if Cc.hasUp c then of x.reduceTree else []) ++ (if Cc.hasDown c then of x.bcastTree else [])
    | .canon => [x.root]
    | .descant => ((s.dtree (s.collTree c)).map (·.root)).toList
  | _, _ => []

/-- R278: W′, the segments of staging, or none where W′ would be 0. A contributing leaf receives nothing and holds none. -/
def State.windowOf (s : State) (c : BitVec 512) (ins : List CInput) : Option (Nat × Nat) :=
  let i := ins.length
  let w := min (((s.part (Cc.part c)).map (·.window)).getD 0) ((113 - Cc.slack c) / (i + 1))
  if w = 0 then none
  else some (w, if i = 0 ∧ !s.collIsRoot c then 0 else (i + 1) * w + Cc.slack c)

/-- Segments of staging that CE `i` holds. -/
def State.stagingUsed (s : State) (i : Nat) : Nat :=
  (s.ce.colls.filter fun x => x.part % 4 == i).foldl (fun a x => a + x.staging) 0

/-! ### Checks at issue -/

/-- Bytes read at SRC on this member (Table MAM-9). -/
def State.collReads (s : State) (c : BitVec 512) : Nat :=
  match opcodeOf c with
  | 0x40 | 0x43 => if s.collIsRoot c then Cc.count c else 0
  | 0x42 => Cc.lists c * Cc.count c * 16
  | _ => Cc.fixedSize c
/-- Bytes written at DST on this member (Table MAM-9). -/
def State.collWrites (s : State) (c : BitVec 512) : Nat :=
  let me := s.collIsRoot c
  match opcodeOf c with
  | 0x40 | 0x43 => if me then 0 else Cc.count c
  | 0x41 => if me || Cc.all c then Cc.count c * Cc.outBytes c else 0
  | 0x42 => if me || Cc.all c then Cc.lists c * Cc.k c * 16 else 0
  | 0x44 => if me || Cc.all c then Cc.count c else 0
  | _ => 16

/-- The first fault of a list of (condition that must hold, cause, offset). -/
def firstFault : List (Bool × Nat × Nat) → Option (Nat × Nat)
  | [] => none
  | (ok, cause, off) :: xs => if ok then firstFault xs else some (cause, off)

/-- R192, R197, R264, Table MAM-9: operation, formats, counts and flags. -/
def State.collShape (s : State) (c : BitVec 512) : Option (Nat × Nat) :=
  let wideOut := decide (7 ≤ Cc.fout c) && decide (Cc.fout c ≤ 0xB)
  let n := ((s.part (Cc.part c)).map (·.count)).getD 0
  match opcodeOf c with
  | 0x40 => firstFault [(decide (Cc.count c ≤ 65536 * 73728) || (Cc.counted c && !s.collIsRoot c), 3, 32)]
  | 0x41 =>
    firstFault [
      (ceLegal (Cc.op c) (Cc.fin c), 3, 41),
      (Cc.fout c == Cc.fin c || ((Cc.kind c == .wide || Cc.kind c == .moments) && wideOut), 3, 42),
      (!Cc.counted c || Cc.op c == 9, 3, 50),
      (decide (Cc.count c ≤ 65536 * Cc.perSeg c), 3, 32),
      (Cc.op c != 9 || Cc.counted c || decide (Cc.rows c * n ≤ 2 ^ 40), 3, 52)]
  | 0x42 =>
    firstFault [
      (decide (Cc.alg c ≤ 1), 3, 48),
      (decide (1 ≤ Cc.k c) && decide (Cc.k c ≤ 1024) && decide (1 ≤ Cc.lists c) && decide (Cc.lists c ≤ 1024), 3, 52)]
  | 0x43 =>
    firstFault [(dfmtLegal Dop.bcast (Cc.fin c), 3, 42), (!Cc.counted c, 3, 50),
      (decide (1 ≤ Cc.count c) && decide (Cc.count c ≤ 16), 3, 32)]
  | 0x44 =>
    firstFault [(dfmtLegal (Cc.op c) (Cc.fin c), 3, 42), (!Cc.counted c, 3, 50),
      (decide (1 ≤ Cc.count c) && decide (Cc.count c ≤ 16), 3, 32)]
  | _ => firstFault [(Cc.count c == 8, 3, 32)]

/-- R256, R274, R278: the algorithm that the command names, or that FIXED mode chooses. A COUNTED BCAST chooses later (R290). -/
def State.collAlgFault (s : State) (c : BitVec 512) : Option (Nat × Nat) :=
  let p := s.part (Cc.part c)
  if opcodeOf c = 0x40 ∧ Cc.counted c ∧ Cc.alg c = 0 then none
  else
    let size := if opcodeOf c = 0x40 ∧ Cc.counted c then 0 else Cc.fixedSize c
    let a := s.algOf c size
    firstFault [
      (Cc.kind c == .descant || Cc.alg c != 3 || ((Cc.descantMap c).isSome && decide (size ≤ 16)), 3, 48),
      (a != .canon || decide (0 < (p.map (·.canonCount)).getD 0), 3, 48),
      ((s.legs c a).isSome, 3, 48),
      ((s.algRoots c a).all fun r => r == s.collRoot c, 3, 46),
      (a == .descant || (((s.legs c a).map fun l => (s.windowOf c l.1).isSome).getD true), 3, 40)]

/-- R255–R257, R271, R274, R234: the checks at issue on a queue of CE `ce`. -/
def State.collCheck (ce : Nat) (s : State) (c : BitVec 512) : Option (Nat × Nat) :=
  let part := Cc.part c
  let place := firstFault [
    (s.inPart part s.self && part % 4 == ce, 3, 40),
    (s.inPart part (s.collRoot c), 3, 46),
    (((s.dtree (s.collTree c)).map fun e => e.part == part).getD false, 3, 49),
    (!(s.ce.colls.any fun x => x.part == part && x.optag == Cc.optag c && x.keep.isNone), 3, 44)]
  let mem := fun (_ : Unit) => firstFault [
    (Cc.src c % 64 == 0, 3, 16), (Cc.dst c % 64 == 0, 3, 24),
    (Cc.srcHost c || s.backed (Cc.src c) (s.collReads c), 4, 16),
    (Cc.dstHost c || s.backed (Cc.dst c) (s.collWrites c), 4, 24)]
  place.or ((s.collShape c).or ((s.collAlgFault c).or (mem ())))

end Sys2Proof.Machine
end

