-- ==== Sys2Proof/Machine/CollOps.lean ====
section
/-!
DEFINITION. Collectives in flight: window messages (R279–R283), segments in and out with their checks and retries (R304–R315),
results, completion (R260), lateness (R317–R321) and the loss of a member (R322–R326). A segment is combined and checked as
a whole.
-/
namespace Sys2Proof.Machine
open Sys2Proof.Machine.Num

/-! ### Lookup -/

/-- The collective with this PART and OPTAG: in flight, or kept after completion (R260). -/
def State.coll (s : State) (part optag : Nat) : Option Coll := s.ce.colls.find? fun c => c.part == part && c.optag == optag
def State.collOf (s : State) (q tok : Nat) : Option Coll := s.ce.colls.find? fun c => c.queue == q && c.tok == tok
def State.putColl (s : State) (c : Coll) : State :=
  { s with ce.colls := s.ce.colls.map fun x => if x.queue == c.queue && x.tok == c.tok then c else x }
def State.removeColl (s : State) (c : Coll) : State :=
  { s with ce.colls := s.ce.colls.filter fun x => !(x.queue == c.queue && x.tok == c.tok) }

/-- The serving CE (R271). -/
def Coll.ceOf (c : Coll) : Nat := c.part % 4
/-- Counter `i` of the serving CE, and its event. -/
def State.ceEvent (s : State) (part i det detail : Nat) : State := (s.count (Cnt.ce (part % 4) i)).eventC det (.ce (part % 4)) detail

/-- Streams of the collective (R286): 1 but for CANON. -/
def State.streamsOf (s : State) (c : Coll) : Nat :=
  match c.alg, s.img with
  | some .canon, some m => max 1 ((Img.part m c.part).canonCount / Img.dims m)
  | _, _ => 1

/-- R276: segments of a contribution. -/
def Coll.segCount (c : Coll) : Nat := ceilDiv c.size (Cc.perSeg c.cmd)
/-- Items of segment `k`. -/
def Coll.itemsOf (c : Coll) (k : Nat) : Nat := min (Cc.perSeg c.cmd) (c.size - k * Cc.perSeg c.cmd)
/-- R286: the segments of stream `i`, ascending. -/
def Coll.segsOn (c : Coll) (streams i : Nat) : List Nat := (List.range c.segCount).filter fun k => k % streams == i

/-- R187: segment `k` falls back to NATIVE. -/
def Coll.fallsBack (c : Coll) (k : Nat) : Bool := Tab.find c.exps k == some 0x7FFF || Tab.find c.exps2 k == some 0x7FFF

/-- Adds what a step counted (R198). -/
def Coll.addCounts (c : Coll) (x : Counts) : Coll :=
  { c with sat := c.sat + x.sat, flush := c.flush + x.flush, drop := c.drop + x.drop }

/-- The first failure stands (R215). -/
def Coll.fail (c : Coll) (status detail : Nat) : Coll := { c with failure := c.failure.or (some (status, detail)) }

/-! ### Window messages (R279–R282) -/

/-- Table COL-3. -/
def windowBody (c : Coll) (route : Nat) (down : Bool) (v cause : Nat) : List Byte :=
  bodyOf [(0, 1, c.part), (1, 1, b2n down), (2, 2, c.optag), (4, 2, route), (8, 4, v), (12, 1, cause)]

/-- R280, R514: a waiting RELEASE of the same input is replaced. -/
def replaceRelease (body : List Byte) : List (Bool × Cue) → Option (List (Bool × Cue))
  | [] => none
  | x :: xs =>
    if x.2.typ == 0x12 && !x.1 && x.2.body.take 8 == body.take 8 then some ((x.1, { x.2 with body := body }) :: xs)
    else (replaceRelease body xs).map (x :: ·)

/-- R279: a window message to the neighbour on gang `g`; false where the send queue has no room. -/
def State.sendWindow (s : State) (c : Coll) (typ g route : Nat) (down : Bool) (v : Nat) (cause : Nat := 0) : State × Bool :=
  let body := windowBody c route down v cause
  let q := s.cueQueue g
  match if typ = 0x12 then replaceRelease body q.items else none with
  | some items => (s.setCueQueue g { q with items := items }, true)
  | none => s.originate g { typ := typ, neighbour := true, dest := 0x3FF, body := body }

/-- The outputs below an input of a down half: those of its stream. -/
def Coll.below (c : Coll) (i : CInput) : List COutput := c.outputs.filter fun o => o.down && o.stream == i.stream

/-- R282: a receiver confirms a down half only when every member below has confirmed; R280.1 for an up half. -/
def Coll.mayConfirm (c : Coll) (i : CInput) : Bool := !i.down || (c.below i).all fun o => o.granted.isSome
/-- The W′ that a CONFIRM grants: the least of its own and of those below. -/
def Coll.grantOf (c : Coll) (i : CInput) : Nat :=
  if i.down then (c.below i).foldl (fun a o => min a (o.granted.getD a)) c.window else c.window

/-- R280.1, R280.3: CONFIRM to every input that has been heard of by neither a RESERVE nor a slot. -/
def State.confirmInputs (s : State) (c : Coll) : State :=
  forEach (c.inputs.filter fun i => !i.heard && c.mayConfirm i)
    (fun i st => (st.sendWindow c 0x11 i.gang i.route i.down (c.grantOf i)).1) s

/-- Segments that an output sends. -/
def State.outTotal (s : State) (c : Coll) (o : COutput) : Nat := (c.segsOn (s.streamsOf c) o.stream).length

/-- The outputs on which SELF sends its own slots: up outputs, and at the root those of the down half. -/
def State.sends (s : State) (c : Coll) (o : COutput) : Bool := !o.down || c.root == s.self

/-- R280.2: RESERVE to every receiver. -/
def State.reserveOutputs (s : State) (c : Coll) : State :=
  forEach (c.outputs.filter (s.sends c)) (fun o st => (st.sendWindow c 0x10 o.gang o.route o.down (st.outTotal c o)).1) s

/-- WINDOW_PROTO: a message or slot that breaks R280 to R282. -/
def State.windowProto (s : State) (part optag : Nat) : State := s.eventC Det.windowProto (.ce (part % 4)) optag

/-- R279: SELF relays window messages of a route that it only forwards. `away`: from the root. -/
def State.relayWindow (s : State) (p : Nat) (away : Bool) (cue : Cue) : State :=
  match s.route (cue.at 0 1) (cue.at 4 2 % 2048) with
  | none => s
  | some r =>
    let gs := if away then (if r.kind = 1 then gangsOf r.children else if r.isLeaf then [] else [r.inGang])
      else if r.isRoot then [] else [r.up]
    forEach gs (fun g st =>
      if st.cueRoom g true then st.enqueueCue g true cue
      else st.count (Cnt.vp ((st.gangPorts g).headD p) Cnt.cueRelayOvf)) s

/-! ### Released counts (R280.5, R282) -/

/-- How many of a list hold in a row from its start. -/
def runLength {α : Type} (f : α → Bool) : List α → Nat
  | [] => 0
  | x :: xs => if f x then 1 + runLength f xs else 0

/-- SELF has done with segment `k` of an input: at the root, and for a down half, it is written or given up; else its own output
of the segment has left. -/
def State.segDone (s : State) (c : Coll) (i : CInput) (k : Nat) : Bool :=
  if i.down || c.root == s.self then c.written.contains k
  else (c.outputs.filter fun o => !o.down && o.stream == i.stream).all fun o => decide (k / s.streamsOf c < o.seg)

/-- The released count of an input. -/
def State.releasedOf (s : State) (c : Coll) (i : CInput) : Nat :=
  let own := runLength (s.segDone c i) (c.segsOn (s.streamsOf c) i.stream)
  if i.down then (c.below i).foldl (fun a o => min a o.released) own else own

/-- One input's RELEASE, if its count has risen. -/
def State.releaseInput (s : State) (c : Coll) (n : Nat) (i : CInput) : State :=
  match s.sendWindow c 0x12 i.gang i.route i.down n with
  | (s, true) =>
    match s.collOf c.queue c.tok with
    | some c' => s.putColl { c' with inputs := c'.inputs.map fun x =>
        if x.gang == i.gang && x.route == i.route && x.down == i.down then { x with released := n } else x }
    | none => s
  | (s, false) => s

/-- R280.5: RELEASE to every input whose released count has risen. -/
def State.releaseAll (s : State) (c : Coll) : State :=
  forEach c.inputs (fun i st => if i.released < st.releasedOf c i then st.releaseInput c (st.releasedOf c i) i else st) s

/-! ### The end of a collective -/

/-- R324, R424: the collective ends now and stops; its later slots and messages are dropped without a word. -/
def State.stopColl (s : State) (c : Coll) (d : Done) : State :=
  ({ s with ce := s.ce.dropColl c.part c.optag }).finish c.queue c.tok { d with sat := c.sat, flush := c.flush, drop := c.drop }

/-- An operand could not be read (Table MEM-7). -/
def State.collUe (s : State) (c : Coll) (det page : Nat) : State :=
  (s.stopColl c { status := St.dataUe, detail := page }).memFault (.queue c.queue) det page

/-- R318: LATENESS and the laggard that the folded lateness operation names. -/
def latenessOf (data : List Byte) : Option (Nat × Nat) :=
  let l0 := leAt data 0 8
  let l1 := leAt data 8 8
  let late := l0 / 1024
  let early := 2 ^ 54 - 1 - l1 / 1024
  let d := (late + 2 ^ 54 - early) % 2 ^ 54
  if d < 2 ^ 53 then some (d, 1023 - l0 % 1024) else none

/-- Table CHK-4: one collective added to an entry. -/
def LateEntry.add (e : LateEntry) (v : Nat) : LateEntry :=
  { measured := satAdd 0xFFFFFFFF e.measured 1, sum := satAdd (2 ^ 48 - 1) e.sum v, max := Nat.max e.max (min 0xFFFF v) }

/-- R319–R321: the root's counters. -/
def State.noteLateness (s : State) (c : Coll) (late lag : Nat) : State :=
  let s := { s with
    ce.lateParts := Tab.put s.ce.lateParts c.part ((Tab.get {} s.ce.lateParts c.part).add late)
    ce.lateMembers := Tab.put s.ce.lateMembers lag ((Tab.get {} s.ce.lateMembers lag).add late)
    ce.lateWindow := ((lag, late) :: s.ce.lateWindow).take 256 }
  if s.ce.lateThresh ≠ 0 ∧ s.ce.lateThresh ≤ late then
    s.ceEvent c.part 8 Det.late (c.part + c.optag * 2 ^ 8 + lag * 2 ^ 20)
  else s

/-- The collective's outcome. -/
def Coll.outcome (c : Coll) : Done :=
  let base : Done := { status := St.ok, sat := c.sat, flush := c.flush, drop := c.drop }
  match c.failure with
  | some (st, d) => { base with status := st, detail := d }
  | none =>
    if c.tooSmall then { base with status := St.badCommand, cause := 3, detail := 32 }
    else if c.breach then { base with status := St.leaseBreach }
    else if c.fallback then { base with status := St.okWideFallback }
    else base

/-- R317: the lateness context of a finished collective stays open until it has folded, for a phrase at most. -/
def State.closeLateness (s : State) (c : Coll) : State :=
  { s with ce.ctxs := s.ce.ctxs.map fun x => if x.owner == .lateness c.queue c.tok then { x with since := some s.now } else x }

/-- R260: the collective completes; the root keeps its down half, and a receiver what relays the released counts of the members
below it. -/
def State.completeColl (s : State) (c : Coll) (d : Done) : State :=
  let late := if c.root = s.self then c.late.bind latenessOf else none
  let s := match late with
    | some (v, lag) => s.noteLateness c v lag
    | none => s
  let s := (s.finish c.queue c.tok { d with late := late }).closeLateness c
  let keeps := c.outputs.any fun o => o.down && decide (o.released < s.outTotal c o)
  if keeps then
    s.putColl { c with keep := some s.now, ended := none, flushing := false, staging := if c.root = s.self then c.staging else 0 }
  else s.removeColl c

/-- The last host address that the result fills (R302). -/
def State.lastHostOf (s : State) (c : Coll) : Nat := Cc.dst c.cmd + s.collWrites c.cmd - 1

/-- R302: with DST_HOST, the completion waits for a read of the last address written. -/
def State.endColl (s : State) (c : Coll) : State :=
  if c.flushing || c.keep.isSome then s
  else if Cc.dstHost c.cmd && 0 < s.collWrites c.cmd && c.failure.isNone && !c.tooSmall then
    if s.hostOpen then
      (s.putColl { c with flushing := true, ended := some c.outcome }).readHost (s.lastHostOf c) 0 none (some (c.queue, c.tok)) true
    else s.completeColl c { c.outcome with status := St.dataUe, detail := hostDetail (s.lastHostOf c) }
  else s.completeColl c c.outcome

/-- R260: SELF's part of the operation is done. -/
def State.collDone (s : State) (c : Coll) : Bool :=
  let me := c.root == s.self
  let all := (List.range c.segCount).all fun k => c.written.contains k
  let left := fun (down : Bool) => (c.outputs.filter fun o => o.down == down).all fun o =>
    decide (s.outTotal c o ≤ o.seg) && o.resend.isEmpty
  if c.opcode = 0x40 then (if me then left true else all)
  else if me then all
  else if Cc.all c.cmd then all && left false
  else left false

/-- R280.5, R260: what follows any change of a slotted collective: releases, then completion. -/
def State.settle (s : State) (q tok : Nat) : State :=
  match s.collOf q tok with
  | none => s
  | some c =>
    let s := s.releaseAll c
    match s.collOf q tok with
    | none => s
    | some c =>
      if c.keep.isSome then
        (if c.outputs.all fun o => !o.down || decide (s.outTotal c o ≤ o.released) then s.removeColl c else s)
      else if c.alg.isNone || c.alg == some .descant || !c.sized then s
      else if s.collDone c then s.endColl c else s

/-! ### Operands and results -/

/-- SELF's contribution is at hand: in device memory, or read from the host (R301). -/
def State.srcReady (s : State) (c : Coll) : Bool :=
  !Cc.srcHost c.cmd || s.collReads c.cmd == 0 || c.hostSrc.isSome

/-- `n` bytes of the contribution from byte `o`. -/
def State.collRead (s : State) (c : Coll) (o n : Nat) : State × Loaded :=
  match c.hostSrc with
  | some bs => (s, .data ((bs.drop o).take n))
  | none => s.load (Cc.src c.cmd + o) n

/-- R166: the access is under a lease in breach. -/
def State.collBreach (s : State) (c : Coll) (write : Bool) (a n : Nat) : Bool := s.breached .ce c.ceOf write a n

/-- Bytes of the result from byte `o` written at DST. -/
def State.collWrite (s : State) (c : Coll) (o : Nat) (bs : List Byte) : State × Coll :=
  let a := Cc.dst c.cmd + o
  if Cc.dstHost c.cmd then
    if s.hostOpen then (s.postHost a bs, c) else (s, c.fail St.dataUe (hostDetail a))
  else
    let c := { c with breach := c.breach || s.collBreach c true a bs.length }
    match s.store a bs with
    | (s, .ok) => (s, c)
    | (s, .strict page) => (s, c.fail St.narrowWrite page)
    | (s, .ue page) => (s.memFault (.queue c.queue) Det.rmwUe page, c.fail St.dataUe page)
    | (s, .unbacked a) => (s.unbackedEvent a, c.fail St.dataUe (a / 2048))

/-- Several pieces of the result, each at its offset. -/
def State.collWrites' (s : State) (c : Coll) : List (Nat × List Byte) → State × Coll
  | [] => (s, c)
  | (o, bs) :: xs =>
    match s.collWrite c o bs with
    | (s, c) => State.collWrites' s c xs

/-- R291: the candidates of each list that every hop carries. -/
def Coll.listLen (c : Coll) : Nat := min (Cc.k c.cmd) ((c.counts.map (·.1)).getD 0)

/-- R292: a HARVEST result segment cut along its lists: each piece goes to its list's place, and the last candidate of a list is
followed by invalid entries up to K. -/
def Coll.harvestPieces (c : Coll) (k : Nat) (bs : List Byte) : List (Nat × List Byte) :=
  let l := c.listLen
  let kk := Cc.k c.cmd
  (List.range (c.itemsOf k)).map fun i =>
    let g := k * Cc.perSeg c.cmd + i
    let j := g / l
    let r := g % l
    let e := (bs.drop (16 * i)).take 16
    (16 * (kk * j + r), if r + 1 = l then e ++ List.replicate (16 * (kk - l)) 0 else e)

/-- The bytes of a result segment, where they go (R276, R292). -/
def Coll.resultPieces (c : Coll) (k : Nat) (bs : List Byte) : List (Nat × List Byte) :=
  if Cc.kind c.cmd = .harvest then c.harvestPieces k bs
  else [(k * Cc.perSeg c.cmd * Cc.outBytes c.cmd, bs)]

/-- Result segment `k` is written and counts as done; a receiver whose capacity is too small writes nothing (R259). -/
def State.writeSegment (s : State) (c : Coll) (k : Nat) (bs : List Byte) : State × Coll :=
  let r := if c.tooSmall then (s, c) else s.collWrites' c (c.resultPieces k bs)
  (r.1, { r.2 with written := insertAsc k r.2.written })

/-! ### Forming segments -/

/-- Chunks of `n` bytes. -/
def chunksOf (n : Nat) : Nat → List Byte → List (List Byte)
  | 0, _ => []
  | f + 1, bs => if bs.isEmpty then [] else bs.take n :: chunksOf n f (bs.drop n)

/-- The 64-bit words of a payload. -/
def wordsOf (bs : List Byte) : List Nat := (List.range (bs.length / 8)).map fun i => leAt bs (8 * i) 8

/-- R62, R304, R307: the check of a segment with this TYPE. -/
def checkOf (typ : Nat) (bs : List Byte) : Nat :=
  if typ = 1 ∨ typ = 4 then residue 0 (wordsOf bs) else (crc64 bs).toNat

/-- A formed segment. -/
def formSeg (typ : Nat) (native : Bool) (bs : List Byte) : SegOut :=
  { slots := chunksOf 576 129 bs, check := checkOf typ bs, native := native }

/-- R314: a poisoned segment of `n` bytes, whose contents are undefined. -/
def State.poisonSeg (s : State) (n : Nat) : State × SegOut :=
  (s.drawn, { slots := chunksOf 576 129 ((List.range n).map (Config.poisonedByte s.fresh)), poisoned := true })

/-- TYPE of a contribution's slots in segment `k` (R187). -/
def Coll.typeOf (c : Coll) (k : Nat) : Nat := if c.fallsBack k then 2 else Cc.upType c.cmd

/-- Bytes of one item of segment `k` as carried. -/
def Coll.carried (c : Coll) (k : Nat) : Nat :=
  if Cc.kind c.cmd = .wide ∧ c.fallsBack k then Cc.inBytes c.cmd else Cc.itemBytes c.cmd

/-- The sum of the counts of many results. -/
def sumCounts (xs : List (Nat × Counts)) : List Nat × Counts := (xs.map (·.1), xs.foldl (fun a x => a.plus x.2) {})

/-- R193: NATIVE codes of a contribution: squared for SUMSQ. -/
def nativeOwn (c : BitVec 512) (codes : List Nat) : List Nat × Counts :=
  if Cc.op c = 1 then sumCounts (codes.map (nativeSquare (Fmt.ofCode (Cc.fin c)) (Cc.numctl c))) else (codes, {})

/-- R276, R185, R193: SELF's own contribution to a segment of plain elements, from the bytes read. -/
def Coll.ownPlain (c : Coll) (k : Nat) (bs : List Byte) : List Byte × Counts :=
  let f := Fmt.ofCode (Cc.fin c.cmd)
  let n := c.itemsOf k
  match Cc.kind c.cmd with
  | .native =>
    if Cc.isLoc c.cmd then (bs, {}) else let r := nativeOwn c.cmd (unpackCodes f n bs); (packCodes f r.1, r.2)
  | .wide =>
    let codes := unpackCodes f n bs
    if c.fallsBack k then let r := nativeOwn c.cmd codes; (packCodes f r.1, r.2)
    else
      let r := sumCounts (codes.map fun x => widePartial (Cc.op c.cmd == 1) (Tab.get 0 c.exps k) 10 (f.decode x))
      (r.1.flatMap fun w => leBytes w 8, r.2)
  | _ => (bs, {})

/-- R195: the bytes of rows 0 to `rows` − 1 of lanes `a` to `a` + `n` − 1. -/
def State.readRows (s : State) (c : Coll) (a n : Nat) : List Nat → List (List Byte) → State × (List (List Byte) ⊕ Loaded)
  | [], acc => (s, .inl acc)
  | r :: rs, acc =>
    let b := Cc.inBytes c.cmd
    match s.collRead c ((r * Cc.count c.cmd + a) * b) (n * b) with
    | (s, .data bs) => State.readRows s c a n rs (acc ++ [bs])
    | (s, l) => (s, .inr l)

/-- R195: SELF's rows. -/
def Coll.ownRows (c : Coll) : Nat := Cc.rows c.cmd
/-- R289: N, the rows of every member. -/
def State.totalRows (s : State) (c : Coll) : Nat :=
  if Cc.counted c.cmd then (c.counts.map (·.1)).getD 0 else Cc.rows c.cmd * ((s.part c.part).map (·.count)).getD 0

/-- R195: one lane's partial: COUNT, SUM and SUMSQ. A lane of a segment that falls back sums its codes and their squares under
NATIVE rules. -/
def Coll.laneOf (c : Coll) (n k : Nat) (codes : List Nat) : List Byte × Counts :=
  let f := Fmt.ofCode (Cc.fin c.cmd)
  let nc := Cc.numctl c.cmd
  let sums := if c.fallsBack k then
      let add := fun (xs : List Nat) => xs.foldl (fun (a : Option Nat × Counts) x => match a.1 with
        | none => (some x, a.2)
        | some y => let r := nativeAdd f nc y x; (some r.1, a.2.plus r.2)) (none, {})
      let q := sumCounts (codes.map (nativeSquare f nc))
      let s1 := add codes
      let s2 := add q.1
      ((s1.1.getD 0, s2.1.getD 0), (s1.2.plus s2.2).plus q.2)
    else
      let h := momentsHead n
      let a := sumCounts (codes.map fun x => widePartial false (Tab.get 0 c.exps k) h (f.decode x))
      let b := sumCounts (codes.map fun x => widePartial true (Tab.get 0 c.exps2 k) h (f.decode x))
      ((a.1.foldl wideAdd 0, b.1.foldl wideAdd 0), a.2.plus b.2)
  (leBytes codes.length 8 ++ leBytes sums.1.1 8 ++ leBytes sums.1.2 8, sums.2)

/-- R195: the partials of a segment's lanes from its rows. -/
def Coll.ownMoments (c : Coll) (n k : Nat) (rows : List (List Byte)) : List Byte × Counts :=
  let f := Fmt.ofCode (Cc.fin c.cmd)
  let m := c.itemsOf k
  let codes := rows.map (unpackCodes f m)
  let ls := (List.range m).map fun i => c.laneOf n k (codes.map fun r => (r.drop i).headD 0)
  (ls.flatMap (·.1), ls.foldl (fun a x => a.plus x.2) {})

/-- The candidates of a byte string. -/
def candsOf (bs : List Byte) : List Cand := (List.range (bs.length / 16)).map fun i => BitVec.ofNat 128 (leAt bs (16 * i) 16)
/-- Candidates as bytes. -/
def candBytes (cs : List Cand) : List Byte := cs.flatMap fun c => leBytes c.toNat 16

/-- R292: SELF's best L candidates of lists `j`, …, as one string of lists. -/
def State.readLists (s : State) (c : Coll) (l : Nat) : List Nat → List Byte → State × (List Byte ⊕ Loaded)
  | [], acc => (s, .inl acc)
  | j :: js, acc =>
    match s.collRead c (16 * Cc.count c.cmd * j) (16 * Cc.count c.cmd) with
    | (s, .data bs) =>
      State.readLists s c l js (acc ++ candBytes (Num.padTo l (bestOf (smaller (Cc.numctl c.cmd)) l (candsOf bs))))
    | (s, x) => (s, .inr x)

/-- SELF's own contribution to segment `k`, with what it counts; or the read that failed. -/
def State.ownSegment (s : State) (c : Coll) (k : Nat) : State × ((List Byte × Counts) ⊕ Loaded) :=
  let o := k * Cc.perSeg c.cmd
  match Cc.kind c.cmd with
  | .moments =>
    match s.readRows c o (c.itemsOf k) (List.range c.ownRows) [] with
    | (s, .inl rows) => (s, .inl (c.ownMoments (s.totalRows c) k rows))
    | (s, .inr l) => (s, .inr l)
  | .harvest =>
    let l := c.listLen
    let first := o / l
    let last := (o + c.itemsOf k - 1) / l
    match s.readLists c l ((List.range (last + 1 - first)).map (first + ·)) [] with
    | (s, .inl bs) => (s, .inl ((bs.drop (16 * (o - first * l))).take (16 * c.itemsOf k), {}))
    | (s, .inr l) => (s, .inr l)
  | .bcast | .native | .wide | .descant =>
    let b := if Cc.kind c.cmd = .bcast then 1 else Cc.inBytes c.cmd
    match s.collRead c (o * b) (c.itemsOf k * b) with
    | (s, .data bs) => (s, .inl (c.ownPlain k bs))
    | (s, l) => (s, .inr l)

/-- SELF's read of segment `k` is under a lease in breach. -/
def State.ownBreach (s : State) (c : Coll) (k : Nat) : Bool :=
  !Cc.srcHost c.cmd && s.collBreach c false (Cc.src c.cmd + k * Cc.perSeg c.cmd * Cc.inBytes c.cmd)
    (c.itemsOf k * (if Cc.kind c.cmd = .harvest then 16 else Cc.inBytes c.cmd))

/-- A read of SELF's contribution failed. -/
def State.ownFailed (s : State) (c : Coll) : Loaded → State
  | .ue page det => s.collUe c det page
  | .unbacked a => (s.unbackedEvent a).stopColl c { status := St.badCommand, cause := 4, detail := 16 }
  | .data _ => s

/-! ### Combining (R284, R292, R306–R308) -/

/-- One NATIVE combination of two payloads of segment `k`. -/
def combineBytes (c : BitVec 512) (n : Nat) (a b : List Byte) : List Byte × Counts :=
  let f := Fmt.ofCode (Cc.fin c)
  let nc := Cc.numctl c
  if Cc.isLoc c then
    let r := (List.range n).map fun i =>
      pickLoc f (Cc.op c == 4) nc (leAt a (8 * i) 4, leAt a (8 * i + 4) 4) (leAt b (8 * i) 4, leAt b (8 * i + 4) 4)
    (r.flatMap fun x => leBytes x.1 4 ++ leBytes x.2 4, {})
  else
    let r := sumCounts (List.zipWith (combine (Cc.op c) f nc) (unpackCodes f n a) (unpackCodes f n b))
    (packCodes f r.1, r.2)

/-- Words of two payloads added modulo 2^64 (R186). -/
def addWords (a b : List Byte) : List Byte := (List.zipWith wideAdd (wordsOf a) (wordsOf b)).flatMap fun w => leBytes w 8

/-- One lane of two MOMENTS partials under NATIVE rules. -/
def addLaneNative (c : BitVec 512) (a b : List Byte) : List Byte × Counts :=
  let f := Fmt.ofCode (Cc.fin c)
  let x := nativeAdd f (Cc.numctl c) (leAt a 8 8) (leAt b 8 8)
  let y := nativeAdd f (Cc.numctl c) (leAt a 16 8) (leAt b 16 8)
  (leBytes (leAt a 0 8 + leAt b 0 8) 8 ++ leBytes x.1 8 ++ leBytes y.1 8, x.2.plus y.2)

/-- Two payloads of segment `k` combined. -/
def Coll.combineTwo (c : Coll) (k : Nat) (a b : List Byte) : List Byte × Counts :=
  match Cc.kind c.cmd with
  | .moments =>
    if c.fallsBack k then
      let ls := (List.range (c.itemsOf k)).map fun i => addLaneNative c.cmd (a.drop (24 * i)) (b.drop (24 * i))
      (ls.flatMap (·.1), ls.foldl (fun x y => x.plus y.2) {})
    else (addWords a b, {})
  | .wide => if c.fallsBack k then combineBytes c.cmd (c.itemsOf k) a b else (addWords a b, {})
  | _ => combineBytes c.cmd (c.itemsOf k) a b

/-- R182: the contributions of a NATIVE reduction in an order that the manual leaves open. -/
def shuffle (draw : Nat) : Nat → List (List Byte) → List (List Byte)
  | 0, _ => []
  | n + 1, xs =>
    match xs with
    | [] => []
    | x :: rest =>
      let i := Config.nativeOrder draw n % xs.length
      (xs.drop i).headD x :: shuffle draw n (if i = 0 then rest else xs.eraseIdx i)

/-- All payloads of segment `k` combined, in the order given. -/
def Coll.combineAll (c : Coll) (k : Nat) : List (List Byte) → List Byte × Counts
  | [] => ([], {})
  | x :: xs => xs.foldl (fun a y => let r := c.combineTwo k a.1 y; (r.1, a.2.plus r.2)) (x, {})

/-- The payload that an input holds of segment `k`. -/
def CInput.payload (i : CInput) (k : Nat) : List Byte := ((Tab.get {} i.segs k).slots.map (·.2)).flatten

/-- R292: the items of list `j` that come before item `e` of the merged string, on one input. -/
def CInput.listUpTo (i : CInput) (c : Coll) (j e : Nat) : List Cand :=
  let l := c.listLen
  let per := Cc.perSeg c.cmd
  (List.range (e - j * l)).filterMap fun r =>
    let g := j * l + r
    let bs := i.payload (g / per)
    if 16 * (g % per) + 16 ≤ bs.length then some (BitVec.ofNat 128 (leAt bs (16 * (g % per)) 16)) else none

/-- R292: segment `k` of the merged lists: each list's entries there follow from what every input holds of that list so far. -/
def Coll.mergeLists (c : Coll) (k : Nat) (ins : List CInput) (own : Nat → List Cand) : List Byte :=
  let l := c.listLen
  let a := k * Cc.perSeg c.cmd
  let b := a + c.itemsOf k
  (List.range ((b - 1) / l + 1 - a / l)).flatMap fun d =>
    let j := a / l + d
    let stop := min b ((j + 1) * l)
    let merged := Num.padTo l (bestOf (smaller (Cc.numctl c.cmd)) l (own j ++ ins.flatMap fun i => i.listUpTo c j stop))
    candBytes ((merged.drop (a - j * l)).take (stop - max a (j * l)))

/-- R284, R292: the combination of SELF's own segment and the inputs' segments. -/
def State.combineSegment (s : State) (c : Coll) (k : Nat) (own : List Byte) (ins : List CInput) : State × (List Byte × Counts) :=
  let parts := own :: ins.map (·.payload k)
  match Cc.kind c.cmd with
  | .harvest => (s, (own, {}))
  | _ => (s.drawn, c.combineAll k (shuffle s.fresh parts.length parts))

/-! ### The root's results -/

/-- R195: one lane of a MOMENTS result. -/
def Coll.momentsLane (c : Coll) (k : Nat) (bs : List Byte) : List Byte × Counts :=
  let f := Fmt.ofCode (Cc.fout c.cmd)
  let fi := Fmt.ofCode (Cc.fin c.cmd)
  let n := leAt bs 0 8
  let r : (Nat × Nat) × Counts :=
    if c.fallsBack k then
      match fi.decode (leAt bs 8 8), fi.decode (leAt bs 16 8) with
      | .fin ns ms es, .fin nq mq eq =>
        let mean := f.encodeRat (Cc.numctl c.cmd) false ns ms n es
        let g := min eq (2 * es)
        let a : Int := (if nq then -1 else 1) * (n * mq * 2 ^ (eq - g).toNat : Nat)
        let b : Int := (ms * ms * 2 ^ (2 * es - g).toNat : Nat)
        let var := if a - b ≤ 0 then (0, {}) else f.encodeRat (Cc.numctl c.cmd) false false (a - b).toNat (n * n) g
        ((mean.1, var.1), mean.2.plus var.2)
      | _, _ => ((f.nanCode, f.nanCode), {})
    else momentsOut f (Cc.numctl c.cmd) n (Tab.get 0 c.exps k) (Tab.get 0 c.exps2 k) (leAt bs 8 8) (leAt bs 16 8)
  (leBytes n 8 ++ leBytes r.1.1 4 ++ leBytes r.1.2 4, r.2)

/-- R186, R195: the root's result of segment `k` from its totals. A fallback segment's totals are in the input format. -/
def Coll.resultOf (c : Coll) (k : Nat) (bs : List Byte) : List Byte × Counts :=
  let f := Fmt.ofCode (Cc.fout c.cmd)
  let fi := Fmt.ofCode (Cc.fin c.cmd)
  match Cc.kind c.cmd with
  | .wide =>
    if c.fallsBack k then
      if Cc.fin c.cmd = Cc.fout c.cmd then (bs, {})
      else
        let r := sumCounts ((unpackCodes fi (c.itemsOf k) bs).map fun x => f.encode (Cc.numctl c.cmd) false (fi.decode x))
        (packCodes f r.1, r.2)
    else
      let r := sumCounts ((wordsOf bs).map (wideRound f (Cc.numctl c.cmd) (Tab.get 0 c.exps k)))
      (packCodes f r.1, r.2)
  | .moments =>
    let ls := (List.range (c.itemsOf k)).map fun i => c.momentsLane k (bs.drop (24 * i))
    (ls.flatMap (·.1), ls.foldl (fun a x => a.plus x.2) {})
  | _ => (bs, {})

/-- Bytes of result segment `k`. -/
def Coll.resultLen (c : Coll) (k : Nat) : Nat := c.itemsOf k * Cc.outBytes c.cmd

/-- R187: a segment has fallen back. -/
def State.noteFallback (s : State) (c : Coll) (k : Nat) : State :=
  if c.fallsBack k then s.ceEvent c.part 6 Det.wideFallback k else s

end Sys2Proof.Machine
end

