-- ==== Sys2Proof/Machine/CollRun.lean ====
section
/-!
DEFINITION. Collectives at work: the input checks and retries (R305–R315), the next slot to send (R277), the combining step
(R284), exponents and counts (R288–R291), and the operations that run in the descant lane (R275, R293–R297).
-/
namespace Sys2Proof.Machine
open Sys2Proof.Machine.Num

/-! ### Inputs -/

/-- The list with entry `i` changed. -/
def modAt {α : Type} (f : α → α) : Nat → List α → List α
  | _, [] => []
  | 0, x :: xs => f x :: xs
  | i + 1, x :: xs => x :: modAt f i xs

def CInput.seg (i : CInput) (k : Nat) : SegIn := Tab.get {} i.segs k
def CInput.setSeg (i : CInput) (k : Nat) (x : SegIn) : CInput := { i with segs := Tab.put i.segs k x }
def Coll.setSeg (c : Coll) (n k : Nat) (x : SegIn) : Coll := { c with inputs := modAt (·.setSeg k x) n c.inputs }
def Coll.input (c : Coll) (n : Nat) : Option CInput := c.inputs[n]?

/-- Table COL-3: the code of a cause. -/
def RetryCause.code : RetryCause → Nat
  | .crc => 1 | .residue => 2 | .slotLost => 3 | .payloadBad => 4

/-- Table CHK-2: the status that a give-up leaves. -/
def RetryCause.status : RetryCause → Nat
  | .crc | .payloadBad => St.segmentCrc
  | .residue => St.residue
  | .slotLost => St.slotLost

/-- How an arrived segment stands under R305. -/
inductive SegCheck where
  | incomplete | poisoned | pass
  | fail (cause : RetryCause)
deriving DecidableEq, Repr

/-- R305, R315: the input check. -/
def SegIn.checked (x : SegIn) : SegCheck :=
  match x.lastSlot with
  | none => .incomplete
  | some n =>
    if !(List.range (n + 1)).all fun j => (Tab.find x.slots j).isSome then .incomplete
    else if x.poison then .poisoned
    else if x.bad then .fail .payloadBad
    else if checkOf x.typ (x.slots.map (·.2)).flatten = x.check then .pass
    else .fail (if x.typ = 1 ∨ x.typ = 4 then .residue else .crc)

/-- A residue that does not agree, or an adder that fails: class U on the serving CE (Table CHK-3). -/
def State.residueFault (s : State) (c : Coll) (det k : Nat) : State :=
  (s.count (Cnt.ce c.ceOf 1)).raiseOn det (.ce c.ceOf) k

/-- The detector of a residue failure. -/
def Coll.residueDet (c : Coll) : Nat := if Cc.kind c.cmd = .moments then Det.momentsResidue else Det.wideResidue

/-- The detector of an adder failure (R306, R308). -/
def Coll.adderDet (c : Coll) : Nat :=
  match Cc.kind c.cmd with
  | .harvest => Det.harvestOrder
  | .wide | .moments => c.residueDet
  | .bcast | .native | .descant => if Cc.op c.cmd ≤ 1 then Det.adderResidue else Det.dupLane

/-- R314: SELF gives up on segment `k` of the up half: its output of it is poisoned. -/
def State.poisonUp (s : State) (c : Coll) (k : Nat) : State × Coll :=
  if c.root = s.self then
    let c := { c with written := insertAsc k c.written }
    if Cc.hasDown c.cmd then
      let r := s.poisonSeg (c.resultLen k)
      (r.1, { c with down := Tab.put c.down k r.2 })
    else (s, c)
  else
    let r := s.poisonSeg (c.itemsOf k * c.carried k)
    (r.1, { c with ready := Tab.put c.ready k r.2 })

/-- R314: SELF gives up on segment `k` in one half. -/
def State.giveUp (s : State) (c : Coll) (down : Bool) (k status : Nat) : State :=
  let c := c.fail status k
  let mark := fun (i : CInput) =>
    if i.down = down ∧ (Tab.find i.segs k).isSome then i.setSeg k { i.seg k with gaveUp := true, asked := none } else i
  let c := { c with inputs := c.inputs.map mark }
  let r := if down then (s, { c with written := insertAsc k c.written }) else s.poisonUp c k
  let s := (r.1.putColl r.2).count (Cnt.ce c.ceOf 2)
  (s.raise Det.chkGiveUp (.ce c.ceOf) none k).settle c.queue c.tok

/-- R309: an input failure: the checker discards its copy and sends one SEGMENT_RETRY for each cause, then gives up. -/
def State.inputFailure (s : State) (c : Coll) (n : Nat) (i : CInput) (k : Nat) (cause : RetryCause) : State :=
  let x := i.seg k
  let s := if cause = .residue then s.residueFault c c.residueDet k else s
  if x.retried.contains cause then s.giveUp c i.down k cause.status
  else
    let x : SegIn := { asked := some (cause, 0), retried := cause :: x.retried }
    ((s.putColl (c.setSeg n k x)).sendWindow c 0x13 i.gang i.route i.down k cause.code).1

/-- R285: a result segment that passes is written. -/
def State.downPassed (s : State) (c : Coll) (i : CInput) (k : Nat) : State :=
  let r := s.writeSegment c k (i.payload k)
  (r.1.putColl r.2).settle c.queue c.tok

/-- R305: the check of segment `k` on input `n`, once it is whole. -/
def State.inputCheck (s : State) (c : Coll) (n k : Nat) : State :=
  match c.input n with
  | none => s
  | some i =>
    let x := i.seg k
    match x.checked with
    | .incomplete => s
    | .poisoned => (s.ceEvent c.part 3 Det.chkPoisonIn k).giveUp c i.down k St.segmentCrc
    | .fail cause => s.inputFailure c n i k cause
    | .pass =>
      let s := if x.asked.isSome then s.ceEvent c.part 0 Det.chkRetryOk k else s
      let c := c.setSeg n k { x with passed := true, asked := none }
      let s := s.putColl c
      if i.down then s.downPassed c i k else s

/-! ### Arriving slots -/

/-- R66: the TYPE of a CHOIR slot agrees with the format that the command named by OPTAG fixes. -/
def State.choirTypeOk (s : State) (part optag seg typ : Nat) : Bool :=
  match s.coll part optag with
  | none => true
  | some c =>
    (Cc.hasDown c.cmd && typ == Cc.downType c.cmd)
      || (Cc.hasUp c.cmd
          && (if (Tab.find c.exps seg).isSome then typ == c.typeOf seg
              else typ == Cc.upType c.cmd || (typ == 2 && (Cc.kind c.cmd == .wide || Cc.kind c.cmd == .moments))))

/-- A slot taken into its segment. -/
def SegIn.take (x : SegIn) (sl : Slot) (typ now : Nat) : SegIn :=
  { x with
    slots := Tab.put x.slots sl.slotInSeg sl.payload
    bad := x.bad || sl.payloadBad
    poison := x.poison && sl.retry && sl.payloadBad
    lastSlot := if sl.last then some sl.slotInSeg else x.lastSlot
    check := if sl.last then sl.check else x.check
    lastAt := if sl.last then some now else x.lastAt
    typ := typ
    resent := x.resent || sl.retry
    retried := if sl.retry ∧ x.asked.isNone ∧ !x.retried.contains .slotLost then .slotLost :: x.retried else x.retried }

/-- R272: the half that a slot belongs to. -/
def Coll.slotDown (c : Coll) (typ : Nat) : Bool := Cc.hasDown c.cmd && typ == Cc.downType c.cmd && (!Cc.hasUp c.cmd || typ == 0)

/-- The input that a slot of gang `g` with this ROUTE belongs to. A HARVEST tells its halves apart by the route. -/
def Coll.inputOf (c : Coll) (g route typ : Nat) : Option (Nat × CInput) :=
  (numbered 0 c.inputs).find? fun x =>
    x.2.gang == g && x.2.route == route && (Cc.kind c.cmd == .harvest || x.2.down == c.slotDown typ)

/-- R277, R280, R305: a slot of a collective, released on gang `g` and brought to the serving CE. -/
def State.collSlot (s : State) (g : Nat) (sl : Slot) : State :=
  if s.ce.muted.contains (sl.part, sl.optag) then s
  else
    match s.coll sl.part sl.optag with
    | none => s
    | some c =>
      if c.keep.isSome then s
      else
        match c.inputOf g sl.route sl.etype with
        | none => s
        | some (n, i) =>
          let k := sl.segment
          let x := i.seg k
          if i.released + c.window ≤ k / s.streamsOf c then s.windowProto c.part c.optag
          else if x.passed || x.gaveUp then s
          else
            let i' := { i with heard := true, firstAt := if (Tab.find i.firstAt k).isSome then i.firstAt else Tab.put i.firstAt k s.now }
            let c := { c with inputs := modAt (fun _ => i'.setSeg k (x.take sl sl.etype s.now)) n c.inputs }
            (s.putColl c).inputCheck c n k

/-! ### Slots to send (R277, R280.4) -/

/-- SELF has no inputs in the stream of output `o`: it is a contributing leaf there. -/
def Coll.leafOn (c : Coll) (o : COutput) : Bool := !(c.inputs.any fun i => !i.down && i.stream == o.stream)

/-- SELF's exponents for segment `k` are agreed (R288). -/
def Coll.pitched (c : Coll) (k : Nat) : Bool :=
  !(Cc.kind c.cmd == .wide || Cc.kind c.cmd == .moments) || (Tab.find c.exps k).isSome

/-- The formed segment that an output would send, if it stands. -/
def Coll.formed (c : Coll) (o : COutput) (k : Nat) : Option SegOut := if o.down then Tab.find c.down k else Tab.find c.ready k

/-- Segment `k` can be formed when its first slot goes out: a leaf's contribution, or a BCAST root's data. -/
def State.formable (s : State) (c : Coll) (o : COutput) (k : Nat) : Bool :=
  s.srcReady c && (if o.down then c.opcode == 0x40 else c.leafOn o && c.pitched k)

/-- The next segment and slot of an output, and whether it is sent again. -/
def State.nextOn (s : State) (c : Coll) (o : COutput) : Option (Nat × Nat × Bool) :=
  match o.resend with
  | (k, j) :: _ => some (k, j, true)
  | [] =>
    match (c.segsOn (s.streamsOf c) o.stream)[o.seg]?, o.granted with
    | some k, some w => if o.seg < o.released + min c.window w then some (k, o.slot, false) else none
    | _, _ => none

/-- Output `n` of a collective has a slot ready. -/
def State.outReady (s : State) (c : Coll) (o : COutput) : Bool :=
  c.sized && s.sends c o &&
    match s.nextOn c o with
    | some (k, _, _) => (c.formed o k).isSome || s.formable c o k
    | none => false

/-- R277: the collective and output whose slot goes out on gang `g` in class LO or HI: the higher PRIO, then the earlier issue. -/
def State.pickColl (s : State) (g : Nat) (lo : Bool) : Option (Coll × Nat × COutput) :=
  let cands := (s.ce.colls.filter fun c => ((s.part c.part).map (·.lo)).getD false == lo).flatMap fun c =>
    ((numbered 0 c.outputs).filter fun x => x.2.gang == g && s.outReady c x.2).map fun x => (c, x.1, x.2)
  cands.foldl (fun b x =>
    match b with
    | none => some x
    | some y => if prioOf y.1.cmd < prioOf x.1.cmd then some x else b) none

/-- The bytes of segment `k` of a BCAST root, or of a leaf's contribution, formed now. -/
def State.formNow (s : State) (c : Coll) (o : COutput) (k : Nat) : State × Option Coll :=
  match s.ownSegment c k with
  | (s, .inr l) => (s.ownFailed c l, none)
  | (s, .inl (bs, n)) =>
    let c := { (c.addCounts n) with breach := c.breach || s.ownBreach c k, fallback := c.fallback || c.fallsBack k }
    if o.down then (s, some { c with down := Tab.put c.down k (formSeg 0 false bs) })
    else ((s.noteFallback c k), some { c with ready := Tab.put c.ready k (formSeg (c.typeOf k) (c.fallsBack k) bs) })

/-- A slot of a formed segment (R276, R314). -/
def State.slotOf (s : State) (c : Coll) (o : COutput) (k j : Nat) (x : SegOut) (again : Bool) : Slot :=
  let last := decide (x.slots.length ≤ j + 1)
  { cls := if ((s.part c.part).map (·.lo)).getD false then .choirLo else .choirHi
    typ := if o.down then Cc.downType c.cmd else c.typeOf k
    retry := again || x.poisoned, part := c.part, optag := c.optag, segment := k, slotInSeg := j, last := last
    route := o.route, source := s.self, check := if last then x.check else 0
    payload := (x.slots.drop j).headD [], payloadBad := x.poisoned }

/-- An output after its slot has gone. -/
def COutput.sent (o : COutput) (again last : Bool) : COutput :=
  match again, last, o.resend with
  | true, true, _ :: r => { o with resend := r }
  | true, false, (k, j) :: r => { o with resend := (k, j + 1) :: r }
  | true, _, [] => o
  | false, true, _ => { o with seg := o.seg + 1, slot := 0 }
  | false, false, _ => { o with slot := o.slot + 1 }

/-- R277: the next CHOIR slot on gang `g`, and the state after it has gone. -/
def State.collSlotOut (s : State) (g : Nat) (lo : Bool) : State × Option Slot :=
  match s.pickColl g lo with
  | none => (s, none)
  | some (c, n, o) =>
    match s.nextOn c o with
    | none => (s, none)
    | some (k, j, again) =>
      match (match c.formed o k with
        | some _ => (s, some c)
        | none => s.formNow c o k) with
      | (s, none) => (s, none)
      | (s, some c) =>
        match c.formed o k with
        | none => (s, none)
        | some x =>
          let last := decide (x.slots.length ≤ j + 1)
          let s := s.putColl { c with outputs := modAt (fun o => o.sent again last) n c.outputs }
          (if last then s.settle c.queue c.tok else s, some (s.slotOf c o k j x again))

/-! ### Resends (R310–R312) -/

/-- The segments to send again on an output from ordinal `n`: that one, or for a lost slot every later one sent and still held. -/
def State.resendFrom (s : State) (c : Coll) (o : COutput) (k : Nat) (lost : Bool) : List Nat :=
  let segs := c.segsOn (s.streamsOf c) o.stream
  let at_ := k / s.streamsOf c
  (numbered 0 segs).filterMap fun x =>
    if x.2 = k ∨ (lost ∧ at_ < x.1 ∧ x.1 < o.seg ∧ o.released ≤ x.1) then some x.2 else none

/-- RETRY_RESEND: an output is told to send segments again. -/
def State.addResend (s : State) (c : Coll) (n k : Nat) (lost : Bool) : State :=
  match c.outputs[n]? with
  | none => s
  | some o =>
    let ks := (s.resendFrom c o k lost).filter fun j => !(o.resend.any fun r => r.1 == j)
    if ks.isEmpty || !decide (k / s.streamsOf c < o.seg) then s
    else
      let s := s.putColl { c with outputs := modAt (fun o => { o with resend := o.resend ++ ks.map fun j => (j, 0) }) n c.outputs }
      s.eventC Det.retryResend (.ce c.ceOf) k

/-- R310–R312: a SEGMENT_RETRY for output `n`: the sender sends again, and a receiver of a down half passes the request on. -/
def State.retryFor (s : State) (c : Coll) (n : Nat) (o : COutput) (k cause : Nat) : State :=
  if s.sends c o then
    let s := s.ceEvent c.part 7 Det.segmentRetryRx k
    let ns := if o.down then ((numbered 0 c.outputs).filter fun x => x.2.down && x.2.stream == o.stream).map (·.1) else [n]
    forEach ns (fun n st =>
      match st.collOf c.queue c.tok with
      | some c => st.addResend c n k (cause == 3)
      | none => st) s
  else
    forEach (c.inputs.filter fun i => i.down && i.stream == o.stream)
      (fun i st => (st.sendWindow c 0x13 i.gang i.route true k cause).1) s

/-! ### Combining (R284) -/

/-- The inputs of the up half that carry segment `k`. -/
def State.upInputs (s : State) (c : Coll) (k : Nat) : List CInput :=
  c.inputs.filter fun i => !i.down && i.stream == k % s.streamsOf c

/-- SELF combines segment `k`: it is the root, or it receives the segment. -/
def State.combines (s : State) (c : Coll) (k : Nat) : Bool :=
  c.keep.isNone && c.sized && Cc.hasUp c.cmd && decide (k < c.segCount)
    && (c.root == s.self || !(s.upInputs c k).isEmpty)

/-- R284, R305: every input of segment `k` has passed its check, three beats have gone by, and SELF's own contribution is at
hand. -/
def State.mayCombine (s : State) (c : Coll) (k : Nat) : Bool :=
  s.combines c k && s.srcReady c && c.pitched k && (Tab.find c.ready k).isNone && !c.written.contains k
    && (s.upInputs c k).all fun i => (i.seg k).passed && ((i.seg k).lastAt.map fun t => decide (t + 3 ≤ s.now)).getD false

/-- R292: SELF's own candidates of list `j`, cut from its string of lists that begins with list `first`. -/
def ownList (bs : List Byte) (l first j : Nat) : List Cand := candsOf ((bs.drop (16 * l * (j - first))).take (16 * l))

/-- R292: segment `k` merged, list by list. -/
def State.mergeSegment (s : State) (c : Coll) (k : Nat) : State × (List Byte ⊕ Loaded) :=
  let l := c.listLen
  let a := k * Cc.perSeg c.cmd
  let first := a / l
  let last := (a + c.itemsOf k - 1) / l
  match s.readLists c l ((List.range (last + 1 - first)).map (first + ·)) [] with
  | (s, .inl bs) => (s, .inl (c.mergeLists k (s.upInputs c k) (ownList bs l first)))
  | (s, .inr x) => (s, .inr x)

/-- The combined payload of segment `k`. -/
def State.combined (s : State) (c : Coll) (k : Nat) : State × ((List Byte × Counts) ⊕ Loaded) :=
  if Cc.kind c.cmd = .harvest then
    match s.mergeSegment c k with
    | (s, .inl bs) => (s, .inl (bs, {}))
    | (s, .inr l) => (s, .inr l)
  else
    match s.ownSegment c k with
    | (s, .inr l) => (s, .inr l)
    | (s, .inl (own, n)) =>
      let r := s.combineSegment c k own (s.upInputs c k)
      (r.1, .inl (r.2.1, n.plus r.2.2))

/-- What a good combination does: SELF's output is formed, or, at the root, the result is written and goes down. -/
def State.place (s : State) (c : Coll) (k : Nat) (bs : List Byte) : State :=
  let c := { c with ready := Tab.put c.ready k (formSeg (c.typeOf k) (c.fallsBack k) bs), fallback := c.fallback || c.fallsBack k }
  let s := s.noteFallback c k
  if c.root = s.self then
    let r := c.resultOf k bs
    let w := s.writeSegment (c.addCounts r.2) k r.1
    let c := if Cc.hasDown c.cmd then { w.2 with down := Tab.put w.2.down k (formSeg 0 false r.1) } else w.2
    (w.1.putColl c).settle c.queue c.tok
  else (s.putColl c).settle c.queue c.tok

/-- R284, R306, R309: segment `k` is combined. An adder failure is recombined once, and then given up. -/
def State.combineStep (s : State) (c : Coll) (k : Nat) (adderFault : Bool) : State :=
  if adderFault then
    let s := s.residueFault c c.adderDet k
    if c.adderRetried.contains k then s.giveUp c false k St.residue
    else s.putColl { c with adderRetried := k :: c.adderRetried }
  else
    match s.combined c k with
    | (s, .inr l) => s.ownFailed c l
    | (s, .inl (bs, n)) => s.place { (c.addCounts n) with breach := c.breach || s.ownBreach c k } k bs

/-! ### The pitch pass (R288, R289) -/

/-- Segments whose exponents one PITCH operation agrees. -/
def Coll.groupSize (c : Coll) : Nat := if Cc.kind c.cmd = .moments then 4 else 8

/-- PITCH operations of the command. -/
def Coll.groups (c : Coll) : Nat :=
  if Cc.kind c.cmd = .wide ∨ Cc.kind c.cmd = .moments then ceilDiv c.segCount c.groupSize else 0

/-- A 16-bit lane. -/
def lane16 (x : Int) : List Byte := leBytes (twos x 16) 2

/-- R184, R195: the lanes of segment `k`: E, or the pair E and E₂. -/
def Coll.pitchLanes (c : Coll) (k : Nat) (rows : List (List Byte)) : List Byte :=
  let f := Fmt.ofCode (Cc.fin c.cmd)
  let vs := (rows.flatMap (unpackCodes f (c.itemsOf k))).map f.decode
  if Cc.kind c.cmd = .moments then lane16 (pitchOf false vs) ++ lane16 (pitchOf true vs)
  else lane16 (pitchOf (Cc.op c.cmd == 1) vs)

/-- The lanes of several segments. -/
def State.pitchData (s : State) (c : Coll) : List Nat → List Byte → State × (List Byte ⊕ Loaded)
  | [], acc => (s, .inl acc)
  | k :: ks, acc =>
    let rows := if Cc.kind c.cmd = .moments then List.range c.ownRows else [0]
    match s.readRows c (k * Cc.perSeg c.cmd) (c.itemsOf k) rows [] with
    | (s, .inl bs) => State.pitchData s c ks (acc ++ c.pitchLanes k bs)
    | (s, .inr l) => (s, .inr l)

/-- Lanes to the end of the 16 bytes: 0x8000. -/
def fillLanes (bs : List Byte) : List Byte := bs ++ (List.replicate ((16 - bs.length) / 2) (lane16 (-0x8000))).flatten

/-- Data padded with zeros to 16 bytes. -/
def pad16 (bs : List Byte) : List Byte := bs ++ List.replicate (16 - bs.length) 0

/-- SELF's context for one operation of a command. -/
def Coll.ctxFor (c : Coll) (dop step dfmt : Nat) (own : List Byte) (down : Bool) (numctl : Nat) : DCtx :=
  { dtree := c.dtree, dop := dop, dseq := dseqOf c.optag step, dfmt := dfmt, owner := .command c.queue c.tok, own := some own
    numctl := numctl, down := down }

/-- The exponents that a PITCH operation agreed (R288). -/
def Coll.takePitch (c : Coll) (j : Nat) (data : List Byte) : Coll :=
  let lane := fun i => sext (leAt data (2 * i) 2) 16
  let ks := ((List.range c.groupSize).map fun i => (i, j * c.groupSize + i)).filter fun x => decide (x.2 < c.segCount)
  if Cc.kind c.cmd = .moments then
    ks.foldl (fun c x => { c with exps := Tab.put c.exps x.2 (lane (2 * x.1)), exps2 := Tab.put c.exps2 x.2 (lane (2 * x.1 + 1)) }) c
  else ks.foldl (fun c x => { c with exps := Tab.put c.exps x.2 (lane x.1) }) c

/-- R294: the group that a PITCH operation with this STEP belongs to: the earliest injected whose exponents are not known. -/
def Coll.groupOf (c : Coll) (step : Nat) : Option Nat :=
  (List.range c.pitchSent).find? fun j => j % 16 == step && (Tab.find c.exps (j * c.groupSize)).isNone

/-! ### Operations in the descant lane (R275) -/

/-- R260, R302: the command's result written, and its completion. -/
def State.descantResult (s : State) (c : Coll) (bs : List Byte) : State :=
  let r := s.collWrite c 0 bs
  (r.1.putColl r.2).endColl r.2

/-- SELF takes a result: the root always, and every member under ALL. -/
def State.takesResult (s : State) (c : Coll) : Bool := c.root == s.self || Cc.all c.cmd

/-- R275: the totals of a WIDE SUM in the descant lane, rounded. -/
def Coll.wideTotals (c : Coll) : List Byte × Counts :=
  let f := Fmt.ofCode (Cc.fout c.cmd)
  let ws := ((wordsOf (c.own.map (·.2)).flatten).take (Cc.count c.cmd)).map (wideRound f (Cc.numctl c.cmd) (Tab.get 0 c.exps 0))
  let r := sumCounts ws
  (packCodes f r.1, r.2)

/-- A fallback's totals, in the output format. -/
def Coll.fallbackTotals (c : Coll) (data : List Byte) : List Byte × Counts :=
  let f := Fmt.ofCode (Cc.fout c.cmd)
  let fi := Fmt.ofCode (Cc.fin c.cmd)
  let codes := unpackCodes fi (Cc.count c.cmd) data
  if Cc.fin c.cmd = Cc.fout c.cmd then (packCodes f codes, {})
  else let r := sumCounts (codes.map fun x => f.encode (Cc.numctl c.cmd) false (fi.decode x)); (packCodes f r.1, r.2)

/-- R275: the data of a finished operation of a command, by its kind and STEP: what the command does next. -/
def State.descantStep (s : State) (c : Coll) (dop step : Nat) (data : List Byte) : State :=
  if dop = Dop.bcast then (if c.root = s.self then s else s.descantResult c (data.take c.size))
  else if dop = Dop.counts then s.descantResult c data
  else if !s.takesResult c then s
  else if Cc.kind c.cmd = .wide then
    if c.fallsBack 0 then let r := c.fallbackTotals data; s.descantResult (c.addCounts r.2) r.1
    else
      let c := { c with own := Tab.put c.own step data }
      if c.own.length = ceilDiv (Cc.count c.cmd) 2 then let r := c.wideTotals; s.descantResult (c.addCounts r.2) r.1
      else s.putColl c
  else s.descantResult c (data.take (if c.opcode = 0x44 then Cc.count c.cmd else Cc.count c.cmd * Cc.inBytes c.cmd))

/-- R260: an operation of a command has left SELF: a context without a downward pass closes, and a contributor whose last
operation has left, or the root of a DBCAST, completes. -/
def State.afterLeft (s : State) (dtree dop dseq : Nat) : State :=
  match s.ctx dtree dop dseq with
  | none => s
  | some x =>
    if !x.sent || x.down || !s.descantLeft dtree dop dseq then s
    else
      let s := s.dropCtx dtree dop dseq
      match x.owner with
      | .command q tok =>
        if s.ce.ctxs.any fun y => y.owner == .command q tok then s
        else match s.collOf q tok with
          | some c => s.endColl { c with sat := c.sat + x.sat, flush := c.flush + x.flush }
          | none => s
      | .none | .barrier _ | .lateness _ _ => s

/-- SELF's contribution to one operation of a command; at the root of a tree with every arrival in, it gives the result at once. -/
def State.contributeStep (s : State) (c : Coll) (step : Nat) (x : DCtx) : State :=
  match s.contribute x with
  | (s, none) => s
  | (s, some g) => s.descantStep { c with sat := c.sat + g.sat, flush := c.flush + g.flush } g.dop step g.data

/-- R275: the partial operations of a WIDE SUM in the descant lane, once E is agreed; or its NATIVE sum where it falls back. -/
def State.wideSteps (s : State) (c : Coll) : State :=
  let f := Fmt.ofCode (Cc.fin c.cmd)
  let n := Cc.count c.cmd
  match s.collRead c 0 (n * Cc.inBytes c.cmd) with
  | (s, .data bs) =>
    if c.fallsBack 0 then
      let c := { c with fallback := true }
      let dfmt := ((Cc.descantMap c.cmd).map (·.2)).getD 0
      ((s.putColl c).noteFallback c 0).contributeStep c 0 (c.ctxFor Dop.sum 0 dfmt (pad16 bs) (Cc.all c.cmd) (Cc.numctl c.cmd))
    else
      let r := sumCounts ((unpackCodes f n bs).map fun x => widePartial false (Tab.get 0 c.exps 0) 10 (f.decode x))
      let c := c.addCounts r.2
      let steps := (List.range (ceilDiv n 2)).map fun j => (j, pad16 (((r.1.drop (2 * j)).take 2).flatMap fun w => leBytes w 8))
      forEach steps (fun x st =>
        match st.collOf c.queue c.tok with
        | some c => st.contributeStep c x.1 (c.ctxFor Dop.sum x.1 1 x.2 (Cc.all c.cmd) 2)
        | none => st) (s.putColl c)
  | (s, l) => s.ownFailed c l

/-- R260, R297: the root's DBCAST goes down its tree; a receiver takes what has come, or waits for it. -/
def State.startDbcast (s : State) (c : Coll) (dfmt : Nat) : State :=
  let x : DCtx := { c.ctxFor Dop.bcast 0 dfmt [] true 0 with own := none, sent := true }
  if c.root = s.self then
    match s.collRead c 0 c.size with
    | (s, .data bs) =>
      let e := s.dtree c.dtree
      let x := { x with down := false, own := some (pad16 bs) }
      let s := (s.putCtx x).readyOn ((e.map fun e => gangsOf e.children).getD [])
        (x.op true ((e.map (·.arrivals)).getD 1) (pad16 bs))
      s.afterLeft x.dtree x.dop x.dseq
    | (s, l) => s.ownFailed c l
  else
    match (s.ctx x.dtree x.dop x.dseq).bind (·.result) with
    | some data => (s.dropCtx x.dtree x.dop x.dseq).descantStep c Dop.bcast 0 data
    | none => s.putCtx x

/-- R275, R293: a command begins in the descant lane. -/
def State.startDescant (s : State) (c : Coll) : State :=
  match c.opcode with
  | 0x40 => s.startDbcast c 0
  | 0x43 => s.startDbcast c (Cc.fin c.cmd)
  | 0x45 =>
    match s.collRead c 0 8 with
    | (s, .data bs) => s.contributeStep c 0 (c.ctxFor Dop.counts 0 8 (bs ++ bs) true (Cc.numctl c.cmd))
    | (s, l) => s.ownFailed c l
  | 0x44 =>
    match s.collRead c 0 (Cc.count c.cmd) with
    | (s, .data bs) =>
      s.contributeStep c 0 (c.ctxFor (Cc.op c.cmd) 0 (Cc.fin c.cmd) (pad16 bs) (Cc.all c.cmd) (Cc.numctl c.cmd))
    | (s, l) => s.ownFailed c l
  | _ =>
    match s.collRead c 0 (Cc.count c.cmd * Cc.inBytes c.cmd) with
    | (s, .data bs) =>
      if Cc.kind c.cmd = .wide then
        let f := Fmt.ofCode (Cc.fin c.cmd)
        let e := lane16 (pitchOf false ((unpackCodes f (Cc.count c.cmd) bs).map f.decode))
        match s.contribute (c.ctxFor Dop.pitch 0 7 (fillLanes e) true 0) with
        | (s, none) => s
        | (s, some g) =>
          let c := { c with exps := Tab.put c.exps 0 (sext (leAt g.data 0 2) 16) }
          (s.putColl c).wideSteps c
      else
        let m := (Cc.descantMap c.cmd).getD (0, 0)
        s.contributeStep c 0 (c.ctxFor m.1 0 m.2 (pad16 bs) (Cc.all c.cmd) (Cc.numctl c.cmd))
    | (s, l) => s.ownFailed c l

/-! ### Sizes (R273, R289–R291) -/

/-- R195, R291: an operation with nothing to carry: no slot is sent, and the result is written at once. -/
def State.emptyResult (s : State) (c : Coll) : State :=
  if !s.takesResult c then s
  else
    let f := Fmt.ofCode (Cc.fout c.cmd)
    let bs := if Cc.kind c.cmd = .harvest then List.replicate (Cc.lists c.cmd * Cc.k c.cmd * 16) 0
      else (List.replicate (Cc.count c.cmd) (leBytes 0 8 ++ leBytes f.nanCode 4 ++ leBytes f.nanCode 4)).flatten
    let r := s.collWrite c 0 bs
    r.1.putColl r.2

/-- R317: SELF's lateness operation. -/
def State.injectLateness (s : State) (c : Coll) : State :=
  let t := c.stamp % 2 ^ 54
  let data := leBytes (t * 1024 + (1023 - s.self)) 8 ++ leBytes ((2 ^ 54 - 1 - t) * 1024) 8
  let x : DCtx := { dtree := c.dtree, dop := Dop.max, dseq := dseqOf c.optag 15, dfmt := 2, owner := .lateness c.queue c.tok, own := some data }
  let s := { s with ce.discarded := s.ce.discarded.filter fun y => y != (x.dtree, x.dseq) }
  match s.contribute x with
  | (s, none) => s
  | (s, some g) => s.putColl { c with late := some g.data }

/-- R280, R281: a slotted collective meets its neighbours: CONFIRMs that came early, its own, and RESERVE. -/
def State.openWindows (s : State) (c : Coll) : State :=
  let mine := s.ce.early.filter fun e => e.part == c.part && e.optag == c.optag
  let outs := c.outputs.map fun o =>
    match mine.find? fun e => e.gang == o.gang && e.route == o.route && e.down == o.down with
    | some e => { o with granted := some e.window }
    | none => o
  let c := { c with outputs := outs }
  let s := ({ s with ce.early := s.ce.early.filter fun e => !(e.part == c.part && e.optag == c.optag) }).putColl c
  (s.confirmInputs c).reserveOutputs c

/-- The size is known: slots may run, or nothing is carried (R290, R291). -/
def State.sizeColl (s : State) (c : Coll) : State :=
  let n := s.totalRows c
  if Cc.kind c.cmd = .moments ∧ 2 ^ 40 < n then s.stopColl c { status := St.badCommand, cause := 3, detail := 52 }
  else
    let empty := (Cc.kind c.cmd = .harvest ∧ c.listLen = 0) ∨ (Cc.kind c.cmd = .moments ∧ n = 0)
    let size := if empty then 0
      else if Cc.kind c.cmd = .harvest then Cc.lists c.cmd * c.listLen
      else if c.opcode = 0x40 ∧ Cc.counted c.cmd then (c.counts.map (·.1)).getD 0
      else Cc.count c.cmd
    let c := { c with size := size, sized := true }
    let s := s.putColl c
    let s := if empty then s.emptyResult c else s
    s.settle c.queue c.tok

/-- R273, R290: a COUNTED BCAST under AUTO takes its algorithm, and with it its legs and windows. -/
def State.chooseAlg (s : State) (c : Coll) (a : Alg) : State :=
  match s.legs c.cmd a with
  | none => s.stopColl c { status := St.badCommand, cause := 3, detail := 48 }
  | some (ins, outs) =>
    match s.windowOf c.cmd ins with
    | none => s.stopColl c { status := St.badCommand, cause := 3, detail := 40 }
    | some (w, staging) =>
      let c := { c with alg := some a, inputs := ins, outputs := outs, window := w, staging := staging }
      let s := (s.putColl c).openWindows c
      match s.collOf c.queue c.tok with
      | some c => s.sizeColl c
      | none => s

/-- R290: every member knows the size of a COUNTED BCAST. -/
def State.countedBcast (s : State) (c : Coll) : State :=
  let size := (c.counts.map (·.1)).getD 0
  let c := { c with size := size, tooSmall := c.root != s.self && decide (Cc.count c.cmd < size) }
  let a := c.alg.getD (s.algOf c.cmd size)
  if 65536 * 73728 < size then s.stopColl c { status := St.badCommand, cause := 3, detail := 32 }
  else if a = .descant then
    if 16 < size then s.stopColl c { status := St.badCommand, cause := 3, detail := 48 }
    else
      let c := { c with alg := some .descant, sized := true }
      (s.putColl c).startDescant c
  else if c.alg.isSome then s.sizeColl c
  else s.chooseAlg c a

/-- The count exchange has given its sum and maximum. -/
def State.takeCounts (s : State) (c : Coll) (data : List Byte) : State :=
  let c := { c with counts := some (leAt data 0 8, leAt data 8 8) }
  if c.opcode = 0x40 then s.countedBcast c else s.sizeColl c

/-- R291: C of SELF: the largest number of valid candidates in any of its lists, K at most. -/
def State.ownCount (s : State) (c : Coll) : List Nat → Nat → State × (Nat ⊕ Loaded)
  | [], acc => (s, .inl (min (Cc.k c.cmd) acc))
  | j :: js, acc =>
    match s.collRead c (16 * Cc.count c.cmd * j) (16 * Cc.count c.cmd) with
    | (s, .data bs) => State.ownCount s c js (max acc ((candsOf bs).filter (·.valid)).length)
    | (s, l) => (s, .inr l)

/-- SELF's value in the count exchange. -/
def State.countValue (s : State) (c : Coll) : State × (Nat ⊕ Loaded) :=
  if c.opcode = 0x42 then s.ownCount c (List.range (Cc.lists c.cmd)) 0
  else if c.opcode = 0x40 then (s, .inl (if c.root = s.self then Cc.count c.cmd else 0))
  else (s, .inl (Cc.rows c.cmd))

/-- The command runs a count exchange first (R258, R289, R290). -/
def Coll.exchanges (c : Coll) : Bool :=
  c.opcode == 0x42 || (Cc.counted c.cmd && (c.opcode == 0x40 || Cc.kind c.cmd == .moments))

/-- A collective whose contribution is at hand goes on: the count exchange, the descant lane, or its slots. -/
def State.proceed (s : State) (c : Coll) : State :=
  if c.exchanges then
    match s.countValue c with
    | (s, .inr l) => s.ownFailed c l
    | (s, .inl v) =>
      match s.contribute (c.ctxFor Dop.counts 0 8 (leBytes v 8 ++ leBytes v 8) true 0) with
      | (s, none) => s
      | (s, some g) => s.takeCounts c g.data
  else if c.alg = some .descant then
    let c := { c with sized := true }
    (s.putColl c).startDescant c
  else s.sizeColl c

/-- What an operation of a command gives (R288–R291, R296, R297). -/
def State.givenCommand (s : State) (c : Coll) (g : Given) : State :=
  let c := { c with sat := c.sat + g.sat, flush := c.flush + g.flush }
  let step := g.dseq / 4096
  if g.dop = Dop.counts ∧ c.opcode ≠ 0x45 then s.takeCounts c g.data
  else if g.dop = Dop.pitch then
    if c.alg = some .descant then
      let c := { c with exps := Tab.put c.exps 0 (sext (leAt g.data 0 2) 16) }
      (s.putColl c).wideSteps c
    else
      match c.groupOf step with
      | some j => s.putColl (c.takePitch j g.data)
      | none => s
  else s.descantStep c g.dop step g.data

/-- R408, R409: the downward BARRIER operation of a generation, or the root's own fold of it. -/
def State.givenBarrier (s : State) (b : Nat) (data : List Byte) : State :=
  let x := s.barrier b
  if x.state ≠ .armed then s
  else if leAt data 8 8 = x.gen.toNat then s.releaseBarrier b
  else (s.abandonBarrier b 5).raise Det.genMismatch .sync (some 49) b

/-- What a descant operation gives this member. -/
def State.given (s : State) (g : Given) : State :=
  match g.owner with
  | .none => s
  | .barrier b => s.givenBarrier b g.data
  | .command q tok =>
    match s.collOf q tok with
    | some c => s.givenCommand c g
    | none => s
  | .lateness q tok =>
    match s.collOf q tok with
    | some c => if c.keep.isNone then s.putColl { c with late := some g.data } else s
    | none => s

/-- R293: the descant field of an accepted slot, released on gang `g`. -/
def State.descantArrive (s : State) (g : Nat) (op : Descant) : State :=
  match s.descantIn g op with
  | (s, some x) => s.given x
  | (s, none) => s

/-- R298: the descant operation that goes out with the slot of port `p`. -/
def State.descantDepart (s : State) (p : Nat) : State × Option Descant :=
  match s.nextDescant p with
  | none => (s, none)
  | some x =>
    let s : State := { s with ce.dsend := s.ce.dsend.erase x }
    (s.afterLeft x.op.dtree x.op.dop x.op.dseq, some x.op)

end Sys2Proof.Machine
end

