-- ==== Sys2Proof/Machine/Mamus.lean ====
section
/-!
DEFINITION. The control, time and misc groups of Mamus (chapter 9).
-/
namespace Sys2Proof.Machine

/-! ### Branches and the pin stack (R208, R213, R237–R239) -/

/-- The target of a displacement at byte `o`. -/
def branchTarget (idx : Word) (c : BitVec 512) (o : Nat) : Word := idx + BitVec.ofNat 32 (cf c o 4)

/-- R208: a branch target earlier than HEAD. -/
def Queue.badTarget (x : Queue) (t : Word) : Bool := idxLater t x.headIdx

/-- A branch completes with OK and sets FETCH, or breaks R208. -/
def State.branch (s : State) (q : Nat) (idx : Word) (c : BitVec 512) (t : Word) (o : Nat) : State :=
  if (s.queue q).badTarget t then s.badCommand q idx c 6 o
  else ((s.completeOk q idx c).branchTo q t).headDue q

/-- R213: a push onto the pin stack of 8 indices. -/
def State.pushPin (s : State) (q : Nat) (p : Word) : State := s.modQueue q fun x => { x with pin := p :: x.pin }

/-- R213: a pop. -/
def State.popPin (s : State) (q : Nat) : State := s.modQueue q fun x => { x with pin := x.pin.drop 1 }

/-- An S register is written. -/
def State.setSreg (s : State) (q r : Nat) (v : DWord) : State := s.modQueue q fun x => { x with sregs := Tab.put x.sregs r v }

/-- NOP. -/
def execNop (q : Nat) (s : State) : Out :=
  within (Instr.nop q).wf <| s.runHead q 0x00 noCheck fun s idx c => s.completeOk q idx c

/-- R237: JUMP. -/
def execJump (q : Nat) (s : State) : Out :=
  within (Instr.jump q).wf <| s.runHead q 0x01 noCheck fun s idx c => s.branch q idx c (branchTarget idx c 16) 16

/-- R238: LOOP BEGIN. -/
def State.loopBegin (s : State) (q : Nat) (idx : Word) (c : BitVec 512) : State :=
  let x := s.queue q
  let r := cf c 17 1
  let n := if bitAt (cf c 18 1) 0 then x.sreg r else BitVec.ofNat 64 (cf c 24 8)
  if n = 0 then s.branch q idx c (branchTarget idx c 20) 20
  else if 8 ≤ x.pin.length then s.badCommand q idx c 6 0
  else ((s.completeOk q idx c).setSreg q r n).pushPin q (idx + 1)

/-- R238: LOOP END. -/
def State.loopEnd (s : State) (q : Nat) (idx : Word) (c : BitVec 512) : State :=
  let x := s.queue q
  let r := cf c 17 1
  match x.pin with
  | [] => s.badCommand q idx c 6 0
  | p :: _ =>
    let v := x.sreg r - 1
    if v = 0 then (((s.completeOk q idx c).setSreg q r v).popPin q).headDue q
    else if x.badTarget p then s.badCommand q idx c 6 20
    else (s.setSreg q r v).branch q idx c p 20

/-- R238: LOOP. -/
def execLoop (q : Nat) (s : State) : Out :=
  within (Instr.loop q).wf <| s.runHead q 0x02 noCheck fun s idx c =>
    if cf c 16 1 = 0 then s.loopBegin q idx c else s.loopEnd q idx c

/-- R237: CALL. -/
def execCall (q : Nat) (s : State) : Out :=
  within (Instr.call q).wf <| s.runHead q 0x03 noCheck fun s idx c =>
    let t := branchTarget idx c 16
    if 8 ≤ (s.queue q).pin.length then s.badCommand q idx c 6 0
    else if (s.queue q).badTarget t then s.badCommand q idx c 6 16
    else (((s.completeOk q idx c).pushPin q (idx + 1)).branchTo q t).headDue q

/-- R237: RET. -/
def execRet (q : Nat) (s : State) : Out :=
  within (Instr.ret q).wf <| s.runHead q 0x04 noCheck fun s idx c =>
    match (s.queue q).pin with
    | [] => s.badCommand q idx c 6 0
    | p :: _ =>
      if (s.queue q).badTarget p then s.badCommand q idx c 6 0
      else (((s.completeOk q idx c).popPin q).branchTo q p).headDue q

/-- R240: HALT. -/
def execHalt (q : Nat) (s : State) : Out :=
  within (Instr.halt q).wf <| s.runHead q 0x05 noCheck fun s idx c =>
    (s.completeOk q idx c).haltQueue q .haltInsn idx false

/-- R241: the value that SETS writes. -/
def State.setsValue (s : State) (q : Nat) (c : BitVec 512) : DWord :=
  match cf c 17 1 with
  | 0 => BitVec.ofNat 64 (cf c 24 8)
  | 1 => (s.queue q).sreg (cf c 18 1)
  | 2 => (s.tally (cf c 20 2)).value
  | 3 => BitVec.ofNat 64 s.stamp.toNat
  | _ => BitVec.ofNat 64 ((s.img.map Img.self).getD 0xFFFF)

/-- R241: SETS. -/
def execSets (q : Nat) (s : State) : Out :=
  within (Instr.sets q).wf <| s.runHead q 0x06 noCheck fun s idx c =>
    (s.setSreg q (cf c 16 1) (s.setsValue q c)).completeOk q idx c

/-- The operand that USE_B chooses: S[B] or IMM. -/
def Queue.orImm (x : Queue) (c : BitVec 512) (b : Nat) : DWord :=
  if bitAt (cf c 19 1) 0 then x.sreg (cf c b 1) else BitVec.ofNat 64 (cf c 24 8)

/-- R241: ADDS. -/
def execAdds (q : Nat) (s : State) : Out :=
  within (Instr.adds q).wf <| s.runHead q 0x07 noCheck fun s idx c =>
    let x := s.queue q
    (s.setSreg q (cf c 16 1) (x.sreg (cf c 17 1) + x.orImm c 18)).completeOk q idx c

/-- Table MAM-3: the comparisons of BRS. -/
def brsHolds (cmp : Nat) (a b : DWord) : Bool :=
  match cmp with
  | 0 => a == b
  | 1 => a != b
  | 2 => decide (a.toNat < b.toNat)
  | 3 => decide (b.toNat ≤ a.toNat)
  | 4 => decide (a.toInt < b.toInt)
  | _ => decide (b.toInt ≤ a.toInt)

/-- R241: BRS. -/
def execBrs (q : Nat) (s : State) : Out :=
  within (Instr.brs q).wf <| s.runHead q 0x08 noCheck fun s idx c =>
    let x := s.queue q
    if brsHolds (cf c 18 1) (x.sreg (cf c 16 1)) (x.orImm c 17) then s.branch q idx c (branchTarget idx c 20) 20
    else s.completeOk q idx c

/-! ### Time (R242–R244) -/

/-- The beat from which a time command counts: that in which it reached the head, or, where the unit locked later, that in which
it entered LOCKED. -/
def State.headBase (s : State) (q : Nat) : Stamp :=
  let waited := s.now - ((s.queue q).head.map (·.since)).getD s.now
  let locked := (s.tact.stamp - s.tact.lockStamp).toNat
  if locked < waited then s.tact.lockStamp else s.tact.stamp - BitVec.ofNat 56 waited

/-- R242: AT_BEAT's target. -/
def atBeatTarget (x : Queue) (base : Stamp) (c : BitVec 512) : Stamp :=
  let st := BitVec.ofNat 56 (cf c 16 7)
  match cf c 24 1 with
  | 0 => st
  | 1 => base + st
  | _ => st + BitVec.ofNat 56 (x.sreg (cf c 25 1)).toNat

/-- R243: AT_DOWNBEAT's target: the qualifying downbeats come once a phrase with LEVEL 1 or MATCH, else once a measure. -/
def atDownbeatTarget (base : Stamp) (c : BitVec 512) : Stamp :=
  let skip := cf c 20 4
  if cf c 16 1 = 1 ∨ bitAt (cf c 18 1) 0 then
    let first := base.toNat / 2 ^ 18 * 2 ^ 18 + (if bitAt (cf c 18 1) 0 then cf c 17 1 else 0) * 4096
    BitVec.ofNat 56 ((if first ≤ base.toNat then first + 2 ^ 18 else first) + skip * 2 ^ 18)
  else BitVec.ofNat 56 ((base.toNat / 4096 + 1 + skip) * 4096)

/-- R19: beat `t` is not later than the present beat. -/
def State.reached (s : State) (t : Stamp) : Bool :=
  let d := (t - s.tact.stamp).toNat
  d == 0 || decide (2 ^ 55 ≤ d)

/-- R242–R244: a time command at its head: it ends with ABANDONED when the member has stepped out, holds the head until the
first lock, or computes its target once and issues when the target is reached. -/
def State.timeHead (s : State) (q : Nat) (idx : Word) (c : BitVec 512) (target : Stamp → Stamp) : State :=
  let x := s.queue q
  if s.timed then
    let h := x.head.getD { since := s.now }
    let t := h.target.getD (target (s.headBase q))
    if s.reached t then s.completeOk q idx c
    else s.setQueue q { x with head := some { h with target := some t } }
  else if s.tact.everLocked ∨ s.tact.state = .steppedOut then
    s.completeHead q idx c { status := St.abandoned, detail := cancelled }
  else s

/-- R242: AT_BEAT. -/
def execAtBeat (q : Nat) (s : State) : Out :=
  within (Instr.atBeat q).wf <| s.runHead q 0x10 noCheck fun s idx c =>
    s.timeHead q idx c fun base => atBeatTarget (s.queue q) base c

/-- R243: AT_DOWNBEAT. -/
def execAtDownbeat (q : Nat) (s : State) : Out :=
  within (Instr.atDownbeat q).wf <| s.runHead q 0x11 noCheck fun s idx c =>
    s.timeHead q idx c fun base => atDownbeatTarget base c

/-! ### Misc (R268, R269) -/

/-- R234, R268, Table MAM-11: the checks of RECORD's destination. -/
def recordCheck (s : State) (c : BitVec 512) : Option (Nat × Nat) :=
  let a := cf c 16 8
  if a % 32 ≠ 0 then some (3, 16)
  else if !s.backed a 32 then some (4, 16)
  else if !s.inTier1 a 32 then some (3, 16)
  else none

/-- R268: the 32 bytes that RECORD writes. -/
def State.recordData (s : State) (q : Nat) (c : BitVec 512) : List Byte :=
  let x := s.queue q
  leBytes (s.stamp.toNat + s.tact.cycle * 2 ^ 56) 8 ++ leBytes (x.sreg (cf c 24 1)).toNat 8
    ++ leBytes (x.sreg (cf c 25 1)).toNat 8 ++ leBytes (s.tally (cf c 26 2)).value.toNat 8

/-- R268: RECORD. -/
def execRecord (q : Nat) (s : State) : Out :=
  within (Instr.record q).wf <| s.runHead q 0x60 recordCheck fun s idx c =>
    match s.store (cf c 16 8) (s.recordData q c) with
    | (s', .ok) => s'.completeOk q idx c
    | (s', .strict page) => s'.completeHead q idx c { status := St.narrowWrite, detail := page }
    | (s', .ue page) =>
      (s'.completeHead q idx c { status := St.dataUe, detail := page }).memFault (.queue q) Det.rmwUe page
    | (s', .unbacked _) => s'

/-- R269: MARK. Its record and its message are those of its completion. -/
def execMark (q : Nat) (s : State) : Out :=
  within (Instr.mark q).wf <| s.runHead q 0x61 noCheck fun s idx c =>
    (s.modQueue q fun x => { x with mark := BitVec.ofNat 32 (cf c 16 4) }).completeOk q idx c

end Sys2Proof.Machine
end

