-- ==== Sys2Proof/Machine/DmaOps.lean ====
section
/-!
DEFINITION. The DMA engine's transfers (chapter 14): checks at start (R375, R388), bursts (R377–R381), completion (R382–R386), and the
sending side of remote transfers (R389, R391, R394–R396).
-/
namespace Sys2Proof.Machine

/-! ### Checks at start -/

/-- The OPCTL flags A_HOST, B_HOST, REMOTE, WAITW and RESULT_EN that an operation has (Table MAM-7). -/
def flagsOf (op : Nat) : Nat :=
  match op with
  | 0 => 0x0F | 1 => 0x0A | 2 => 0x1B | 3 => 0x0E | _ => 0x09

/-- R388: why a remote transfer is refused: the offset of the field. -/
def State.remoteFaults (s : State) (d : DmaSet) : List (Bool × Nat × Nat) :=
  [(s.score.member, 3, 42), (d.member != s.self && s.inRoster d.member, 3, 42), (d.winOff % 73728 == 0, 3, 24),
   (decide (d.winOff / 73728 + ceilDiv (s.moves d) 73728 ≤ 65536), 3, 24)]

/-- R234, R250–R253, R388: the first rule that a transfer breaks, as ERR_CAUSE and the offset of the field in a command. -/
def State.xferFault (s : State) (d : DmaSet) : Option (Nat × Nat) :=
  let src := d.src.toNat
  let dst := d.dst.toNat
  firstFault <|
    [(decide (d.op ≤ 4), 1, 0), (fld d.opctl.toNat 5 5 &&& flagsOf d.op == fld d.opctl.toNat 5 5, 1, 40),
     (if d.listed then decide (1 ≤ d.count) && decide (d.count ≤ 65536) else decide (d.count ≤ 2 ^ 40), 3, 32)]
    ++ (if d.listed then [(s.backed d.list (16 * d.count), 4, if d.op = 3 then 16 else 24), (decide (s.moves d ≤ 2 ^ 40), 3, 32)] else [])
    ++ (if (d.op = 0 ∨ d.op = 2) ∧ !d.aHost then [(s.backed src d.count, 4, 16)] else [])
    ++ (if d.op = 4 ∧ !d.aHost then [(s.backed src (s.moves d), 4, 16)] else [])
    ++ (if d.remote then s.remoteFaults d
        else if d.op ≤ 3 ∧ !d.bHost then [(s.backed dst (s.moves d), 4, 24)] else [])
    ++ (if d.op = 2 ∧ d.resultEn then [(d.aux.toNat % 16 == 0, 3, 48), (s.backed d.aux.toNat 16, 4, 48)] else [])

/-- R381: a narrow part of the set's destination in a STRICT region. A SCATTER is checked entry by entry. -/
def State.narrowPart (s : State) (d : DmaSet) : Option Nat :=
  match d.op with
  | 2 => if d.resultEn then s.strictPart d.aux.toNat 16 else none
  | 4 => none
  | _ => if d.remote || d.bHost then none else s.strictPart d.dst.toNat (s.moves d)

/-! ### The end of a transfer (R382–R384) -/

/-- R382: the transfer waits for its writes. -/
def Channel.waits (c : Channel) : Bool := !c.flagged || c.active.waitw || c.active.op == 2

/-- A transfer's outcome stands: it issues nothing more, and waits in COMPLETING for its record. -/
def State.endXfer (s : State) (ch : Nat) (d : Done) : State :=
  let s := s.modChan ch fun c => { c with state := .completing, done := some d, remote := none, hostWait := none, hostA := none, hostB := none }
  if s.dma.holder = some ch then { s with dma.holder := none } else s

/-- An uncorrectable read, a failed write or a host error ends the transfer (R149, R384, R490). -/
def State.failXfer (s : State) (ch status detail : Nat) : State := s.endXfer ch { status := status, detail := detail }

/-- R380, R375: ERR_DETAIL of a BAD_COMMAND: the offset in the command, or 0 for a SOFTWARE transfer. -/
def State.badXfer (s : State) (ch cause offset : Nat) : State :=
  let s := s.endXfer ch { status := St.badCommand, cause := cause, detail := if (s.chan ch).cmd.isSome then offset else 0 }
  s.eventC Det.badCommand (match (s.chan ch).cmd with
    | some x => .queue x.1
    | none => .chan ch) offset

/-- R381, R145: a narrow part in a STRICT region stops the transfer, with nothing of the set or entry written. -/
def State.narrowXfer (s : State) (ch a : Nat) : State :=
  match s.locate a with
  | some (k, _) =>
    ((s.count (Cnt.memErr k Cnt.narrowWrite)).eventC Det.narrowWrite (ctrlUnit k) (a / 2048)).failXfer ch St.narrowWrite (a / 2048)
  | none => s.failXfer ch St.narrowWrite (a / 2048)

/-- A device page could not be read or merged (Table MEM-7). -/
def State.ueXfer (s : State) (ch det page : Nat) : State := (s.failXfer ch St.dataUe page).memFault (.chan ch) det page

/-- The status of a transfer that has moved everything: COMPARE's mismatch, then a lease in breach (R215). -/
def Channel.goodDone (c : Channel) : Done :=
  if c.active.op = 2 ∧ c.mismatch ≠ 0 then { status := St.compareMismatch, detail := min 0xFFFFFFFF c.mismatch }
  else if c.breach then { status := St.leaseBreach }
  else { status := St.ok }

/-- R382: the last byte has been issued: the transfer waits for its writes to be answered, or does not. Its posted host writes are
answered by a read of the last address written. -/
def State.issuedAll (s : State) (ch : Nat) : State :=
  let c := s.chan ch
  let s := if s.dma.holder = some ch then { s with dma.holder := none } else s
  if !c.waits then
    (s.modChan ch fun c => { c with trail := c.trail.or c.remote }).endXfer ch c.goodDone
  else
    match c.lastHost with
    | some a =>
      if s.hostOpen then
        (s.modChan ch fun c => { c with state := .completing, hostWait := some (s.host.nextRead, .flush) }).readHost a 0 (some ch) none true
      else s.failXfer ch St.dataUe (hostDetail a)
    | none => if c.remote.isSome then s.modChan ch fun c => { c with state := .completing } else s.endXfer ch c.goodDone

/-! ### Messages of a remote transfer (R391) -/

/-- Table COL-3, R391: the body of a message of stream `optag` whose receiver is `rx`. -/
def streamBody (optag rx v cause : Nat) : List Byte := bodyOf [(2, 2, optag), (4, 2, rx), (8, 4, v), (12, 1, cause)]

/-- R391.1, R391.3: RESERVE, unless a window has been granted or an open trail of the channel still uses the stream. -/
def State.sendReserve (s : State) (ch : Nat) : State :=
  let c := s.chan ch
  match c.remote with
  | none => s
  | some r =>
    if c.trail.isSome || r.granted != 0 || c.state != .running then s
    else
      match s.sendCue 0x10 r.member (streamBody r.optag r.member r.total 0) with
      | (s, true) => s.modChan ch fun c => { c with remote := some { r with reservedAt := r.reservedAt.or (some s.now) } }
      | (s, false) => s

/-! ### Start (R375, R388) -/

/-- The pieces of a remote transfer's source. -/
def State.piecesOf (s : State) (d : DmaSet) : List SrcPiece :=
  if d.op = 3 then
    (numbered 0 (s.listAt d)).map fun x =>
      { host := x.2.host, addr := x.2.addr, len := x.2.len, bad := s.entryFault x.2, entry := x.1 }
  else [{ host := d.aHost, addr := d.src.toNat, len := d.count }]

/-- The sending side of a remote transfer that starts on channel `ch`. -/
def State.remoteOf (s : State) (ch : Nat) (d : DmaSet) (owner : Option Nat) : RemoteTx :=
  { seg0 := d.winOff / 73728, total := ceilDiv (s.moves d) 73728, bytes := s.moves d, optag := d.window * 64 + ch % 64
    member := d.member, pieces := s.piecesOf d, prio := d.prio, startedAt := s.dma.order, owner := owner }

/-- The channel takes up a transfer that has passed its checks. -/
def State.runXfer (s : State) (ch : Nat) (d : DmaSet) : State :=
  let owner := (s.chan ch).cmd.map (·.1)
  let remote := if d.remote ∧ s.moves d ≠ 0 then some (s.remoteOf ch d owner) else none
  let scrambled := s.overlaps d
  let s := s.modChan ch fun c => { c with
    state := .running, entryAt := 0, entryOff := 0, cursor := 0, startedAt := s.dma.order, mismatch := 0, firstMis := none, breach := false
    scrambled := scrambled, lastHost := none, flushed := false, remote := remote }
  ({ s with dma.order := s.dma.order + 1 }).sendReserve ch

/-- R375: a transfer leaves ARMED, or is started by SOFTWARE: BYTES restarts, and it is checked. -/
def State.startXfer (s : State) (ch : Nat) : State :=
  let s := s.modChan ch fun c => { c with progress := 0, met := none, done := none, hostWait := none, hostA := none, hostB := none }
  let d := (s.chan ch).active
  match s.xferFault d with
  | some (cause, o) => s.badXfer ch cause o
  | none =>
    match s.narrowPart d with
    | some a => s.narrowXfer ch a
    | none =>
      if d.remote ∧ s.ce.lost.contains d.member then s.failXfer ch St.memberLost d.member
      else if s.moves d = 0 ∧ !(d.op = 2 ∧ d.resultEn) then s.endXfer ch { status := St.ok }
      else s.runXfer ch d

/-- Table DMA-3: the start condition stands already when the channel is armed. -/
def State.alreadyMet (s : State) (d : DmaSet) : Bool :=
  match d.start with
  | 1 => s.timed && s.reached d.eventStamp
  | 3 => decide (d.thresh.toNat ≤ (s.tally d.eventTally).value.toNat)
  | _ => false

/-- DMA_CH_STATUS.CFG_REFUSED (Table DMA-8: class C). -/
def State.chanRefused (s : State) (ch : Nat) : State :=
  (s.modChan ch fun c => { c with cfgRefused := true }).eventC Det.setRefused (.chan ch)

/-- R373, R554: a write to a set or a command bit that is ignored. -/
def State.setRefused (s : State) (ch : Nat) : State :=
  (s.modChan ch fun c => { c with setRefused := satAdd 0xFFFF c.setRefused 1 }).eventC Det.setRefused (.chan ch)

/-- R373, R375, Table FLT-4: GO on the active set of an IDLE SOFTWARE channel. -/
def State.goChan (s : State) (ch : Nat) : State :=
  let d := (s.chan ch).active
  if !(s.ring d.ring).enabled || s.held (320 + ch) then s.chanRefused ch
  else if d.start = 0 then s.startXfer ch
  else if s.alreadyMet d then
    let s := if d.start = 1 then (s.count (Cnt.dma 0)).eventC Det.dmaLateStart (.chan ch) else s
    s.startXfer ch
  else s.modChan ch fun c => { c with state := .armed, met := none }

/-- R374: the shadow set becomes the active set, and the channel acts as if GO had been written. -/
def State.promote (s : State) (ch : Nat) : State :=
  (s.modChan ch fun c => { c with active := c.shadow, shadowArmed := false }).goChan ch

/-! ### Reading a transfer's bytes -/

/-- What a read of a transfer gave. -/
inductive Got where
  | data (bs : List Byte)
  | wait                        -- a host read is outstanding
  | ended                       -- the transfer has ended

/-- `n` bytes of one operand of channel `ch`: from device memory, or by a host read. -/
def State.operandBytes (s : State) (ch : Nat) (use : HostUse) (host : Bool) (a n : Nat) : State × Got :=
  let c := s.chan ch
  if host then
    match if use = .b then c.hostB else c.hostA with
    | some bs => (s, .data (bs.take n))
    | none =>
      if s.hostOpen then
        ((s.modChan ch fun c => { c with hostWait := some (s.host.nextRead, use) }).readHost a n (some ch) none false, .wait)
      else (s.failXfer ch St.dataUe (hostDetail a), .ended)
  else
    let s := if s.breached .dma ch false a n then s.modChan ch fun c => { c with breach := true } else s
    match s.load a n with
    | (s, .data bs) => (s, .data bs)
    | (s, .ue page det) => (s.ueXfer ch det page, .ended)
    | (s, .unbacked a) => ((s.unbackedEvent a).failXfer ch St.dataUe (a / 2048), .ended)

/-- Bytes from `a` to the next 4 KiB boundary. -/
def toBoundary (a : Nat) : Nat := 4096 - a % 4096

/-- A host access does not cross a 4 KiB boundary (R488). -/
def hostCap (host : Bool) (a n : Nat) : Nat := if host then min n (toBoundary a) else n

/-- `bs` written at the destination of channel `ch`; BYTES counts them. -/
def State.putBytes (s : State) (ch : Nat) (host : Bool) (a : Nat) (bs : List Byte) : State × Bool :=
  let sc := (s.chan ch).scrambled && !host
  let bs := if sc then (List.range bs.length).map (Config.overlapByte s.fresh) else bs
  let s := if sc then s.drawn else s
  if host then
    if s.hostOpen then
      let s := s.postHost a bs
      let s := match (s.chan ch).cmd with
        | some x => s.modQueue x.1 fun q => { q with lastHost := some (a + bs.length - 1) }
        | none => s
      (s.modChan ch fun c => { c with lastHost := some (a + bs.length - 1), progress := c.progress + bs.length }, true)
    else (s.failXfer ch St.dataUe (hostDetail a), false)
  else
    let s := if s.breached .dma ch true a bs.length then s.modChan ch fun c => { c with breach := true } else s
    match s.store a bs with
    | (s, .ok) => (s.modChan ch fun c => { c with progress := c.progress + bs.length }, true)
    | (s, .strict page) => (s.failXfer ch St.narrowWrite page, false)
    | (s, .ue page) => (s.ueXfer ch Det.rmwUe page, false)
    | (s, .unbacked a) => ((s.unbackedEvent a).failXfer ch St.dataUe (a / 2048), false)

/-- `n` more bytes handled; the host bytes used are gone. -/
def State.moved (s : State) (ch n : Nat) : State :=
  s.modChan ch fun c => { c with cursor := c.cursor + n, hostA := none, hostB := none }

/-- The transfer's last byte has been handled. -/
def State.ifAll (s : State) (ch : Nat) : State :=
  if (s.chan ch).cursor < s.moves (s.chan ch).active then s else s.issuedAll ch

/-! ### Bursts of local transfers (R377, R379–R381) -/

/-- The bytes of a FILL from byte `o` (R251). -/
def fillBytes (d : DmaSet) (o n : Nat) : List Byte :=
  let pat := leBytes d.aux.toNat 8
  (List.range n).map fun i => (pat.drop ((o + i) % d.width)).headD 0

/-- COPY or FILL: one burst. -/
def State.burstPlain (s : State) (ch : Nat) : State :=
  let c := s.chan ch
  let d := c.active
  let dst := d.dst.toNat + c.cursor
  let n := min (d.count - c.cursor) (toBoundary dst)
  if d.op = 1 then
    match s.putBytes ch d.bHost dst (fillBytes d c.cursor n) with
    | (s, true) => (s.moved ch n).ifAll ch
    | (s, false) => s
  else
    let src := d.src.toNat + c.cursor
    let n := hostCap d.aHost src n
    match s.operandBytes ch .a d.aHost src n with
    | (s, .data bs) =>
      match s.putBytes ch d.bHost dst bs with
      | (s, true) => (s.moved ch n).ifAll ch
      | (s, false) => s
    | (s, _) => s

/-- The places where two strings of bytes differ. -/
def mismatches (a b : List Byte) : List Nat :=
  (numbered 0 (a.zip b)).filterMap fun x => if x.2.1 = x.2.2 then none else some x.1

/-- R252: COMPARE's RESULT. -/
def State.compareEnd (s : State) (ch : Nat) : State :=
  let c := s.chan ch
  if c.active.resultEn then
    match s.store c.active.aux.toNat (leBytes (c.firstMis.getD 0xFFFFFFFFFFFFFFFF) 8 ++ leBytes c.mismatch 8) with
    | (s, .ok) => s.issuedAll ch
    | (s, .strict page) => s.failXfer ch St.narrowWrite page
    | (s, .ue page) => s.ueXfer ch Det.rmwUe page
    | (s, .unbacked a) => (s.unbackedEvent a).failXfer ch St.dataUe (a / 2048)
  else s.issuedAll ch

/-- COMPARE: one burst. -/
def State.burstCompare (s : State) (ch : Nat) : State :=
  let c := s.chan ch
  let d := c.active
  let a := d.src.toNat + c.cursor
  let b := d.dst.toNat + c.cursor
  let n := hostCap d.bHost b (hostCap d.aHost a (min (d.count - c.cursor) (toBoundary b)))
  if n = 0 then s.compareEnd ch
  else
    match s.operandBytes ch .a d.aHost a n with
    | (s, .data x) =>
      match s.operandBytes ch .b d.bHost b n with
      | (s, .data y) =>
        let ms := mismatches x y
        let s := (s.modChan ch fun c => { c with
          mismatch := c.mismatch + ms.length, firstMis := c.firstMis.or (ms.head?.map (c.cursor + ·)) }).moved ch n
        if (s.chan ch).cursor < d.count then s else s.compareEnd ch
      | (s, _) => s
    | (s, _) => s

/-- R380: the list entry at hand, read from the list. -/
def State.entryAtHand (s : State) (ch : Nat) : State × Option ListEntry :=
  let c := s.chan ch
  match s.load (c.active.list + 16 * c.entryAt) 16 with
  | (s, .data bs) => (s, some (listEntry bs))
  | (s, .ue page det) => (s.ueXfer ch det page, none)
  | (s, .unbacked a) => ((s.unbackedEvent a).failXfer ch St.dataUe (a / 2048), none)

/-- The next entry is at hand. -/
def State.nextEntry (s : State) (ch : Nat) : State := s.modChan ch fun c => { c with entryAt := c.entryAt + 1, entryOff := 0 }

/-- R379: `n` bytes of the entry at hand have been moved. -/
def State.entryMoved (s : State) (ch n len : Nat) : State :=
  let s := (s.moved ch n).modChan ch fun c => { c with entryOff := c.entryOff + n }
  if (s.chan ch).entryOff < len then s else s.nextEntry ch

/-- R380: an entry that breaks a rule ends the transfer, and ENTRY holds its index. -/
def State.badEntry (s : State) (ch entry cause : Nat) : State :=
  let s := s.modChan ch fun c => { c with entry := entry }
  let s := s.endXfer ch { status := St.badCommand, cause := cause, detail := if (s.chan ch).active.op = 3 then 16 else 24 }
  s.eventC Det.badCommand (.chan ch) entry

/-- GATHER or SCATTER: one burst within the entry at hand. -/
def State.burstEntry (s : State) (ch : Nat) (e : ListEntry) : State :=
  let c := s.chan ch
  let d := c.active
  let ea := e.addr + c.entryOff
  let along := (if d.op = 3 then d.dst.toNat else d.src.toNat) + c.cursor
  let dst := if d.op = 3 then along else ea
  let src := if d.op = 3 then ea else along
  let srcHost := if d.op = 3 then e.host else d.aHost
  let dstHost := if d.op = 3 then d.bHost else e.host
  let n := hostCap srcHost src (min (e.len - c.entryOff) (toBoundary dst))
  match s.operandBytes ch .a srcHost src n with
  | (s, .data bs) =>
    match s.putBytes ch dstHost dst bs with
    | (s, true) => s.entryMoved ch n e.len
    | (s, false) => s
  | (s, _) => s

/-- GATHER or SCATTER: the entry at hand is read and checked; one of length 0 is skipped. -/
def State.burstListed (s : State) (ch : Nat) : State :=
  match s.entryAtHand ch with
  | (s, none) => s
  | (s, some e) =>
    let c := s.chan ch
    let strict := if c.active.op = 4 ∧ !e.host ∧ c.entryOff = 0 then s.strictPart e.addr e.len else none
    let s := match s.entryFault e, strict with
      | some cause, _ => s.badEntry ch c.entryAt cause
      | none, some a => s.narrowXfer ch a
      | none, none => if e.len = 0 then s.nextEntry ch else s.burstEntry ch e
    let c := s.chan ch
    if c.state = .running ∧ c.active.count ≤ c.entryAt then s.issuedAll ch else s

/-! ### Bursts of remote transfers -/

/-- Bytes of segment `j`. -/
def RemoteTx.segLen (r : RemoteTx) (j : Nat) : Nat := min 73728 (r.bytes - j * 73728)
/-- Slots of segment `j` (R389). -/
def RemoteTx.slotsOf (r : RemoteTx) (j : Nat) : Nat := ceilDiv (r.segLen j) 576

/-- The piece that holds byte `o` of the source, and the offset within it. -/
def pieceAt : List SrcPiece → Nat → Option (SrcPiece × Nat)
  | [], _ => none
  | p :: ps, o => if o < p.len then some (p, o) else if p.bad.isSome && o == 0 then some (p, 0) else pieceAt ps (o - p.len)

/-- What the sending side reads next: the segment being sent again, else the segment whose window stands open. -/
def RemoteTx.wants (r : RemoteTx) : Option (Bool × Nat × Nat) :=
  if r.hostWait.isSome then none
  else match r.resend with
    | j :: _ => if r.againBuf.length < r.segLen j then some (true, j, r.againBuf.length) else none
    | [] =>
      if r.nextSeg < r.total ∧ r.nextSeg < r.released + r.granted ∧ r.buf.length < r.segLen r.nextSeg then
        some (false, r.nextSeg, r.buf.length)
      else none

/-- Bytes read into the buffer in hand. -/
def RemoteTx.fill (r : RemoteTx) (again : Bool) (bs : List Byte) : RemoteTx :=
  if again then { r with againBuf := r.againBuf ++ bs } else { r with buf := r.buf ++ bs }

/-- The sending side of a channel: its open trail, or its running transfer. -/
def Channel.side (c : Channel) (trail : Bool) : Option RemoteTx := if trail then c.trail else c.remote
def Channel.setSide (c : Channel) (trail : Bool) (r : Option RemoteTx) : Channel :=
  if trail then { c with trail := r } else { c with remote := r }

/-- R383: a transfer that did not wait has failed after its completion. -/
def State.lateFailure (s : State) (ch : Nat) (owner : Option Nat) (remote : Bool) (a : Nat) : State :=
  let s := match owner with
    | some q => { s with dma.lateFails := s.dma.lateFails ++ [({ queue := q, page := a / 2048, remote := remote } : LateFail)] }
    | none => s.modChan ch fun c => { c with lateFail := true }
  (s.count (Cnt.dma 4)).raiseOn Det.lateFail (.chan ch) a

/-- The trail of channel `ch` closes, and a remote transfer that waits for it reserves. -/
def State.closeTrail (s : State) (ch : Nat) : State := (s.modChan ch fun c => { c with trail := none }).sendReserve ch

/-- R383, R395, R396: a remote transfer fails: its status, or the late failure of its trail. -/
def State.failSide (s : State) (ch : Nat) (trail : Bool) (r : RemoteTx) (status detail seg : Nat) : State :=
  if trail then (s.closeTrail ch).lateFailure ch r.owner true ((r.seg0 + seg) * 73728) else s.failXfer ch status detail

/-- A page of a remote transfer's source could not be read. -/
def State.ueSide (s : State) (ch : Nat) (trail : Bool) (r : RemoteTx) (seg det page : Nat) : State :=
  (s.failSide ch trail r St.dataUe page seg).memFault (.chan ch) det page

/-- One burst of a remote transfer: at most 4 KiB of the segment in hand is read. -/
def State.burstRemote (s : State) (ch : Nat) (trail : Bool) : State :=
  match (s.chan ch).side trail with
  | none => s
  | some r =>
    match r.wants with
    | none => s
    | some (again, j, o) =>
      let at_ := j * 73728 + o
      match pieceAt r.pieces at_ with
      | none => s
      | some (p, i) =>
        match p.bad with
        | some cause => if trail then s.failSide ch true r St.badCommand 16 j else s.badEntry ch p.entry cause
        | none =>
          let n := hostCap p.host (p.addr + i) (min (min (r.segLen j - o) (toBoundary o)) (p.len - i))
          if p.host then
            if s.hostOpen then
              (s.modChan ch fun c => c.setSide trail (some { r with hostWait := some (s.host.nextRead, again) })).readHost (p.addr + i) n (some ch)
                none false
            else s.failSide ch trail r St.dataUe (hostDetail (p.addr + i)) j
          else
            let s := if s.breached .dma ch false (p.addr + i) n then s.modChan ch fun c => { c with breach := true } else s
            match s.load (p.addr + i) n with
            | (s, .data bs) => s.modChan ch fun c => c.setSide trail (some (r.fill again bs))
            | (s, .ue page det) => s.ueSide ch trail r j det page
            | (s, .unbacked a) => (s.unbackedEvent a).failSide ch trail r St.dataUe (a / 2048) j

/-! ### Which channel issues (R377, R378) -/

/-- R377: a RUNNING channel is ready to issue a burst. -/
def Channel.canIssue (c : Channel) : Bool :=
  c.state == .running && c.hostWait.isNone && match c.remote with
    | some r => c.trail.isNone && r.resend.isEmpty && r.wants.isSome
    | none => true

/-- R378: a resend of a trail or of a remote transfer is ready to be read. -/
def Channel.canResend (c : Channel) (trail : Bool) : Bool :=
  ((c.side trail).map fun r => !r.resend.isEmpty && r.wants.isSome).getD false

/-- The better of two channels under a tie rule: the higher PRIO, then the lower rank. -/
def betterChan (rank : Nat → Nat) (s : State) (a b : Nat) : Nat :=
  let pa := (s.chan a).active.prio
  let pb := (s.chan b).active.prio
  if pb < pa ∨ (pa = pb ∧ rank a ≤ rank b) then a else b

/-- The best channel of a list. -/
def State.bestChan (s : State) (rank : Nat → Nat) : List Nat → Option Nat
  | [] => none
  | c :: cs => some (cs.foldl (betterChan rank s) c)

/-- R377: the channel that issues the next burst. SERIAL keeps its channel until the transfer leaves RUNNING. -/
def State.pickChan (s : State) : Option Nat :=
  let run := (List.range 64).filter fun c => (s.chan c).canIssue
  if s.dma.serial then
    match s.dma.holder with
    | some h => if (s.chan h).canIssue then some h else none
    | none => s.bestChan (fun c => (s.chan c).startedAt) run
  else s.bestChan (fun c => (c + 63 - s.dma.lastIssued) % 64) run

/-- One burst of a channel. -/
def State.burst (s : State) (ch : Nat) : State :=
  let c := s.chan ch
  if c.remote.isSome then s.burstRemote ch false
  else
    match c.active.op with
    | 2 => s.burstCompare ch
    | 3 | 4 => s.burstListed ch
    | _ => s.burstPlain ch

/-- R377, R378: the engine issues one burst. -/
def State.dmaTurn (s : State) : State :=
  match ((List.range 64).flatMap fun c => [(c, true), (c, false)]).find? fun x => (s.chan x.1).canResend x.2 with
  | some (c, trail) => s.burstRemote c trail
  | none =>
    match s.pickChan with
    | none => s
    | some c =>
      let s : State := { s with dma.lastIssued := c, dma.holder := if s.dma.serial then some c else s.dma.holder }
      s.burst c

/-! ### Sending STREAM slots (R389, R394) -/

/-- Slot `n` of segment `j`, from the bytes of the segment read so far. -/
def RemoteTx.slot (r : RemoteTx) (self j n : Nat) (again : Bool) (seg : List Byte) : Slot :=
  let last := decide (r.slotsOf j ≤ n + 1)
  { cls := .stream, typ := if last ∧ r.total ≤ j + 1 then 1 else 0, retry := again, optag := r.optag, segment := r.seg0 + j, slotInSeg := n
    last := last, route := r.member, source := self, check := if last then (crc64 seg).toNat else 0, payload := (seg.drop (576 * n)).take 576 }

/-- The next slot of a sending side, and the side after it has gone: a resend first. -/
def RemoteTx.nextSlotOf (r : RemoteTx) (self : Nat) : Option (Slot × RemoteTx) :=
  match r.resend with
  | j :: js =>
    let need := min (r.segLen j) (576 * (r.againSlot + 1))
    if r.againBuf.length < need then none
    else
      let more := r.againSlot + 1 < r.slotsOf j
      some (r.slot self j r.againSlot true r.againBuf,
        if more then { r with againSlot := r.againSlot + 1 } else { r with resend := js, againSlot := 0, againBuf := [] })
  | [] =>
    let need := min (r.segLen r.nextSeg) (576 * (r.nextSlot + 1))
    if r.total ≤ r.nextSeg ∨ r.released + r.granted ≤ r.nextSeg ∨ r.buf.length < need then none
    else
      let more := r.nextSlot + 1 < r.slotsOf r.nextSeg
      some (r.slot self r.nextSeg r.nextSlot false r.buf,
        if more then { r with nextSlot := r.nextSlot + 1 } else { r with nextSeg := r.nextSeg + 1, nextSlot := 0, buf := [] })

/-- R377, R378, R389: a sending side has a slot for gang `g`. -/
def State.sideReady (s : State) (g ch : Nat) (trail : Bool) : Bool :=
  let c := s.chan ch
  match c.side trail with
  | none => false
  | some r =>
    (r.nextSlotOf s.self).isSome && s.gangTo r.member == some g
      && (trail || !r.resend.isEmpty || (c.state == .running && c.trail.isNone && (!s.dma.serial || s.dma.holder == some ch)))

/-- R378, R389: one sending side goes before another: resends, then PRIO, then the earlier start. -/
def sideBefore (a b : RemoteTx) : Bool :=
  if a.resend.isEmpty != b.resend.isEmpty then !a.resend.isEmpty
  else if a.prio ≠ b.prio then decide (b.prio < a.prio)
  else decide (a.startedAt ≤ b.startedAt)

/-- The sending side that takes the next STREAM slot of gang `g`. -/
def State.pickSide (s : State) (g : Nat) : Option (Nat × Bool × RemoteTx) :=
  let cands := (List.range 64).flatMap fun ch => [true, false].filterMap fun t =>
    if s.sideReady g ch t then ((s.chan ch).side t).map fun r => (ch, t, r) else none
  cands.foldl (fun b x =>
    match b with
    | none => some x
    | some y => if sideBefore y.2.2 x.2.2 then some y else some x) none

/-- R389: the next STREAM slot of this member on gang `g`. After its last slot a transfer leaves RUNNING. -/
def State.streamOwn (s : State) (g : Nat) : State × Option Slot :=
  match s.pickSide g with
  | none => (s, none)
  | some (ch, trail, r) =>
    match r.nextSlotOf s.self with
    | none => (s, none)
    | some (sl, r') =>
      let s := s.modChan ch fun c => c.setSide trail (some r')
      (if !trail ∧ r'.total ≤ r'.nextSeg ∧ (s.chan ch).state = .running then s.issuedAll ch else s, some sl)

/-! ### The acknowledgement at the sender (R391, R394, R395) -/

/-- The channel and sending side that a message of the stream (OPTAG, receiver) concerns. -/
def State.sideOf (s : State) (optag rx : Nat) : Option (Nat × Bool × RemoteTx) :=
  let ch := optag % 64
  let is := fun (r : RemoteTx) => r.optag == optag && r.member == rx
  match (s.chan ch).trail.filter is with
  | some r => some (ch, true, r)
  | none => ((s.chan ch).remote.filter is).map fun r => (ch, false, r)

/-- R391.2: CONFIRM. -/
def State.streamConfirm (s : State) (m : Cue) : State :=
  match s.sideOf (fld (m.at 2 2) 0 12) m.src with
  | some (ch, trail, r) =>
    if 64 < m.at 8 4 then s else s.modChan ch fun c => c.setSide trail (some { r with granted := m.at 8 4 })
  | none => s

/-- R391.4, R382, R396: RELEASE: the released count rises; when it is full the transfer is acknowledged, or its trail closes. -/
def State.streamRelease (s : State) (m : Cue) : State :=
  match s.sideOf (fld (m.at 2 2) 0 12) m.src with
  | none => s
  | some (ch, trail, r) =>
    let v := m.at 8 4
    if v ≤ r.released ∨ r.total < v then s
    else
      let r := { r with released := v, stall := 0 }
      let s := s.modChan ch fun c => { c.setSide trail (some r) with progress := if trail then c.progress else min r.bytes (v * 73728) }
      if v < r.total then s
      else if trail then s.closeTrail ch
      else if (s.chan ch).state = .completing then s.endXfer ch (s.chan ch).goodDone
      else s

/-- R394, R395: segment `j` is sent again, once; a second failure ends the transfer. -/
def State.resendSegment (s : State) (ch : Nat) (trail : Bool) (r : RemoteTx) (j : Nat) : State :=
  if r.retried.contains j then s.failSide ch trail r St.slotLost (r.seg0 + j) j
  else s.modChan ch fun c => c.setSide trail (some { r with resend := r.resend ++ [j], retried := j :: r.retried, stall := 0 })

/-- R394: SEGMENT_RETRY of a segment already sent. -/
def State.streamRetry (s : State) (m : Cue) : State :=
  match s.sideOf (fld (m.at 2 2) 0 12) m.src with
  | some (ch, trail, r) =>
    let seg := m.at 8 4
    if seg < r.seg0 ∨ r.nextSeg ≤ seg - r.seg0 then s else s.resendSegment ch trail r (seg - r.seg0)
  | none => s

/-- R395: the stall of one sending side. -/
def State.sideStall (s : State) (ch : Nat) (trail : Bool) : State :=
  match (s.chan ch).side trail with
  | none => s
  | some r =>
    if r.granted = 0 then
      if r.reservedAt.any fun t => decide (t + 4096 * s.dma.streamStall ≤ s.now) then
        s.failSide ch trail r St.slotLost 0xFFFFFFFF 0
      else s
    else if s.dma.streamStall ≤ r.stall ∧ r.released < r.nextSeg then
      ((s.count (Cnt.dma 5)).eventC Det.trailStall (.chan ch) (r.seg0 + r.released)).resendSegment ch trail
        { r with stall := 0 } r.released
    else s

/-- R391.3, R395: a downbeat of channel `ch`: RESERVE again, and one more measure without an advance. -/
def State.chanDownbeat (s : State) (ch : Nat) : State :=
  let up := fun (r : RemoteTx) => if r.released < r.nextSeg then { r with stall := r.stall + 1 } else { r with stall := 0 }
  (s.modChan ch fun c => { c with remote := c.remote.map up, trail := c.trail.map up }).sendReserve ch

/-- R324, R395: the member to which a transfer sends is lost. -/
def State.chanLost (s : State) (x ch : Nat) : State :=
  let s := match (s.chan ch).trail with
    | some r => if r.member = x then s.failSide ch true r St.memberLost x r.released else s
    | none => s
  match (s.chan ch).remote with
  | some r => if r.member = x then s.failXfer ch St.memberLost x else s
  | none => s

/-! ### Completion (R382, R386) -/

/-- R382: a COMPLETING transfer whose writes have all been answered. -/
def State.answered (s : State) (ch : Nat) : State :=
  let c := s.chan ch
  if c.state = .completing ∧ c.done.isNone ∧ c.hostWait.isNone ∧ (c.remote.isNone || (c.remote.any fun r => r.total ≤ r.released)) then
    s.endXfer ch c.goodDone
  else s

/-- The command in whose name a SOFTWARE transfer writes its record (R386). -/
def softCommand (d : DmaSet) : Inflight :=
  { tok := 0, idx := 0, cmd := BitVec.ofNat 512 ((0x30 + d.op) + d.tag * 2 ^ 8 + d.ring * 2 ^ 48), since := 0 }

/-- R222, R386: the record of a SOFTWARE transfer; one that cannot be written is dropped. -/
def State.softRecord (s : State) (ch : Nat) (d : Done) : State :=
  let a := (s.chan ch).active
  let g := s.ring a.ring
  let i := g.tail.toNat % g.size
  let phase := g.tail.toNat / g.size % 2 == 0
  match s.store (g.base.toNat + 32 * i) (recordBytes 0xFF (softCommand a) d s.stamp phase) with
  | (s, .ok) => s.recordAccepted a.ring false
  | (s, .strict page) => s.memFault (.chan ch) Det.crToStrict page
  | (s, .ue page) => s.memFault (.chan ch) Det.rmwUe page
  | (s, .unbacked a) => s.unbackedEvent a

/-- R374, R384–R386: a SOFTWARE transfer leaves COMPLETING: its record, its signal, then its channel is HALTED or IDLE, an armed shadow
set is promoted, and the channels that wait on it see it. -/
def State.softEnd (s : State) (ch : Nat) (d : Done) : State :=
  let a := (s.chan ch).active
  let s := s.softRecord ch d
  let s := if St.success d.status && a.sigInc != 0 then s.addTally a.sigTally a.sigInc else s
  let halts := d.status == St.dataUe || d.status == St.narrowWrite
  let s := s.modChan ch fun c => { c with
    state := if halts then .halted else .idle, lastStatus := d.status, done := none, remote := none }
  let s := if !halts ∧ (s.chan ch).shadowArmed then s.promote ch else s
  s.seeDone ch d.status

/-- R382, R217: a transfer leaves COMPLETING. A command's record and signal follow with its completion, which frees the channel. -/
def State.completeXfer (s : State) (ch : Nat) : State :=
  let s := s.answered ch
  let c := s.chan ch
  match c.state, c.done with
  | .completing, some d =>
    match c.cmd with
    | some (q, tok) => s.finish q tok d
    | none => if (s.ring c.active.ring).full then s else s.softEnd ch d
  | _, _ => s

end Sys2Proof.Machine
end

