-- ==== Sys2Proof/Machine/DmaLand.lean ====
section
/-!
DEFINITION. Remote landing (R387, R390–R394, R555): landing windows, streams as their receiver sees them, and the landing buffer.
-/
namespace Sys2Proof.Machine

/-! ### Landing windows (R387, R555) -/

/-- The range lies in the usable area of one tier (R127, R128). -/
def State.oneTier (s : State) (a n : Nat) : Bool := s.backed a n && (decide (a + n ≤ 0x6000000000) || decide (0x10000000000 ≤ a))

/-- No page of the range lies in a STRICT region; region bounds are multiples of 64 MiB. -/
def State.noStrict (s : State) (a n : Nat) : Bool :=
  (a :: ((List.range (n / mib64 + 1)).map fun i => (a / mib64 + i + 1) * mib64)).all fun m => decide (a + n ≤ m) || !s.isStrict m

/-- R387: the window may be enabled. -/
def State.mayLand (s : State) (w : LandWin) : Bool :=
  let b := w.base.toNat
  let n := w.limit.toNat - b
  decide (b % 2048 = 0) && decide (w.limit.toNat % 2048 = 0) && decide (73728 ≤ n) && decide (n ≤ 65536 * 73728) && s.oneTier b n
    && s.noStrict b n

/-- R555: a write to DMA_LAND_CTRL. -/
def State.writeLandCtrl (s : State) (w v : Nat) : State :=
  let x := s.landWin w
  let on := bitAt v 0
  if x.enable && on then s
  else
    let y := { x with
      enable := on, window := fld v 1 6, tally := fld v 7 12, inc := fld v 19 3, source := fld v 22 10, anySource := bitAt v 32 }
    if on && !s.mayLand y then { s with dma.landCfgRefused := true }
    else s.setLandWin w y

/-- WINDOW: the encoding 0 stands for 64. -/
def LandWin.segs (w : LandWin) : Nat := if w.window = 0 then 64 else w.window

/-! ### Streams (R391, R392) -/

def StreamRx.is (x : StreamRx) (source optag : Nat) : Bool := x.source == source && x.optag == optag
def State.stream (s : State) (source optag : Nat) : Option StreamRx := s.dma.streams.find? (·.is source optag)
def State.putStream (s : State) (x : StreamRx) : State :=
  { s with dma.streams := s.dma.streams.map fun y => if y.is x.source x.optag then x else y }
def StreamRx.seg (x : StreamRx) (k : Nat) : SegIn := Tab.get {} x.segs k
def StreamRx.setSeg (x : StreamRx) (k : Nat) (v : SegIn) : StreamRx := { x with segs := Tab.put x.segs k v }

/-- A message of the stream to its sender. -/
def State.tellSource (s : State) (source typ optag v cause : Nat) : State × Bool :=
  s.sendCue typ source (streamBody optag s.self v cause)

/-- R391.4, R514: a waiting RELEASE of the same stream is replaced. -/
def replaceStreamRelease (dest : Nat) (body : List Byte) : List (Bool × Cue) → Option (List (Bool × Cue))
  | [] => none
  | x :: xs =>
    if x.2.typ == 0x12 && !x.1 && !x.2.neighbour && x.2.dest == dest && x.2.body.take 8 == body.take 8 then
      some ((x.1, { x.2 with body := body }) :: xs)
    else (replaceStreamRelease dest body xs).map (x :: ·)

/-- R391.4: RELEASE with the released count. -/
def State.releaseStream (s : State) (x : StreamRx) : State :=
  let body := streamBody x.optag s.self x.landed.length 0
  match s.keyOf (s.onward x.source) with
  | none => s
  | some key =>
    let q := s.cueQueue key
    match replaceStreamRelease x.source body q.items with
    | some items => s.setCueQueue key { q with items := items }
    | none => (s.originate key { typ := 0x12, dest := x.source, body := body }).1

/-- The landing buffer without the pages of a stream, or of one of its segments. -/
def State.dropLanding (s : State) (source optag : Nat) (seg : Option Nat) : State :=
  { s with dma.landing := s.dma.landing.filter fun x =>
      !(x.2.source == source && x.2.optag == optag && (seg.map fun k => x.2.seg == k).getD true) }

/-- R391.2, R392: RESERVE: a window is granted and the key's stream starts anew, or W′ is 0. -/
def State.streamReserve (s : State) (m : Cue) : State :=
  let optag := fld (m.at 2 2) 0 12
  let w := s.landWin (optag / 64)
  let known := (s.stream m.src optag).isSome
  if w.enable && (w.anySource || w.source == m.src) && (known || decide (s.dma.streams.length < 256)) then
    let x : StreamRx := { source := m.src, optag := optag, total := m.at 8 4, window := optag / 64 }
    let s := s.dropLanding m.src optag none
    let s := if known then s.putStream x else { s with dma.streams := s.dma.streams ++ [x] }
    (s.tellSource m.src 0x11 optag w.segs 0).1
  else ((s.count (Cnt.dma 1)).eventC Det.landRefused .engine (m.src + optag * 2 ^ 16)).tellSource m.src 0x11 optag 0 0 |>.1

/-! ### The landing buffer (R393) -/

/-- Bytes put into a page. -/
def LandPage.add (p : LandPage) (at_ : Nat) (bs : List Byte) : LandPage :=
  { p with bytes := (numbered at_ bs).foldl (fun t x => Tab.put t x.1 x.2) p.bytes }

/-- The device address of byte `o` of segment `k` in a window. -/
def LandWin.addr (w : LandWin) (k o : Nat) : Nat := w.base.toNat + k * 73728 + o

/-- The pages that a slot at address `a` touches, with its bytes for each. -/
def pagesOf (a : Nat) (bs : List Byte) : List (Nat × Nat × List Byte) :=
  (extent a bs.length).map fun x => (x.1 / 2048 * 2048, x.1 % 2048, (bs.drop (x.1 - a)).take x.2)

/-- The buffer has room for the pages. -/
def State.landRoom (s : State) (pgs : List Nat) : Bool :=
  decide (s.dma.landing.length + (pgs.filter fun p => (Tab.find s.dma.landing p).isNone).length ≤ 128)

/-- Bytes that page `pg` of segment `k` will hold: fewer than 2,048 where a short final segment ends in it. -/
def State.pageNeed (s : State) (x : StreamRx) (k pg : Nat) : Nat :=
  match Tab.find x.ends k with
  | some n => min 2048 ((s.landWin x.window).addr k n - pg)
  | none => 2048

/-- A page whose bytes have all arrived is written; a page that cannot be written leaves its segment unaccepted. -/
def State.landPage (s : State) (x : StreamRx) (pg : Nat) : State :=
  match Tab.find s.dma.landing pg with
  | none => s
  | some p =>
    let need := s.pageNeed x p.seg pg
    if p.bytes.length < need then s
    else
      let s := { s with dma.landing := Tab.del s.dma.landing pg }
      let bad := fun (st : State) => match st.stream x.source x.optag with
        | some y => st.putStream (y.setSeg p.seg { y.seg p.seg with gaveUp := true })
        | none => st
      match s.store pg (p.bytes.map (·.2)) with
      | (s, .ok) => s
      | (s, .strict _) => bad s
      | (s, .ue page) => bad (s.eventU Det.rmwUe .engine none page []).1
      | (s, .unbacked a) => bad (s.unbackedEvent a)

/-- R392–R394: a slot of a stream that has a place in the landing buffer. -/
def State.placeSlot (s : State) (p : Nat) (x : StreamRx) (sl : Slot) (a : Nat) : State :=
  let k := sl.segment
  let old := x.seg k
  let base : SegIn := if old.passed ∨ old.gaveUp then {} else old
  let x := { x.setSeg k (base.take sl 0 s.now) with
    firstAt := if (Tab.find x.firstAt k).isSome then x.firstAt else Tab.put x.firstAt k s.now
    ends := if sl.last then Tab.put x.ends k (576 * sl.slotInSeg + sl.payload.length) else x.ends }
  let s := s.putStream x
  let s := forEach (pagesOf a sl.payload)
    (fun y st =>
      let pg := (Tab.find st.dma.landing y.1).getD { source := x.source, optag := x.optag, seg := k, port := p }
      { st with dma.landing := Tab.put st.dma.landing y.1 ({ pg with port := p }.add y.2.1 y.2.2) }) s
  let pages := (s.dma.landing.filter fun y => y.2.source == x.source && y.2.optag == x.optag && y.2.seg == k).map (·.1)
  forEach pages (fun pg st => st.landPage x pg) s

/-- The ingress buffer of port `p` without slot number `i`. -/
def State.dropIngress (s : State) (p i : Nat) : State :=
  s.modPort p fun x => { x with ingress := x.ingress.take i ++ x.ingress.drop (i + 1) }

/-- R392, R393: a STREAM slot for SELF, the `i`-th of port `p`'s ingress buffer, is landed, answered or dropped, or waits for room. -/
def State.landSlot (s : State) (p i : Nat) (sl : Slot) : State :=
  match s.stream sl.source sl.optag with
  | none => ((s.dropIngress p i).count (Cnt.dma 2)).eventC Det.streamStray .engine (sl.source + sl.optag * 2 ^ 16)
  | some x =>
    if x.completeAt.isSome then
      let s := s.dropIngress p i
      if sl.last then s.releaseStream x else s
    else
      let w := s.landWin x.window
      let a := w.addr sl.segment (576 * sl.slotInSeg)
      if w.limit.toNat < a + sl.payload.length then
        ((s.dropIngress p i).count (Cnt.dma 3)).eventC Det.landOutside .engine (sl.source + sl.optag * 2 ^ 16)
      else if !s.landRoom ((pagesOf a sl.payload).map (·.1)) then s
      else (s.dropIngress p i).placeSlot p x sl a

/-! ### Segments (R391.4, R394) -/

/-- R394: one SEGMENT_RETRY for the segment; its copy is discarded. -/
def State.retryLanding (s : State) (x : StreamRx) (k cause : Nat) : State :=
  if x.asked.contains k then (s.putStream (x.setSeg k {})).dropLanding x.source x.optag (some k)
  else
    match s.tellSource x.source 0x13 x.optag k cause with
    | (s, true) => (s.putStream { x.setSeg k {} with asked := k :: x.asked }).dropLanding x.source x.optag (some k)
    | (s, false) => s

/-- R391.4, R392: a segment has landed: RELEASE, and at the last one the stream is complete and signals LAND_TALLY. -/
def State.landed (s : State) (x : StreamRx) (k : Nat) : State :=
  let x := { x.setSeg k { x.seg k with passed := true } with landed := insertAsc k x.landed }
  let full := decide (x.total ≤ x.landed.length)
  let s := (s.putStream { x with completeAt := if full then some s.now else none }).releaseStream x
  let w := s.landWin x.window
  if full && w.inc != 0 then s.addTally w.tally w.inc else s

/-- R305.1: segment `k` of a stream has lost a slot. -/
def State.streamLost (s : State) (x : StreamRx) (k : Nat) : Bool :=
  match (x.seg k).lastAt with
  | some t => decide (t + 8 ≤ s.now)
  | none => (Tab.find x.firstAt k).isSome && x.firstAt.any fun y => decide (k < y.1) && decide (y.2 + 8 ≤ s.now)

/-- R391.4, R394: the check of segment `k`. -/
def State.checkLanding (s : State) (x : StreamRx) (k : Nat) : State :=
  let g := x.seg k
  if g.passed then s
  else
    match g.checked with
    | .incomplete => if s.streamLost x k then s.retryLanding x k 3 else s
    | .poisoned => s.retryLanding x k 4
    | .fail cause => s.retryLanding x k cause.code
    | .pass =>
      if g.gaveUp || s.dma.landing.any (fun y => y.2.source == x.source && y.2.optag == x.optag && y.2.seg == k) then s
      else s.landed x k

end Sys2Proof.Machine
end

