-- ==== Sys2Proof/Machine/Collectives.lean ====
section
/-!
DEFINITION. The collective instructions at issue (chapters 9 and 10), and the events of the collective engines: window messages,
combining, retries, exponents, and what is kept and discarded after completion.
-/
namespace Sys2Proof.Machine

/-! ### Issue -/

/-- R278, R295: the CE has the staging and the descant unit the contexts that the command needs. -/
def State.collRoom (s : State) (ce : Nat) (c : BitVec 512) : Bool :=
  let a := s.algOf c (Cc.fixedSize c)
  let need := match (s.legs c a).bind fun l => s.windowOf c l.1 with
    | some (_, n) => if a = .descant then 0 else n
    | none => 0
  decide (s.stagingUsed ce + need ≤ 113) && s.ctxRoom 5

/-- R210: the CE of queue `q` could start the command. -/
def State.collReady (s : State) (q : Nat) (c : BitVec 512) : Bool :=
  if opcodeOf c ≤ 0x45 then s.unitTakes (40 + q / 32) && s.collRoom (q / 32) c else s.unitTakes (40 + q / 32)

/-- Table MEM-6: the first page of a result that a STRICT region would take in part. -/
def State.collStrict (s : State) (c : BitVec 512) : Option Nat :=
  if Cc.dstHost c then none else s.strictPart (Cc.dst c) (s.collWrites c)

/-- R145: a narrow write refused. -/
def State.narrowRefused (s : State) (a : Nat) : State :=
  match s.locate a with
  | some (k, _) => (s.count (Cnt.memErr k Cnt.narrowWrite)).eventC Det.narrowWrite (ctrlUnit k) (a / 2048)
  | none => s

/-- R324: a lost member of the part. -/
def State.lostIn (s : State) (part : Nat) : Option Nat := s.ce.lost.find? fun x => s.inPart part x

/-- The collective that the command becomes. A COUNTED BCAST under AUTO has no algorithm yet (R290). -/
def State.newColl (s : State) (q : Nat) (c : BitVec 512) : Coll :=
  let a := if opcodeOf c = 0x40 ∧ Cc.counted c ∧ Cc.alg c = 0 then none else some (s.algOf c (Cc.fixedSize c))
  let base : Coll :=
    { queue := q, tok := s.issued, cmd := c, opcode := opcodeOf c, part := Cc.part c, optag := Cc.optag c, root := s.collRoot c
      dtree := s.collTree c, alg := a, size := Cc.count c, stamp := s.stamp.toNat % 2 ^ 54 }
  match a with
  | none | some .descant => base
  | some a =>
    match s.legs c a with
    | none => base
    | some (ins, outs) =>
      let w := (s.windowOf c ins).getD (0, 0)
      { base with inputs := ins, outputs := outs, window := w.1, staging := w.2 }

/-- R301: SRC_HOST: the contribution is read from the host before it is used. -/
def State.startSource (s : State) (c : Coll) : State :=
  if s.srcReady c then
    match s.collOf c.queue c.tok with
    | some c => s.proceed c
    | none => s
  else if s.hostOpen then s.readHost (Cc.src c.cmd) (s.collReads c.cmd) none (some (c.queue, c.tok)) false
  else s.stopColl c { status := St.dataUe, detail := hostDetail (Cc.src c.cmd) }

/-- The command issues: its windows open, its lateness operation leaves (R317), and it begins. -/
def State.startColl (s : State) (q : Nat) (idx : Word) (cmd : BitVec 512) : State :=
  let c := s.newColl q cmd
  let s := s.issue q idx cmd none
  let s : State := { s with
    ce.colls := (s.ce.colls.filter fun (x : Coll) => !(x.part == c.part && x.optag == c.optag)) ++ [c]
    ce.muted := s.ce.muted.filter fun y => y != (c.part, c.optag) }
  let s := if c.alg = some .tree ∨ c.alg = some .canon then s.openWindows c else s
  let s := if c.opcode ≤ 0x42 ∧ c.alg ≠ some .descant then
      match s.collOf c.queue c.tok with
      | some c => s.injectLateness c
      | none => s
    else s
  s.startSource c

/-- R210, R324, Table MEM-6: the command at the head of queue `q` on its CE. -/
def State.issueColl (q : Nat) (s : State) (idx : Word) (c : BitVec 512) : State :=
  match s.lostIn (Cc.part c) with
  | some x => s.completeHead q idx c { status := St.memberLost, detail := x }
  | none =>
    match s.collStrict c with
    | some a => (s.completeHead q idx c { status := St.narrowWrite, detail := a / 2048 }).narrowRefused a
    | none => if s.collReady q c && s.winsUnit (40 + q / 32) q c s.collReady then s.startColl q idx c else s

/-- One collective instruction. -/
def State.runColl (s : State) (q op : Nat) : State := s.runHead q op (State.collCheck (q / 32)) (State.issueColl q)

/-- R285, R287: BCAST. -/
def execBcast (q : Nat) (s : State) : Out := within (Instr.bcast q).wf <| s.runColl q 0x40
/-- R284, R287: REDUCE. -/
def execReduce (q : Nat) (s : State) : Out := within (Instr.reduce q).wf <| s.runColl q 0x41
/-- R291, R292: HARVEST. -/
def execHarvest (q : Nat) (s : State) : Out := within (Instr.harvest q).wf <| s.runColl q 0x42
/-- R297: DBCAST. -/
def execDbcast (q : Nat) (s : State) : Out := within (Instr.dbcast q).wf <| s.runColl q 0x43
/-- R296: DREDUCE. -/
def execDreduce (q : Nat) (s : State) : Out := within (Instr.dreduce q).wf <| s.runColl q 0x44
/-- R258: COUNTS. -/
def execCounts (q : Nat) (s : State) : Out := within (Instr.counts q).wf <| s.runColl q 0x45

/-! ### Window messages (R279–R282) -/

/-- Whom a window message concerns at this member. -/
inductive WindowFor where
  | drop                                     -- muted, or of a collective not issued here
  | relay (p : Nat)
  | early
  | coll (c : Coll) (g : Nat)

/-- R279, R281, R324: a window message that arrived on port `p`. -/
def State.windowFor (s : State) (p : Nat) (m : Cue) : WindowFor :=
  let part := m.at 0 1
  let optag := fld (m.at 2 2) 0 12
  match s.gangOf p with
  | none => .drop
  | some g =>
    if s.ce.muted.contains (part, optag) then .drop
    else match s.coll part optag with
      | some c => .coll c g
      | none => if s.inPart part s.self then .early else .relay p

/-- The message names this gang, route and half. -/
def sameLeg (m : Cue) (g gang route : Nat) (down : Bool) : Bool :=
  gang == g && route == m.at 4 2 && down == bitAt (m.at 1 1) 0

/-- The output that a message from a receiver names. -/
def Coll.outputOf (c : Coll) (g : Nat) (m : Cue) : Option (Nat × COutput) :=
  (numbered 0 c.outputs).find? fun x => sameLeg m g x.2.gang x.2.route x.2.down

/-- R280.2: a RESERVE is the sender's announcement; that of a down half goes on to the members below. -/
def State.reserveIn (s : State) (c : Coll) (g : Nat) (m : Cue) : State :=
  match (numbered 0 c.inputs).find? fun x => sameLeg m g x.2.gang x.2.route x.2.down with
  | none => s
  | some (n, i) =>
    let s := s.putColl { c with inputs := modAt (fun i => { i with heard := true }) n c.inputs }
    if i.down then forEach (c.below i) (fun o st => (st.sendWindow c 0x10 o.gang o.route true (m.at 8 4)).1) s else s

/-- A window message of a collective, from a neighbour; or one of a remote transfer's stream, which has its own destination
(R279, R391). -/
def State.windowMsg (s : State) (p : Nat) (m : Cue) (ofColl : State → State) (ofStream : State → State) : State :=
  if m.neighbour then ofColl s else if m.dest = s.self then ofStream s else s.relayCue p m

/-- R280, R391.1: a RESERVE has come. -/
def State.onReserve (s : State) (p : Nat) (m : Cue) : State :=
  s.windowMsg p m (fun s => match s.windowFor p m with
    | .coll x g => s.reserveIn x g m
    | .relay p => s.relayWindow p (bitAt (m.at 1 1) 0) m
    | .drop | .early => s) (·.streamReserve m)

/-- R280: WINDOW_RESERVE. -/
def execWindowReserve (p : Nat) (c : Cue) (s : State) : Out :=
  within (Instr.windowReserve p c).wf <| if s.live then s.onReserve p c else s

/-- R280.2, R282: a CONFIRM sets the window of an output. The sender answers it with RESERVE; a receiver of a down half confirms
in its turn once every member below has. -/
def State.confirmIn (s : State) (c : Coll) (n : Nat) (o : COutput) (w : Nat) : State :=
  if w = 0 ∨ 64 < w then s.windowProto c.part c.optag
  else
    let c := { c with outputs := modAt (fun o => { o with granted := some w }) n c.outputs }
    let s := s.putColl c
    if s.sends c o then (s.sendWindow c 0x10 o.gang o.route o.down (s.outTotal c o)).1 else s.confirmInputs c

/-- R281: a CONFIRM of a collective not yet issued here is kept. -/
def State.keepEarly (s : State) (p : Nat) (m : Cue) : State :=
  let e : EarlyConfirm :=
    { part := m.at 0 1, optag := fld (m.at 2 2) 0 12, route := m.at 4 2, down := bitAt (m.at 1 1) 0, gang := (s.gangOf p).getD 0
      window := m.at 8 4 }
  let same := fun (x : EarlyConfirm) =>
    x.part == e.part && x.optag == e.optag && x.route == e.route && x.down == e.down && x.gang == e.gang
  let rest := s.ce.early.filter fun x => !same x
  if rest.length < 512 then { s with ce.early := rest ++ [e] }
  else { s with ce.early := rest.drop 1 ++ [e] }.ceEvent ((rest.headD e).part) 5 Det.windowEarlyDrop e.optag

/-- R280, R281, R391.2: a CONFIRM has come. -/
def State.onConfirm (s : State) (p : Nat) (m : Cue) : State :=
  s.windowMsg p m (fun s => match s.windowFor p m with
    | .drop => s
    | .early => if m.at 8 4 = 0 ∨ 64 < m.at 8 4 then s.windowProto (m.at 0 1) (fld (m.at 2 2) 0 12) else s.keepEarly p m
    | .relay p => s.relayWindow p (!bitAt (m.at 1 1) 0) m
    | .coll x g =>
      match x.outputOf g m with
      | some (n, o) => s.confirmIn x n o (m.at 8 4)
      | none => s) (·.streamConfirm m)

/-- R280, R281: WINDOW_CONFIRM. -/
def execWindowConfirm (p : Nat) (c : Cue) (s : State) : Out :=
  within (Instr.windowConfirm p c).wf <| if s.live then s.onConfirm p c else s

/-- R280.4, R280.5: a RELEASE: a count below an earlier one, or beyond what was sent, is dropped. -/
def State.releaseIn (s : State) (c : Coll) (n : Nat) (o : COutput) (v : Nat) : State :=
  if v < o.released ∨ (if s.sends c o then o.seg else s.outTotal c o) < v then s.windowProto c.part c.optag
  else (s.putColl { c with outputs := modAt (fun o => { o with released := v }) n c.outputs }).settle c.queue c.tok

/-- A RELEASE or SEGMENT_RETRY for an output of a collective: relayed, or `f` of the output that it names. -/
def State.outputMsg (s : State) (p : Nat) (m : Cue) (f : State → Coll → Nat → COutput → State) : State :=
  match s.windowFor p m with
  | .drop | .early => s
  | .relay p => s.relayWindow p (!bitAt (m.at 1 1) 0) m
  | .coll x g =>
    match x.outputOf g m with
    | some (n, o) => f s x n o
    | none => s

/-- R280, R391.4: a RELEASE has come. -/
def State.onRelease (s : State) (p : Nat) (m : Cue) : State :=
  s.windowMsg p m (fun s => s.outputMsg p m fun s x n o => s.releaseIn x n o (m.at 8 4)) (·.streamRelease m)

/-- R280: WINDOW_RELEASE. -/
def execWindowRelease (p : Nat) (c : Cue) (s : State) : Out :=
  within (Instr.windowRelease p c).wf <| if s.live then s.onRelease p c else s

/-- R310–R312, R394: a SEGMENT_RETRY has come. -/
def State.onRetry (s : State) (p : Nat) (m : Cue) : State :=
  s.windowMsg p m (fun s => s.outputMsg p m fun s x n o => s.retryFor x n o (m.at 8 4) (m.at 12 1)) (·.streamRetry m)

/-- R310–R312: SEGMENT_RETRY. -/
def execSegmentRetry (p : Nat) (c : Cue) (s : State) : Out :=
  within (Instr.segmentRetry p c).wf <| if s.live then s.onRetry p c else s

/-! ### Segments -/

/-- R284: COMBINE. -/
def execCombine (part optag seg : Nat) (adderFault : Bool) (s : State) : Out :=
  within (Instr.combine part optag seg adderFault).wf <|
    match s.coll part optag with
    | some c => if s.mayCombine c seg then s.combineStep c seg adderFault else s
    | none => s

/-- R305.1: segment `k` of an input is incomplete: 8 beats after its LAST slot, or 8 beats after a slot of a later segment while its
LAST slot is missing. -/
def State.isIncomplete (s : State) (i : CInput) (k : Nat) : Bool :=
  let x := i.seg k
  match x.lastAt with
  | some t => decide (t + 8 ≤ s.now) && x.checked == .incomplete
  | none => i.firstAt.any fun y => decide (k < y.1) && decide (y.2 + 8 ≤ s.now)

/-- The lowest segment of an input that is not complete. -/
def State.lowestOpen (s : State) (c : Coll) (i : CInput) : Option Nat :=
  (c.segsOn (s.streamsOf c) i.stream).find? fun k => !(i.seg k).passed && !(i.seg k).gaveUp

/-- R313: a port of the input's gang is out of step or down. -/
def State.gangBroken (s : State) (g : Nat) : Bool := (s.gangPorts g).any fun p => (s.port p).state != .inSchedule

/-- R305, R313: SEGMENT_INCOMPLETE. -/
def execSegmentIncomplete (part optag input seg : Nat) (s : State) : Out :=
  within (Instr.segmentIncomplete part optag input seg).wf <|
    match s.coll part optag with
    | none => s
    | some c =>
      match c.input input with
      | none => s
      | some i =>
        let x := i.seg seg
        if c.keep.isSome || !c.sized || x.passed || x.gaveUp || x.asked.isSome then s
        else if s.isIncomplete i seg || (s.gangBroken i.gang && s.lowestOpen c i == some seg) then
          s.inputFailure c input i seg .slotLost
        else s

/-- R311: RETRY_GIVE_UP: no resent slot by the second downbeat after the request. -/
def execRetryGiveUp (part optag input seg : Nat) (s : State) : Out :=
  within (Instr.retryGiveUp part optag input seg).wf <|
    match s.coll part optag with
    | none => s
    | some c =>
      match c.input input with
      | none => s
      | some i =>
        match (i.seg seg).asked with
        | some (cause, n) => if 2 ≤ n ∧ !(i.seg seg).resent then s.giveUp c i.down seg cause.status else s
        | none => s

/-- R288: the PITCH operation of the next group. -/
def State.pitchNext (s : State) (c : Coll) : State :=
  let j := c.pitchSent
  let ks := (List.range c.groupSize).filterMap fun i => let k := j * c.groupSize + i; if k < c.segCount then some k else none
  if c.keep.isSome || !c.sized || !s.srcReady c || c.groups ≤ j || (s.ctx c.dtree Dop.pitch (dseqOf c.optag j)).any (·.own.isSome) then s
  else
    match s.pitchData c ks [] with
    | (s, .inr l) => s.ownFailed c l
    | (s, .inl bs) =>
      let c := { c with pitchSent := j + 1 }
      match (s.putColl c).contribute (c.ctxFor Dop.pitch j 7 (fillLanes bs) true 0) with
      | (s, none) => s
      | (s, some g) => s.given g

/-- R288, R289: PITCH_INJECT. -/
def execPitchInject (part optag : Nat) (s : State) : Out :=
  within (Instr.pitchInject part optag).wf <|
    match s.coll part optag with
    | some c => if c.alg = some .descant then s else s.pitchNext c
    | none => s

/-- R260: ROOT_STAGING_RELEASE: every receiver's released count covers the down half, or a phrase has passed. -/
def execRootStagingRelease (part optag : Nat) (s : State) : Out :=
  within (Instr.rootStagingRelease part optag).wf <|
    match s.coll part optag with
    | some c =>
      match c.keep with
      | some t =>
        if t + 262144 ≤ s.now ∨ c.outputs.all fun o => !o.down || decide (s.outTotal c o ≤ o.released) then s.removeColl c else s
      | none => s
    | none => s

/-- R317: LATE_DISCARD: a lateness context still open one phrase after its command's completion. -/
def execLateDiscard (dtree optag : Nat) (s : State) : Out :=
  within (Instr.lateDiscard dtree optag).wf <|
    match s.ctx dtree Dop.max (dseqOf optag 15) with
    | some x =>
      match x.since with
      | some t =>
        if t + 262144 ≤ s.now then
          let part := ((s.dtree dtree).map (·.part)).getD 0
          ({ s.dropCtx dtree Dop.max (dseqOf optag 15) with ce.discarded := (dtree, dseqOf optag 15) :: s.ce.discarded }).ceEvent
            part 4 Det.lateDiscard optag
        else s
      | none => s
    | none => s

end Sys2Proof.Machine
end

