-- ==== Sys2Proof/Machine/SyncOps.lean ====
section
/-!
DEFINITION. Shared operations of the sync unit (chapter 15): arrivals (R407–R410), remote signals (R400–R404), configuration
(R406, R556–R559), the rebar (R415–R417), the watchdog (R423) and the deadlock detector (R426, R427).
-/
namespace Sys2Proof.Machine

/-- Table QUE-4: the sync unit takes another command from its own queues. -/
def State.syncTakes (s : State) (q : Nat) : Bool :=
  classOfQueue q != .sync
    || decide (((List.range 16).foldl (fun a i => a + ((s.queue (192 + i)).inflight.filter fun x =>
        decide (0x20 ≤ opcodeOf x.cmd) && decide (opcodeOf x.cmd ≤ 0x25)).length) 0) < 64)

/-! ### Barriers -/

/-- R408: SELF's part of a generation. -/
def Barrier.ctx (x : Barrier) (b arrivals : Nat) : DCtx :=
  { dtree := x.dtree, dop := Dop.barrier, dseq := b + 64 * (x.gen.toNat % 1024), dfmt := 8, owner := .barrier b
    own := some (leBytes arrivals 8 ++ leBytes x.gen.toNat 8), down := true }

/-- R407, R408, R410: one arrival of queue `q` at an ARMED context. -/
def State.arriveAt (s : State) (b q : Nat) : State :=
  let x := s.barrier b
  let n := x.arrivals + 1
  let s := (s.dlTouch (2 ^ 31 + b)).setBarrier b { x with arrivals := n, arrived := insertAsc q x.arrived }
  if n < x.expect then s
  else if !x.chorus then s.releaseBarrier b
  else
    match s.contribute (x.ctx b n) with
    | (s, none) => s
    | (s, some g) => s.given g

/-- R248: queue `q` may arrive: it has not arrived for this release, and a CHORUS context still counts arrivals. -/
def State.mayArrive (s : State) (b q : Nat) : Bool :=
  let x := s.barrier b
  !x.arrived.contains q && decide (x.arrivals < x.expect) && (!x.chorus || s.ctxRoom 1)

/-! ### Remote signals -/

/-- Table SYN-2. -/
def State.remoteBody (s : State) (t inc : Nat) : List Byte := bodyOf [(0, 2, t), (4, 4, inc), (8, 1, s.epoch)]

/-- R398, R401: the addition that a remote signal makes, or its drop. -/
def State.applyRemote (s : State) (t inc : Nat) (needRemote : Bool) : State :=
  let x := s.tally t
  if needRemote && !x.remote then (s.count (Cnt.syn 1)).eventC Det.remoteRefused .sync t
  else if x.abandoned then (s.count (Cnt.syn 2)).eventC Det.remoteAbandoned .sync t
  else s.addTally t inc

/-- R402: the numbers skipped before message `seq` of `src`. -/
def State.noteRemoteSeq (s : State) (src seq : Nat) : State :=
  let want := Tab.get 0 s.sync.rxSeq src
  let gap := (seq + 65536 - want) % 65536
  let s := { s with sync.rxSeq := Tab.put s.sync.rxSeq src ((seq + 1) % 65536) }
  if 0 < gap ∧ gap < 32768 then (s.countN (Cnt.syn 3) gap).eventC Det.remoteGap .sync (src + gap * 2 ^ 16) else s

/-- R247: the message of a REMOTE_SIGNAL has its slot: the command completes. -/
def State.remotePlaced (s : State) (m : Cue) : State :=
  forEach s.queueIds (fun q st =>
    match (st.queue q).inflight.find? fun x =>
        opcodeOf x.cmd == 0x22 && x.done.isNone && x.msg == some m.seq && cf x.cmd 16 2 == m.dest with
    | some x => st.finish q x.tok { status := St.ok }
    | none => st) s

/-! ### Configuration -/

/-- Table SYN-1: an owner, or none where the code or the index is out of range. -/
def ownerOf (kind idx : Nat) : Option Owner :=
  match kind with
  | 0 => if idx = 0 then some .none else none
  | 1 => if idx < 256 then some (.queue idx) else none
  | 2 => if idx = 0 then some .host else none
  | 3 => if idx < 8 then some (.cluster idx) else none
  | _ => none

/-- SYN_STATUS.CFG_REFUSED. -/
def State.syncRefused (s : State) (detail : Nat) : State :=
  { s with sync.cfgRefused := true }.eventC Det.synCfgRefused .sync detail

/-- R421, R557: a write to SYN_TALLY_CFG. -/
def State.writeTallyCfg (s : State) (t v : Nat) : State :=
  let x := s.tally t
  if x.abandoned && !bitAt v 31 then s
  else
    match ownerOf (fld v 1 2) (fld v 3 8) with
    | none => s.syncRefused t
    | some o => s.setTally t { x with remote := bitAt v 0, owner := o, abandoned := false }

/-- R405: a write to SYN_BAR_CFG, taken only while the context is IDLE. -/
def State.writeBarCfg (s : State) (b v : Nat) : State :=
  let x := s.barrier b
  if x.state ≠ .idle then s
  else
    match ownerOf (fld v 25 2) (fld v 27 8) with
    | none => s.syncRefused b
    | some o =>
      s.setBarrier b { x with chorus := bitAt v 0, part := fld v 1 8, dtree := fld v 9 6, expect := fld v 16 9, owner := o }

/-- R406: ARM is taken. -/
def State.mayArm (s : State) (b : Nat) : Bool :=
  let x := s.barrier b
  decide (1 ≤ x.expect) && decide (x.expect ≤ 256)
    && (!x.chorus || (s.inPart x.part s.self
        && ((s.dtree x.dtree).map fun e => e.part == x.part && e.member).getD false))

/-- R406: ARM. -/
def State.armBarrier (s : State) (b : Nat) : State :=
  let x := s.barrier b
  if x.state ≠ .idle then s
  else if s.mayArm b then s.setBarrier b { x with state := .armed, gen := 0, arrivals := 0, arrived := [], cause := 0 }
  else s.syncRefused b

/-- R406: DISARM. -/
def State.disarmBarrier (s : State) (b : Nat) : State :=
  let x := s.barrier b
  if x.state ≠ .armed then s
  else if x.arrivals = 0 then s.setBarrier b { x with state := .idle }
  else s.syncRefused b

/-- R421, R558: REARM. -/
def State.rearmBarrier (s : State) (b : Nat) : State :=
  let x := s.barrier b
  if x.state = .abandoned then s.setBarrier b { x with state := .idle, arrivals := 0, arrived := [], cause := 0 } else s

/-- R413: a write to a wire's registers fires it once where its tally already stands at its threshold. -/
def State.wakeWritten (s : State) (w : Nat) : State :=
  let x := s.wake w
  if x.kind = .tallyGe ∧ x.thresh.toNat ≤ (s.tally x.object).value.toNat then s.fireGe w else s

/-- Table SYN-4: the wire's kind. -/
def WakeKind.ofCode (n : Nat) : Option WakeKind :=
  match n with
  | 0 => some .off | 1 => some .tallyGe | 2 => some .barrier | 3 => some .ring | 4 => some .downbeat | 5 => some .software
  | _ => none

/-- The wires of one kind. -/
def State.wiresOfKind (s : State) (k : WakeKind) : List Nat := (s.sync.wakes.filter fun x => x.2.kind == k).map (·.1)

/-! ### The rebar -/

/-- R415: REBAR to the consumer of every pair of which SELF is the producer. -/
def State.sendRebars (s : State) : State :=
  forEach (s.pairs.filter fun x => x.2.prod == s.self) (fun x st =>
    let t := st.tally x.2.prodTally
    if t.abandoned || st.ce.lost.contains x.2.cons then st
    else (st.sendCue 0x21 x.2.cons (bodyOf [(0, 2, x.2.prodTally), (2, 2, x.2.consTally), (4, 1, st.epoch), (8, 8, t.value.toNat),
      (16, 5, st.phrase)])).1) s

/-- R416: the pair that a REBAR names. -/
def State.rebarPair (s : State) (m : Cue) : Option (Nat × Img.Pair) :=
  s.pairs.find? fun x =>
    x.2.prod == m.src && x.2.cons == s.self && x.2.prodTally == m.at 0 2 && x.2.consTally == m.at 2 2

/-- R416: a REBAR that names a pair of the present phrase. -/
def State.applyRebar (s : State) (i : Nat) (p : Img.Pair) (snapshot : DWord) : State :=
  let s := { s with sync.rebarSeen := insertAsc i s.sync.rebarSeen }
  let x := s.tally p.consTally
  let d := snapshot - x.value
  let mag := if d.toInt < 0 then (-d.toInt).toNat else d.toInt.toNat
  if x.abandoned || d == 0 then s
  else if mag ≤ p.tol then
    ((s.putTally p.consTally snapshot).count (Cnt.syn 5)).eventC Det.drift .sync i
  else s.raise Det.rebarBreach .sync (some 49) (i + d.toNat % 2 ^ 48 * 2 ^ 16)

/-- R417: at the downbeat of measure 1, the pairs whose REBAR has not come. -/
def State.rebarMisses (s : State) : State :=
  let missing := s.pairs.filter fun x =>
    x.2.cons == s.self && !s.sync.rebarSeen.contains x.1 && !s.ce.lost.contains x.2.prod
  let s := forEach missing (fun x st => (st.count (Cnt.syn 6)).eventC Det.rebarMiss .sync x.1) s
  { s with sync.rebarSeen := [] }

/-! ### The watchdog (R423) -/

/-- The head waits for its beat: AT_BEAT or AT_DOWNBEAT with its header wait met. -/
def State.timeWaits (s : State) (q : Nat) : Bool :=
  match (s.queue q).headCmd with
  | some (_, c) => (opcodeOf c == 0x10 || opcodeOf c == 0x11) && s.headerMet c
  | none => false

/-- R423: a downbeat of one queue. -/
def State.stallCount (s : State) (q : Nat) : State :=
  let x := s.queue q
  if x.state ≠ .running then s
  else if x.progress then s.setQueue q { x with stalled := 0, progress := false }
  else if s.timeWaits q then s
  else if x.headCmd.isSome || !x.inflight.isEmpty then s.setQueue q { x with stalled := x.stalled + 1 }
  else s

/-- R423, R424: an in-flight command that may complete with TIMEOUT does so. -/
def State.timeoutCommand (s : State) (q : Nat) (x : Inflight) : State :=
  if x.done.isSome || !mayEnd (opcodeOf x.cmd) St.timeout then s
  else (s.stripCommand q x).finish q x.tok { status := St.timeout, detail := noObject }

/-- R423: the watchdog of queue `q` expires. -/
def State.watchdogExpires (s : State) (q : Nat) : State :=
  let waits := s.headWaits q
  let s := forEach (s.queue q).inflight (fun x st => st.timeoutCommand q x) s
  let s := match waits with
    | some obj => s.endHead q St.timeout obj
    | none => s
  let s := (s.count (Cnt.syn 9)).raiseOn Det.watchdog (.queue q)
  s.modQueue q fun x => { x with stalled := 0 }

/-! ### The deadlock detector (R426, R427) -/

/-- R396: a DMA trail of the queue is open. -/
def State.trailOpen (s : State) (q : Nat) : Bool :=
  s.dma.channels.any fun c => (c.2.trail.map fun r => r.owner == some q).getD false

/-- R426: the watched set is blocked. -/
def State.blocked (s : State) : Bool :=
  !s.sync.dlMask.isEmpty && s.sync.dlMask.all fun q =>
    let x := s.queue q
    x.state == .running && (s.headWaits q).isSome && x.inflight.isEmpty && !s.trailOpen q

/-- R427: `n` beats of the detector. -/
def State.dlBeats (s : State) (n : Nat) : State :=
  if s.blocked then { s with sync.dlCount := s.sync.dlCount + n }
  else { s with sync.dlCount := 0, sync.dlDisarmed := false }

/-- R427: SYN_DL_WAITOBJ of an object. -/
def waitObj (obj : Nat) : Nat := obj % 4096 + (if 2 ^ 31 ≤ obj then 2 ^ 15 else 0)

/-- R427: the detector fires. -/
def State.dlFires (s : State) : State :=
  let objs := s.sync.dlMask.filterMap fun q => (s.headWaits q).map fun o => (q, o)
  let s := { s with sync.dlReport := s.sync.dlMask, sync.dlWaitObj := objs.map fun x => (x.1, waitObj x.2)
                    sync.dlCount := 0, sync.dlDisarmed := !s.sync.dlBreak }
  let s := if s.sync.dlBreak then forEach objs (fun x st => st.endHead x.1 St.deadlock x.2) s else s
  (s.count (Cnt.syn 10)).raise Det.deadlock .sync (some 49)

end Sys2Proof.Machine
end

