-- ==== Sys2Proof/Machine/Sync.lean ====
section
/-!
DEFINITION. The sync instructions (R245–R248) and the events and register writes of the sync unit (chapter 15, R557–R559).
-/
namespace Sys2Proof.Machine

/-! ### WAIT and SIGNAL -/

/-- R245: a WAIT at its head: it ends on an ABANDONED tally (R420), issues when its condition holds, and else waits. -/
def State.waitHead (s : State) (q : Nat) (idx : Word) (c : BitVec 512) : State :=
  let t := fld (cf c 16 2) 0 12
  if (s.tally t).abandoned then s.completeHead q idx c { status := St.abandoned, detail := t }
  else if s.waitMet c then s.completeOk q idx c
  else s

/-- R245: WAIT. -/
def execWait (q : Nat) (s : State) : Out :=
  within (Instr.wait q).wf <| s.runHead q 0x20 noCheck fun s idx c => s.waitHead q idx c

/-- The command at the head of a queue has waited TIMEOUT beats. -/
def State.timeIsUp (s : State) (q : Nat) (c : BitVec 512) : Bool :=
  cf c 20 4 != 0 && (((s.queue q).head.map fun h => decide (h.since + cf c 20 4 ≤ s.now)).getD false)

/-- CMD_TIMEOUT: a wait or a launch ends through its own TIMEOUT. -/
def State.cmdTimeout (s : State) (q : Nat) : State := s.raiseOn Det.cmdTimeout (.queue q)

/-- R245: WAIT_TIMEOUT. -/
def execWaitTimeout (q : Nat) (s : State) : Out :=
  within (Instr.waitTimeout q).wf <| s.runHead q 0x20 noCheck fun s idx c =>
    if s.waitMet c || !s.timeIsUp q c then s
    else (s.completeHead q idx c { status := St.timeout, detail := fld (cf c 16 2) 0 12 }).cmdTimeout q

/-- R246: SIGNAL acts at issue. -/
def execSignal (q : Nat) (s : State) : Out :=
  within (Instr.signal q).wf <| s.runHead q 0x21 noCheck fun s idx c =>
    let t := fld (cf c 16 2) 0 12
    if !s.syncTakes q then s
    else if (s.tally t).abandoned then s.completeHead q idx c { status := St.abandoned, detail := t }
    else
      let s := if cf c 18 1 = 0 then s.addTally t (cf c 24 8) else s.putTally t (BitVec.ofNat 64 (cf c 24 8))
      s.completeOk q idx c

/-! ### REMOTE_SIGNAL -/

/-- R247: MEMBER is in the roster of a real score. -/
def remoteCheck (s : State) (c : BitVec 512) : Option (Nat × Nat) :=
  if s.inRoster (cf c 16 2) then none else some (3, 16)

/-- R247, R400, R404: the message joins its send queue, and the command is in flight until it has its slot. -/
def State.remoteSend (s : State) (q : Nat) (idx : Word) (c : BitVec 512) : State :=
  let dest := cf c 16 2
  let t := fld (cf c 18 2) 0 12
  let inc := cf c 24 4
  if !s.syncTakes q then s
  else if dest = s.self then (s.applyRemote t inc false).completeOk q idx c
  else if s.ce.lost.contains dest then
    ((s.completeOk q idx c).count (Cnt.syn 4)).eventC Det.remoteToLost .sync dest
  else
    let seq := s.nextSeq true dest
    match s.sendCue 0x20 dest (s.remoteBody t inc) with
    | (s', true) =>
      (s'.issue q idx c none).modQueue q fun x => { x with
        inflight := x.inflight.map fun y => if y.tok == s'.issued then { y with msg := some seq } else y }
    | (_, false) => s

/-- R247: REMOTE_SIGNAL. -/
def execRemoteSignal (q : Nat) (s : State) : Out :=
  within (Instr.remoteSignal q).wf <| s.runHead q 0x22 remoteCheck fun s idx c => s.remoteSend q idx c

/-- R401, R402: a REMOTE_SIGNAL that has come. -/
def State.onRemote (s : State) (c : Cue) : State :=
  if c.at 8 1 ≠ s.epoch then (s.count (Cnt.syn 0)).eventC Det.remoteEpoch .sync c.src
  else (s.noteRemoteSeq c.src c.seq).applyRemote (fld (c.at 0 2) 0 12) (c.at 4 4) true

/-- R401, R402: REMOTE_SIGNAL_MSG. -/
def execRemoteSignalMsg (c : Cue) (s : State) : Out := within (Instr.remoteSignalMsg c).wf <| s.onRemote c

/-! ### Barriers -/

/-- R248: the context is not IDLE. -/
def arriveCheck (s : State) (c : BitVec 512) : Option (Nat × Nat) :=
  if (s.barrier (cf c 16 1)).state = .idle then some (3, 16) else none

/-- R420: the context is ABANDONED. -/
def State.barAbandoned (s : State) (q : Nat) (idx : Word) (c : BitVec 512) : State :=
  s.completeHead q idx c { status := St.abandoned, detail := 2 ^ 31 + cf c 16 1 }

/-- R248: ARRIVE. -/
def execArrive (q : Nat) (s : State) : Out :=
  within (Instr.arrive q).wf <| s.runHead q 0x23 arriveCheck fun s idx c =>
    let b := cf c 16 1
    if (s.barrier b).state = .abandoned then s.barAbandoned q idx c
    else if s.syncTakes q && s.mayArrive b q then (s.arriveAt b q).completeOk q idx c
    else s

/-- The arrival of the queue's head is noted. -/
def State.noteArrived (s : State) (q b : Nat) : State :=
  s.modQueue q fun x => { x with head := x.head.map fun h => { h with arrived := some b } }

/-- R248: an ARRIVE_WAIT at its head: it arrives once, and issues when the context has released. -/
def State.arriveWaitHead (s : State) (q : Nat) (idx : Word) (c : BitVec 512) : State :=
  let b := cf c 16 1
  let h := (s.queue q).head
  if (h.bind (·.arrived)).isSome then
    if (h.map (·.released)).getD false then s.completeOk q idx c
    else if (s.barrier b).state = .abandoned then s.barAbandoned q idx c
    else s
  else if (s.barrier b).state = .idle then s.badCommand q idx c 3 16
  else if (s.barrier b).state = .abandoned then s.barAbandoned q idx c
  else if s.syncTakes q && s.mayArrive b q then
    let s := (s.noteArrived q b).arriveAt b q
    if ((s.queue q).head.map (·.released)).getD false then s.completeOk q idx c else s
  else s

/-- R248: ARRIVE_WAIT. -/
def execArriveWait (q : Nat) (s : State) : Out :=
  within (Instr.arriveWait q).wf <| s.runHead q 0x24 noCheck fun s idx c => s.arriveWaitHead q idx c

/-- R248: ARRIVE_WAIT_TIMEOUT: the release wins, and the arrival stands. -/
def execArriveWaitTimeout (q : Nat) (s : State) : Out :=
  within (Instr.arriveWaitTimeout q).wf <| s.runHead q 0x24 noCheck fun s idx c =>
    if !s.timeIsUp q c || ((s.queue q).head.map (·.released)).getD false || (s.headWaits q).isNone then s
    else (s.completeHead q idx c { status := St.timeout, detail := 2 ^ 31 + cf c 16 1 }).cmdTimeout q

/-- R406: BARRIER_ARM. -/
def execBarrierArm (b : Nat) (s : State) : Out := within (Instr.barrierArm b).wf <| s.whenReleased fun s => s.armBarrier b
/-- R406: BARRIER_DISARM. -/
def execBarrierDisarm (b : Nat) (s : State) : Out := within (Instr.barrierDisarm b).wf <| s.whenReleased fun s => s.disarmBarrier b
/-- R421: BARRIER_REARM. -/
def execBarrierRearm (b : Nat) (s : State) : Out := within (Instr.barrierRearm b).wf <| s.whenReleased fun s => s.rearmBarrier b

/-! ### Tallies -/

/-- R398, R420: a host write to SYN_TALLY_VALUE, which an ABANDONED tally ignores. -/
def State.writeTally (s : State) (t : Nat) (v : DWord) : State := if (s.tally t).abandoned then s else s.putTally t v

/-- R398, R420: TALLY_SET. -/
def execTallySet (t : Nat) (v : DWord) (s : State) : Out :=
  within (Instr.tallySet t v).wf <| s.whenReleased fun s => s.writeTally t v
/-- R557: TALLY_CFG_WRITE. -/
def execTallyCfgWrite (t : Nat) (v : Word) (s : State) : Out :=
  within (Instr.tallyCfgWrite t v).wf <| s.whenReleased fun s => s.writeTallyCfg t v.toNat
/-- R421, R557: TALLY_REARM: a write with REARM set. -/
def execTallyRearm (t : Nat) (v : Word) (s : State) : Out :=
  within (Instr.tallyRearm t v).wf <| s.whenReleased fun s => s.writeTallyCfg t (v ||| 0x80000000#32).toNat

/-! ### Wake wires -/

/-- R412, R413: a write to SYN_WAKE_SRC; a reserved KIND is ignored. -/
def State.writeWakeSrc (s : State) (w v : Nat) : State :=
  match WakeKind.ofCode (fld v 0 3) with
  | some k => (s.setWake w { s.wake w with kind := k, object := fld v 3 12, step := fld v 16 32 }).wakeWritten w
  | none => s
/-- R558: a write to SYN_WAKE_THRESH. -/
def State.writeWakeThresh (s : State) (w : Nat) (v : DWord) : State := (s.setWake w { s.wake w with thresh := v }).wakeWritten w
/-- R413: a write to SYN_WAKE_FIRE fires the SOFTWARE wires of a mask. -/
def State.writeWakeFire (s : State) (v : Nat) : State :=
  forEach ((s.wiresOfKind .software).filter fun w => bitAt v w) (fun w st => st.fireWire w) s

/-- R412, R413: WAKE_SRC_WRITE. -/
def execWakeSrcWrite (w : Nat) (v : DWord) (s : State) : Out :=
  within (Instr.wakeSrcWrite w v).wf <| s.whenReleased fun s => s.writeWakeSrc w v.toNat
/-- R558: WAKE_THRESH_WRITE. -/
def execWakeThreshWrite (w : Nat) (v : DWord) (s : State) : Out :=
  within (Instr.wakeThreshWrite w v).wf <| s.whenReleased fun s => s.writeWakeThresh w v
/-- R413: WAKE_FIRE. -/
def execWakeFire (v : DWord) (s : State) : Out :=
  within (Instr.wakeFire v).wf <| s.whenReleased fun s => s.writeWakeFire v.toNat

/-! ### Rebar, watchdog, deadlock -/

/-- R416: a REBAR that has come. -/
def State.onRebar (s : State) (c : Cue) : State :=
  match s.rebarPair c with
  | some (i, p) =>
    if c.at 4 1 = s.epoch ∧ c.at 16 5 % 2 ^ 38 = s.phrase then s.applyRebar i p (BitVec.ofNat 64 (c.at 8 8))
    else (s.count (Cnt.syn 7)).eventC Det.rebarStray .sync c.src
  | none => (s.count (Cnt.syn 7)).eventC Det.rebarStray .sync c.src

/-- R416: REBAR. -/
def execRebar (c : Cue) (s : State) : Out := within (Instr.rebar c).wf <| s.onRebar c

/-- R423: WATCHDOG: the count of stalled downbeats has reached N. -/
def execWatchdog (q : Nat) (s : State) : Out :=
  within (Instr.watchdog q).wf <|
    let x := s.queue q
    if x.state = .running ∧ x.watchdog ≠ 0 ∧ x.watchdog ≤ x.stalled then s.watchdogExpires q else s

/-- R427: DEADLOCK: the watched set has been blocked for WINDOW measures. -/
def execDeadlock (s : State) : Out :=
  within true <|
    if s.blocked && !s.sync.dlDisarmed && decide (s.sync.dlWindow * 4096 ≤ s.sync.dlCount) then s.dlFires else s

/-- R559: a write to SYN_DL_MASK[i], or to SYN_DL_CFG. A WINDOW of 0 is out of range, and the write is ignored (R524). -/
def State.writeDl (s : State) (mask : Option Nat) (v : Nat) : State :=
  match mask with
  | some i =>
    let keep := s.sync.dlMask.filter fun q => q / 32 != i
    let add := ((List.range 32).filter (bitAt v)).map (32 * i + ·)
    { s with sync.dlMask := add.foldl (fun l q => insertAsc q l) keep, sync.dlCount := 0 }
  | none =>
    if fld v 0 16 = 0 then s
    else { s with sync.dlWindow := fld v 0 16, sync.dlBreak := bitAt v 16, sync.dlCount := 0 }

/-- R559: DL_CFG_WRITE. -/
def execDlCfgWrite (mask : Option Nat) (v : Word) (s : State) : Out :=
  within (Instr.dlCfgWrite mask v).wf <| s.whenReleased fun s => s.writeDl mask v.toNat

end Sys2Proof.Machine
end

