-- ==== Sys2Proof/Machine/Members.lean ====
section
/-!
DEFINITION. Lost members (R322–R326): declaring a neighbour lost, learning of a loss, and what ends with it.
-/
namespace Sys2Proof.Machine

/-- R324, R325, R395: what ends when bit `x` of CE_LOST_MAP is set. -/
def State.loseMember (s : State) (x : Nat) : State :=
  let s := { s with ce.lost := insertAsc x s.ce.lost }
  let cs := s.ce.colls.filter fun c => s.inPart c.part x
  let s := forEach cs (fun c st => st.stopColl c { status := St.memberLost, detail := x }) s
  let s := s.abandonChorus 2 fun b => s.inPart b.part x
  forEach (List.range 64) (fun ch st => st.chanLost x ch) s

/-- The enabled ports that reach member `x`. -/
def State.portsTo (s : State) (x : Nat) : List Nat :=
  match s.img with
  | none => []
  | some m => (List.range 16).filter fun p => Img.enabled m p && Img.neighbour m p == x

/-- What the last tail slot of a port says of its member: 2 fallen, 3 stepped out (Table CHK-5). -/
def Port.fallenReason (p : Port) : Option Nat :=
  match p.nb with
  | some t => if t.fallen then some 2 else if t.tact = .steppedOut then some 3 else none
  | none => none

/-- R322: why SELF declares member `x` lost at the present downbeat. -/
def State.lostReason (s : State) (x : Nat) : Option Nat :=
  let ps := s.portsTo x
  if s.ce.declared.contains x then some 4
  else if ps.isEmpty then none
  else if ps.all fun p => decide (s.ce.lostMeasures ≤ Tab.get 0 s.ce.badDowns p) then some 1
  else if ps.all fun p => (s.port p).fallenReason.isSome then (ps.head?.bind fun p => (s.port p).fallenReason)
  else none

/-- Table CHK-5. -/
def State.lostBody (s : State) (x reason : Nat) : List Byte :=
  bodyOf [(0, 2, x), (2, 1, s.epoch), (3, 1, reason), (4, 8, (s.img.map fun m => Img.roster m x).getD 0), (12, 2, s.self),
    (16, 8, s.stamp.toNat)]

/-- R322, R323: SELF declares member `x` lost. -/
def State.declareLost (s : State) (x reason : Nat) : State :=
  let s := { s with ce.declared := s.ce.declared.filter fun y => y != x }
  let s := s.flood false none (some x) { typ := 0x40, neighbour := true, dest := 0x3FF, body := s.lostBody x reason }
  (s.raise Det.neighbourLost (.ce 0) none x).loseMember x

/-- R322: NEIGHBOUR_LOST, at a downbeat. -/
def execNeighbourLost (x : Nat) (s : State) : Out :=
  within (Instr.neighbourLost x).wf <|
    if s.live && s.score.member && s.beat == 0 && !s.ce.lost.contains x then
      match s.lostReason x with
      | some r => s.declareLost x r
      | none => s
    else s

/-- R323–R325: a MEMBER_LOST that arrived on port `p`. -/
def State.onMemberLost (s : State) (p : Nat) (c : Cue) : State :=
  let x := c.at 0 2 % 1024
  if !s.score.member || c.at 2 1 != s.epoch then s
  else if x = s.self then s.stepOut Det.selfNamedLost
  else if s.ce.lost.contains x then s
  else
    let s := (s.count (Cnt.ceMw 2)).eventC Det.memberLostRx .engine x
    (s.flood true (some p) (some x) c).loseMember x

/-- R323: MEMBER_LOST. -/
def execMemberLost (p : Nat) (c : Cue) (s : State) : Out :=
  within (Instr.memberLost p c).wf <| if s.live then s.onMemberLost p c else s

/-- R550: a write to CE_LOST_DECLARE. -/
def State.writeDeclare (s : State) (v : Nat) : State :=
  let x := fld v 0 10
  if !bitAt v 31 then s
  else if !s.score.member || x == s.self || !s.inRoster x then { s with ce.declareRefused := true }
  else if s.ce.lost.contains x then s
  else { s with ce.declared := insertAsc x s.ce.declared }

/-- R550: CE_LOST_DECLARE. -/
def execCeLostDeclare (v : Word) (s : State) : Out :=
  within (Instr.ceLostDeclare v).wf <| s.whenLive fun s => s.writeDeclare v.toNat

end Sys2Proof.Machine
end

