-- ==== Sys2Proof/Machine/Memory.lean ====
section
/-!
DEFINITION. Commands of the memory (chapter 6): requests at the controllers, page locks, the order of service, scrub, recoding,
leases and regions. A controller accepts a request in its place among the accesses to its page: a write's bytes stand from then on,
and a read holds the bytes as they stood. What the array, the decoder and the lock table add follows in the other commands.
-/
namespace Sys2Proof.Machine

/-! ### Requesters -/

/-- R162: the lease consumer and unit that a requester is. -/
def Requester.consumer : Requester → Option (Consumer × Nat)
  | .command q _ =>
    if q < 128 then some (.ce, q / 32) else if q < 192 then some (.me, (q - 128) / 4) else if 208 ≤ q ∧ q < 240 then some (.cluster, (q - 208) / 4)
    else none
  | .chan c => some (.dma, c)
  | .core cl _ => some (.cluster, cl)
  | .host => some (.host, 0)
  | .stream p => some (.stream, p)
  | .fetch _ | .service _ | .scrub | .recode => none

/-- The lease of a request. -/
def State.leaseOf (s : State) (who : Requester) (write : Bool) (a : Nat) : Option Nat :=
  who.consumer.bind fun x => s.leaseFor x.1 x.2 write a

/-- What a controller answers a requester. -/
def State.answer (s : State) (who : Requester) (r : MemReply) : State := { s with mem.reply := some (who, r) }

/-- A command's operand page could not be read or merged. -/
def State.commandUe (s : State) (q tok det page : Nat) : State :=
  match s.collOf q tok with
  | some c => if c.keep.isNone then s.collUe c det page else s
  | none => (s.finish q tok { status := St.dataUe, detail := page }).memFault (.queue q) det page

/-- Table MEM-7: the reader of a page that is poisoned or uncorrectable; `rmw`: its narrow write is dropped. -/
def State.failReader (s : State) (who : Requester) (det page : Nat) (rmw : Bool) : State :=
  let det := if rmw then Det.rmwUe else det
  let s := s.answer who (.poisoned page)
  match who with
  | .fetch q =>
    if s.released ∧ (s.queue q).state = .running then s.fetchFail q (s.queue q).fetch page else s.memFault (.queue q) Det.fetchUe page
  | .command q tok => s.commandUe q tok det page
  | .chan c => if (s.chan c).state = .running then s.ueXfer c det page else s.memFault (.chan c) det page
  | .core cl k =>
    let s := if (s.core cl k).state = .busy ∧ !rmw then s.modCore cl k fun x => { x with dataUe := some page } else s
    s.memFault (.cl cl) det page
  | .host => s.memFault .host (if rmw then Det.strictHostWrite else det) page
  | .stream _ => (s.eventU det .engine none page []).1
  | .service q => s.memFault (.queue q) det page
  | .scrub | .recode => (s.eventU det .engine none page []).1

/-! ### Cluster cores (R360, R361) -/

/-- The address is in the core's own cluster SRAM. -/
def inClusterSram (a n : Nat) : Bool := decide (0x38000000000 ≤ a) && decide (a + n ≤ 0x38000800000)

/-- R361: the bytes of device memory as the cores of cluster `cl` see them: what any of its caches holds dirty, else memory. -/
def State.dirtyByte (s : State) (cl a : Nat) : Option Byte :=
  ((List.range 8).find? fun k => (s.core cl k).dirtyAt.contains a).map fun k => (s.core cl k).dirty.read a

/-- The bytes with the dirty bytes of the cluster's caches in their places. -/
def State.coreView (s : State) (cl a : Nat) (bs : List Byte) : List Byte :=
  (numbered a bs).map fun x => (s.dirtyByte cl x.1).getD x.2

/-- R361: a store to device memory: the writing core's cache holds the bytes, and no other cache of the cluster does. -/
def State.coreStore (s : State) (cl k a : Nat) (bs : List Byte) : State :=
  let at_ := (List.range bs.length).map (a + ·)
  let s := forEach (List.range 8) (fun j st => st.modCore cl j fun c => { c with
    dirtyAt := c.dirtyAt.filter fun x => !at_.contains x
    dirty := at_.foldl (fun m x => m.write x 0) c.dirty }) s
  s.modCore cl k fun c => { c with dirtyAt := at_.foldl (fun l x => insertAsc x l) c.dirtyAt, dirty := c.dirty.writeN a bs }

/-! ### Reads (R138, R139) -/

/-- A page holds a lock whose read half is done: it reads as the merged page (R143). -/
def MemPort.merged (c : MemPort) (pg : Nat) : Bool := c.locks.any fun l => l.page == pg && l.read

/-- One part of a read, within one page. -/
def State.readPart (s : State) (who : Requester) (a n : Nat) : State :=
  match s.locate a with
  | none => (s.unbackedEvent a).answer who .unbacked
  | some (k, ph) =>
    let pg := ph / 2048 * 2048
    let bs := s.ram.readN ph n
    let bs := match who with
      | .core cl _ => s.coreView cl a bs
      | _ => bs
    if s.mem.poison.contains pg then (s.count (Cnt.memErr k Cnt.poisonReads)).failReader who Det.poisonRead (a / 2048) false
    else if (s.ctrl k).buffer.contains pg then (s.modCtrl k (·.touch pg)).answer who (.data bs)
    else if (s.ctrl k).merged pg then s.answer who (.data bs)
    else
      let r : MemReq := { who := who, addr := a, len := n, data := none, lease := s.leaseOf who false a, bytes := bs }
      (s.modCtrl k fun c => { c with waiting := c.waiting ++ [r] }).answer who .held

/-- R138: a read; the parts of an extent that crosses pages are read apart. -/
def State.readRequest (s : State) (who : Requester) (a n : Nat) : State :=
  match who with
  | .core cl _ =>
    if inClusterSram a n then s.answer who (.data ((s.cl cl).sram.readN (a - 0x38000000000) n))
    else if s.backed a n then forEach (extent a n) (fun x st => st.readPart who x.1 x.2) s
    else (s.unbackedEvent a).answer who .unbacked
  | _ =>
    if s.backed a n then forEach (extent a n) (fun x st => st.readPart who x.1 x.2) s
    else (s.unbackedEvent a).answer who .unbacked

/-- R138: MEMORY_READ. -/
def execMemoryRead (who : Requester) (addr len : Nat) (s : State) : Out :=
  within (Instr.memoryRead who addr len).wf <| if s.live then s.readRequest who addr len else s

/-! ### Writes (R141–R145) -/

/-- R142, R143: a narrow part takes a place in the page-lock table: it joins the page's entry, or takes a new one. Its bytes are merged
in their order of arrival. A page already in the buffer needs no read half. -/
def State.lockPart (s : State) (k ph : Nat) (r : MemReq) : State :=
  let pg := ph / 2048 * 2048
  let s := { s with ram := s.ram.writeN ph (r.data.getD []) }
  let c := s.ctrl k
  if c.locks.any fun l => l.page == pg then
    s.setCtrl k { c with locks := c.locks.map fun l => if l.page == pg then { l with parts := l.parts ++ [r], issued := false } else l }
  else if c.buffer.contains pg then s.setCtrl k { c.touch pg with locks := c.locks ++ [{ page := pg, parts := [r], read := true }] }
  else
    s.setCtrl k { c with locks := c.locks ++ [{ page := pg, parts := [r] }]
                         waiting := c.waiting ++ [{ r with data := none, narrow := true }] }

/-- R142, R165: the narrow part must wait at its requester: every entry is taken, or the controller is in breach. -/
def MemPort.lockRoom (c : MemPort) (pg : Nat) : Bool :=
  (c.locks.any fun l => l.page == pg) || (!c.breach && decide (c.locks.length < 256))

/-- R142, R150: a narrow part in an RMW region. -/
def State.narrowPart' (s : State) (k ph : Nat) (r : MemReq) : State :=
  let pg := ph / 2048 * 2048
  let c := s.ctrl k
  if s.mem.poison.contains pg then (s.count (Cnt.memErr k Cnt.poisonReads)).failReader r.who Det.rmwUe (r.addr / 2048) true
  else if c.lockRoom pg then (s.lockPart k ph r).answer r.who (.data [])
  else
    let s := (s.setCtrl k { c with lockWait := c.lockWait ++ [r] }).answer r.who .held
    if c.breach then s.eventC Det.rmwStall (ctrlUnit k) (r.addr / 2048)
    else (s.count (Cnt.memErr k Cnt.lockWait)).eventC Det.lockTableFull (ctrlUnit k) (r.addr / 2048)

/-- R141, R143: a whole-page part: it waits while its page is locked. -/
def State.wholePart (s : State) (k ph : Nat) (r : MemReq) : State :=
  let c := s.ctrl k
  if c.locks.any fun l => l.page == ph then (s.setCtrl k { c with lockWait := c.lockWait ++ [r] }).answer r.who .held
  else
    ((s.storePage r.addr k ph (r.data.getD [])).modCtrl k fun c => { c with waiting := c.waiting ++ [r] }).answer r.who (.data [])

/-- One part of a write, within one page. -/
def State.writePart (s : State) (who : Requester) (a : Nat) (bs : List Byte) : State :=
  match s.locate a with
  | none => (s.unbackedEvent a).answer who .unbacked
  | some (k, ph) =>
    let r : MemReq := { who := who, addr := a, len := bs.length, data := some bs, lease := s.leaseOf who true a }
    if bs.length = 2048 then s.wholePart k ph r else s.narrowPart' k ph r

/-- Table MEM-6: a write with a narrow part in a STRICT region. -/
def State.strictWrite (s : State) (who : Requester) (a : Nat) : State :=
  let page := a / 2048
  let s := match s.locate a with
    | some (k, _) => (s.count (Cnt.memErr k Cnt.narrowWrite)).eventC Det.narrowWrite (ctrlUnit k) page
    | none => s
  let s := s.answer who (.poisoned page)
  match who with
  | .chan c => if (s.chan c).state = .running then s.failXfer c St.narrowWrite page else s
  | .command q tok => s.finish q tok { status := St.narrowWrite, detail := page }
  | .host => s.memFault .host Det.strictHostWrite page
  | .service q => s.memFault (.queue q) Det.crToStrict page
  | .core _ _ | .fetch _ | .stream _ | .scrub | .recode => s

/-- The bytes of each part of a write. -/
def partsOf (a : Nat) (bs : List Byte) : List (Nat × List Byte) := (extent a bs.length).map fun x => (x.1, (bs.drop (x.1 - a)).take x.2)

/-- R141, R360, R361: a write. A core's store goes to its cache; a line of a STRICT region is never dirty there. -/
def State.writeRequest (s : State) (who : Requester) (a : Nat) (bs : List Byte) : State :=
  let device := fun (s : State) =>
    match s.strictPart a bs.length with
    | some p => s.strictWrite who p
    | none => forEach (partsOf a bs) (fun x st => st.writePart who x.1 x.2) s
  match who with
  | .core cl k =>
    if inClusterSram a bs.length then
      (s.setCl cl { s.cl cl with sram := (s.cl cl).sram.writeN (a - 0x38000000000) bs }).answer who (.data [])
    else if !s.backed a bs.length then (s.unbackedEvent a).answer who .unbacked
    else if s.isStrict a then device s
    else (s.coreStore cl k a bs).answer who (.data [])
  | _ => if s.backed a bs.length then device s else (s.unbackedEvent a).answer who .unbacked

/-- R141: MEMORY_WRITE. -/
def execMemoryWrite (who : Requester) (addr : Nat) (data : List Byte) (s : State) : Out :=
  within (Instr.memoryWrite who addr data).wf <| if s.live then s.writeRequest who addr data else s

/-- R142, R165: the first waiting write that may now go on. -/
def State.grantNext (s : State) (k : Nat) : State :=
  let c := s.ctrl k
  let may := fun (r : MemReq) => match s.locate r.addr with
    | some (_, ph) =>
      if r.len = 2048 then !(c.locks.any fun l => l.page == ph) else s.mem.poison.contains (ph / 2048 * 2048) || c.lockRoom (ph / 2048 * 2048)
    | none => true
  match c.lockWait.find? may with
  | none => s
  | some r =>
    let s := s.setCtrl k { c with lockWait := c.lockWait.erase r }
    match s.locate r.addr with
    | none => (s.unbackedEvent r.addr).answer r.who .unbacked
    | some (k, ph) => if r.len = 2048 then s.wholePart k ph r else s.narrowPart' k ph r

/-- R142: PAGE_LOCK_GRANT. -/
def execPageLockGrant (k : Nat) (s : State) : Out := within (Instr.pageLockGrant k).wf <| if s.live then s.grantNext k else s

/-! ### The order of service (R163, Table MEM-10) -/

/-- The controller may serve: its array answers. -/
def State.mayServe (s : State) (k : Nat) : Bool :=
  s.live && !(s.ctrl k).retraining && !s.sys.selfRefresh && (decide (k < 8) || (s.cxl (k - 8)).backed)

/-- Level 3: the array write of the first RMW whose read half is done. -/
def State.issueRmw (s : State) (k : Nat) (l : PageLock) : State :=
  let s := { s with mem.errs := Tab.del s.mem.errs l.page }
  let s := s.modCtrl k fun c => { c.touch l.page with
    locks := c.locks.map fun x => if x.page == l.page then { x with issued := true } else x
    writeBack := c.writeBack.filter fun x => x != l.page }
  s.injectOn ((l.parts.head?.map (·.addr)).getD l.page) k l.page

/-- A waiting request is served: a read goes to be decoded. R164: a leased one pays a service, down to −16. -/
def State.serve (s : State) (k : Nat) (r : MemReq) (best : Bool) : State :=
  let s := s.modCtrl k fun c => { c with
    waiting := c.waiting.erase r
    decoding := if r.data.isNone then c.decoding ++ [r] else c.decoding
    served := if best then r.who :: c.served.filter fun x => x != r.who else c.served }
  match r.lease with
  | some l =>
    let x := s.lease l
    s.setLease l { x with deficit := if x.deficit - 400 < -6400 then -6400 else x.deficit - 400 }
  | none => s

/-- The SHARE of a lease of the active score. -/
def State.shareOf (s : State) (l : Nat) : Nat := ((s.leases.find? fun x => x.1 == l).map fun x => x.2.share).getD 1

/-- Level 4: the leased request whose lease has the largest deficit ÷ SHARE above 0; the first of that lease. -/
def State.leasedNext (s : State) (k : Nat) : Option MemReq :=
  let ls := (s.leases.map (·.1)).filter fun l => decide (0 < (s.lease l).deficit) && (s.ctrl k).waiting.any fun r => r.lease == some l
  let best := ls.foldl (fun b l => match b with
    | none => some l
    | some m => if (s.lease m).deficit * (s.shareOf l : Int) < (s.lease l).deficit * (s.shareOf m : Int) then some l else some m) none
  best.bind fun l => (s.ctrl k).waiting.find? fun r => r.lease == some l

/-- Level 6: round robin among requesters: the requester served longest ago. -/
def MemPort.bestNext (c : MemPort) : Option MemReq :=
  let rank := fun (r : MemReq) => c.served.idxOf r.who
  c.waiting.foldl (fun b r => match b with
    | none => some r
    | some y => if rank y < rank r then some r else some y) none

/-! ### Scrub (R153, R154) and recode (R137) -/

/-- Usable pages of controller `k`. -/
def State.pagesOfCtrl (s : State) (k : Nat) : Nat := if k < 8 then 4 * s.sliceUsable / 2048 else s.cxlUsable (k - 8) / 2048

/-- Physical page number `n` of controller `k`, ascending. -/
def ctrlPage (k n : Nat) : Nat :=
  if k < 8 then n / 8 * 131072 + (4 * k + n % 8 / 2) * 4096 + n % 2 * 2048 else 0x10000000000 + (k - 8) * 2 ^ 39 + n * 2048

/-- The device address of a physical page under the placement in force. -/
def State.addrOfPage (s : State) (ph : Nat) : Nat :=
  if ph < 0x6000000000 ∧ !s.uniform then
    let slice := ph / 4096 % 32
    let off := ph / 131072 * 4096 + ph % 4096
    slice / 2 * 0x600000000 + off / 4096 * 8192 + slice % 2 * 4096 + off % 4096
  else ph

/-- Beats of a scrub period; 1 h is 281,250,000,000 beats. -/
def State.scrubBeats (s : State) (k : Nat) : Nat := 281250000000 * (if k < 8 then s.mem.scrubHours1 else s.mem.scrubHours2)

/-- R153: pages that the present pass should have read by now. -/
def State.scrubGoal (s : State) (k : Nat) : Nat := (s.now - (s.ctrl k).scrubSince) * s.pagesOfCtrl k / Nat.max 1 (s.scrubBeats k)

/-- R153, R165: scrub runs at this controller: its fill is done, its period is not 0, and no breach lasts. -/
def State.scrubs (s : State) (k : Nat) : Bool :=
  s.mayServe k && decide (0 < s.scrubBeats k) && !(s.ctrl k).breach && decide (0 < s.pagesOfCtrl k)
    && (if k < 8 then s.mem.t1FillDone else s.mem.fillDone)

/-- R154: scrub that lies more than 1 % of a pass behind is counted, once for each time it falls behind. -/
def State.scrubLateCheck (s : State) (k : Nat) : State :=
  let c := s.ctrl k
  let late := decide (s.pagesOfCtrl k < 100 * (s.scrubGoal k - c.scrubPage))
  let s := s.setCtrl k { c with scrubLate := late }
  if late && !c.scrubLate then (s.count (Cnt.memErr k Cnt.scrubLate)).eventC Det.scrubLate (ctrlUnit k) c.scrubPage else s

/-- The page read by scrub or recode: corrected, poisoned, or skipped where it is poisoned. False where it cannot be used. -/
def State.patrolPage (s : State) (who : Requester) (k ph : Nat) : State × Bool :=
  let a := s.addrOfPage ph
  match s.fetchPage a k ph with
  | (s, none) => (s, true)
  | (s, some d) => if d = Det.pageUe then (s.failReader who d (a / 2048) false, false) else (s, false)

/-- R153: the scrubber reads its next page; after the last one a new pass begins. -/
def State.scrubStep (s : State) (k : Nat) : State :=
  let n := (s.ctrl k).scrubPage
  let s := (s.patrolPage .scrub k (ctrlPage k n)).1
  let s := if n + 1 < s.pagesOfCtrl k then s.modCtrl k fun c => { c with scrubPage := n + 1 }
    else s.modCtrl k fun c => { c with scrubPage := 0, scrubPasses := satAdd 0xFFFF c.scrubPasses 1, scrubSince := s.now }
  s.scrubLateCheck k

/-- R153: the scrubber's next page is due by its pace. -/
def State.scrubDue (s : State) (k : Nat) : Bool := s.scrubs k && decide ((s.ctrl k).scrubPage < s.scrubGoal k)

/-- R153: SCRUB_READ. -/
def execScrubRead (k : Nat) (s : State) : Out :=
  within (Instr.scrubRead k).wf <| if s.scrubDue k then s.scrubStep k else s

/-- R163: PAGE_SERVICE: one service, in the order of Table MEM-10. -/
def State.service (s : State) (k : Nat) : State :=
  let c := s.ctrl k
  match c.writeBack with
  | pg :: rest => { s.setCtrl k { c with writeBack := rest } with mem.errs := Tab.del s.mem.errs pg }
  | [] =>
    match c.locks.find? fun l => l.read && !l.issued with
    | some l => s.issueRmw k l
    | none =>
      match s.leasedNext k with
      | some r => s.serve k r false
      | none =>
        if s.scrubDue k then s.scrubStep k
        else match c.bestNext with
          | some r => s.serve k r true
          | none => s

/-- R163: PAGE_SERVICE. -/
def execPageService (k : Nat) (s : State) : Out := within (Instr.pageService k).wf <| if s.mayServe k then s.service k else s

/-- The bytes of a read with the flips that a wrong correction made in its page (R131). -/
def flipRead (ph : Nat) (bs : List Byte) (before after : Mem) : List Byte :=
  (numbered ph bs).map fun x => if before.read x.1 = after.read x.1 then x.2 else after.read x.1

/-- R140, R147, R149: the first fetched page is decoded, and delivered or failed. -/
def State.decodeNext (s : State) (k : Nat) : State :=
  match (s.ctrl k).decoding with
  | [] => s
  | r :: rest =>
    let s := s.modCtrl k fun c => { c with decoding := rest }
    match s.locate r.addr with
    | none => (s.unbackedEvent r.addr).answer r.who .unbacked
    | some (k, ph) =>
      let pg := ph / 2048 * 2048
      let before := s.ram
      match s.fetchPage r.addr k pg with
      | (s, none) =>
        if r.narrow then
          let s := s.modCtrl k fun c => { c with locks := c.locks.map fun l => if l.page == pg then { l with read := true } else l }
          let parts := ((s.ctrl k).locks.find? fun l => l.page == pg).map (·.parts)
          if before = s.ram then s
          else forEach (parts.getD []) (fun x st => { st with ram := st.ram.writeN (pg + x.addr % 2048) (x.data.getD []) }) s
        else s.answer r.who (.data (flipRead ph r.bytes before s.ram))
      | (s, some d) =>
        if r.narrow then
          let parts := (((s.ctrl k).locks.find? fun l => l.page == pg).map (·.parts)).getD []
          let s := s.modCtrl k fun c => { c with locks := c.locks.filter fun l => l.page != pg }
          forEach parts (fun x st => st.failReader x.who d (x.addr / 2048) true) s
        else s.failReader r.who d (r.addr / 2048) false

/-- R140: PAGE_DECODE. -/
def execPageDecode (k : Nat) (s : State) : Out := within (Instr.pageDecode k).wf <| if s.live then s.decodeNext k else s

/-- R142: RMW_WRITE_DONE: the array write of the oldest RMW under way completes, and its entry is freed. -/
def execRmwWriteDone (k : Nat) (s : State) : Out :=
  within (Instr.rmwWriteDone k).wf <|
    let c := s.ctrl k
    match c.locks.find? fun l => l.issued with
    | some l => s.setCtrl k { c with locks := c.locks.erase l }
    | none => s

/-! ### Regions (R134–R136, R535) -/

/-- The addresses at which a page's region, and so its strength, may change: region bounds, the recode pointer and the beginnings of
the usable areas. -/
def State.strengthMarks (s : State) : List Nat :=
  (List.range 15).flatMap (fun n => [(s.region n).base, (s.region n).limit]) ++ (s.mem.recode.map (·.ptr)).toList
    ++ (List.range 16).map (· * 0x600000000) ++ (List.range 4).map fun j => 0x10000000000 + j * 2 ^ 39

/-- R136: no usable page has another strength in `t` than in `s`. -/
def State.sameStrengths (s t : State) : Bool :=
  (s.strengthMarks ++ t.strengthMarks).all fun a => (s.locate a).isNone || s.strengthAt a == t.strengthAt a

/-- R134: both bounds lie in one tier, in units of 64 MiB. -/
def boundsOk (base limit : Nat) : Bool :=
  decide (base % mib64 = 0) && decide (limit % mib64 = 0) && decide (base < limit)
    && (decide (limit ≤ 0x6000000000) || (decide (0x10000000000 ≤ base) && decide (limit ≤ 0x30000000000)))

/-- The region that a write of ATTR would give. -/
def Region.written (r : Region) (v : Nat) : Region :=
  { r with valid := bitAt v 0, base := r.stagedBase, limit := r.stagedLimit, strength := fld v 1 2, strict := bitAt v 3, group := fld v 4 4 }

/-- R134–R136: the write is allowed. -/
def State.regionOk (s : State) (n : Nat) (r : Region) : Bool :=
  (!r.valid || (boundsOk r.base r.limit && decide (r.strength ≤ s.ceiling r.base)))
    && !(s.mem.recode.any fun rc => rc.region == n)
    && (!s.mem.t1FillDone || s.sameStrengths (s.setRegion n r))

/-- MEM_STATUS.REGION_REFUSED. -/
def State.regionRefuse (s : State) (detail : Nat) : State := { s with mem.regionRefused := true }.eventC Det.regionRefused .engine detail

/-- R535: a write to MEM_REGION_ATTR. -/
def State.writeRegionAttr (s : State) (n v : Nat) : State :=
  let r := s.region n
  if n = 15 then s.setRegion 15 { r with strict := bitAt v 3, group := fld v 4 4 }
  else if s.regionOk n (r.written v) then s.setRegion n (r.written v)
  else s.regionRefuse n

/-- R535: REGION_ATTR_WRITE. -/
def execRegionAttrWrite (n : Nat) (v : Word) (s : State) : Out :=
  within (Instr.regionAttrWrite n v).wf <| s.whenLive fun s => s.writeRegionAttr n v.toNat

/-- R535: a write to MEM_REGION_BASE or MEM_REGION_LIMIT is staged, and judged when ATTR is written. -/
def State.writeBound (s : State) (n : Nat) (limit : Bool) (v : Nat) : State :=
  let r := s.region n
  s.setRegion n (if limit then { r with stagedLimit := v } else { r with stagedBase := v })

/-- R535: REGION_BOUND_WRITE. -/
def execRegionBoundWrite (n : Nat) (limit : Bool) (v : DWord) (s : State) : Out :=
  within (Instr.regionBoundWrite n limit v).wf <| s.whenLive fun s => s.writeBound n limit v.toNat

/-! ### Recode (R137) -/

/-- R137: a write to MEM_RECODE. REGION 15 is out of range, and a refused write changes no field (R524). -/
def State.writeRecode (s : State) (v : Nat) : State :=
  let n := fld v 0 4
  let r := s.region n
  let t : State := { s with mem.recodeRegion := n, mem.recodeStrength := fld v 4 2 }
  if n = 15 then s
  else if !bitAt v 31 then t
  else if s.mem.recode.isSome then { s with mem.recodeBusy := true }.eventC Det.recodeBusy .engine n
  else
    if !r.valid ∨ s.ceiling r.base < fld v 4 2 then s.regionRefuse n
    else { t with mem.recode := some { region := n, strength := fld v 4 2, ptr := r.base }, mem.recodePtr := r.base }

/-- R137: RECODE_START. -/
def execRecodeStart (v : Word) (s : State) : Out := within (Instr.recodeStart v).wf <| s.whenLive fun s => s.writeRecode v.toNat

/-- The recode's pointer moves; after the last page STRENGTH changes. -/
def State.recodeTo (s : State) (rc : Recode) (a : Nat) : State :=
  let r := s.region rc.region
  if a < r.limit then { s with mem.recode := some { rc with ptr := a }, mem.recodePtr := a }
  else { s.setRegion rc.region { r with strength := rc.strength } with mem.recode := none, mem.recodePtr := r.limit }

/-- R137: one page of the recode: corrected and coded again; a poisoned page is skipped. Addresses that are unbacked, or that belong to
another region, hold no page of the region. -/
def State.recodePage (s : State) (rc : Recode) : State :=
  match s.locate rc.ptr with
  | none => s.recodeTo rc ((rc.ptr / mib64 + 1) * mib64)
  | some (k, ph) =>
    if s.regionOf rc.ptr ≠ rc.region then s.recodeTo rc ((rc.ptr / mib64 + 1) * mib64)
    else if !s.mayServe k || (s.ctrl k).breach || (s.ctrl k).locks.any (fun l => l.page == ph) then s
    else if s.mem.poison.contains ph then (s.eventC Det.recodeSkip (ctrlUnit k) (rc.ptr / 2048)).recodeTo rc (rc.ptr + 2048)
    else
      match s.patrolPage .recode k ph with
      | (s, true) =>
        let s := { s with mem.errs := Tab.del s.mem.errs ph }
        (s.modCtrl k fun c => { c with writeBack := c.writeBack.filter fun x => x != ph }).recodeTo rc (rc.ptr + 2048)
      | (s, false) => (s.eventC Det.recodeSkip (ctrlUnit k) (rc.ptr / 2048)).recodeTo rc (rc.ptr + 2048)

/-- R137: RECODE_PAGE. -/
def execRecodePage (s : State) : Out :=
  within true <|
    match s.live, s.mem.recode with
    | true, some rc => s.recodePage rc
    | _, _ => s

/-! ### Leases (R164, R165) -/

/-- R164, R165: one lease at the end of a beat. -/
def State.accountLease (s : State) (x : Nat × Img.Lease) : State :=
  let a := s.lease x.1
  let eligible := (s.ctrl x.2.stack).waiting.any fun r => r.lease == some x.1
  let add : Int := if x.2.stack < 8 then (40 * x.2.share : Nat) else (3 * x.2.share : Nat)
  let d : Int := if eligible then a.deficit + add else 0
  let behind := eligible && decide (6400 < d)
  s.setLease x.1 { deficit := d, behind := behind, eligible := eligible, run := if behind then satAdd 0xFFFFFF a.run 1 else 0 }

/-- Some lease of controller `k` is behind. -/
def State.anyBehind (s : State) (k : Nat) : Bool := s.leases.any fun x => x.2.stack == k && (s.lease x.1).behind

/-- R164: LEASE_ACCOUNT. -/
def execLeaseAccount (s : State) : Out :=
  within true <|
    let s := forEach s.leases (fun x st => st.accountLease x) s
    forEach (List.range 12) (fun k st => st.modCtrl k fun c => { c with calm := if s.anyBehind k then 0 else c.calm + 1 }) s

/-- R165: a breach begins. -/
def State.beginBreach (s : State) (k l : Nat) : State :=
  let s := (s.modCtrl k fun c => { c with breach := true, calm := 0 }).count (Cnt.memErr k Cnt.leaseBreach)
  (s.eventC Det.leaseBreach (ctrlUnit k) l).eventC Det.scrubPause (ctrlUnit k) l

/-- R165: LEASE_BREACH. -/
def execLeaseBreach (k : Nat) (s : State) : Out :=
  within (Instr.leaseBreach k).wf <|
    if (s.ctrl k).breach then s
    else match s.leases.find? fun x => x.2.stack == k && decide (s.mem.leaseSlip ≤ (s.lease x.1).run) with
      | some x => s.beginBreach k x.1
      | none => s

/-- R165: LEASE_BREACH_END. -/
def execLeaseBreachEnd (k : Nat) (s : State) : Out :=
  within (Instr.leaseBreachEnd k).wf <|
    if (s.ctrl k).breach ∧ s.mem.leaseSlip ≤ (s.ctrl k).calm then s.modCtrl k fun c => { c with breach := false } else s

/-! ### Poison queries, injection and expanders -/

/-- R151: a write to MEM_POISON_ADDR, and the answer that follows it. -/
def State.queryPoison (s : State) (v : DWord) : State :=
  let a := v.toNat / 2048 * 2048
  let pg := (s.locate a).map (·.2)
  { s with
    mem.poisonAddr := BitVec.ofNat 64 a, mem.poisonDone := true, mem.poisonUnbacked := pg.isNone
    mem.poisonBit := (pg.map fun x => s.mem.poison.contains x).getD false }

/-- R151: POISON_QUERY. -/
def execPoisonQuery (v : DWord) (s : State) : Out :=
  within (Instr.poisonQuery v).wf <| s.whenLive fun s => s.queryPoison v

/-- R536: the injection may be armed. -/
def State.mayInjectPage (s : State) : Bool :=
  let a := s.mem.injAddr.toNat
  let last := s.mem.injStart + (s.mem.injCount - 1) * s.mem.injStride
  !s.mem.injArmed && s.mem.injPattern != 0 && s.mem.injStride != 0 && (s.locate a).isSome
    && decide (1 ≤ s.mem.injCount) && decide (s.mem.injCount ≤ 33) && decide (last < 1366 + 2 * PageCode.power (s.strengthAt a))

/-- R524, R536: a write to PGC_INJECT. COUNT out of 1–33 is out of range. The fields change only while no injection is
armed. -/
def State.writeInject (s : State) (n : Nat) : State :=
  if fld n 0 6 < 1 ∨ 33 < fld n 0 6 then s
  else if s.mem.injArmed then (if bitAt n 63 then s.regionRefuse 0xFF else s)
  else
    let t : State := { s with
      mem.injCount := fld n 0 6, mem.injStart := fld n 6 12, mem.injStride := fld n 18 12, mem.injPattern := fld n 30 12 }
    if !bitAt n 63 then t else if t.mayInjectPage then { t with mem.injArmed := true } else s.regionRefuse 0xFF

/-- R536: INJECT_ARM. -/
def execInjectArm (v : DWord) (s : State) : Out :=
  within (Instr.injectArm v).wf <| s.whenLive fun s => s.writeInject v.toNat

/-- R160: the reads that wait at the expander's port end with DATA_UE. -/
def State.failWaiting (s : State) (j : Nat) : State :=
  let c := s.ctrl (8 + j)
  forEach ((c.waiting ++ c.decoding).filter fun r => r.data.isNone && !r.narrow)
    (fun r st => st.failReader r.who Det.pageUe (r.addr / 2048) false) s

/-- R160, R496: an expander's link fails. -/
def State.loseCxl (s : State) (j det : Nat) : State :=
  let s := (s.failWaiting j).unbackCxl j
  s.raiseOn det (.cxl j)

/-- R160: CXL_LINK_LOST. -/
def execCxlLinkLost (j : Nat) (s : State) : Out :=
  within (Instr.cxlLinkLost j).wf <| if s.live && (s.cxl j).linkUp then s.loseCxl j Det.cxlLinkLost else s

end Sys2Proof.Machine
end

