-- ==== Sys2Proof/Machine/Compute.lean ====
section
/-!
DEFINITION. The compute group on the matrix engines and the CEs (R261–R266, R347–R357): LOADQ, SCORE, TOPK, QUANT and DEQUANT. An ME
runs its commands one at a time, so each has its whole effect as it issues.
-/
namespace Sys2Proof.Machine
open Sys2Proof.Machine.Num

/-! ### The operand SRAM (R350, R351) -/

/-- One byte of an ME's SRAM; a byte not written since its contents became undefined is a free value. -/
def MatrixEngine.byte (m : MatrixEngine) (a : Nat) : Byte :=
  match Tab.find m.sram a, m.undef with
  | some b, _ => b
  | none, some d => Config.sramByte d a
  | none, none => 0

def MatrixEngine.read (m : MatrixEngine) (a n : Nat) : List Byte := (List.range n).map fun i => m.byte (a + i)
def MatrixEngine.write (m : MatrixEngine) (a : Nat) (bs : List Byte) : MatrixEngine :=
  { m with sram := (numbered a bs).foldl (fun t x => Tab.put t x.1 x.2) m.sram }

/-- The next multiple of 64. -/
def align64 (a : Nat) : Nat := (a + 63) / 64 * 64

/-- R351: the bytes of a batch of `q` rows of `dim` elements. -/
def batchLen (fmt q dim : Nat) : Nat :=
  let f := Fmt.ofCode fmt
  if fmt = 6 then align64 (q * dim / 2) + q * dim / 32 else q * dim * f.bits / 8

/-! ### Operands (Table MAM-10) -/

namespace Me
def qoff (c : BitVec 512) : Nat := cf c 32 4
def lq (c : BitVec 512) : Nat := cf c 36 2
def ldim (c : BitVec 512) : Nat := cf c 38 2
def lfmt (c : BitVec 512) : Nat := fld (cf c 40 1) 0 4
def allMe (c : BitVec 512) : Bool := bitAt (cf c 40 1) 4
def base (c : BitVec 512) : Nat := cf c 32 6
def n (c : BitVec 512) : Nat := cf c 40 4
def dim (c : BitVec 512) : Nat := cf c 44 2
def q (c : BitVec 512) : Nat := cf c 46 2
def sqoff (c : BitVec 512) : Nat := cf c 48 4
def fe (c : BitVec 512) : Nat := fld (cf c 52 1) 0 4
def fq (c : BitVec 512) : Nat := fld (cf c 52 1) 4 4
def numctl (c : BitVec 512) : Nat := cf c 53 1
def toTopk (c : BitVec 512) : Bool := bitAt (cf c 54 1) 0
def writeScores (c : BitVec 512) : Bool := bitAt (cf c 54 1) 1
def loff (c : BitVec 512) : Nat := cf c 32 4
def k (c : BitVec 512) : Nat := cf c 36 2
def tq (c : BitVec 512) : Nat := cf c 38 2
def mode (c : BitVec 512) : Nat := cf c 52 1
def tbase (c : BitVec 512) : Nat := cf c 56 6
end Me

/-- Table MXE-1: the pair of embeddings and queries, and its dims per cycle in FAST and EXACT mode. -/
def pairRate (fe fq : Nat) : Option (Nat × Nat) :=
  match fe, fq with
  | 0, 0 => some (1024, 1024)
  | 0, 1 | 1, 1 | 2, 1 => some (256, 256)
  | 6, 6 => some (1024, 512)
  | 6, 7 | 7, 7 | 8, 8 | 8, 7 => some (256, 128)
  | 9, 9 => some (64, 64)
  | _, _ => none

/-- R123, R354: a tier-1 operand under LOCAL lies in the ME's window. -/
def State.inMeWindow (s : State) (m a n : Nat) : Bool :=
  s.uniform || decide (0x6000000000 ≤ a) || (decide (a / 0x600000000 = m) && decide ((a + (n - 1)) / 0x600000000 = m))

/-- R129, R123: an operand of an ME command. -/
def State.meOperand (s : State) (m a n off : Nat) : List (Bool × Nat × Nat) :=
  [(s.backed a n, 4, off), (s.inMeWindow m a n, 4, off)]

/-- R261, R351: DIM fits a 4-bit or scaled format. -/
def dimOk (fmt dim : Nat) : Bool :=
  decide (1 ≤ dim) && decide (dim ≤ 2048) && (fmt != 0 || dim % 2 == 0) && (fmt != 6 || dim % 32 == 0)

/-- Bytes of a matrix in memory from `a` on: its elements, and its scales at the next 64-byte boundary (R261). -/
def matrixLen (fmt a rows dim : Nat) : Nat :=
  let f := Fmt.ofCode fmt
  if fmt = 6 then align64 (a + rows * dim / 2) - a + rows * dim / 32 else rows * dim * f.bits / 8

/-- Two extents of the SRAM overlap. -/
def sramOverlap (a n b m : Nat) : Bool := decide (a < b + m) && decide (b < a + n)

/-- R262, R265, R347: the faults of a LOADQ. -/
def loadqCheck (m : Nat) (s : State) (c : BitVec 512) : Option (Nat × Nat) :=
  firstFault <|
    [(decide (1 ≤ Me.lq c) && decide (Me.lq c ≤ 1024), 3, 36), (dimOk (Me.lfmt c) (Me.ldim c), 3, 38),
     ([0, 1, 6, 7, 8, 9].contains (Me.lfmt c), 3, 40),
     (decide (Me.qoff c + batchLen (Me.lfmt c) (Me.lq c) (Me.ldim c) ≤ 0x1000000), 3, 32)]
    ++ s.meOperand m (cf c 16 8) (matrixLen (Me.lfmt c) (cf c 16 8) (Me.lq c) (Me.ldim c)) 16

/-- R263, R265, R347, R353: the faults of a SCORE. -/
def scoreCheck (m : Nat) (s : State) (c : BitVec 512) : Option (Nat × Nat) :=
  let batch := batchLen (Me.fq c) (Me.q c) (Me.dim c)
  let unit := (s.me m).topk
  firstFault <|
    [(cf c 16 8 % 64 == 0, 3, 16), (dimOk (Me.fe c) (Me.dim c) && dimOk (Me.fq c) (Me.dim c), 3, 44),
     (decide (1 ≤ Me.q c) && decide (Me.q c ≤ 1024), 3, 46), ((pairRate (Me.fe c) (Me.fq c)).isSome, 3, 52),
     (!(Me.fe c == 9 && exactBit (Me.numctl c)), 3, 53), (Me.toTopk c || Me.writeScores c, 3, 54),
     (decide (Me.sqoff c + batch ≤ 0x1000000), 3, 48),
     (!Me.toTopk c || (unit.any fun u => u.q == Me.q c), 3, 54),
     (!Me.toTopk c || !(unit.any fun u => sramOverlap (Me.sqoff c) batch u.loff (u.q * u.k * 16)), 3, 48)]
    ++ s.meOperand m (cf c 16 8) (matrixLen (Me.fe c) (cf c 16 8) (Me.n c) (Me.dim c)) 16
    ++ (if Me.writeScores c then s.meOperand m (cf c 24 8) (4 * Me.q c * Me.n c) 24 else [])

/-- R264, R265: the faults of a TOPK. -/
def topkCheck (m : Nat) (s : State) (c : BitVec 512) : Option (Nat × Nat) :=
  let sizes := [(decide (1 ≤ Me.k c) && decide (Me.k c ≤ 1024), 3, 36), (decide (1 ≤ Me.tq c) && decide (Me.tq c ≤ 1024), 3, 38)]
  match Me.mode c with
  | 0 => firstFault (sizes ++ [(decide (Me.loff c + Me.tq c * Me.k c * 16 ≤ 0x1000000), 3, 32)])
  | 1 =>
    match (s.me m).topk with
    | none => some (3, 52)
    | some u => firstFault (s.meOperand m (cf c 24 8) (16 * u.q * u.k) 24)
  | _ => firstFault (sizes ++ s.meOperand m (cf c 16 8) (4 * Me.tq c * Me.n c) 16 ++ s.meOperand m (cf c 24 8) (16 * Me.tq c * Me.k c) 24)

/-- Bytes that the command writes at DST. -/
def State.meWrites (s : State) (m : Nat) (c : BitVec 512) : Nat :=
  match opcodeOf c with
  | 0x51 => if Me.writeScores c then 4 * Me.q c * Me.n c else 0
  | 0x52 => match Me.mode c with
    | 0 => 0
    | 1 => ((s.me m).topk.map fun u => 16 * u.q * u.k).getD 0
    | _ => 16 * Me.tq c * Me.k c
  | _ => 0

/-! ### Issue (R210, R352) -/

/-- R264: no SCORE with TO_TOPK is in flight on the ME. -/
def State.topkFree (s : State) (m : Nat) : Bool :=
  (queuesOf (16 + m)).all fun q => !((s.queue q).inflight.any fun x => opcodeOf x.cmd == 0x51 && Me.toTopk x.cmd)

/-- The ME of a queue could start the command. -/
def State.meReady (s : State) (m : Nat) (c : BitVec 512) : Bool :=
  s.unitTakes (16 + m)
    && (opcodeOf c != 0x50 || !Me.allMe c || (List.range 16).all fun i => decide (s.unitLoad (16 + i) < unitLimit (16 + i)))
    && (opcodeOf c != 0x52 || Me.mode c == 2 || s.topkFree m)

/-- A command issues and, having had its effect, finishes with its outcome. -/
def State.issueWith (s : State) (q : Nat) (idx : Word) (c : BitVec 512) (run : State → State × Done) : State :=
  let tok := s.issued
  match run (s.issue q idx c none) with
  | (s, d) => s.finish q tok d

/-- R210, R212, Table MEM-6: a compute command at the head on its ME. -/
def State.issueMe (s : State) (q : Nat) (idx : Word) (c : BitVec 512) (run : State → State × Done) : State :=
  let m := (q - 128) / 4
  match s.strictPart (cf c 24 8) (s.meWrites m c) with
  | some a => (s.completeHead q idx c { status := St.narrowWrite, detail := a / 2048 }).narrowRefused a
  | none => if s.meReady m c && s.winsUnit (16 + m) q c (fun _ c => s.meReady m c) then s.issueWith q idx c run else s

/-! ### Outcomes -/

/-- The outcome of a command that completed, with what it counted (R198, R189: a FAST overflow counts once). -/
def computeDone (n : Counts) (breach : Bool) : Done :=
  { status := if breach then St.leaseBreach else St.ok, sat := n.sat + b2n n.fast, flush := n.flush, drop := n.drop }

/-- A read that failed ends the command with DATA_UE. -/
def State.loadFailed (s : State) (q : Nat) (l : Loaded) : State × Done :=
  match l with
  | .ue page det => (s.memFault (.queue q) det page, { status := St.dataUe, detail := page })
  | .unbacked a => (s.unbackedEvent a, { status := St.badCommand, cause := 4, detail := 16 })
  | .data _ => (s, { status := St.ok })

/-- The result is written, and the command ends with `d` or with what the write met. -/
def State.storeResult (s : State) (q a : Nat) (bs : List Byte) (d : Done) : State × Done :=
  match s.store a bs with
  | (s, .ok) => (s, d)
  | (s, .strict page) => (s, { status := St.narrowWrite, detail := page })
  | (s, .ue page) => (s.memFault (.queue q) Det.rmwUe page, { status := St.dataUe, detail := page })
  | (s, .unbacked a) => (s.unbackedEvent a, { status := St.badCommand, cause := 4, detail := 24 })

/-! ### LOADQ (R262, R351) -/

/-- The batch placed in ME `m`. -/
def State.placeBatch (s : State) (c : BitVec 512) (elems scales : List Byte) (m : Nat) : State :=
  let x := (s.me m).write (Me.qoff c) elems
  let x := x.write (Me.qoff c + align64 (Me.lq c * Me.ldim c / 2)) scales
  s.setMe m { x with batches := Tab.put x.batches (Me.qoff c) (Me.lq c, Me.ldim c) }

/-- R262: LOADQ's effect. -/
def State.loadq (s : State) (q : Nat) (c : BitVec 512) : State × Done :=
  let m := (q - 128) / 4
  let src := cf c 16 8
  let len := matrixLen (Me.lfmt c) src (Me.lq c) (Me.ldim c)
  let breach := s.breached .me m false src len
  match s.load src len with
  | (s, .data bs) =>
    let n := Me.lq c * Me.ldim c * (Fmt.ofCode (Me.lfmt c)).bits / 8
    let scales := if Me.lfmt c = 6 then bs.drop (align64 (src + n) - src) else []
    let targets := if Me.allMe c then List.range 16 else [m]
    (forEach targets (fun i st => st.placeBatch c (bs.take n) scales i) s, computeDone {} breach)
  | (s, l) => s.loadFailed q l

/-- R262: LOADQ. -/
def execLoadq (q : Nat) (s : State) : Out :=
  within (Instr.loadq q).wf <|
    s.runHead q 0x50 (loadqCheck ((q - 128) / 4)) fun s idx c => s.issueMe q idx c fun s => s.loadq q c

/-! ### SCORE (R263, R349, R353–R355) -/

/-- The values of row `i` of a batch in SRAM. -/
def MatrixEngine.queryRow (m : MatrixEngine) (c : BitVec 512) (i : Nat) : List Val :=
  let f := Fmt.ofCode (Me.fq c)
  let dim := Me.dim c
  let row := dim * f.bits / 8
  let scales := if Me.fq c = 6 then
      some ((m.read (Me.sqoff c + align64 (Me.q c * dim / 2) + i * (dim / 32)) (dim / 32)).map (·.toNat)) else none
  valuesOf f scales (unpackCodes f dim (m.read (Me.sqoff c + i * row) row))

/-- The scores of one item against every query; undefined ones where Q or DIM is not the batch's (R263). -/
def scoreItem (wrong : Option Nat) (c : BitVec 512) (queries : List (List Val)) (item : Nat) (row : List Val) : List Nat × Counts :=
  match wrong with
  | some d => ((List.range (Me.q c)).map fun j => (Config.wrongScore d (item * Me.q c + j)).toNat, {})
  | none =>
    let rs := queries.map fun x => dot (decide (Me.fe c ≤ 2)) (Fmt.ofCode 0xB) (Me.numctl c) x row
    (rs.map (·.1), rs.foldl (fun a r => a.plus r.2) {})

/-- R355: the unit after one item's scores have been offered. -/
def TopK.offer (u : TopK) (item member : Nat) (scores : List Nat) : TopK :=
  { u with lists := (numbered 0 scores).foldl (fun t x =>
      Tab.put t x.1 (bestOf u.order u.k (Tab.get [] t x.1 ++ [Cand.make x.2 item member 0]))) u.lists }

/-- SELF's number in candidates: 0 under the bootstrap score (R263). -/
def State.candMember (s : State) : Nat := (s.img.map Img.self).getD 0

/-- The items from a list of rows, in order, until one cannot be read: their scores, item by item. -/
def State.scoreRows (s : State) (q : Nat) (c : BitVec 512) (wrong : Option Nat) (queries : List (List Val)) (scales : Option (List Nat)) :
    List Nat → List (List Nat) → Counts → State × (List (List Nat) × Counts × Option Loaded)
  | [], acc, n => (s, acc, n, none)
  | i :: is, acc, n =>
    let f := Fmt.ofCode (Me.fe c)
    let dim := Me.dim c
    let row := dim * f.bits / 8
    match s.load (cf c 16 8 + i * row) row with
    | (s, .data bs) =>
      let vs := valuesOf f (scales.map fun x => (x.drop (i * (dim / 32))).take (dim / 32)) (unpackCodes f dim bs)
      let r := scoreItem wrong c queries i vs
      let m := (q - 128) / 4
      let s := if Me.toTopk c then
          s.setMe m { s.me m with topk := (s.me m).topk.map fun u => u.offer ((Me.base c + i) % 2 ^ 48) s.candMember r.1 } else s
      State.scoreRows s q c wrong queries scales is (acc ++ [r.1]) (n.plus r.2)
    | (s, l) => (s, acc, n, some l)

/-- R349: the array cycles of a SCORE. -/
def arrayCycles (c : BitVec 512) : Nat :=
  let f := if Me.q c ≤ 32 then 8 else if Me.q c ≤ 64 then 4 else if Me.q c ≤ 128 then 2 else 1
  let r := (pairRate (Me.fe c) (Me.fq c)).getD (1, 1)
  let d := if exactBit (Me.numctl c) then r.2 else r.1
  ceilDiv (Me.n c) f * ceilDiv (Me.dim c) d * ceilDiv (Me.q c) 256

/-- The scores, query-major, as bytes. -/
def scoreBytes (nq : Nat) (items : List (List Nat)) : List Byte :=
  (List.range nq).flatMap fun j => items.flatMap fun x => leBytes (x.getD j 0) 4

/-- R263: SCORE's effect. -/
def State.scoreCmd (s : State) (q : Nat) (c : BitVec 512) : State × Done :=
  let m := (q - 128) / 4
  let src := cf c 16 8
  let len := matrixLen (Me.fe c) src (Me.n c) (Me.dim c)
  let breach := s.breached .me m false src len
    || (Me.writeScores c && s.breached .me m true (cf c 24 8) (4 * Me.q c * Me.n c))
  let wrong := if Tab.find (s.me m).batches (Me.sqoff c) = some (Me.q c, Me.dim c) then none else some s.fresh
  let s := s.onlyIf wrong.isSome (·.drawn)
  let queries := (List.range (Me.q c)).map ((s.me m).queryRow c)
  let elems := Me.n c * Me.dim c * (Fmt.ofCode (Me.fe c)).bits / 8
  let r := if Me.fe c = 6 then s.load (align64 (src + elems)) (Me.n c * Me.dim c / 32) else (s, .data [])
  match r with
  | (s, .data bs) =>
    let scales := if Me.fe c = 6 then some (bs.map (·.toNat)) else none
    let s := s.setMe m { s.me m with arrayCycles := BitVec.ofNat 64 (satAdd (2 ^ 64 - 1) (s.me m).arrayCycles.toNat (arrayCycles c)) }
    match s.scoreRows q c wrong queries scales (List.range (Me.n c)) [] {} with
    | (s, items, n, none) =>
      if Me.writeScores c then s.storeResult q (cf c 24 8) (scoreBytes (Me.q c) items) (computeDone n breach)
      else (s, computeDone n breach)
    | (s, _, n, some l) =>
      match s.loadFailed q l with
      | (s, d) => (s, { d with sat := n.sat + b2n n.fast, flush := n.flush, drop := n.drop })
  | (s, l) => s.loadFailed q l

/-- R263: SCORE. -/
def execScore (q : Nat) (s : State) : Out :=
  within (Instr.score q).wf <|
    s.runHead q 0x51 (scoreCheck ((q - 128) / 4)) fun s idx c => s.issueMe q idx c fun s => s.scoreCmd q c

/-! ### TOPK (R264, R355, R356) -/

/-- R264: lists in rank order, each padded to K. -/
def listBytes (k : Nat) (lists : List (List Cand)) : List Byte := lists.flatMap fun l => candBytes (Num.padTo k l)

/-- R264: SELECT's K best of each query's N scores. -/
def selectLists (c : BitVec 512) (member : Nat) (bs : List Byte) : List (List Cand) :=
  (List.range (Me.tq c)).map fun j =>
    bestOf (smaller (Me.numctl c)) (Me.k c) ((List.range (Me.n c)).map fun i =>
      Cand.make (leAt bs (4 * (j * Me.n c + i)) 4) ((Me.tbase c + i) % 2 ^ 48) member 0)

/-- R264: TOPK's effect. -/
def State.topkCmd (s : State) (q : Nat) (c : BitVec 512) : State × Done :=
  let m := (q - 128) / 4
  let dst := cf c 24 8
  match Me.mode c with
  | 0 =>
    (s.setMe m { s.me m with topk := some { q := Me.tq c, k := Me.k c, loff := Me.loff c, order := smaller (Me.numctl c) } }, { status := St.ok })
  | 1 =>
    match (s.me m).topk with
    | none => (s, { status := St.badCommand, cause := 3, detail := 52 })
    | some u =>
      let bs := listBytes u.k ((List.range u.q).map fun j => Tab.get [] u.lists j)
      let breach := s.breached .me m true dst bs.length
      match s.storeResult q dst bs (computeDone {} breach) with
      | (s, d) => (s.setMe m (s.me m).disarm, d)
  | _ =>
    let n := 4 * Me.tq c * Me.n c
    let breach := s.breached .me m false (cf c 16 8) n || s.breached .me m true dst (16 * Me.tq c * Me.k c)
    match s.load (cf c 16 8) n with
    | (s, .data bs) => s.storeResult q dst (listBytes (Me.k c) (selectLists c s.candMember bs)) (computeDone {} breach)
    | (s, l) => s.loadFailed q l

/-- R264: TOPK. -/
def execTopk (q : Nat) (s : State) : Out :=
  within (Instr.topk q).wf <|
    s.runHead q 0x52 (topkCheck ((q - 128) / 4)) fun s idx c => s.issueMe q idx c fun s => s.topkCmd q c

/-! ### QUANT and DEQUANT (R266) -/

namespace Qc
def count (c : BitVec 512) : Nat := cf c 32 8
def fin (c : BitVec 512) : Nat := fld (cf c 40 1) 0 4
def fout (c : BitVec 512) : Nat := fld (cf c 40 1) 4 4
def numctl (c : BitVec 512) : Nat := cf c 41 1
def scaled (c : BitVec 512) : Bool := bitAt (cf c 42 1) 0
/-- The input carries scales: FP4 always, FP8 under SCALED, in DEQUANT. -/
def inScaled (c : BitVec 512) : Bool := opcodeOf c == 0x54 && (fin c == 6 || scaled c)
/-- The output carries scales. -/
def outScaled (c : BitVec 512) : Bool := opcodeOf c == 0x53 && scaled c
end Qc

/-- Bytes from `a` on of `n` elements of a format, with their scales where they carry them. -/
def elemLen (fmt a n : Nat) (isScaled : Bool) : Nat :=
  let len := packedLen (Fmt.ofCode fmt) n
  if isScaled then align64 (a + len) - a + n / 32 else len

/-- R266, R261: the faults of QUANT and DEQUANT. -/
def quantCheck (s : State) (c : BitVec 512) : Option (Nat × Nat) :=
  let legal := if opcodeOf c = 0x53 then quantLegal (Qc.fin c) (Qc.fout c) (Qc.scaled c) else dequantLegal (Qc.fin c) (Qc.fout c) (Qc.scaled c)
  firstFault
    [(legal, 3, 40), (!(Qc.inScaled c || Qc.outScaled c) || Qc.count c % 32 == 0, 3, 32),
     (s.backed (cf c 16 8) (elemLen (Qc.fin c) (cf c 16 8) (Qc.count c) (Qc.inScaled c)), 4, 16),
     (s.backed (cf c 24 8) (elemLen (Qc.fout c) (cf c 24 8) (Qc.count c) (Qc.outScaled c)), 4, 24)]

/-- R266: the output bytes of QUANT or DEQUANT: the elements, and the scales with their offset. -/
def quantOut (c : BitVec 512) (bs : List Byte) : (List Byte × List Byte) × Counts :=
  let fi := Fmt.ofCode (Qc.fin c)
  let fo := Fmt.ofCode (Qc.fout c)
  let n := Qc.count c
  let codes := unpackCodes fi n bs
  if opcodeOf c = 0x53 then
    let r := quant fi fo (Qc.numctl c) (Qc.scaled c) codes
    ((packCodes fo r.1.1, r.1.2.map (BitVec.ofNat 8)), r.2)
  else
    let at_ := align64 (cf c 16 8 + packedLen fi n) - cf c 16 8
    let scales := if Qc.inScaled c then some ((bs.drop at_).map (·.toNat)) else none
    let r := dequant fi fo (Qc.numctl c) scales codes
    ((packCodes fo r.1, []), r.2)

/-- R266: the effect of QUANT or DEQUANT. -/
def State.quantCmd (s : State) (q : Nat) (c : BitVec 512) : State × Done :=
  let src := cf c 16 8
  let dst := cf c 24 8
  let rd := elemLen (Qc.fin c) src (Qc.count c) (Qc.inScaled c)
  let who := if q < 128 then (Consumer.ce, q / 32) else (Consumer.me, (q - 128) / 4)
  let breach := s.breached who.1 who.2 false src rd || s.breached who.1 who.2 true dst (elemLen (Qc.fout c) dst (Qc.count c) (Qc.outScaled c))
  match s.load src rd with
  | (s, .data bs) =>
    let r := quantOut c bs
    match s.storeResult q dst r.1.1 (computeDone r.2 breach) with
    | (s, d) =>
      if St.success d.status && !r.1.2.isEmpty then s.storeResult q (align64 (dst + r.1.1.length)) r.1.2 d else (s, d)
  | (s, l) => s.loadFailed q l

/-- Table MEM-6: the first page of the output that a STRICT region would take in part: elements and scales are written apart. -/
def State.quantStrict (s : State) (c : BitVec 512) : Option Nat :=
  let dst := cf c 24 8
  let n := packedLen (Fmt.ofCode (Qc.fout c)) (Qc.count c)
  (s.strictPart dst n).or (if Qc.outScaled c then s.strictPart (align64 (dst + n)) (Qc.count c / 32) else none)

/-- A QUANT or DEQUANT at the head, on an ME or a CE. -/
def State.issueQuant (s : State) (q : Nat) (idx : Word) (c : BitVec 512) : State :=
  match s.quantStrict c with
  | some a => (s.completeHead q idx c { status := St.narrowWrite, detail := a / 2048 }).narrowRefused a
  | none =>
    let ready := if q < 128 then s.collReady q c && s.winsUnit (40 + q / 32) q c s.collReady
      else s.meReady ((q - 128) / 4) c && s.winsUnit (16 + (q - 128) / 4) q c fun _ c => s.meReady ((q - 128) / 4) c
    if ready then s.issueWith q idx c fun s => s.quantCmd q c else s

/-- R266: QUANT. -/
def execQuant (q : Nat) (s : State) : Out :=
  within (Instr.quant q).wf <| s.runHead q 0x53 quantCheck fun s idx c => s.issueQuant q idx c
/-- R266: DEQUANT. -/
def execDequant (q : Nat) (s : State) : Out :=
  within (Instr.dequant q).wf <| s.runHead q 0x54 quantCheck fun s idx c => s.issueQuant q idx c

end Sys2Proof.Machine
end

