-- ==== Sys2Proof/Machine/Cores.lean ====
section
/-!
DEFINITION. The core clusters (R358–R369): LAUNCH and its end, and what a core's custom CSRs and WFI do.
-/
namespace Sys2Proof.Machine

/-! ### LAUNCH (R267, R362, R366–R368) -/

/-- The cores that a mask selects. -/
def coresOf (mask : Nat) : List Nat := (List.range 8).filter (bitAt mask)

/-- R267, R368: the faults of a LAUNCH. -/
def launchCheck (cl : Nat) (s : State) (c : BitVec 512) : Option (Nat × Nat) :=
  firstFault [(cf c 40 1 != 0, 3, 40), ((s.cl cl).imageValid, 3, 0)]

/-- CL_SLEEP: a core that leaves its clock-gated sleep counts the cycles it slept. -/
def State.endSleep (s : State) (cl k : Nat) : State :=
  let c := s.core cl k
  if c.asleep then (s.setCore cl k { c with asleep := false }).countN (Cnt.cl cl (4 + k)) (20 * (s.now - c.sleepSince)) else s

/-- R362, R366: one selected core takes the LAUNCH. -/
def State.deliver (s : State) (cl : Nat) (c : BitVec 512) (k : Nat) : State :=
  (s.endSleep cl k).modCore cl k fun x => { x with
    entry := BitVec.ofNat 64 (cf c 16 8), arg0 := BitVec.ofNat 64 (cf c 24 8), arg1 := BitVec.ofNat 64 (cf c 32 8)
    launchSeq := (x.launchSeq + 1) % 65536, launchPending := true, state := .busy, dirty := [], dirtyAt := [], dataUe := none }

/-- R366: a LAUNCH starts once every core in CORE_MASK is IDLE. -/
def State.issueLaunch (s : State) (q : Nat) (idx : Word) (c : BitVec 512) : State :=
  let cl := (q - 208) / 4
  let ready := fun (st : State) (_ : Nat) (c : BitVec 512) =>
    st.unitTakes (32 + cl) && (coresOf (cf c 40 1)).all fun k => (st.core cl k).state == .idle
  if ready s q c && s.winsUnit (32 + cl) q c (ready s) then
    let tok := s.issued
    let s := s.issue q idx c none
    let s := forEach (coresOf (cf c 40 1)) (fun k st => st.deliver cl c k) s
    s.setCl cl { s.cl cl with launches := (s.cl cl).launches ++ [({ queue := q, tok := tok, mask := cf c 40 1 } : Launch)] }
  else s

/-- R267: LAUNCH. -/
def execLaunch (q : Nat) (s : State) : Out :=
  within (Instr.launch q).wf <|
    s.runHead q 0x55 (launchCheck ((q - 208) / 4)) fun s idx c => s.issueLaunch q idx c

/-- R367: LAUNCH_TIMEOUT: TIMEOUT has expired: the cores still BUSY are reset. -/
def State.launchTimeout (s : State) (q : Nat) (x : Inflight) : State :=
  ((s.stripCommand q x).finish q x.tok { status := St.timeout, detail := noObject }).raiseOn Det.cmdTimeout (.queue q)

/-- R367: LAUNCH_TIMEOUT. -/
def execLaunchTimeout (q : Nat) (idx : Word) (s : State) : Out :=
  within (Instr.launchTimeout q idx).wf <|
    match (s.queue q).inflight.find? fun x => x.idx == idx && opcodeOf x.cmd == 0x55 && x.done.isNone with
    | some x => if s.live && cf x.cmd 44 4 != 0 && decide (x.since + cf x.cmd 44 4 ≤ s.now) then s.launchTimeout q x else s
    | none => s

/-! ### A kernel's end (R362, R366, R367) -/

/-- A list of ascending addresses cut into runs of consecutive ones. -/
def runsOf : List Nat → List (Nat × Nat)
  | [] => []
  | a :: as =>
    match runsOf as with
    | (b, n) :: rs => if a + 1 = b then (a, n + 1) :: rs else (a, 1) :: (b, n) :: rs
    | [] => [(a, 1)]

/-- R361, R362: a core's dirty device-memory bytes are written to memory. A page that cannot take them is recorded as the LAUNCH's
error (Table MEM-7). -/
def State.cleanCore (s : State) (cl k : Nat) : State :=
  let c := s.core cl k
  let s := forEach (runsOf c.dirtyAt) (fun x st =>
    match st.store x.1 (c.dirty.readN x.1 x.2) with
    | (st, .ok) => st
    | (st, .strict _) => st
    | (st, .ue page) => (st.modCore cl k fun y => { y with dataUe := y.dataUe.or (some page) }).memFault (.cl cl) Det.rmwUe page
    | (st, .unbacked a) => st.unbackedEvent a) s
  s.modCore cl k fun y => { y with dirty := [], dirtyAt := [] }

/-- R166: a core's accesses under a lease in breach. -/
def State.coreBreach (s : State) (cl k : Nat) : Bool :=
  (runsOf (s.core cl k).dirtyAt).any fun x => s.breached .cluster cl true x.1 x.2

/-- R367: a LAUNCH all of whose cores have become IDLE completes. -/
def State.launchEnds (s : State) (cl : Nat) (l : Launch) : State :=
  if (coresOf l.mask).all fun k => (s.core cl k).state != .busy then
    let ue := (coresOf l.mask).findSome? fun k => (s.core cl k).dataUe
    let s := s.setCl cl { s.cl cl with launches := (s.cl cl).launches.filter fun x => x != l }
    s.finish l.queue l.tok (match ue with
      | some page => { status := St.dataUe, detail := page }
      | none => { status := if l.breach then St.leaseBreach else St.ok })
  else s

/-- R366: a write of 1 to bit 0 of olsdone. -/
def State.kernelDone (s : State) (cl k : Nat) : State :=
  match (s.core cl k).state with
  | .reset => s
  | .idle => (s.setCl cl { s.cl cl with strayDone := satAdd 0xFFFF (s.cl cl).strayDone 1 }).eventC Det.strayDone (.cl cl) k
  | .busy =>
    let breach := s.coreBreach cl k
    let s := (s.cleanCore cl k).modCore cl k fun c => { c with state := .idle, launchPending := false }
    match (s.cl cl).launches.find? fun l => bitAt l.mask k with
    | some l =>
      let l' := { l with breach := l.breach || breach }
      let s := s.setCl cl { s.cl cl with launches := (s.cl cl).launches.map fun x => if x == l then l' else x }
      s.launchEnds cl l'
    | none => s

/-- R366: OLSDONE. -/
def execOlsdone (cl core : Nat) (s : State) : Out :=
  within (Instr.olsdone cl core).wf <| if s.live then s.kernelDone cl core else s

/-! ### Sleep and wake (R365) -/

/-- R365: WFI completes at once, and a sleeping core wakes. -/
def Core.wakes (c : Core) : Bool := (c.wpend &&& c.wake) != 0 || c.launchPending || c.irqPending

/-- R365: WFI. -/
def execWfi (cl core : Nat) (s : State) : Out :=
  within (Instr.wfi cl core).wf <|
    let c := s.core cl core
    if s.live && c.state != .reset && !c.asleep && !c.wakes then s.setCore cl core { c with asleep := true, sleepSince := s.now } else s

/-- R365: CORE_WAKE. -/
def execCoreWake (cl core : Nat) (s : State) : Out :=
  within (Instr.coreWake cl core).wf <| if s.live && (s.core cl core).wakes then s.endSleep cl core else s

/-- R363: OLSWPEND_CLEAR: CSRRC and CSRRCI clear the named bits. -/
def execOlswpendClear (cl core : Nat) (mask : DWord) (s : State) : Out :=
  within (Instr.olswpendClear cl core mask).wf <|
    if s.live && (s.core cl core).state != .reset then s.modCore cl core fun c => { c with wpend := c.wpend &&& ~~~ mask } else s

/-- R364: a queue push. -/
def State.push (s : State) (cl k : Nat) (v : DWord) : State :=
  let q := fld v.toNat 32 8
  let x := s.queue q
  let s := s.bell q (BitVec.ofNat 32 v.toNat) (cl + 1)
  let r := if x.producer ≠ cl + 1 ∨ x.state = .disabled ∨ x.state = .resetting then 1
    else if (s.queue q).haltCause = .badDoorbell ∧ x.state ≠ .halted ∧ (s.queue q).state = .halted then 2 else 0
  s.modCore cl k fun c => { c with pushResult := r }

/-- R364: OLSPUSH. -/
def execOlspush (cl core : Nat) (v : DWord) (s : State) : Out :=
  within (Instr.olspush cl core v).wf <| if s.live && (s.core cl core).state != .reset then s.push cl core v else s

/-- R367, R368: CORE_REINITIALISED: the resident image has brought a core that was reset to IDLE. -/
def execCoreReinitialised (cl core : Nat) (s : State) : Out :=
  within (Instr.coreReinitialised cl core).wf <|
    if s.released && (s.cl cl).imageValid && (s.resetOf (32 + cl)).inReset.isNone && (s.core cl core).state == .reset then
      s.modCore cl core fun c => { c with state := .idle }
    else s

end Sys2Proof.Machine
end

