-- ==== Sys2Proof/Machine/Data.lean ====
section
/-!
DEFINITION. The data group of Mamus and FENCE (chapter 9), which run on the DMA engine.
-/
namespace Sys2Proof.Machine

/-! ### Data commands (R250–R254, R371, R372) -/

/-- R371, Table FLT-4: CHANNEL names a SOFTWARE channel or one that is HELD; then the checks of the operation. -/
def dataCheck (s : State) (c : BitVec 512) : Option (Nat × Nat) :=
  let ch := cf c 44 1
  if ch ≠ 255 ∧ ((s.chan ch).software ∨ s.held (320 + ch)) then some (3, 44) else s.xferFault (setOfCommand c)

/-- R254: the channel that a data command takes: the one it names, or the lowest-numbered free QUEUE channel. -/
def State.channelFor (s : State) (c : BitVec 512) : Option Nat :=
  let free := fun ch => (s.chan ch).state == .idle && !(s.chan ch).software && !s.held (320 + ch)
  if cf c 44 1 = 255 then (List.range 64).find? free else if free (cf c 44 1) then some (cf c 44 1) else none

/-- R372: a data command issues on its channel and starts, or waits at the head for a free one. -/
def State.runData (s : State) (q : Nat) (idx : Word) (c : BitVec 512) : State :=
  match s.channelFor c with
  | none => s
  | some ch =>
    let tok := s.issued
    let s := s.issue q idx c (some ch)
    (s.modChan ch fun x => { x with active := setOfCommand c, cmd := some (q, tok), done := none, remote := none }).startXfer ch

/-- R250: COPY. -/
def execCopy (q : Nat) (s : State) : Out :=
  within (Instr.copy q).wf <| s.runHead q 0x30 dataCheck fun s idx c => s.runData q idx c
/-- R251: FILL. -/
def execFill (q : Nat) (s : State) : Out :=
  within (Instr.fill q).wf <| s.runHead q 0x31 dataCheck fun s idx c => s.runData q idx c
/-- R252: COMPARE. -/
def execCompare (q : Nat) (s : State) : Out :=
  within (Instr.compare q).wf <| s.runHead q 0x32 dataCheck fun s idx c => s.runData q idx c
/-- R250: GATHER. -/
def execGather (q : Nat) (s : State) : Out :=
  within (Instr.gather q).wf <| s.runHead q 0x33 dataCheck fun s idx c => s.runData q idx c
/-- R250: SCATTER. -/
def execScatter (q : Nat) (s : State) : Out :=
  within (Instr.scatter q).wf <| s.runHead q 0x34 dataCheck fun s idx c => s.runData q idx c

/-! ### FENCE (R249, R383) -/

/-- R249: the FENCE in flight on a queue. -/
def Queue.fence (x : Queue) : Option Inflight := x.inflight.find? fun y => opcodeOf y.cmd == 0x25 && y.done.isNone

/-- R249: a FENCE issues: with SCOPE 0 it completes at once; with HOST it reads the last host address written. -/
def State.runFence (s : State) (q : Nat) (idx : Word) (c : BitVec 512) : State :=
  let scope := cf c 16 1
  if scope = 0 then s.completeOk q idx c
  else
    let tok := s.issued
    let last := (s.queue q).lastHost
    let s := s.issue q idx c none
    match bitAt scope 1, last with
    | true, some a =>
      let s := s.modQueue q fun x => { x with lastHost := none }
      if s.hostOpen then s.readHost a 0 none (some (q, tok)) true
      else s.finish q tok { status := St.dataUe, detail := hostDetail a }
    | _, _ => s

/-- R249: FENCE. -/
def execFence (q : Nat) (s : State) : Out :=
  within (Instr.fence q).wf <| s.runHead q 0x25 noCheck fun s idx c => if s.syncTakes q then s.runFence q idx c else s

/-- R383: a late failure that a FENCE of this scope covers. -/
def LateFail.under (f : LateFail) (q scope : Nat) : Bool := f.queue == q && bitAt scope (if f.remote then 2 else 0)

/-- R249, R383: the scopes of a FENCE have drained. Device writes are accepted as they are issued. -/
def State.fenceDrained (s : State) (q tok scope : Nat) : Bool :=
  !(bitAt scope 2 && s.trailOpen q) && !(s.host.reads.any fun r => r.cmd == some (q, tok))

/-- R249, R383: FENCE_COMPLETE. -/
def execFenceComplete (q : Nat) (s : State) : Out :=
  within (Instr.fenceComplete q).wf <|
    match (s.queue q).fence with
    | none => s
    | some x =>
      let scope := cf x.cmd 16 1
      if s.live && s.fenceDrained q x.tok scope then
        match s.dma.lateFails.find? fun f => f.under q scope with
        | some f =>
          ({ s with dma.lateFails := s.dma.lateFails.filter fun f => !f.under q scope }).finish q x.tok
            { status := St.dataUe, detail := f.page }
        | none => s.finish q x.tok { status := St.ok }
      else s

end Sys2Proof.Machine
end

