-- ==== Sys2Proof/Machine/Dma.lean ====
section
/-!
DEFINITION. Commands of the DMA engine (chapters 14 and 21).
-/
namespace Sys2Proof.Machine

/-- R373: GO. -/
def State.cmdGo (s : State) (ch : Nat) : State :=
  let c := s.chan ch
  if c.software ∧ c.state = .idle then s.goChan ch else s.setRefused ch

/-- R373, R375: ARM. On an IDLE channel it promotes at once, and is refused where GO would be. -/
def State.cmdArm (s : State) (ch : Nat) : State :=
  let c := s.chan ch
  if !c.software || c.shadowArmed then s.setRefused ch
  else if !(s.ring c.shadow.ring).enabled || s.held (320 + ch) then s.chanRefused ch
  else if c.state = .idle then s.promote ch
  else s.modChan ch fun c => { c with shadowArmed := true }

/-- R373: DISARM. -/
def State.cmdDisarm (s : State) (ch : Nat) : State :=
  if (s.chan ch).software ∧ (s.chan ch).shadowArmed then s.modChan ch fun c => { c with shadowArmed := false } else s.setRefused ch

/-- R384, R385: ABORT of an ARMED or RUNNING SOFTWARE transfer. -/
def State.cmdAbort (s : State) (ch : Nat) : State :=
  let c := s.chan ch
  if c.software ∧ (c.state = .armed ∨ c.state = .running) then s.stopChan ch else s.setRefused ch

/-- R385: CLEAR of a HALTED channel. -/
def State.cmdClear (s : State) (ch : Nat) : State :=
  if (s.chan ch).state = .halted then
    let s := s.modChan ch fun c => { c with state := .idle }
    if (s.chan ch).shadowArmed then s.promote ch else s
  else s.setRefused ch

/-- R373: DMA_GO. -/
def execDmaGo (ch : Nat) (s : State) : Out := within (Instr.dmaGo ch).wf <| s.whenReleased fun s => s.cmdGo ch
/-- R373: DMA_ARM. -/
def execDmaArm (ch : Nat) (s : State) : Out := within (Instr.dmaArm ch).wf <| s.whenReleased fun s => s.cmdArm ch
/-- R373: DMA_DISARM. -/
def execDmaDisarm (ch : Nat) (s : State) : Out := within (Instr.dmaDisarm ch).wf <| s.whenReleased fun s => s.cmdDisarm ch
/-- R384: DMA_ABORT. -/
def execDmaAbort (ch : Nat) (s : State) : Out := within (Instr.dmaAbort ch).wf <| s.whenReleased fun s => s.cmdAbort ch
/-- R385: DMA_CLEAR. -/
def execDmaClear (ch : Nat) (s : State) : Out := within (Instr.dmaClear ch).wf <| s.whenReleased fun s => s.cmdClear ch

/-- R371: a write to DMA_CH_CFG. -/
def State.writeChCfg (s : State) (ch v : Nat) : State :=
  let c := s.chan ch
  if c.state = .idle ∧ !c.shadowArmed ∧ c.trail.isNone then
    s.modChan ch fun c => { c with software := bitAt v 0, flagged := bitAt v 1 }
  else s.chanRefused ch

/-- R371: DMA_CH_CFG_WRITE. -/
def execDmaChCfgWrite (ch : Nat) (v : Word) (s : State) : Out :=
  within (Instr.dmaChCfgWrite ch v).wf <| s.whenReleased fun s => s.writeChCfg ch v.toNat

/-- Table DMA-3, R376: an ARMED transfer whose start condition has been met starts; one that waits on a channel that failed
completes with ABANDONED. -/
def State.dmaStart (s : State) (ch : Nat) : State :=
  let c := s.chan ch
  if c.state ≠ .armed then s
  else
    match c.met with
    | some true => s.startXfer ch
    | some false => s.endXfer ch cancelDone
    | none => if c.active.start = 1 ∧ s.timed ∧ s.reached c.active.eventStamp then s.startXfer ch else s

/-- R375: DMA_START. -/
def execDmaStart (ch : Nat) (s : State) : Out := within (Instr.dmaStart ch).wf <| if s.released then s.dmaStart ch else s

/-- R377: DMA_BURST. -/
def execDmaBurst (s : State) : Out := within true <| if s.released then s.dmaTurn else s

/-- R382: DMA_COMPLETE. -/
def execDmaComplete (ch : Nat) (s : State) : Out := within (Instr.dmaComplete ch).wf <| if s.live then s.completeXfer ch else s

/-- The first STREAM slot for SELF in the ingress buffer of port `p`. -/
def State.streamAt (s : State) (p : Nat) : Option (Nat × Slot) :=
  (numbered 0 ((s.port p).ingress.map (·.2))).find? fun x => x.2.eclass == .stream && x.2.route == s.self

/-- R392, R393: STREAM_LANDING. -/
def execStreamLanding (p : Nat) (s : State) : Out :=
  within (Instr.streamLanding p).wf <|
    match s.live, s.streamAt p with
    | true, some (i, sl) => s.landSlot p i sl
    | _, _ => s

/-- R391.4, R394: LANDING_SEGMENT_DONE. -/
def execLandingSegmentDone (source optag seg : Nat) (s : State) : Out :=
  within (Instr.landingSegmentDone source optag seg).wf <|
    match s.live, s.stream source optag with
    | true, some x => if x.completeAt.isSome then s else s.checkLanding x seg
    | _, _ => s

/-- R395: STREAM_STALL. -/
def execStreamStall (ch : Nat) (s : State) : Out :=
  within (Instr.streamStall ch).wf <| if s.live then (s.sideStall ch true).sideStall ch false else s

/-- R392: a completed stream entry is kept for one phrase. -/
def execStreamEntryExpiry (source optag : Nat) (s : State) : Out :=
  within (Instr.streamEntryExpiry source optag).wf <|
    match s.stream source optag with
    | some x =>
      if x.completeAt.any fun t => decide (t + 262144 ≤ s.now) then
        { s with dma.streams := s.dma.streams.filter fun y => !y.is source optag }
      else s
    | none => s

/-- R377: no channel is ARMED, RUNNING or COMPLETING. -/
def State.dmaQuiet (s : State) : Bool := s.dma.channels.all fun c => c.2.state == .idle || c.2.state == .halted

/-- R377: a write to DMA_CTRL. -/
def State.writeShare (s : State) (v : Nat) : State :=
  if s.dmaQuiet then { s with dma.serial := bitAt v 0, dma.holder := none }
  else { s with dma.shareRefused := true }.eventC Det.setRefused .engine

/-- R377: DMA_SHARE_WRITE. -/
def execDmaShareWrite (v : Word) (s : State) : Out :=
  within (Instr.dmaShareWrite v).wf <| s.whenReleased fun s => s.writeShare v.toNat

/-- R387, R555: DMA_LAND_CTRL_WRITE. -/
def execDmaLandCtrlWrite (w : Nat) (v : DWord) (s : State) : Out :=
  within (Instr.dmaLandCtrlWrite w v).wf <| s.whenReleased fun s => s.writeLandCtrl w v.toNat

end Sys2Proof.Machine
end

