-- ==== Sys2Proof/Machine/Mesh.lean ====
section
/-!
DEFINITION. The espalier's geometry (R110, R113, R115) and the tracing of paths through an image's cycle tables (R116).
-/
namespace Sys2Proof.Machine

/-- The code of a link in an output field (Table SCR-7). -/
def Link.code : Link → Nat
  | .n => 1 | .e => 2 | .s => 3 | .w => 4 | .l0 => 5 | .l1 => 6 | .l2 => 7

/-- All links, in the order of the output fields. -/
def Link.all : List Link := [.n, .e, .s, .w, .l0, .l1, .l2]

/-- A unit on the mesh (Table ESP-2). -/
inductive Attach where
  | vp (n : Nat) | me (n : Nat) | slice (n : Nat) | ce (n : Nat) | cl (n : Nat) | host | dma | cxl (n : Nat) | cue | graft
deriving DecidableEq, Repr

/-- Table ESP-2: the unit at an attach point of router `r`. -/
def attachAt (r : Nat) (l : Link) : Option Attach :=
  let row := r / 8
  let c := r % 8
  let mid := decide (2 ≤ c) && decide (c ≤ 5)
  match l with
  | .l0 =>
    if c = 0 then some (.vp row) else if c = 7 then some (.vp (8 + row))
    else if mid && decide (row ≤ 1) then some (.me (4 * row + (c - 2)))
    else if mid && decide (6 ≤ row) then some (.me (8 + 4 * (row - 6) + (c - 2)))
    else if mid && row == 2 then some (.cl (c - 2))
    else if mid && row == 5 then some (.cl (c + 2))
    else match row, c with
      | 3, 1 => some (.ce 0) | 4, 1 => some (.ce 1) | 3, 6 => some (.ce 2) | 4, 6 => some (.ce 3)
      | 0, 1 => some .host
      | 1, 1 => some (.cxl 0) | 1, 6 => some (.cxl 1) | 6, 1 => some (.cxl 2) | 6, 6 => some (.cxl 3)
      | 3, 3 => some .cue | 4, 4 => some .graft
      | _, _ => none
  | .l1 | .l2 =>
    let k := if l = .l1 then 0 else 1
    if mid && decide (row ≤ 1) then some (.slice (2 * (4 * row + (c - 2)) + k))
    else if mid && decide (6 ≤ row) then some (.slice (2 * (8 + 4 * (row - 6) + (c - 2)) + k))
    else if row = 0 ∧ c = 1 ∧ l = .l1 then some .dma else none
  | .n | .e | .s | .w => none

/-- The router beyond a mesh link, and the input by which it is reached (R110). -/
def neighbourOf (r : Nat) (l : Link) : Option (Nat × Link) :=
  match l with
  | .n => if 8 ≤ r then some (r - 8, .s) else none
  | .s => if r < 56 then some (r + 8, .n) else none
  | .e => if r % 8 < 7 then some (r + 1, .w) else none
  | .w => if 0 < r % 8 then some (r - 1, .e) else none
  | .l0 | .l1 | .l2 => none

/-- R95: router `r` has the link or attach point. -/
def hasLink (r : Nat) (l : Link) : Bool := (neighbourOf r l).isSome || (attachAt r l).isSome

/-- The clock region of a router: 4 for the edge ring, else the quadrant. -/
def regionOfRouter (r : Nat) : Nat :=
  let c := r % 8
  if c = 0 ∨ c = 7 then 4 else (if r < 32 then 0 else 2) + (if c ≤ 3 then 0 else 1)

/-- Table ESP-3: the latency of an output of router `r`. -/
def latency (r : Nat) (l : Link) : Nat :=
  match neighbourOf r l with
  | some (r', _) => if regionOfRouter r = regionOfRouter r' then 1 else 3
  | none =>
    match attachAt r l with
    | some (.slice _) => 3
    | _ => 1

/-- The field of output `o` in a cycle entry. -/
def outField (entry : Nat) (o : Link) : Nat := fld entry (4 * (o.code - 1)) 4

/-- The outputs that an entry drives from input `l`. At an edge router, only the input named by the first nonzero output is
served (R122). -/
def outputsFor (r entry : Nat) (l : Link) : List Link :=
  let edge := r % 8 == 0 || r % 8 == 7
  let first := (Link.all.map (outField entry)).find? fun x => x != 0
  if edge && first != some l.code then [] else Link.all.filter fun o => outField entry o == l.code

/-- The KINDs that a unit sends and serves: 0 slot part, 1 memory request, 2 memory data, 3 cue messages, 4 candidates,
5 unit-to-unit data. DEDUCED from what each unit does. -/
def Attach.sends : Attach → List Nat
  | .vp _ => [0]
  | .me _ => [1, 2, 4, 5]
  | .slice _ | .cxl _ => [2]
  | .ce _ => [0, 1, 2, 4, 5]
  | .cl _ => [1, 2, 5]
  | .host => [1, 2]
  | .dma => [0, 1, 2]
  | .cue => [0, 3]
  | .graft => [0, 3]

/-- The KINDs that a unit accepts (R117). -/
def Attach.serves : Attach → List Nat
  | .vp _ => [0, 3]
  | .me _ => [2, 5]
  | .slice _ | .cxl _ => [0, 1, 2]
  | .ce _ => [0, 2, 3, 4, 5]
  | .cl _ => [2, 5]
  | .host => [1, 2]
  | .dma => [2, 5]
  | .cue => [0, 3]
  | .graft => [0, 3]

/-- Where a path ends: router, attach point, and core cycles from its injection to its arrival; or a rule that it breaks. -/
inductive PathEnd where
  | at (r : Nat) (l : Link) (after : Nat)
  | bad
deriving DecidableEq, Repr

/-- The table entry of router `r` in core cycle `c` of the beat whose beat in measure is `b`. -/
def Img.entryAt (m : Mem) (r b c : Nat) : Nat := Img.cycleEntry m (Img.selector m b) r c

/-- R115, R116: the ends of the flit on input `l` of router `r` in cycle `c` of beat `b`, `age` link cycles after its
injection. A path that is still on a link after 40 link cycles, or runs into the next measure's first beat, is bad. -/
def Img.trace (m : Mem) : Nat → Nat → Link → Nat → Nat → Nat → List PathEnd
  | 0, _, _, _, _, _ => [.bad]
  | f + 1, r, l, b, c, age =>
    (outputsFor r (Img.entryAt m r b c) l).flatMap fun o =>
      let lat := latency r o
      let t := c + lat
      match neighbourOf r o with
      | none => [.at r o (age + lat)]
      | some (r', l') =>
        if 40 ≤ age + lat then [.bad]
        else if t < 20 then Img.trace m f r' l' b t (age + lat)
        else if b = 4095 then [.bad]
        else Img.trace m f r' l' (b + 1) (t - 20) (age + lat)

/-- The path injected at attach point `l` of router `r` in cycle `c` of beat `b`. -/
def Img.path (m : Mem) (r : Nat) (l : Link) (b c : Nat) : List PathEnd := Img.trace m 41 r l b c 0

/-- The unit at the end of a path. -/
def PathEnd.unit : PathEnd → Option Attach
  | .at r l _ => attachAt r l
  | .bad => none

/-- R116: the path of a unit is dead. -/
def deadPath (u : Attach) (es : List PathEnd) : Bool :=
  decide (64 < es.length) || es.any fun e =>
    match e.unit with
    | none => true
    | some v => !(u.sends.any fun k => v.serves.contains k)

/-- Every attach point with its unit. -/
def attachPoints : List (Nat × Link × Attach) :=
  (List.range 64).flatMap fun r => [Link.l0, Link.l1, Link.l2].filterMap fun l => (attachAt r l).map fun u => (r, l, u)

/-- R116: the dead paths of an image, one for each attach point, cycle table and cycle: dead in some beat that runs the table. -/
def Img.deadPaths (m : Mem) : Nat :=
  (attachPoints.flatMap fun x => (List.range (Img.cycleCount m)).flatMap fun t => (List.range 20).filter fun c =>
    (List.range 4096).any fun b => Img.selector m b == t && deadPath x.2.2 (Img.path m x.1 x.2.1 b c)).length

/-- The router and attach point of voice port `p`. -/
def routerOfPort (p : Nat) : Nat := if p < 8 then 8 * p else 8 * (p - 8) + 7

/-- R117, R120: the live paths from voice port `p` in beat `b`, by cycle, with the units at their ends and the arrival of each. -/
def Img.portPaths (m : Mem) (p b : Nat) : List (Nat × List (Attach × Nat)) :=
  (List.range 20).filterMap fun c =>
    let es := Img.path m (routerOfPort p) .l0 b c
    if es.isEmpty || deadPath (.vp p) es then none
    else some (c, es.filterMap fun e =>
      match e, e.unit with
      | .at _ _ a, some u => some (u, c + a)
      | _, _ => none)

end Sys2Proof.Machine
end

