-- ==== Sys2Proof/Machine/ScoreCheck.lean ====
section
/-!
DEFINITION. The load checks of Table SCR-9 (R104). Each check answers the byte offset of the first offending field, or none
where the image passes.
-/
namespace Sys2Proof.Machine

/-- A check's outcome: the offset of the first offending field. -/
abbrev Check := Option Nat

/-- The offset `o` where the condition is broken. -/
def need (ok : Bool) (o : Nat) : Check := if ok then none else some o

/-- The lesser of two offsets. -/
def lesser (a b : Check) : Check :=
  match a, b with
  | some x, some y => some (min x y)
  | some x, none => some x
  | none, y => y

/-- R104: the first failure, in image order, of a list of checks. -/
def firstOf (cs : List Check) : Check := cs.foldl lesser none

/-- R104: the first failure, in image order, over the items of a list. -/
def eachOf {α : Type} (xs : List α) (f : α → Check) : Check := xs.foldl (fun a x => lesser a (f x)) none

/-- What the checks compare an image with. -/
structure CheckCtx where
  active : Option Mem          -- the active score
  serial : Nat                 -- OLS_SERIAL
  hasExpander : Nat → Bool     -- the tier-2 port has an expander

namespace Img

/-- 0x01 BAD_MAGIC. -/
def chkMagic (m : Mem) : Check := firstOf [need (magic m == 0x43534C4F) 0, need (format m == 1) 4]

/-- The section is present. -/
def hasSection (m : Mem) (n : Nat) : Bool := off m n != 0

/-- R84: one directory entry. -/
def chkDir (m : Mem) (n : Nat) : Check :=
  let o := off m n
  let l := len m n
  let clash := decide (0 < l) && (List.range n).any fun k =>
    hasSection m k && decide (0 < len m k) && decide (off m k < o + l) && decide (o < off m k + len m k)
  if n < 10 then
    if o = 0 then firstOf [need (scion m) (128 + 8 * n), need (l == 0) (132 + 8 * n)]
    else firstOf [need (decide (256 ≤ o) && o % 8 == 0 && (l != wantLen m n || decide (o + l ≤ length m) && !clash)) (128 + 8 * n),
      need (l == wantLen m n) (132 + 8 * n)]
  else firstOf [need (o == 0) (128 + 8 * n), need (l == 0) (132 + 8 * n)]

/-- 0x02 BAD_LENGTH. -/
def chkLength (m : Mem) : Check :=
  let n := length m
  firstOf ([need (n % 8 == 0 && decide (256 ≤ n) && decide (n ≤ 1048576)) 8,
    need (decide (1 ≤ chorusSize m) && decide (chorusSize m ≤ 1024)) 36,
    need (decide (1 ≤ partCount m) && decide (partCount m ≤ 256)) 48, need (decide (routeCount m ≤ 4096)) 50,
    need (decide (dtreeCount m ≤ 64)) 52, need (decide (1 ≤ cycleCount m) && decide (cycleCount m ≤ 16)) 53,
    need (decide (leaseCount m ≤ 256)) 54, need (decide (pairCount m ≤ 1024)) 56] ++ (List.range 16).map (chkDir m))

/-- The CRC-64 over the image with bytes 120–127 taken as 0. -/
def computedCrc (m : Mem) : Nat :=
  (crc64 (m.readN 0 120 ++ List.replicate 8 0 ++ m.readN 128 (length m - 128))).toNat

/-- 0x03 BAD_CRC. -/
def chkCrc (m : Mem) : Check := need (crc m == computedCrc m) 120

/-- 0x04 BAD_BASE. -/
def chkBase (x : CheckCtx) (m : Mem) : Check :=
  match scion m, x.active with
  | true, none => some 24
  | true, some a => firstOf [need (baseFingerprint m == fingerprint a) 24, need (baseSequence m == sequence a) 32]
  | false, _ => firstOf [need (baseFingerprint m == 0) 24, need (baseSequence m == 0) 32]

/-- 0x05 SEQ_STALE. -/
def chkSeq (x : CheckCtx) (m : Mem) : Check :=
  match x.active with
  | none => none
  | some a => need (idxLater (sequence a) (sequence m)) 12

/-- 0x06 BAD_EPOCH. -/
def chkEpoch (x : CheckCtx) (m : Mem) : Check :=
  firstOf [need (fingerprint m != 0) 16, need (epoch m != 0 && some (epoch m) != x.active.map epoch) 39]

/-- R85: the roster entries in order, with the entries seen so far. -/
def chkRosterFrom (m : Mem) : Nat → List Nat → List Nat → Check
  | k, [], seen => need (seen.length == chorusSize m) (off m 0 + 8 * (k - 1))
  | k, e :: es, seen =>
    if e = 0 then chkRosterFrom m (k + 1) es seen
    else if seen.contains e || decide (chorusSize m ≤ seen.length) then some (off m 0 + 8 * k)
    else chkRosterFrom m (k + 1) es (e :: seen)

/-- 0x07 BAD_ROSTER. -/
def chkRoster (x : CheckCtx) (m : Mem) : Check :=
  firstOf [need (decide (self m < 1024)) 46, chkRosterFrom m 0 ((List.range 1024).map (roster m)) [],
    need (roster m (self m) == x.serial) (off m 0 + 8 * self m)]

/-- Table SCR-12. -/
def dimLimits (topology : Nat) : Nat × Nat × Nat :=
  match topology with
  | 0 => (17, 1, 1) | 1 => (64, 1, 1) | 2 => (32, 32, 1) | _ => (16, 8, 8)

/-- 0x08 BAD_TOPOLOGY. -/
def chkTopology (m : Mem) : Check :=
  let l := dimLimits (topology m)
  firstOf [need (decide (topology m ≤ 3)) 38, need (decide (1 ≤ dimX m) && decide (dimX m ≤ l.1)) 40,
    need (decide (1 ≤ dimY m) && decide (dimY m ≤ l.2.1)) 42, need (decide (1 ≤ dimZ m) && decide (dimZ m ≤ l.2.2)) 44,
    need (decide (chorusSize m ≤ dimX m * dimY m * dimZ m)) 44]

/-- The ports of an image's gang. -/
def gangOf (m : Mem) (g : Nat) : List Nat := (List.range 16).filter fun p => enabled m p && gang m p == g

/-- The size that Table VOX-13 gives a gang without EXPRESS. -/
def gangSize (topology : Nat) : Nat :=
  match topology with
  | 0 => 1 | 1 => 8 | 2 => 4 | _ => 2

/-- R86, R87: one port. -/
def chkPort (m : Mem) (p : Nat) : Check :=
  let o := portOff m p
  let n := neighbour m p
  let t := off m 2 + 2 * p * 2048
  let g := gangOf m (gang m p)
  let low := g.headD p
  let dimOk := if topology m ≤ 1 || express m p then dim m p == 3
    else if topology m = 2 then decide (dim m p ≤ 1) else decide (dim m p ≤ 2)
  if enabled m p then
    firstOf [need (decide (n < 1024) && roster m n != 0 && n != self m) o, need (decide (gang m p ≤ 15)) (o + 2),
      need (decide (1 ≤ land m p)) (o + 3), need (decide (farPort m p ≤ 15)) (o + 4), need dimOk (o + 6),
      need (decide (sense m p ≤ 1)) (o + 7),
      need (neighbour m low == n) o, need (express m low == express m p) (o + 5), need (dim m low == dim m p) (o + 6),
      need (sense m low == sense m p) (o + 7),
      need (g.getLast? != some p || decide (g.length ∈ [1, 2, 4, 8]) &&
        (express m p || g.length == gangSize (topology m))) (o + 2),
      need (express m p || !((List.range p).any fun r =>
        enabled m r && !express m r && neighbour m r == n && gang m r != gang m p)) o]
  else
    firstOf [need (n == 0xFFFF) o, eachOf (List.range 4096) fun i => need (m.read (t + i) == 0) (t + i)]

/-- 0x09 BAD_PORT. -/
def chkPorts (m : Mem) : Check := eachOf (List.range 16) (chkPort m)

/-- The number of entries of a class in a table. -/
def classCount (m : Mem) (p d c : Nat) : Nat :=
  ((List.range 4096).filter fun b => classCode m p d b == (if c = 7 then 15 else c)).length

/-- R88: the gap of `n` beats before beat `b` holds a CUE entry, counting cyclically. -/
def cueNear (m : Mem) (p d b : Nat) : Bool := (List.range 32).any fun i => classCode m p d ((b + i) % 4096) == 1

/-- R88: one slot-class table. -/
def chkTable (m : Mem) (p d : Nat) : Check :=
  let t := off m 2 + (2 * p + d) * 2048
  let w := portOff m p + 8 + 16 * d
  firstOf [
    eachOf (List.range 8) fun c => need (classCount m p d c == weight m p d c) (w + 2 * c),
    need (((List.range 8).map fun c => weight m p d c).sum == 4096) (w + 14),
    eachOf (List.range 4096) fun b =>
      need (if b = 4095 then classCode m p d b == 15 else decide (classCode m p d b ≤ 6)) (t + b / 2),
    eachOf (List.range 4096) fun b => need (cueNear m p d b) (t + (b + 31) % 4096 / 2)]

/-- 0x0A BAD_SLOT_TABLE. -/
def chkTables (m : Mem) : Check :=
  eachOf ((List.range 16).filter (enabled m)) fun p => firstOf [chkTable m p 0, chkTable m p 1]

/-- R90: one part. -/
def chkPart (m : Mem) (p : Nat) : Check :=
  let o := partOff m p
  let x := part m p
  let ms := members m p
  if bitAt (u m (o + 138) 1) 0 then
    firstOf [
      eachOf (List.range 1024) fun k =>
        need (if p = 0 then inPart m p k == (roster m k != 0) else !inPart m p k || roster m k != 0) (o + k / 8),
      need (!ms.isEmpty) o, need (x.count == ms.length) (o + 128),
      need (x.rank == (if ms.contains (self m) then (ms.filter fun k => decide (k < self m)).length else 0xFFFF)) (o + 130),
      need (decide (17 ≤ x.threshold)) (o + 132), need (ms.contains x.root) (o + 136),
      need (decide (x.reduceTree ≤ 2047)) (o + 140), need (decide (x.bcastTree ≤ 2047)) (o + 142),
      need (decide (x.canonFirst ≤ 2047)) (o + 144),
      need (decide (x.canonCount ≤ 24) && decide (x.canonFirst + x.canonCount ≤ 2048)) (o + 146),
      need (decide (1 ≤ x.window) && decide (x.window ≤ 64)) (o + 147)]
  else
    firstOf [need (p != 0) (o + 138),
      eachOf ((List.range 160).filter fun i => i != 138) fun i => need (m.read (o + i) == 0) (o + i)]

/-- 0x0B BAD_PART. -/
def chkParts (m : Mem) : Check := eachOf (List.range (partCount m)) (chkPart m)

/-- A gang of enabled ports. -/
def isGang (m : Mem) (g : Nat) : Bool := decide (g ≤ 15) && !(gangOf m g).isEmpty

/-- Every gang of a mask is a gang of enabled ports. -/
def gangsOk (m : Mem) (mask : Nat) : Bool := (List.range 16).all fun g => !bitAt mask g || isGang m g

/-- A member of the score. -/
def inRoster (m : Mem) (k : Nat) : Bool := decide (k < 1024) && roster m k != 0

/-- R286: the place of a route among the canons of its part, which is `s × d + e` for stream `s` in dimension `e`. -/
def canonPlace (x : Part) (r : Route) : Option Nat :=
  if x.canonFirst ≤ r.id ∧ r.id < x.canonFirst + x.canonCount then some (r.id - x.canonFirst) else none

/-- R286: a canon of a part is a chain in its stream's dimension, and the chain of the last dimension ends at ROOT. -/
def chkCanon (m : Mem) (r : Route) (o : Nat) : Check :=
  let x := part m r.part
  match canonPlace x r with
  | none => none
  | some k => firstOf [need (r.kind == 2) (o + 1), need (r.dim == k % dims m) (o + 7),
      need (k % dims m + 1 != dims m || r.root == x.root) (o + 4)]

/-- R286: CANON_COUNT of a valid part is a multiple of the dimensions that it spans. -/
def chkStreams (m : Mem) (p : Nat) : Check :=
  need (!(part m p).valid || (part m p).canonCount % dims m == 0) (partOff m p + 146)

/-- R91, R92, R286: one route entry. -/
def chkRoute (m : Mem) (i : Nat) : Check :=
  let o := routeOff m i
  let r := routeAt m i
  let prev := routeAt m (i - 1)
  let tree := r.kind == 1
  firstOf [need (decide (r.part < partCount m) && (part m r.part).valid) o, need (tree || r.kind == 2) (o + 1),
    need (decide (r.id ≤ 2047)) (o + 2),
    need (i == 0 || decide (prev.part < r.part) || (prev.part == r.part && decide (prev.id < r.id))) o,
    need (inRoster m r.root) (o + 4),
    need (if tree then r.dim == 0 else decide (r.dim ≤ 2)) (o + 7),
    need (if r.isRoot then r.up == 0xFF else isGang m r.up) (o + 8),
    need (if tree then r.inGang == 0xFF else if r.isLeaf then r.inGang == 0xFF else isGang m r.inGang) (o + 9),
    need (if tree then gangsOk m r.children && !(decide (r.up ≤ 15) && bitAt r.children r.up) else r.children == 0) (o + 10),
    chkCanon m r o]

/-- 0x0C BAD_ROUTE. -/
def chkRoutes (m : Mem) : Check :=
  firstOf [eachOf (List.range (partCount m)) (chkStreams m), eachOf (List.range (routeCount m)) (chkRoute m)]

/-- 0x0D BAD_DTREE. -/
def chkDtrees (m : Mem) : Check :=
  eachOf (List.range (dtreeCount m)) fun t =>
    let o := off m 5 + 16 * t
    let x := dtree m t
    if x.valid then
      let top := x.root == self m
      firstOf [need (inRoster m x.root) o, need (if top then x.up == 0xFF else isGang m x.up) (o + 2),
        need (gangsOk m x.children && !(decide (x.up ≤ 15) && bitAt x.children x.up)) (o + 4),
        need (decide (1 ≤ x.arrivals) && decide (x.arrivals ≤ 1024)) (o + 6),
        need (decide (x.part < partCount m) && (part m x.part).valid) (o + 8),
        need ((x.depth == 0) == top) (o + 9)]
    else none

/-- R95: one cycle entry names only links and attach points that its router has, and no output names itself. -/
def cycleOk (r e : Nat) : Bool :=
  Link.all.all fun o =>
    let f := outField e o
    f == 0 || (hasLink r o && decide (f ≤ 7) && f != o.code && Link.all.any fun l => l.code == f && hasLink r l)

/-- 0x0E BAD_ESPALIER. -/
def chkEspalier (m : Mem) : Check :=
  firstOf [
    eachOf (List.range 4096) fun b => need (decide (selector m b < cycleCount m)) (off m 6 + b / 2),
    eachOf (List.range (cycleCount m)) fun t => eachOf (List.range 64) fun r => eachOf (List.range 20) fun c =>
      need (cycleOk r (cycleEntry m t r c)) (off m 7 + 5120 * t + (20 * r + c) * 4)]

/-- R162: the units of a lease consumer kind. -/
def consumerUnits (k : Nat) : Nat :=
  match k with
  | 1 => 4 | 2 => 16 | 3 => 16 | 4 => 8 | 5 => 64 | _ => 1

/-- The shares of the entries up to `i` that name the stack of entry `i`. -/
def shareUpTo (m : Mem) (i : Nat) : Nat :=
  (((List.range (i + 1)).filter fun j => (lease m j).stack == (lease m i).stack).map fun j => (lease m j).share).sum

/-- 0x0F LEASE_OVER. -/
def chkLeases (x : CheckCtx) (m : Mem) : Check :=
  eachOf (List.range (leaseCount m)) fun i =>
    let o := off m 8 + 8 * i
    let l := lease m i
    firstOf [need (decide (l.stack ≤ 11) && (decide (l.stack < 8) || x.hasExpander (l.stack - 8))) o,
      need (decide (l.group ≤ 15)) (o + 1), need (decide (1 ≤ l.share) && decide (l.share ≤ 85)) (o + 2),
      need (decide (shareUpTo m i ≤ 85)) (o + 2), need (l.dir % 4 != 0) (o + 3),
      need (decide (1 ≤ l.consumer) && decide (l.consumer ≤ 6)) (o + 4),
      need (l.unit == 0xFF || decide (l.unit < consumerUnits l.consumer)) (o + 5)]

/-- A lease of a consumer with WRITE set exists. -/
def hasWriteLease (m : Mem) (consumer : Nat) : Bool :=
  (List.range (leaseCount m)).any fun i => (lease m i).consumer == consumer && bitAt (lease m i).dir 1

/-- 0x10 LEASE_MISSING. -/
def chkLeaseMissing (m : Mem) : Check :=
  let inAny := (List.range (partCount m)).any fun p => (part m p).valid && inPart m p (self m)
  let streams := (List.range 16).any fun p => enabled m p && (List.range 4096).any fun b => classCode m p 1 b == 4
  firstOf [need (!inAny || hasWriteLease m 1) (off m 8), need (!streams || hasWriteLease m 2) (off m 8)]

/-- The bytes [o, o + n) are zero. -/
def zeros (m : Mem) (o n : Nat) : Check := eachOf (List.range n) fun i => need (m.read (o + i) == 0) (o + i)

/-- 0x11 BAD_PAIR. -/
def chkPairs (m : Mem) : Check :=
  eachOf (List.range (pairCount m)) fun i =>
    let o := off m 9 + 16 * i
    let x := pair m i
    firstOf [need (decide (x.prod < 1024)) o, need (decide (x.prodTally ≤ 4095)) (o + 2),
      need (decide (x.cons < 1024) && ((x.prod == self m) != (x.cons == self m))) (o + 4),
      need (decide (x.consTally ≤ 4095)) (o + 6), zeros m (o + 12) 4]

/-- Byte `o` belongs to no section. -/
def outside (m : Mem) (o : Nat) : Bool := (List.range 10).all fun n => !(decide (off m n ≤ o) && decide (o < off m n + len m n))

/-- 0x12 BAD_RESERVED: the lowest offset at which a reserved byte, bit or encoding is found. -/
def chkReserved (m : Mem) : Check :=
  firstOf [need (decide (flags m ≤ 1)) 6, need (decide (placement m ≤ 1)) 58, zeros m 59 61,
    (eachOf (List.range (length m - 256)) fun i => need (!outside m (256 + i) || m.read (256 + i) == 0) (256 + i)),
    (eachOf (List.range 16) fun p =>
      firstOf [need (decide (portFlags m p ≤ 3)) (portOff m p + 5), zeros m (portOff m p + 40) 24]),
    (eachOf (List.range (partCount m)) fun p =>
      firstOf [need (decide (u m (partOff m p + 138) 1 ≤ 3)) (partOff m p + 138), zeros m (partOff m p + 148) 12]),
    (eachOf (List.range (routeCount m)) fun i =>
      firstOf [need (decide ((routeAt m i).role ≤ 15)) (routeOff m i + 6), zeros m (routeOff m i + 16) 16]),
    (eachOf (List.range (dtreeCount m)) fun t =>
      firstOf [need (decide (u m (off m 5 + 16 * t + 3) 1 ≤ 3)) (off m 5 + 16 * t + 3), zeros m (off m 5 + 16 * t + 10) 6]),
    (eachOf (List.range (cycleCount m * 1280)) fun i => need (u m (off m 7 + 4 * i + 3) 1 / 16 == 0) (off m 7 + 4 * i + 3)),
    (eachOf (List.range (leaseCount m)) fun i =>
      firstOf [need (decide ((lease m i).dir ≤ 3)) (off m 8 + 8 * i + 3), zeros m (off m 8 + 8 * i + 6) 2])]

/-- R104: the first of a list of numbered checks that fails. -/
def firstCode : List (Nat × Check) → Option (Nat × Nat)
  | [] => none
  | (c, some o) :: _ => some (c, o)
  | (_, none) :: cs => firstCode cs

/-- Table SCR-9 over a full image: LOAD_ERR and ERR_OFFSET, or none where it passes. -/
def checkFull (x : CheckCtx) (m : Mem) : Option (Nat × Nat) :=
  firstCode [(0x01, chkMagic m), (0x02, chkLength m), (0x03, chkCrc m), (0x04, chkBase x m), (0x05, chkSeq x m),
    (0x06, chkEpoch x m), (0x07, chkRoster x m), (0x08, chkTopology m), (0x09, chkPorts m), (0x0A, chkTables m),
    (0x0B, chkParts m), (0x0C, chkRoutes m), (0x0D, chkDtrees m), (0x0E, chkEspalier m), (0x0F, chkLeases x m),
    (0x10, chkLeaseMissing m), (0x11, chkPairs m), (0x12, chkReserved m)]

/-! ### Scions (R99) -/

/-- The count of section `n` in the header: its offset and width. -/
def countField (n : Nat) : Option (Nat × Nat) :=
  match n with
  | 3 => some (48, 2) | 4 => some (50, 2) | 5 => some (52, 1) | 7 => some (53, 1) | 8 => some (54, 2) | 9 => some (56, 2)
  | _ => none

/-- R99, steps 1 and 2: the bytes of section `n` of the result. -/
def scionSection (root sc : Mem) (n : Nat) : List Byte :=
  if hasSection sc n then sc.readN (off sc n) (len sc n) else root.readN (off root n) (len root n)

/-- R99: the header of the result with the counts of the sections it takes from the rootstock. -/
def scionCounts (root sc : Mem) : Mem :=
  (List.range 10).foldl (fun m n =>
    match countField n, hasSection sc n with
    | some (o, w), false => m.writeN o (root.readN o w)
    | _, _ => m) (sc.filter fun c => decide (c.1 < 128))

/-- R99, step 3: the sections laid out in directory order from offset 256. -/
def layOut (root sc : Mem) : List Nat → Nat → Mem → Mem × Nat
  | [], o, m => (m, o)
  | n :: ns, o, m =>
    let bs := scionSection root sc n
    let m := ((m.writeN (128 + 8 * n) (leBytes o 4)).writeN (132 + 8 * n) (leBytes bs.length 4)).writeN o bs
    layOut root sc ns ((o + bs.length + 7) / 8 * 8) m

/-- R99: the image that a scion gives on its rootstock. -/
def graftOn (root sc : Mem) : Mem :=
  let x := layOut root sc (List.range 10) 256 (scionCounts root sc)
  let m := ((x.1.writeN 6 (leBytes (flags sc - flags sc % 2) 2)).writeN 8 (leBytes x.2 4)).writeN 24 (List.replicate 12 0)
  m.writeN 120 (leBytes (computedCrc m) 8)

/-- R99, R102, R104: the checks of whatever stands in the standby bank; the image that is then READY, or the failure. -/
def check (x : CheckCtx) (m : Mem) : Mem × Option (Nat × Nat) :=
  if scion m then
    match firstCode [(0x01, chkMagic m), (0x02, chkLength m), (0x03, chkCrc m), (0x04, chkBase x m)], x.active with
    | some e, _ => (m, some e)
    | none, some root => (graftOn root m, checkFull x (graftOn root m))
    | none, none => (m, some (0x04, 24))
  else (m, checkFull x m)

end Img

end Sys2Proof.Machine
end

