-- ==== Sys2Proof/Machine/ScoreOps.lean ====
section
/-!
DEFINITION. The score banks: what holds the standby bank (R101), targets (R105, R106, R532), and the score that was active when
a slot was sent (R107).
-/
namespace Sys2Proof.Machine

/-- SCR_STATUS.LOCKED: a graft or the rootstock holds the standby bank. -/
def State.bankLocked (s : State) : Bool := s.graft.locked || s.score.rootHold

/-- R101, R532: a load check, a lock or a pending target holds the standby bank. -/
def State.bankHeld (s : State) : Bool := s.score.standby == .checking || s.bankLocked || s.score.target.isSome

/-- R104: what the load checks compare an image with. -/
def State.checkCtx (s : State) : CheckCtx :=
  { active := s.img, serial := s.sys.serial.toNat, hasExpander := fun j => (s.cxl j).enumerated }

/-- R102, R104, R116: the load checks end. -/
def State.checkDone (s : State) : State :=
  let r := Img.check s.checkCtx s.standbyBank
  match r.2 with
  | some (code, o) =>
    { s with score.standby := .failed, score.loadErr := code, score.errOffset := o }.eventC Det.loadErr .engine code
  | none =>
    let s := s.setStandby r.1
    let dead := min 0xFFFF (Img.deadPaths r.1)
    let s : State := { s with score.standby := .ready, score.loadErr := 0, score.errOffset := 0, score.deadStandby := dead }
    if 0 < dead then s.eventC Det.espDeadPath .espalier dead else s

/-- Why a target is refused (R106, R532). -/
inductive TargetAnswer where
  | set | past | busy | refused
deriving DecidableEq, Repr

/-- R19: the beats from now to the downbeat of phrase `p`, or none where it is not later. -/
def State.beatsTo (s : State) (p : Nat) : Option Nat :=
  let d := ((BitVec.ofNat 56 (p * 2 ^ 18)) - s.tact.stamp).toNat
  if 1 ≤ d ∧ d < 2 ^ 55 then some d else none

/-- R106: a target phrase is accepted, or refused and reported. -/
def State.setTarget (s : State) (p : Nat) : State × TargetAnswer :=
  if s.score.target.isSome then ({ s with score.busy := true }.eventC Det.targetRefused .engine p, .busy)
  else if s.score.standby ≠ .ready then
    ({ s with score.targetRefused := true }.eventC Det.targetRefused .engine p, .refused)
  else if (s.beatsTo p).any fun d => decide (4096 ≤ d) then ({ s with score.target := some p }, .set)
  else ({ s with score.targetPast := true }.eventC Det.targetRefused .engine p, .past)

/-- The rootstock, where it was a real score. -/
def State.rootImg (s : State) : Option Mem := if s.score.rootReal then some s.standbyBank else none

/-- R107: the image that was active at a sending beat; none for the bootstrap score. -/
def State.imgAt (s : State) (sent : Stamp) : Option Mem :=
  if s.score.rootHold && decide (2 ^ 55 ≤ (sent - s.score.switchStamp).toNat) then s.rootImg else s.img

/-- The largest landing delay under which a slot of the rootstock can still be on its way. -/
def State.rootLand (s : State) : Nat :=
  match s.rootImg with
  | some m => ((List.range 16).filter (Img.enabled m)).foldl (fun a p => max a (Img.land m p)) 0
  | none => (List.range 16).foldl (fun a p => max a (s.port p).hMin) 0

end Sys2Proof.Machine
end

