-- ==== Sys2Proof/Machine/JoinOps.lean ====
section
/-!
DEFINITION. Joining (R467–R476): the JOIN message, the convener's join table, and admission.
-/
namespace Sys2Proof.Machine

/-- The member number by which a message finds this engine: the SELF of the image that routes (R581). -/
def State.routeSelf (s : State) : Nat := (s.routeImg.map Img.self).getD 0x3FF

/-- The convener that an image names: the ROOT of part 0. -/
def Img.convener (m : Mem) : Nat := (Img.part m 0).root

/-- This engine is the convener of the image it holds. -/
def State.isConvener (s : State) : Bool := (s.routeImg.map fun m => Img.convener m == Img.self m).getD false

/-- An image that this engine holds, active or READY, with the given sequence and fingerprint. -/
def State.heldImage (s : State) (seq fp : Nat) : Option Mem :=
  let ok := fun m => (Img.sequence m).toNat == seq && (Img.fingerprint m).toNat == fp
  match s.img with
  | some m => if ok m then some m else if s.score.standby = .ready ∧ ok s.standbyBank then some s.standbyBank else none
  | none => if s.score.standby = .ready ∧ ok s.standbyBank then some s.standbyBank else none

/-- R470: this engine holds an image of the fingerprint, active or READY. -/
def State.holdsFp (s : State) (fp : Nat) : Bool :=
  (s.img.any fun m => (Img.fingerprint m).toNat == fp)
    || (s.score.standby == .ready && (Img.fingerprint s.standbyBank).toNat == fp)

/-! ### The JOIN body (Table PWR-5) -/

/-- A JOIN message's type. -/
def joinType : Nat := 0x04

/-- A body whose image fields are those of `m`. -/
def joinBody (kind flags member eui epoch stamp : Nat) (m : Mem) : List Byte :=
  bodyOf [(0, 1, kind), (1, 1, flags), (2, 2, member), (4, 8, eui), (12, 4, (Img.sequence m).toNat),
    (16, 8, (Img.fingerprint m).toNat), (24, 1, epoch), (32, 8, stamp), (40, 2, Img.convener m)]

/-- R470: at its downbeat a ready engine that is not a member sends REQUEST to its convener. -/
def State.sendJoinRequest (s : State) : State :=
  if s.ready && !s.score.member then
    let m := s.standbyBank
    if Img.convener m = Img.self m then s
    else (s.sendCue joinType (Img.convener m)
      (joinBody 1 1 (Img.self m) s.sys.serial.toNat (Img.epoch m) s.sys.readyAt.toNat m)).1
  else s

/-! ### Admission -/

/-- R472, R473: the engine takes the target phrase of an ADMIT, or ignores one that repeats it. -/
def State.admitted (s : State) (p : Nat) : State := if s.score.target = some p then s else (s.setTarget p).1

/-- R472: the join table holds an entry that matches image `m` for every other member of its roster. -/
def State.joinComplete (s : State) (m : Mem) : Bool :=
  (List.range 1024).all fun k =>
    Img.roster m k == 0 || k == Img.self m || ((Tab.find s.sys.join k).map (·.matches_)).getD false

/-- R472: the first phrase whose downbeat lies at least 16 measures ahead. -/
def State.admitPhrase (s : State) : Nat := ceilDiv (s.tact.stamp.toNat + 65536) (2 ^ 18) % 2 ^ 38

/-- R472: the convener of a fresh start floods ADMIT and takes its target. -/
def State.freshAdmit (s : State) (go : Bool) : State :=
  let m := s.standbyBank
  if !s.score.member && s.ready && Img.convener m == Img.self m && !s.sys.admitted && (go || s.joinComplete m) then
    let p := s.admitPhrase
    let s := { s with sys.admitted := true, sys.admitSeen := some p }
    let s := s.flood false none none { typ := joinType, body := joinBody 2 1 0x3FF 0 (Img.epoch m) p m }
    s.admitted p
  else s

/-- R473: an ADMIT reaches this engine. -/
def State.takeAdmit (s : State) (c : Cue) : State :=
  let p := fld (c.at 32 8) 0 38
  if s.score.member then s
  else if s.score.standby ≠ .ready then { s with score.targetRefused := true }.eventC Det.targetRefused .engine p
  else
    let m := s.standbyBank
    let named := if bitAt (c.at 1 1) 0 then (List.range 1024).any fun k => Img.roster m k == s.sys.serial.toNat
      else c.at 2 2 % 1024 == Img.self m && c.at 4 8 == s.sys.serial.toNat
    if (Img.sequence m).toNat = c.at 12 4 ∧ (Img.fingerprint m).toNat = c.at 16 8 ∧ named then s.admitted p else s

/-- R473, R472: an ADMIT that arrived on port `p`. A flood is relayed once; one addressed to another member goes on. -/
def State.onAdmit (s : State) (p : Nat) (c : Cue) : State :=
  if bitAt (c.at 1 1) 0 then
    let t := fld (c.at 32 8) 0 38
    let s' := if s.sys.admitSeen = some t ∨ !s.holdsFp (c.at 16 8) then s
      else { s with sys.admitSeen := some t }.flood true (some p) none c
    if s.sys.admitSeen = some t then s else s'.takeAdmit c
  else if c.dest = s.routeSelf then s.takeAdmit c
  else if s.holdsFp (c.at 16 8) then s.relayCue p c
  else s

/-- R475: ADMIT for one entry, at member `k` with target `p`. -/
def State.sendAdmit (s : State) (k p : Nat) : State :=
  match Tab.find s.sys.join k with
  | none => s
  | some e =>
    let body := bodyOf [(0, 1, 2), (2, 2, k), (4, 8, e.eui.toNat), (12, 4, e.sequence.toNat), (16, 8, e.fingerprint.toNat),
      (24, 1, e.epoch), (32, 8, p), (40, 2, s.self)]
    (s.sendCue joinType k body).1

/-- R475: the convener holds the COMMIT of a graft that an entry's image belongs to. -/
def State.graftAdmit (s : State) (seq : Word) (fp : DWord) (p : Nat) : State :=
  if s.score.member && s.isConvener then
    let ks := (s.sys.join.filter fun x => x.2.sequence == seq && x.2.fingerprint == fp).map (·.1)
    let s := { s with sys.admits := ks.map fun k => (k, p) }
    forEach ks (fun k st => st.sendAdmit k p) s
  else s

/-- R475: the ADMITs of a graft are repeated at each downbeat up to that of measure 60 of phrase P − 1. -/
def State.repeatAdmits (s : State) : State :=
  let live := s.sys.admits.filter fun x => (s.beatsTo x.2).any fun d => decide (16384 ≤ d)
  forEach live (fun x st => st.sendAdmit x.1 x.2) { s with sys.admits := live }

/-! ### The join table (R471) -/

/-- Why a REQUEST is refused (Table PWR-5): 1 EUI, 2 SCORE, 3 LOST. -/
def State.refuseReason (s : State) (c : Cue) : Option Nat :=
  let k := c.at 2 2 % 1024
  let held := s.heldImage (c.at 12 4) (c.at 16 8)
  match held.or s.routeImg with
  | none => some 2
  | some m =>
    if Img.roster m k ≠ c.at 4 8 then some 1
    else if held.isNone then some 2
    else if s.ce.lost.contains k then some 3
    else none

/-- The entry that a REQUEST leaves in the table. -/
def joinEntry (c : Cue) (refused : Option Nat) : JoinEntry :=
  { eui := BitVec.ofNat 64 (c.at 4 8), fingerprint := BitVec.ofNat 64 (c.at 16 8), sequence := BitVec.ofNat 32 (c.at 12 4)
    matches_ := refused.isNone || refused == some 3, refused := refused.isSome, epoch := c.at 24 1, unheard := 0
    stamp := BitVec.ofNat 56 (c.at 32 8) }

/-- R471: REFUSE goes to the requester and is counted. -/
def State.refuseJoin (s : State) (p : Nat) (c : Cue) (reason : Nat) : State :=
  let k := c.at 2 2 % 1024
  let m := s.routeImg.getD []
  ((s.sendCue joinType k (joinBody 3 reason k (c.at 4 8) 0 0 m)).1).eventC Det.rollcallReject (.vp p) k

/-- R471: the convener takes a REQUEST. -/
def State.takeRequest (s : State) (p : Nat) (c : Cue) : State :=
  let k := c.at 2 2 % 1024
  if ((Tab.find s.sys.join k).map fun e => e.eui.toNat != c.at 4 8).getD false then s.eventC Det.joinConflict .member k
  else
    let r := s.refuseReason c
    let s := { s with sys.join := Tab.put s.sys.join k (joinEntry c r) }
    match r with
    | some reason => s.refuseJoin p c reason
    | none => s.freshAdmit false

/-- R470, R471: a REQUEST that arrived on port `p`. -/
def State.onRequest (s : State) (p : Nat) (c : Cue) : State :=
  if c.dest = s.routeSelf then
    if s.isConvener then s.takeRequest p c else s
  else
    let k := c.at 2 2 % 1024
    if s.holdsFp (c.at 16 8) && !s.sys.joinRelayed.contains k then
      { s with sys.joinRelayed := insertAsc k s.sys.joinRelayed }.relayCue p c
    else s

/-- R469: a REFUSE goes on to its requester, which keeps on requesting. -/
def State.onRefuse (s : State) (p : Nat) (c : Cue) : State :=
  if c.dest = s.routeSelf ∨ !s.holdsFp (c.at 16 8) then s else s.relayCue p c

/-- Table PWR-5: a JOIN message by its KIND; other kinds are dropped. -/
def State.onJoin (s : State) (p : Nat) (c : Cue) : State :=
  match c.at 0 1 with
  | 1 => s.onRequest p c
  | 2 => s.onAdmit p c
  | 3 => s.onRefuse p c
  | _ => s.badCue p c.typ

/-- The join table at a downbeat: each entry has gone one more measure unheard. -/
def State.ageJoin (s : State) : State :=
  { s with sys.join := Tab.mapVals (fun _ e => { e with unheard := min 64 (e.unheard + 1) }) s.sys.join
           sys.joinRelayed := [] }

end Sys2Proof.Machine
end

