-- ==== Sys2Proof/Machine/PortOps.lean ====
section
/-!
DEFINITION. Voice-port operations: phase zones (R38), the echo exchange (R33, R34), landing (R72, R585), the tail slot (R69) and
the port's changes of state (R78–R80). A port's slots are taken in their landing beats.
-/
namespace Sys2Proof.Machine

/-- Table VOX-11. -/
def PortState.code : PortState → Nat
  | .down => 0 | .training => 1 | .framing => 2 | .aligned => 3 | .inSchedule => 4 | .outOfStep => 5

/-- A port from FRAMING onward sends and takes tail slots (R34, R68). -/
def PortState.framed : PortState → Bool
  | .framing | .aligned | .inSchedule | .outOfStep => true
  | .down | .training => false

/-- A port that is aligned takes slots. -/
def PortState.linked : PortState → Bool
  | .aligned | .inSchedule | .outOfStep => true
  | .down | .training | .framing => false

/-- A port runs the active score. -/
def PortState.scheduled : PortState → Bool
  | .inSchedule | .outOfStep => true
  | .down | .training | .framing | .aligned => false

/-! ### Phase (R38) -/

/-- Table TAC-6. -/
inductive Zone where
  | green | amber | red
deriving DecidableEq, Repr

/-- The zone of a signed error in 50 ps units: 3.2 ns is 64, 6.0 ns is 120. -/
def zoneOf (e : Int) : Zone := if magnitude e ≤ 64 then .green else if magnitude e ≤ 120 then .amber else .red

/-- The signed phase error of an arrival. -/
def Port.err (p : Port) (phase : Int) : Int := phase - (p.centre + p.slew)

/-- One more measured error. -/
def PhaseStat.add (x : PhaseStat) (e : Int) : PhaseStat :=
  if x.n = 0 then { n := 1, sum := e, min := e, max := e }
  else { n := x.n + 1, sum := x.sum + e, min := if e < x.min then e else x.min, max := if x.max < e then e else x.max }

/-- The mean error, rounded toward minus infinity as R33 rounds its halves. -/
def PhaseStat.mean (x : PhaseStat) : Int := if x.n = 0 then 0 else x.sum / (x.n : Int)

/-- A phase value in 16 signed bits. -/
def phase16 (x : Int) : BitVec 16 := BitVec.ofInt 16 (if x < -32768 then -32768 else if 32767 < x then 32767 else x)

/-! ### The port's frame (R39, R89, R583) -/

/-- The beat in which the neighbour sent the slot that lands now: the local beat less H in the schedule, else the neighbour's own
count as it was last seen. -/
def State.sentBeat (s : State) (p : Nat) : Option Stamp :=
  let x := s.port p
  if s.timed && x.state.scheduled then some (s.tact.stamp - BitVec.ofNat 56 x.h)
  else x.frame.map fun f => f.1 + BitVec.ofNat 56 (s.now - f.2)

/-! ### Landing (R72, R585) -/

/-- R585: H_min from a one-way delay in 50 ps units. -/
def hMinOf (delay : Nat) : Nat := max 1 (ceilDiv (delay + 512) 256)

/-- R72: the score's H lies within H_min to H_min + 3. -/
def landOk (m : Mem) (x : Port) (p : Nat) : Bool := decide (x.hMin ≤ Img.land m p) && decide (Img.land m p ≤ x.hMin + 3)

/-- R72: LAND_RANGE. -/
def State.landRange (s : State) (p : Nat) : State := s.raiseOn Det.landRange (.vp p) (s.port p).hMin

/-- R80: a port becomes IN_SCHEDULE under image `m`, or stays ALIGNED with LAND_RANGE. -/
def State.enterSchedule (s : State) (m : Mem) (p : Nat) : State :=
  let x := s.port p
  if landOk m x p then s.setPort p { x with state := .inSchedule, since := s.now, h := Img.land m p, red := 0, matched := false }
  else (s.setPort p { x with state := .aligned, h := x.hMin }).landRange p

/-! ### Loss of a port (R42, R46, R79) -/

/-- R46: the loss of the upstream port in CARRIED mode starts holdover. -/
def State.upstreamLost (s : State) (p : Nat) : State :=
  if s.tact.mode = .carried ∧ s.tact.inUse = p then s.enterHoldover else s

/-- A port goes DOWN and stops transmitting (R79). -/
def State.portToDown (s : State) (p : Nat) : State := (s.modPort p (·.toDown s.now)).upstreamLost p

/-- R530: a port enters TRAINING with VP_CTRL.PMD and VP_EQ as they then are. -/
def State.train (s : State) (p : Nat) : State :=
  s.modPort p fun x => { x with state := .training, since := s.now, pmdUsed := x.pmd, eqUsed := x.eq }

/-- R42: an IN_SCHEDULE port goes out of step. -/
def State.goOutOfStep (s : State) (p : Nat) : State :=
  if (s.port p).state = .inSchedule then (s.modPort p fun x => { x with state := .outOfStep, since := s.now }).upstreamLost p
  else s

/-! ### The tail slot -/

/-- R34: ECHO_REQ is set in measure 62, while the port aligns, and in every tail slot of a CARRIED engine that acquires. -/
def State.echoReq (s : State) (p : Nat) : Bool :=
  s.tact.stamp.toNat / 4096 % 64 == 62 || (s.port p).state == .framing || (s.tact.mode == .carried && s.tact.state == .acquiring)

/-- Sequence and fingerprint of the active score; 0 under the bootstrap score. -/
def State.scoreId (s : State) : Word × DWord :=
  match s.img with
  | some m => (Img.sequence m, Img.fingerprint m)
  | none => (0, 0)

/-- Table VOX-8: the tail slot that port `p` sends in the present beat, `frac`/256 of a beat after its start. In the safe state
the engine reports STEPPED_OUT (R446). -/
def State.tailOf (s : State) (p frac : Nat) : TailSlot :=
  let x := s.port p
  let id := s.scoreId
  { stamp := s.tact.stamp, eui := s.sys.serial, member := s.img.map Img.self, depth := s.tact.depth
    tact := if s.fc.safe then .steppedOut else s.tact.state
    origin := s.tact.mode == .conductor && s.timed
    srcHoldover := s.tact.state == .holdover || s.tact.srcHoldover
    pstate := x.state.code, oos := x.state == .outOfStep, echoReq := s.echoReq p, fallen := s.fc.safe, epoch := s.epoch
    sequence := id.1, fingerprint := id.2
    mean := phase16 x.lastPhase.mean, min := phase16 x.lastPhase.min, max := phase16 x.lastPhase.max
    txTime := BitVec.ofNat 64 (s.tact.stamp.toNat * 256 + frac % 256)
    rxEcho := if x.echoDue then x.rxArrival else none }

/-- R33, R37: an exchange whose tail slot is lost is skipped and counted. -/
def State.echoMiss (s : State) (p : Nat) : State :=
  if (s.port p).echoT1.isSome then
    ((s.modPort p fun x => { x with echoT1 := none }).count (Cnt.vp p Cnt.echoMiss)).eventC Det.echoMiss (.vp p)
  else s

/-- R33: the halved difference of two 64-bit times, rounded toward minus infinity. -/
def halfOf (a b : DWord) : Int := asInt (a + b) / 2

/-- R33: an exchange completes with t1, t2, t3 and t4. -/
def State.exchange (s : State) (p : Nat) (t1 t2 t3 t4 : DWord) : State :=
  let delay := halfOf (t4 - t1) (t2 - t3)
  let offset := halfOf (t2 - t1) (t3 - t4)
  let x := s.port p
  let d := if delay < 0 then 0 else delay.toNat
  let s := s.setPort p { x with delay := BitVec.ofInt 32 delay, offset := BitVec.ofInt 64 offset, delayValid := true, echoT1 := none }
  let s := if x.state = .inSchedule ∧ hMinOf d ≠ x.hMin then s.eventC Det.hminChange (.vp p) (hMinOf d) else s
  if s.tact.mode = .carried ∧ s.tact.inUse = p then
    let s : State := { s with tact.echoSince := true }
    match s.tact.state with
    | .locked => { s with tact.steer := offset }
    | .acquiring => if s.carriedOk p then { s with tact.stamp := s.tact.stamp + BitVec.ofInt 56 ((offset + 128) / 256) } else s
    | .free | .holdover | .steppedOut => s
  else s

/-- R33, R34: what a received tail slot says about an echo exchange: an answer, a missing answer, or a request. -/
def State.echoIn (s : State) (p : Nat) (t : TailSlot) (arrival : DWord) : State :=
  let x := s.port p
  let s := match x.echoT1, t.rxEcho with
    | some t1, some t2 => s.exchange p t1 t2 t.txTime arrival
    | some t1, none => if 2048 * 256 ≤ (arrival - t1).toNat then s.echoMiss p else s
    | none, _ => s
  s.modPort p fun x => { x with rxArrival := some arrival, echoDue := t.echoReq }

/-- FALLEN_RX: the first slot or tail slot of a measure that carries FALLEN (Table FLT-11). -/
def State.noteFallen (s : State) (p : Nat) (fallen : Bool) : State :=
  if fallen && !(s.port p).fallenSeen then
    (s.modPort p fun x => { x with fallenSeen := true }).eventC Det.fallenRx (.vp p)
  else s

/-- OOS_RX: the first slot of a measure that carries OOS (Table FLT-11). -/
def State.noteOos (s : State) (p : Nat) (oos : Bool) : State :=
  if oos && !(s.port p).oosSeen then (s.modPort p fun x => { x with oosSeen := true }).eventC Det.oosRx (.vp p) else s

/-- R45: the stamp comparison, made only while both units are LOCKED or in HOLDOVER. -/
def State.compareStamp (s : State) (p : Nat) (t : TailSlot) : State :=
  let x := s.port p
  let possible := s.timed && (t.tact == .locked || t.tact == .holdover) && x.state.linked
  let agrees := t.stamp == s.tact.stamp - BitVec.ofNat 56 x.h
  if !possible then s.setPort p { x with conflict := false }
  else if agrees then s.setPort p { x with conflict := false }
  else if x.conflict then s.goOutOfStep p
  else ((s.setPort p { x with conflict := true }).goOutOfStep p).raiseOn Det.tactConflict (.vp p) t.stamp.toNat

/-- R69: a tail slot is lost. -/
def State.tailLost (s : State) (p : Nat) (uncorr : Bool) : State :=
  let s := s.modPort p fun x => { x with tails := [], tailsLost := x.tailsLost + 1, tailPhase := none, rxArrival := none, echoDue := false
                                         matched := false, uncorr := x.uncorr + b2n uncorr }
  let s := ((s.count (Cnt.vp p Cnt.tailLost)).eventC Det.tailLost (.vp p)).echoMiss p
  if 2 ≤ (s.port p).tailsLost then s.upstreamLost p else s

/-- The tail slots that follow one another, newest first. -/
def runOf (tails : List Stamp) (t : Stamp) : List Stamp :=
  match tails with
  | a :: _ => if t = a + 4096 then (t :: tails).take 3 else [t]
  | [] => [t]

/-- R69: a tail slot that is not lost. -/
def State.tailIn (s : State) (p : Nat) (t : TailSlot) (arrival : DWord) (phase : Int) : State :=
  let x := s.port p
  let id := s.scoreId
  let same := s.score.member && (t.pstate == 3 || t.pstate == 4) && t.sequence == id.1 && t.fingerprint == id.2
  let agreed := t.stamp == s.tact.stamp - BitVec.ofNat 56 x.h
  let s := s.setPort p
    { x with nb := some t, tails := runOf x.tails t.stamp, tailsLost := 0, tailPhase := some (phase, agreed), matched := same
             phase := x.phase.add (x.err phase), frame := some (t.stamp, s.now) }
  let s := (s.noteFallen p t.fallen).compareStamp p t
  let s := s.echoIn p t arrival
  if s.tact.mode = .carried ∧ s.tact.inUse = p then
    match s.tact.state, t.tact with
    | .locked, .locked | .locked, .holdover => { s with tact.srcHoldover := t.srcHoldover || t.tact == .holdover }
    | .locked, _ => s.enterHoldover
    | _, _ => s
  else s

/-! ### The port's downbeat (R41, R43, R583) -/

/-- R41: one slew of 0.2 ns toward the mean of the amber errors, or its refusal. -/
def State.slew (s : State) (p : Nat) : State :=
  let x := s.port p
  if x.amber.n = 0 ∨ x.amber.sum = 0 then s
  else
    let d := x.slew + (if x.amber.sum < 0 then -4 else 4)
    if magnitude d ≤ near then s.setPort p { x with slew := d }
    else (s.count (Cnt.vp p Cnt.slewLimit)).eventC Det.slewLimit (.vp p)

/-- R43: an out-of-step port realigns on the tail slot that ended the measure. -/
def State.realign (s : State) (p : Nat) : State :=
  let x := s.port p
  match x.tailPhase with
  | some (ph, true) =>
    if x.conflict then s else s.setPort p { x with state := .inSchedule, since := s.now, centre := ph, slew := 0 }
  | _ => s

/-- A new measure of the port begins. -/
def Port.newMeasure (x : Port) : Port :=
  { x with lastPhase := x.phase, phase := {}, amber := {}, red := 0, uncorr := 0, oosSeen := false, fallenSeen := false
           tailPhase := none }

end Sys2Proof.Machine
end

