-- ==== Sys2Proof/Machine/GraftOps.lean ====
section
/-!
DEFINITION. Grafting (R327–R343): the bundle, its transfers, PREPARE, the decision and a member's side of it; and the units that go
out of service and come back (R344–R346).
-/
namespace Sys2Proof.Machine

/-! ### The mailbox (R327, R328) -/

/-- A mailbox command ends with a RESULT and a DETAIL (Table GRF-2). -/
def State.mboxEnd (s : State) (result detail : Nat) : State :=
  { s with graft.result := result, graft.detail := detail, graft.mboxBusy := false }.graftMsg

/-- R328: a command or an argument written while BUSY is 1 is ignored and counted. -/
def State.mboxIgnored (s : State) : State := s.count (Cnt.grf 0)

/-- Argument `i` of the graft mailbox. -/
def State.mboxArg (s : State) (i : Nat) : Nat := (Tab.get 0 s.graft.args i).toNat

/-! ### The bundle (Tables GRF-3 and GRF-4) -/

namespace Bundle

def graftId (m : Mem) : Nat := fld (Img.u m 6 2) 0 12
def target (m : Mem) : Nat := fld (Img.u m 8 8) 0 38
def newFp (m : Mem) : DWord := BitVec.ofNat 64 (Img.u m 16 8)
def newSeq (m : Mem) : Word := BitVec.ofNat 32 (Img.u m 24 4)
def newEpoch (m : Mem) : Nat := Img.u m 28 1
def count (m : Mem) : Nat := Img.u m 30 2
def baseFp (m : Mem) : DWord := BitVec.ofNat 64 (Img.u m 32 8)
def baseSeq (m : Mem) : Word := BitVec.ofNat 32 (Img.u m 40 4)
def length (m : Mem) : Nat := Img.u m 44 4

/-- The bundle offset of entry `i`. -/
def entryOff (i : Nat) : Nat := 64 + 32 * i

/-- Entry `i`. -/
def entry (m : Mem) (i : Nat) : BundleEntry :=
  let o := entryOff i
  { member := fld (Img.u m o 2) 0 10, prune := bitAt (Img.u m (o + 2) 1) 0, offset := Img.u m (o + 4) 4
    length := Img.u m (o + 8) 4, drainMask := Img.u m (o + 16) 8, promoteMask := Img.u m (o + 24) 8 }

/-- The entries of the bundle with their places. -/
def entries (m : Mem) : List (Nat × BundleEntry) := (List.range (count m)).map fun i => (i, entry m i)

/-- A check of R330: the offset of the field that fails it. -/
abbrev Check := Option Nat

/-- The check fails at offset `o` unless `ok`. -/
def need (ok : Bool) (o : Nat) : Check := if ok then none else some o

/-- The first check that fails. -/
def firstOf (cs : List Check) : Check := cs.findSome? id

/-- R330.1, on the first 64 bytes. -/
def chkHead (m : Mem) (arg1 : Nat) : Check :=
  firstOf [need (Img.u m 0 4 == 0x42474C4F) 0, need (Img.u m 4 2 == 1) 4,
    need (length m == arg1 && decide (64 ≤ length m) && length m % 8 == 0) 44]

/-- R330.2: BUNDLE_CRC, with its own bytes taken as 0. -/
def chkCrc (m : Mem) : Check :=
  need (Img.u m 56 8 == (crc64 (m.readN 0 56 ++ List.replicate 8 0 ++ m.readN 64 (length m - 64))).toNat) 56

/-- R330.3, against the active score. -/
def chkBase (act m : Mem) : Check :=
  firstOf [need (baseFp m == Img.fingerprint act) 32, need (baseSeq m == Img.sequence act) 40,
    need (idxLater (Img.sequence act) (newSeq m)) 24, need (newFp m != 0) 16,
    need (newEpoch m != 0 && newEpoch m != Img.epoch act) 28]

/-- R330.4 on the entries from `prev` on: ascending members of the rootstock, and no PRUNE for the master itself. -/
def chkEntries (act m : Mem) : Option Nat → List (Nat × BundleEntry) → Check
  | _, [] => none
  | prev, (i, e) :: rest =>
    if Img.roster act e.member = 0 ∨ prev.any (fun p => decide (e.member ≤ p)) then some (entryOff i)
    else if e.member = Img.self act ∧ e.prune then some (entryOff i + 2)
    else chkEntries act m (some e.member) rest

/-- R330.4. -/
def chkCount (act m : Mem) : Check :=
  let roster := ((List.range 1024).filter fun k => Img.roster act k != 0).length
  firstOf [need (count m == roster && decide (entryOff (count m) ≤ length m)) 30, chkEntries act m none (entries m)]

/-- R330.5 on one entry. -/
def chkImage (m : Mem) (i : Nat) (e : BundleEntry) : Check :=
  let o := entryOff i
  if e.prune then
    firstOf [need (e.offset == 0) (o + 4), need (e.length == 0) (o + 8), need (e.drainMask == 0) (o + 16),
      need (e.promoteMask == 0) (o + 24)]
  else
    firstOf [need (e.offset % 8 == 0 && decide (64 ≤ e.offset) && decide (e.offset ≤ length m)) (o + 4),
      need (decide (256 ≤ e.length) && decide (e.length ≤ 1048576) && decide (e.offset + e.length ≤ length m)) (o + 8),
      need (Img.u m (e.offset + 12) 4 == (newSeq m).toNat) (e.offset + 12),
      need (Img.u m (e.offset + 16) 8 == (newFp m).toNat) (e.offset + 16),
      need (Img.u m (e.offset + 39) 1 == newEpoch m) (e.offset + 39),
      need (Img.u m (e.offset + 46) 2 == e.member) (e.offset + 46)]

/-- R330.6 on one entry. -/
def chkMasks (i : Nat) (e : BundleEntry) : Check :=
  let o := entryOff i
  firstOf [need (decide (e.drainMask < 2 ^ 48)) (o + 16), need (decide (e.promoteMask < 2 ^ 48)) (o + 24),
    need (e.drainMask &&& e.promoteMask == 0) (o + 16)]

/-- R330.7. -/
def chkReserved (m : Mem) : Check :=
  firstOf ([need (fld (Img.u m 6 2) 12 4 == 0) 6, need (fld (Img.u m 8 8) 38 26 == 0) 8, need (Img.u m 29 1 == 0) 29,
      need (Img.u m 48 8 == 0) 48] ++
    (List.range (count m)).map fun i =>
      let o := entryOff i
      firstOf [need (fld (Img.u m o 2) 10 6 == 0) o, need (Img.u m (o + 2) 1 < 2) (o + 2), need (Img.u m (o + 3) 1 == 0) (o + 3),
        need (Img.u m (o + 12) 4 == 0) (o + 12)])

/-- R330: the checks that follow the header's own, in their order. -/
def check (act m : Mem) : Check :=
  firstOf [chkCrc m, chkBase act m, chkCount act m, (entries m).findSome? fun x => chkImage m x.1 x.2,
    (entries m).findSome? fun x => chkMasks x.1 x.2, chkReserved m]

end Bundle

/-- R331: the slots of one transfer. -/
def BundleEntry.slots (e : BundleEntry) : Nat := if e.prune then 1 else ceilDiv (64 + e.length) 576

/-- R330: D, the measures that distribution takes. -/
def distMeasures (es : List BundleEntry) (pace : Nat) : Nat := ceilDiv ((es.map (·.slots)).sum) (Nat.max 1 pace)

/-- The first beat of measure `m` of phrase `p` − 1. -/
def beforePhrase (p m : Nat) : Stamp := BitVec.ofNat 56 (p * 2 ^ 18) - 0x40000#56 + BitVec.ofNat 56 (m * 4096)

/-- R330: the decision deadline lies at least `d` + 6 measures ahead. -/
def State.timely (s : State) (p d : Nat) : Bool :=
  let ahead := (beforePhrase p 48 - s.tact.stamp).toNat
  decide (ahead < 2 ^ 55) && decide ((d + 6) * 4096 ≤ ahead)

/-- R330: the earliest target phrase that would be accepted. -/
def State.earliest (s : State) (d : Nat) : Nat :=
  (ceilDiv (s.tact.stamp.toNat + 2 ^ 18 + (d + 6) * 4096 - 48 * 4096) (2 ^ 18)) % 2 ^ 38

/-- The unit `k` of a unit mask (R329): its FC_TGT index is its bit. -/
def maskUnits (mask : Nat) : List Nat := (List.range 48).filter (bitAt mask)

/-- A unit of a PROMOTE_MASK is ready: in PROBATION with PASSED (Table GRF-6). -/
def State.promotable (s : State) (i : Nat) : Bool := (s.unit i).state == .probation && (s.unit i).passed

/-! ### The master: SUBMIT, distribution and the decision (R330, R331, R334, R336) -/

/-- R330: the bundle at device address `a`, or the offset that fails. -/
def State.readBundle (s : State) (act : Mem) (a len : Nat) : State × Sum Nat Mem :=
  if a % 2048 ≠ 0 ∨ !s.inTier1 a 64 then (s, .inl 0)
  else
    match s.load a 64 with
    | (s, .data h) =>
      match Bundle.chkHead (Mem.writeN [] 0 h) len with
      | some o => (s, .inl o)
      | none =>
        if !s.inTier1 a len then (s, .inl 44)
        else
          match s.load a len with
          | (s, .data bs) =>
            let m := Mem.writeN [] 0 bs
            match Bundle.check act m with
            | some o => (s, .inl o)
            | none => (s, .inr m)
          | (s, _) => (s, .inl 56)
    | (s, _) => (s, .inl 0)

/-- The words of PREPARE and COMMIT (Table GRF-5). -/
def Graft.prepareBody (g : Graft) (master : Nat) : List Byte :=
  bodyOf [(0, 2, g.graftId), (2, 2, master), (8, 8, g.tgt), (16, 8, g.newFp.toNat), (24, 4, g.newSeq.toNat), (28, 1, g.newEpoch),
    (32, 8, g.baseFp.toNat)]

/-- R334: a flood of the graft, from its master. -/
def State.graftFlood (s : State) (typ : Nat) (body : List Byte) : State :=
  { s with graft.flooded := (s.graft.graftId, typ) :: s.graft.flooded }.flood false none none
    { typ := typ, neighbour := true, dest := 0x3FF, body := body }

/-- The lowest unit of a PROMOTE_MASK that is not ready. -/
def State.notReady (s : State) (mask : Nat) : Option Nat := (maskUnits mask).find? fun i => !s.promotable i

/-- R334: the last slot of the last transfer has been sent: PREPARE goes out, and the master's own image counts as acknowledged. -/
def State.sendPrepare (s : State) : State :=
  let g := s.graft
  let own := match s.notReady g.promoteMask with
    | some i => (4, 0, 2 ^ i)
    | none => (0, 0, 0)
  let s := { s with graft := { g with
    phase := .prepared, acks := Tab.put g.acks s.self own
    acked := if own.1 = 0 then insertAsc s.self g.acked else g.acked } }
  s.graftFlood 0x30 (s.graft.prepareBody s.self)

/-- Transfers that no enabled port can carry are given up: their members answer nothing (R343). PREPARE follows the last. -/
def State.skipTransfers (s : State) : State :=
  if s.graft.phase = .distributing then
    let es := if s.graft.sent = 0 then s.graft.entries.dropWhile fun e => (s.onward e.member).isEmpty else s.graft.entries
    let s := { s with graft.entries := es }
    if es.isEmpty then s.sendPrepare else s
  else s

/-- The master's graft as SUBMIT leaves it. -/
def Graft.submitted (g : Graft) (m : Mem) (a self : Nat) : Graft :=
  let es := (Bundle.entries m).map (·.2)
  let own := es.find? fun e => e.member == self
  { g.unlock with
    graftId := Bundle.graftId m, phase := .distributing, master := true, tgt := Bundle.target m, paceUsed := g.pace
    entries := es.filter fun e => e.member != self, allEntries := es, bundle := a, sent := 0, sentMeasure := 0
    newFp := Bundle.newFp m, newSeq := Bundle.newSeq m, newEpoch := Bundle.newEpoch m
    baseFp := Bundle.baseFp m, baseSeq := Bundle.baseSeq m
    acks := [], acked := [], cancelled := false, decided := false, locked := true, masterNo := self, imageDone := true
    drainMask := (own.map (·.drainMask)).getD 0, promoteMask := (own.map (·.promoteMask)).getD 0
    flooded := g.flooded.filter fun x => x.1 != Bundle.graftId m }

/-- R330: the master builds its own image in its standby bank, checks it, and starts distribution. -/
def State.startGraft (s : State) (act m : Mem) (a : Nat) : State :=
  let own := ((Bundle.entries m).map (·.2)).find? fun e => e.member == Img.self act
  let off := (own.map (·.offset)).getD 0
  let len := (own.map (·.length)).getD 0
  let s := (s.setStandby (Mem.writeN [] 0 (m.readN off len))).checkDone
  if s.score.standby = .ready then
    ({ s with graft := s.graft.submitted m a (Img.self act) }.skipTransfers).mboxEnd 0 0
  else s.mboxEnd 2 (off + s.score.errOffset)

/-- R330: SUBMIT. -/
def State.submitGraft (s : State) : State :=
  match s.img with
  | none => s.mboxEnd 4 0
  | some act =>
    if s.graft.phase ≠ .idle ∨ s.bankHeld then s.mboxEnd 1 0
    else
      match s.readBundle act (s.mboxArg 0) (s.mboxArg 1) with
      | (s, .inl o) => s.mboxEnd 2 o
      | (s, .inr m) =>
        let es := ((Bundle.entries m).map (·.2)).filter fun e => e.member != Img.self act
        let d := distMeasures es s.graft.pace
        if s.timely (Bundle.target m) d then s.startGraft act m (s.mboxArg 0) else s.mboxEnd 3 (s.earliest d % 2 ^ 32)

/-- The graft ends here without a switch: the standby image and the lock are discarded (R337). -/
def State.dropGraft (s : State) (outcome reason : Nat) : State :=
  let s := if s.graft.locked ∧ s.graft.imageDone ∧ !s.graft.pruned then { s with score.standby := .empty } else s
  { s with graft := { s.graft.unlock with outcome := outcome, reason := reason } }

/-- R336: the master sends ABORT. -/
def State.abortGraft (s : State) (reason status who : Nat) : State :=
  let body := bodyOf [(0, 2, s.graft.graftId), (2, 2, s.self), (4, 1, reason), (5, 1, status), (6, 2, who)]
  ((s.graftFlood 0x33 body).dropGraft 2 reason).graftMsg

/-- R336: CANCEL. -/
def State.cancelGraft (s : State) : State :=
  if s.graft.master && s.graft.graftId == fld (s.mboxArg 0) 0 12 && !s.graft.decided then
    ({ s with graft.cancelled := true }.abortGraft 4 0 0).mboxEnd 0 0
  else s.mboxEnd 7 0

/-- The entries that need a READY acknowledgement (R336). -/
def Graft.needed (g : Graft) : List BundleEntry := g.allEntries.filter fun e => !e.prune

/-- R336: why the master aborts: REASON, the status of the offending ACK, and the member. -/
def State.abortReason (s : State) : Option (Nat × Nat × Nat) :=
  let es := s.graft.needed
  let ackOf := fun (e : BundleEntry) => (Tab.find s.graft.acks e.member).map (·.1)
  if s.graft.cancelled then some (4, 0, 0)
  else match es.find? fun e => s.ce.lost.contains e.member with
    | some e => some (3, 0, e.member)
    | none =>
      match es.find? fun e => (ackOf e).any (· != 0) with
      | some e => some (1, (ackOf e).getD 0, e.member)
      | none => (es.find? fun e => (ackOf e).isNone).map fun e => (2, 0, e.member)

/-- R337: COMMIT sets the target. A pruned member has no image and only keeps the phrase at which it steps out (R341). -/
def State.takeCommit (s : State) (p : Nat) : State :=
  if s.graft.pruned then
    if (s.beatsTo p).any fun d => decide (4096 ≤ d) then { s with graft.phase := .committed, graft.tgt := p } else s.dropGraft 4 s.graft.reason
  else
    match s.setTarget p with
    | (s, .set) => { s with graft.phase := .committed, graft.tgt := p }
    | (s, _) => s.dropGraft 4 s.graft.reason

/-- R336: COMMIT floods, and the master follows it. -/
def State.commitGraft (s : State) : State :=
  let g := s.graft
  let s := s.graftFlood 0x32 (g.prepareBody s.self)
  let s := { s with graft.decided := true }.takeCommit g.tgt
  (s.graftAdmit g.newSeq g.newFp g.tgt).graftMsg

/-- R336: the master decides. -/
def State.decideGraft (s : State) : State :=
  match s.abortReason with
  | some (r, st, who) => s.abortGraft r st who
  | none => s.commitGraft

/-! ### GRAFT slots (R331–R333) -/

/-- R331: the 64 bytes before a transfer's image. -/
def Graft.transferHead (g : Graft) (e : BundleEntry) : List Byte :=
  leBytes e.member 2 ++ leBytes (b2n e.prune) 2 ++ leBytes e.offset 4 ++ leBytes e.length 4 ++ leBytes 0 4 ++ leBytes e.drainMask 8
    ++ leBytes e.promoteMask 8 ++ leBytes g.graftId 2 ++ leBytes 0 6 ++ leBytes g.tgt 8 ++ leBytes 0 16

/-- The device address and length of the image bytes among bytes `o` to `o + n` of a transfer. -/
def Graft.imageSpan (g : Graft) (e : BundleEntry) (o n : Nat) : Nat × Nat :=
  let i := Nat.max 64 o - 64
  (g.bundle + e.offset + i, min (o + n - Nat.max 64 o) (e.length - i))

/-- R331: at most `n` bytes of a transfer from byte `o`, as they stand in memory. -/
def State.transferBytes (s : State) (e : BundleEntry) (o n : Nat) : List Byte :=
  let span := s.graft.imageSpan e o n
  ((s.graft.transferHead e).drop o).take n ++ s.peekN span.1 span.2

/-- R331: slot `n` of a transfer. A page of the bundle that cannot be read makes its slot PAYLOAD_BAD. -/
def State.transferSlot (s : State) (e : BundleEntry) (n : Nat) : State × Slot :=
  let span := s.graft.imageSpan e (576 * n) 576
  let r := s.load span.1 span.2
  let bad := match r.2 with
    | .data _ => false
    | .ue _ _ | .unbacked _ => true
  let s := r.1
  let last := n % 128 == 127 || n + 1 == e.slots
  let seg := n / 128
  (s, { cls := .graft, typ := 1, part := 0, optag := s.graft.graftId, segment := seg, slotInSeg := n % 128, last := last
        route := e.member, source := s.self, payload := s.transferBytes e (576 * n) 576, payloadBad := bad
        check := if last then (crc64 (s.transferBytes e (73728 * seg) (576 * (n % 128 + 1)))).toNat else 0 })

/-- R332: the first relayed slot whose onward gang is `g`, and the buffer without it. -/
def takeRelay (ok : Slot → Bool) : List Slot → Option (Slot × List Slot)
  | [] => none
  | x :: rest => if ok x then some (x, rest) else (takeRelay ok rest).map fun r => (r.1, x :: r.2)

/-- The master's slot `n` of its present transfer has been sent. -/
def State.transferSent (s : State) (e : BundleEntry) (n : Nat) : State :=
  let s := { s with graft.sentMeasure := s.graft.sentMeasure + 1 }
  if n + 1 < e.slots then { s with graft.sent := n + 1 }
  else { s with graft.sent := 0, graft.entries := s.graft.entries.drop 1 }.skipTransfers

/-- R331, R332: the GRAFT slot that this member sends next on gang `g`: a relayed one, else one of its own while PACE allows. -/
def State.graftOut (s : State) (g : Nat) : Option (State × Slot) :=
  match takeRelay (fun x => s.gangTo (x.route % 1024) == some g) s.graft.relay with
  | some (x, rest) => some ({ s with graft.relay := rest }, x)
  | none =>
    match s.graft.phase, s.graft.entries with
    | .distributing, e :: _ =>
      if s.graft.sentMeasure < s.graft.paceUsed ∧ s.gangTo e.member = some g then
        let n := s.graft.sent
        let r := s.transferSlot e n
        some (r.1.transferSent e n, r.2)
      else none
    | _, _ => none

/-- R332: a GRAFT slot for another member joins the relay buffer. -/
def State.relayGraft (s : State) (p : Nat) (x : Slot) : State :=
  if (s.onward (x.route % 1024)).isEmpty then s.badCue p x.typ
  else if s.graft.relay.length < 1024 then { s with graft.relay := s.graft.relay ++ [x] }
  else (s.count (Cnt.grf 1)).eventC Det.grfRelayOvf .member x.optag

/-! ### A member's side (R333, R335, R337) -/

/-- R335: the message that answers PREPARE, sent along the dimension-order route to the master; false while its queue is full. -/
def State.sendAck (s : State) (master id status err detail : Nat) : State × Bool :=
  s.sendCue 0x31 master (bodyOf [(0, 2, id), (2, 2, s.self), (4, 1, status), (5, 1, err), (8, 8, detail)])

/-- Table GRF-6: this member's answer to the PREPARE that it holds, with LOAD_ERR and DETAIL. -/
def State.ackStatus (s : State) (c : Cue) : Nat × Nat × Nat :=
  let m := s.standbyBank
  if s.graft.pruned then (5, 0, 0)
  else if s.score.standby ≠ .ready then (2, s.score.loadErr, s.score.errOffset)
  else if (Img.sequence m).toNat ≠ c.at 24 4 ∨ (Img.fingerprint m).toNat ≠ c.at 16 8 ∨ Img.epoch m ≠ c.at 28 1 then (6, 0, 0)
  else match s.notReady s.graft.promoteMask with
    | some i => (4, 0, 2 ^ i)
    | none => (0, 0, 0)

/-- R335: the one ACK, once both PREPARE and the outcome of the transfer are there. -/
def State.answerPrepare (s : State) : State :=
  match s.graft.prepare with
  | none => s
  | some c =>
    if s.graft.locked && s.graft.imageDone && !s.graft.ackSent && s.graft.graftId == fld (c.at 0 2) 0 12 then
      let a := s.ackStatus c
      match s.sendAck (c.at 2 2 % 1024) s.graft.graftId a.1 a.2.1 a.2.2 with
      | (s, true) => { s with graft.ackSent := true, graft.reason := a.1
                              graft.phase := if a.1 = 0 then .prepared else s.graft.phase }
      | (s, false) => s
    else s

/-- R333: the first slot of a graft id locks the controller to it. -/
def State.lockGraft (s : State) (x : Slot) : State :=
  let g := s.graft.unlock
  let held := s.graft.prepare.filter fun c => fld (c.at 0 2) 0 12 == x.optag
  { s with graft := { g with
    locked := true, graftId := x.optag, masterNo := x.source, master := false, phase := .receiving, acks := [], acked := []
    allEntries := [], prepare := held, flooded := if held.isSome then g.flooded else g.flooded.filter fun f => f.1 != x.optag } }

/-- The bytes received so far of a transfer of `n` slots, in order; none while one is missing. -/
def Graft.received (g : Graft) (n : Nat) : Option (List Byte) :=
  (List.range n).foldl (fun acc k => acc.bind fun bs => (Tab.find g.rx k).map fun x => bs ++ x) (some [])

/-- R62, R333: segment `k` of a transfer of `n` slots has come whole and its CRC-64 is right. -/
def Graft.segOk (g : Graft) (n k : Nat) : Bool :=
  match Tab.find g.rxTail k with
  | none => false
  | some (slots, check) =>
    let bs := ((List.range slots).map fun i => Tab.get [] g.rx (128 * k + i)).flatten
    decide (slots = min 128 (n - 128 * k)) && (crc64 bs).toNat == check

/-- R333: the whole transfer, once it is complete and every segment has passed its CRC-64. -/
def Graft.transfer (g : Graft) : Option (List Byte) :=
  match Tab.find g.rx 0 with
  | none => none
  | some h =>
    let n := if bitAt (leAt h 2 1) 0 then 1 else ceilDiv (64 + leAt h 8 4) 576
    if (List.range (ceilDiv n 128)).all (g.segOk n) && !g.rxFailed then g.received n else none

/-- R333, R335: a complete transfer is built and checked in the standby bank, unless another holds that bank; a PRUNE transfer is
complete as it is. -/
def State.buildImage (s : State) : State :=
  if !s.graft.locked || s.graft.imageDone || s.graft.master then s
  else match s.graft.transfer with
    | none => s
    | some bs =>
      let s : State := { s with graft.tgt := fld (leAt bs 40 8) 0 38, graft.drainMask := leAt bs 16 8, graft.promoteMask := leAt bs 24 8 }
      if bitAt (leAt bs 2 1) 0 then { s with graft.pruned := true, graft.imageDone := true, graft.phase := GraftPhase.ready }.answerPrepare
      else if s.score.standby = .checking ∨ s.score.rootHold ∨ s.score.target.isSome then s
      else
        let s := (s.setStandby (Mem.writeN [] 0 ((bs.drop 64).take (leAt bs 8 4)))).checkDone
        { s with graft.imageDone := true, graft.phase := if s.score.standby = BankState.ready then GraftPhase.ready else GraftPhase.failed }.answerPrepare

/-- R333: a GRAFT slot for this member. -/
def State.takeGraft (s : State) (x : Slot) : State :=
  if s.graft.locked && s.graft.graftId != x.optag then (s.count (Cnt.grf 2)).eventC Det.grfBusyDrop .member x.optag
  else
    let s := if s.graft.locked then s else s.lockGraft x
    let g := s.graft
    { s with graft := { g with
      rx := Tab.put g.rx (128 * x.segment + x.slotInSeg) x.payload
      rxTail := if x.last then Tab.put g.rxTail x.segment (x.slotInSeg + 1, x.check) else g.rxTail
      rxFailed := g.rxFailed || x.payloadBad } }.buildImage

/-- R332, R333: a GRAFT slot that arrived on port `p`. -/
def State.onGraftSlot (s : State) (p : Nat) (x : Slot) : State :=
  if x.route % 1024 = s.routeSelf then (if s.score.member then s.takeGraft x else s) else s.relayGraft p x

/-- R334: a graft's flood goes on once, and never back. True for the first time it is seen. -/
def State.relayFlood (s : State) (p : Nat) (c : Cue) : State × Bool :=
  let key := (fld (c.at 0 2) 0 12, c.typ)
  if s.graft.flooded.contains key then (s, false)
  else ({ s with graft.flooded := key :: s.graft.flooded }.flood true (some p) none c, true)

/-- R335, R338: a PREPARE that arrived on port `p`. -/
def State.onPrepare (s : State) (p : Nat) (c : Cue) : State :=
  match s.relayFlood p c with
  | (s, false) => s
  | (s, true) =>
    if !s.score.member then s
    else if s.graft.locked && s.graft.graftId != fld (c.at 0 2) 0 12 then
      (s.sendAck (c.at 2 2 % 1024) (fld (c.at 0 2) 0 12) 3 0 0).1
    else { s with graft.prepare := some c }.answerPrepare

/-- R336: an ACK reaches the master. -/
def State.onAck (s : State) (c : Cue) : State :=
  let who := c.at 2 2 % 1024
  if s.graft.master && !s.graft.decided && s.graft.graftId == fld (c.at 0 2) 0 12 then
    { s with
      graft.acks := Tab.put s.graft.acks who (c.at 4 1, c.at 5 1, c.at 8 8)
      graft.acked := if c.at 4 1 = 0 ∨ c.at 4 1 = 5 then insertAsc who s.graft.acked else s.graft.acked }
  else s

/-- R337: a COMMIT that arrived on port `p`. -/
def State.onCommit (s : State) (p : Nat) (c : Cue) : State :=
  match s.relayFlood p c with
  | (s, false) => s
  | (s, true) =>
    let id := fld (c.at 0 2) 0 12
    let t := fld (c.at 8 8) 0 38
    if !s.score.member || s.graft.graftId != id then s
    else if s.graft.locked then
      let s := s.takeCommit t
      if s.graft.phase = .committed then s.graftAdmit (BitVec.ofNat 32 (c.at 24 4)) (BitVec.ofNat 64 (c.at 16 8)) t else s
    else if s.graft.outcome = 3 then
      { s with graft.outcome := 4, score.targetPast := true }.eventC Det.targetRefused .engine t
    else s

/-- R337: an ABORT that arrived on port `p`. -/
def State.onAbort (s : State) (p : Nat) (c : Cue) : State :=
  match s.relayFlood p c with
  | (s, false) => s
  | (s, true) =>
    let id := fld (c.at 0 2) 0 12
    if s.graft.locked && s.graft.graftId == id && s.graft.phase != .committed then s.dropGraft 2 (c.at 4 1)
    else { s with graft.prepare := s.graft.prepare.filter fun x => fld (x.at 0 2) 0 12 != id }

/-- The target phrase of the PREPARE that a member holds. -/
def Graft.preparedFor (g : Graft) : Option Nat := g.prepare.map fun c => fld (c.at 8 8) 0 38

/-- R335: at the downbeat of measure 47 a member without image or failure answers NO_SCION, or BUSY where another graft holds it. -/
def State.ackDeadline (s : State) : State :=
  match s.graft.prepare with
  | none => s
  | some c =>
    if s.graft.preparedFor.any (fun p => s.tact.stamp == beforePhrase p 47) && !s.graft.ackSent && !s.graft.imageDone then
      let id := fld (c.at 0 2) 0 12
      let st := if s.graft.locked && s.graft.graftId != id then 3 else 1
      { (s.sendAck (c.at 2 2 % 1024) id st 0 0).1 with graft.ackSent := true, graft.reason := st }
    else s

/-- R337: the phrase whose graft is undecided at this member. -/
def Graft.undecided (g : Graft) : Option Nat :=
  if g.phase = .committed ∨ g.master then none
  else match g.preparedFor with
    | some p => some p
    | none => if !g.locked then none else if g.imageDone then some g.tgt
      else (Tab.find g.rx 0).map fun h => fld (leAt h 40 8) 0 38

/-- R337: NO_DECISION. -/
def State.noDecision (s : State) : State :=
  if s.graft.undecided.any fun p => s.tact.stamp == beforePhrase p 63 then
    ((s.dropGraft 3 s.graft.reason).count (Cnt.grf 4)).eventC Det.noDecision .member s.graft.graftId
  else s

/-! ### Units (R344–R346) -/

/-- Table GRF-1: the FC_TGT index 0–48 that a unit id names. -/
def unitOfId (v : Nat) : Option Nat :=
  let kind := fld v 8 8
  if 2 ^ 16 ≤ v ∨ 5 < kind then none else (UnitId.ofCode kind (fld v 0 8)).bind (·.target)

/-- Table GRF-7. -/
def UnitState.code : UnitState → Nat
  | .in_ => 0 | .drain => 1 | .quiesced => 2 | .out => 3 | .returning => 4 | .probation => 5

/-- R344: DRAIN. -/
def State.drainUnit (s : State) : State :=
  match unitOfId (s.mboxArg 0 % 2 ^ 32) with
  | none => s.mboxEnd 5 0
  | some i => if (s.unit i).state = .in_ then (s.enterDrain i).mboxEnd 0 0 else s.mboxEnd 6 (s.unit i).state.code

/-- R345: a unit goes OUT: its block reset is asserted. The whole member steps out at the next downbeat instead. -/
def State.unitOut (s : State) (i : Nat) : State :=
  let s := s.modUnit i fun u => { u with passed := false, probCount := 0, patternDone := false, worked := false, agreed := true }
  if i < 48 then (s.blockReset i).setUnitState i .out else s.setUnitState i .out

/-- R345: OUT. -/
def State.outUnit (s : State) : State :=
  match unitOfId (s.mboxArg 0 % 2 ^ 32) with
  | none => s.mboxEnd 5 0
  | some i => if (s.unit i).state = .quiesced then (s.unitOut i).mboxEnd 0 0 else s.mboxEnd 6 (s.unit i).state.code

/-- R441, R442: the unit's reset is released, and its shadow runs for RESET_SHADOW downbeats. A voice port trains again. -/
def State.releaseReset (s : State) (i : Nat) : State :=
  s.setResetOf i { s.resetOf i with inReset := none, shadow := some s.fc.resetShadow }

/-- R345: RETURN. A voice port's shadow partner must be IN. -/
def State.returnTo (s : State) : State :=
  match unitOfId (s.mboxArg 0 % 2 ^ 32) with
  | none => s.mboxEnd 5 0
  | some i =>
    let partner := fld (s.mboxArg 1) 0 4
    let alone := bitAt (s.mboxArg 1) 4
    if (s.unit i).state ≠ .out then s.mboxEnd 6 (s.unit i).state.code
    else if i < 16 ∧ !alone ∧ (s.unit partner).state ≠ .in_ then s.mboxEnd 6 (s.unit partner).state.code
    else
      let s := if i < 48 then s.releaseReset i else s
      let s := s.modUnit i fun u => { u with partner := if i < 16 then partner else 0, noPartner := i < 16 && alone }
      let s := if i < 16 ∧ !(s.port i).holdDown then s.train i else s
      (s.setUnitState i .returning).mboxEnd 0 0

/-- R344: nothing remains in flight on the unit; a voice port waits for a downbeat at which the active score does not enable it. -/
def State.quiet (s : State) (i : Nat) : Bool :=
  if i < 16 then s.beat == 0 && !s.enabled i
  else if i < 44 then (queuesOf i).all fun q => (s.queue q).inflight.isEmpty
  else if i < 48 then (s.ctrl (8 + (i - 44))).waiting.isEmpty && (s.ctrl (8 + (i - 44))).decoding.isEmpty
  else (List.range 256).all fun q => (s.queue q).inflight.isEmpty

/-- Table GRF-9: the unit whose work a unit in probation repeats. -/
def State.partnerOf (s : State) (i : Nat) : Option Nat :=
  let u := s.unit i
  if i < 16 then (if u.noPartner then none else some u.partner)
  else if i < 32 then some (16 + (i - 16 ^^^ 1))
  else if i < 40 then some (32 + (i - 32 ^^^ 1))
  else if i < 44 then some (40 + (i - 40 ^^^ 1))
  else none

/-- R346: probation runs: there is no partner, or it is IN. -/
def State.probationRuns (s : State) (i : Nat) : Bool := (s.partnerOf i).all fun j => (s.unit j).state == .in_

/-- Table GRF-9: the RETURNING work has been done. -/
def State.returned (s : State) (i : Nat) : Bool :=
  if i < 16 then (s.port i).state == .aligned
  else if i < 44 then true
  else if i < 48 then (s.cxl (i - 44)).linkUp
  else s.tact.state == .locked

/-- R159, R160: the pages of expander `j` are filled: zero data, no poison. -/
def State.fillCxl (s : State) (j : Nat) : State :=
  let own := fun (a : Nat) => decide (0x10000000000 + j * 2 ^ 39 ≤ a) && decide (a < 0x10000000000 + (j + 1) * 2 ^ 39)
  { s with
    ram := s.ram.filter fun x => !own x.1, mem.poison := s.mem.poison.filter fun a => !own a
    mem.errs := s.mem.errs.filter fun x => !own x.1, mem.corrected := s.mem.corrected.filter fun x => !own x.1 }

/-- Table GRF-9: what the RETURNING work leaves in the unit. -/
def State.clearReturned (s : State) (i : Nat) : State :=
  if i < 16 then s
  else if i < 32 then s.setMe (i - 16) { s.me (i - 16) with sram := [], undef := none, batches := [] }
  else if i < 40 then s.setCl (i - 32) { s.cl (i - 32) with sram := [] }
  else if 44 ≤ i ∧ i < 48 then s.fillCxl (i - 44)
  else s

/-- R346: one more measure of probation at a downbeat. -/
def State.probationDownbeat (s : State) (i : Nat) : State :=
  let u := s.unit i
  if u.state ≠ .probation ∨ !s.probationRuns i then s
  else
    let worked := if i = 48 then s.tact.state == .locked && !s.fc.targets.any fun t => t.2.named else u.worked
    s.setUnit i { u with worked := false, agreed := true
                         probCount := if worked && u.agreed then min 0xFFFF (u.probCount + 1) else u.probCount }

/-- R339: the masks of the graft at the switch. A promoted tier-2 port's window becomes backed, and a HELD target that is IN again serves
with a RECOVERY_COUNT of 0 (R440). -/
def State.applyMasks (s : State) : State :=
  let up := fun (i : Nat) (st : State) =>
    if st.promotable i then
      let st := (st.modUnit i fun u => { u with passed := false, probCount := 0 }).setUnitState i .in_
      let st := if st.held i then st.setTgt i { st.tgt i with state := .serving, recoveries := 0 } else st
      if 44 ≤ i then st.modCxl (i - 44) fun x => { x with backed := true } else st
    else (st.count (Cnt.grf 3)).eventC Det.grfPromoteSkip (unitAt i) i
  forEach (maskUnits s.graft.drainMask) (fun i st => st.enterDrain i) (forEach (maskUnits s.graft.promoteMask) up s)

end Sys2Proof.Machine
end

