-- ==== Sys2Proof/Machine/Faults.lean ====
section
/-!
DEFINITION. Commands of the fault collector and of block resets (chapter 16, R527, R560, R561).
-/
namespace Sys2Proof.Machine

/-! ### Block resets (R441, R442, R527) -/

/-- R441.4, R527: 256 beats after it was asserted a reset is released: a voice port enters TRAINING, and a tier-2 port's link comes
up. A unit that is OUT stays in reset (R345). -/
def State.resetOver (s : State) (i : Nat) : State :=
  let s := s.releaseReset i
  if i < 16 then (if (s.port i).state = .down ∧ !(s.port i).holdDown then s.train i else s)
  else if 44 ≤ i then s.modCxl (i - 44) fun x => { x with linkUp := true }
  else s

/-- R441: BLOCK_RESET_RELEASE. -/
def execBlockResetRelease (i : Nat) (s : State) : Out :=
  within (Instr.blockResetRelease i).wf <|
    if s.live && (s.unit i).state != .out && (s.resetOf i).inReset.any fun t => decide (t + 256 ≤ s.now) then s.resetOver i else s

/-- R442: a shadow closes at the RESET_SHADOW-th downbeat after the release. -/
def execShadowClose (i : Nat) (s : State) : Out :=
  within (Instr.shadowClose i).wf <|
    if (s.resetOf i).shadow = some 0 then s.setResetOf i { s.resetOf i with shadow := none } else s

/-- R527: OLS_CTRL. -/
def State.writeOlsCtrl (s : State) (v : Nat) : State :=
  let s := { s with sys.ctrlUnit := fld v 0 16 }
  if !bitAt v 31 then s
  else
    match unitOfId (fld v 0 16) with
    | none => { s with sys.blockRefused := true }
    | some i =>
      let st := (s.unit i).state
      if i < 48 ∧ (st = .in_ ∨ st = .drain ∨ st = .quiesced) then s.blockReset i else { s with sys.blockRefused := true }

/-- R527: OLS_BLOCK_RESET. -/
def execOlsBlockReset (v : Word) (s : State) : Out :=
  within (Instr.olsBlockReset v).wf <| s.whenLive fun s => s.writeOlsCtrl v.toNat

/-! ### Recovery (R439, R440) -/

/-- R439: a CONTAINED target whose quiet period is complete becomes SERVING. -/
def State.recover (s : State) (t : Nat) : State :=
  let g := s.tgt t
  if g.state = .contained ∧ !g.named ∧ s.fc.quietMeasures ≤ g.quiet then
    let s := s.setTgt t { g with state := .serving, recoveries := min 255 (g.recoveries + 1) }
    (s.eventC Det.recovered (unitAt t)).irqSet 0x04#6
  else s

/-- R439: RECOVERED. -/
def execRecovered (t : Nat) (s : State) : Out := within (Instr.recovered t).wf <| s.recover t

/-- R440: FC_TGT.CLEAR. -/
def State.clearTarget (s : State) (t : Nat) : State :=
  let g := s.tgt t
  if s.fc.safe then s
  else if t < 48 ∧ g.state = .held then { s with fc.clearRefused := true }
  else s.setTgt t { g with recoveries := 0, quiet := 0, state := .serving }

/-- R440: FC_TGT_CLEAR. -/
def execFcTgtClear (t : Nat) (s : State) : Out := within (Instr.fcTgtClear t).wf <| s.whenLive fun s => s.clearTarget t

/-- R439: each CONTAINED target at a downbeat. -/
def State.quietDownbeat (s : State) : State :=
  { s with fc.targets := Tab.mapVals (fun _ g =>
      { g with named := false
               quiet := if g.state = .contained then (if g.named then 0 else min 0xFFFF (g.quiet + 1)) else g.quiet }) s.fc.targets }

/-- R442: one downbeat of every open shadow whose reset has been released. -/
def State.shadowDownbeat (s : State) : State :=
  { s with fc.resets := Tab.mapVals (fun _ r => { r with shadow := r.shadow.map fun n => n - 1 }) s.fc.resets }

/-! ### Injection (R451, R561) -/

/-- INJECT_F: a class-F event marked as injected. -/
def State.injectF (s : State) (unit : UnitId) : State :=
  let s' := { (s.countDet Det.injectF).log (s.entry Det.injectF .f false true unit none 0) with mgmt.eventsF := s.mgmt.eventsF + 1 }
  (State.logIrq s s').enterSafe Det.injectF unit

/-- R451, R561: FC_INJECT. A class-U injection changes its target's state and nothing else. -/
def State.inject (s : State) (v : Nat) : State :=
  let t := fld v 40 9
  match UnitId.ofCode (fld v 24 8) (fld v 16 8) with
  | none => s
  | some u =>
    if !bitAt v 63 then s
    else match fld v 0 2 with
      | 0 => State.logIrq s (State.eventCN 2 s Det.injectC u u.target 0 false true)
      | 1 => if okTarget t then (s.contain Det.injectU u t 0 true).1 else s
      | 2 => s.injectF u
      | _ => s

/-- R451: FC_INJECT. -/
def execFcInject (v : DWord) (s : State) : Out :=
  within (Instr.fcInject v).wf <| s.whenLive fun s => s.inject v.toNat

/-- R451, R560: FC_CTRL, whose SAFE_KEY 0xA5 raises SAFE_REQUEST. -/
def State.writeFcCtrl (s : State) (v : Nat) : State :=
  let s := { s with fc.vecC := fld v 0 11, fc.vecU := fld v 11 11, fc.irqEn := bitAt v 22 }
  if fld v 24 8 = 0xA5 then s.raiseF Det.safeRequest .engine 0 else s

/-- R451: SAFE_REQUEST. -/
def execSafeRequest (v : Word) (s : State) : Out :=
  within (Instr.safeRequest v).wf <| s.whenLive fun s => s.writeFcCtrl v.toNat

/-! ### The mirror (R436, R561) -/

/-- R436, R561: a write to FC_MIRROR_SEL shows the entry of that SEQ, if the mirror still holds it. -/
def State.selectMirror (s : State) (v : Word) : State :=
  { s with fc.mirrorSel := v, fc.mirrorDone := true
           fc.mirrorData := (Tab.find s.fc.mirror (v.toNat % 8192)).filter fun e => e.seq == v }

/-- R561: MIRROR_SELECT. -/
def execMirrorSelect (v : Word) (s : State) : Out :=
  within (Instr.mirrorSelect v).wf <| s.whenLive fun s => s.selectMirror v

/-! ### The collector's own faults (R450) -/

/-- R450: a parity error or a compare mismatch of the collector drives the engine into the safe state without a log entry. -/
def execLockstep (parity : Bool) (s : State) : Out :=
  within (Instr.lockstep parity).wf <|
    if s.fc.safe then s else s.enterSafe (if parity then Det.regParity else Det.lockstep) .engine

end Sys2Proof.Machine
end

