-- ==== Sys2Proof/Machine/Power.lean ====
section
/-!
DEFINITION. Power and temperature (R519–R522, R571, R576), clocks (R430, R569), and the links of the expanders and of HBM4 (R160,
R430, R496).
-/
namespace Sys2Proof.Machine

/-! ### The governor (R519–R522) -/

/-- R522: the hottest temperature of the measure, a failed sensor read as 105 °C. Units of 0.125 °C. -/
def Power.hot (p : Power) : Int := if p.failed.isEmpty then p.hottest else max p.hottest 840

/-- R522: both duties go to 1. -/
def Power.floor (p : Power) : Power := { p with meDuty := 1, clDuty := 1 }

/-- R520: the end of a clamp: CL_DUTY as before it, ME_DUTY 4 less. -/
def Power.unclamp (p : Power) : Power :=
  match p.clamp with
  | some (me, cl) => { p with meDuty := Nat.max 1 (me - 4), clDuty := cl, clamp := none }
  | none => p

/-- R519: one duty falls by one sixteenth, MEs first. -/
def Power.lower (p : Power) : Power :=
  if 1 < p.meDuty then { p with meDuty := p.meDuty - 1 } else { p with clDuty := Nat.max 1 (p.clDuty - 1) }

/-- R521: one duty rises by one sixteenth, clusters first. -/
def Power.rise (p : Power) : Power :=
  if p.clDuty < 16 then { p with clDuty := p.clDuty + 1 } else { p with meDuty := min 16 (p.meDuty + 1) }

/-- The measure's mean power and hottest Tj are taken, and a new measure begins. Without a reading the last ones stand. -/
def Power.take (p : Power) : Power :=
  { p with
    power := if p.samples = 0 then p.power else BitVec.ofNat 16 (p.sum / p.samples)
    tj := if p.hot = -32768 then p.tj else BitVec.ofInt 16 p.hot
    sum := 0, samples := 0, hottest := -32768 }

/-- R519: the power is above the cap, or Tj is at least 95 °C. -/
def Power.over (p : Power) : Bool := decide (8 * p.cap < p.power.toNat) || decide (760 ≤ p.tj.toInt)

/-- R521: the power is at least 20 W below the cap and Tj below 93 °C. -/
def Power.cool (p : Power) : Bool := decide (p.power.toNat + 160 ≤ 8 * p.cap) && decide (p.tj.toInt < 744)

/-- R519–R522: the governor at a downbeat. -/
def Power.govern (p : Power) : Power :=
  let p := p.take.unclamp
  let p := if p.tjHold ∧ p.failed.isEmpty ∧ p.tj.toInt < 800 then { p with tjHold := false } else p
  let run := if p.cool then min 5 (p.coolRun + 1) else 0
  let p := { p with coolRun := run }
  if p.tjHold then p.floor
  else if p.over then p.lower
  else if 5 ≤ run then p.rise
  else p

/-- R519: a duty that ran at 16 falls below it: GOVERNOR_CAP, or THROTTLE where Tj is the cause. -/
def State.governDownbeat (s : State) : State :=
  let p := s.power
  let q := p.govern
  let fell := !q.tjHold && q.over
    && ((p.unclamp.meDuty == 16 && decide (q.meDuty < 16)) || (p.unclamp.clDuty == 16 && decide (q.clDuty < 16)))
  let s := { s with power := q }
  if fell then s.eventC (if 760 ≤ q.tj.toInt then Det.throttle else Det.governorCap) .engine q.meDuty else s

/-- R520: a sample above 690 W clamps both duties until the next downbeat. -/
def State.sample (s : State) (w : Nat) : State :=
  let p := { s.power with last := w, sum := s.power.sum + w, samples := s.power.samples + 1 }
  if 5520 < w then
    let c := p.clamp.or (some (p.meDuty, p.clDuty))
    ({ s with power := { p.floor with clamp := c } }).eventC Det.powerOver .engine w
  else { s with power := p }

/-- R520: POWER_SAMPLE, in eighths of a watt. -/
def execPowerSample (eighthWatts : Nat) (s : State) : Out :=
  within (Instr.powerSample eighthWatts).wf <| if s.live then s.sample eighthWatts else s

/-- R522: the duties are held at 1, which is counted when the hold begins. -/
def State.holdTj (s : State) : State :=
  if s.power.tjHold then s
  else ({ s with power := { s.power.floor with tjHold := true, coolRun := 0 } }).eventC Det.tjMax .engine

/-- R522: a reading of the hottest Tj: 105 °C or more holds both duties at 1, and below 100 °C the hold ends. -/
def State.readTj (s : State) (t : Int) : State :=
  let s := { s with power.hottest := max s.power.hottest t }
  if 840 ≤ t then s.holdTj
  else if t < 800 ∧ s.power.failed.isEmpty then { s with power.tjHold := false }
  else s

/-- R522: TJ_MAX, with the hottest reading in eighths of a degree. -/
def execTjMax (eighthDegrees : Int) (s : State) : Out :=
  within (Instr.tjMax eighthDegrees).wf <| if s.live then s.readTj eighthDegrees else s

/-- R522, R576: THERM_TRIP: the pin is asserted in hardware, and the event is class F. -/
def execThermTrip (s : State) : Out :=
  within true <| if s.sys.pwrgd then { s with sys.thermTripN := false }.raiseF Det.thermTrip .engine 0 else s

/-- R576: THERM_TRIP_RELEASE: with PWRGD low, below 100 °C. -/
def execThermTripRelease (eighthDegrees : Int) (s : State) : Out :=
  within (Instr.thermTripRelease eighthDegrees).wf <|
    if !s.sys.pwrgd ∧ eighthDegrees < 800 then { s with sys.thermTripN := true } else s

/-- R430, R522: SENSOR_FAIL: the sensor reads as 105 °C from now on, which holds the duties. -/
def execSensorFail (id : Nat) (s : State) : Out :=
  within (Instr.sensorFail id).wf <|
    if s.live && !s.power.failed.contains id then
      ({ s with power.failed := insertAsc id s.power.failed }.raise Det.sensorFail .engine none id).holdTj
    else s

/-- R571: RAIL_WARN: a rail leaves its warning band. -/
def execRailWarn (rail : Nat) (s : State) : Out :=
  within (Instr.railWarn rail).wf <| if s.sys.vstby then s.eventC Det.railWarn .engine rail else s

/-- R571: RAIL_FAULT: a rail has been outside its band for 10 µs with PWRGD high. -/
def execRailFault (rail : Nat) (s : State) : Out :=
  within (Instr.railFault rail).wf <| if s.sys.pwrgd then s.raiseF Det.railFault .engine rail else s

/-! ### Clocks (R430, R569) -/

/-- R569: SERDES_PLL_UNLOCK: the port goes DOWN and retrains. -/
def execSerdesPllUnlock (p : Nat) (s : State) : Out :=
  within (Instr.serdesPllUnlock p).wf <|
    if s.sys.pwrgd && (s.port p).state != .down then (s.portToDown p).raiseOn Det.serdesPllUnlock (.vp p) else s

/-- R430: CORE_PLL_UNLOCK: loss of lock after start-up step 3. -/
def execCorePllUnlock (s : State) : Out :=
  within true <|
    if s.sys.pwrgd && s.tact.pllLocked then { s with tact.pllLocked := false }.raiseF Det.corePllUnlock .engine 0 else s

/-- R430: CROSSING_ERR. -/
def execCrossingErr (s : State) : Out :=
  within true <| if s.sys.pwrgd then s.raiseF Det.crossingErr .engine 0 else s

/-! ### HBM4 interfaces (R430) -/

/-- R430: HOT_REFRESH: a stack enters or leaves hot refresh. -/
def execHotRefresh (k : Nat) (enter : Bool) (s : State) : Out :=
  within (Instr.hotRefresh k enter).wf <|
    let was := (s.ctrl k).hotRefresh
    let t := s.modCtrl k fun c => { c with hotRefresh := enter }
    if !s.live then s else if enter && !was then t.eventC Det.refreshHot (.stack k) else t

/-- R430: PHY_RETRAIN: the channel interface of a slice retrains; a retrain that fails is PHY_FAIL. -/
def execPhyRetrain (slice : Nat) (ok : Bool) (s : State) : Out :=
  within (Instr.phyRetrain slice ok).wf <|
    if !s.live then s
    else
      let s := s.eventC Det.phyRetrain (.stack (slice / 4)) slice
      if ok then s else s.raiseF Det.phyFail (.stack (slice / 4)) slice

/-! ### Expander links (R160, R496) -/

/-- R496: CXL_RETRAIN: the port's accesses are held. -/
def execCxlRetrain (j : Nat) (s : State) : Out :=
  within (Instr.cxlRetrain j).wf <|
    if s.live && (s.cxl j).linkUp && !(s.ctrl (8 + j)).retraining then
      (s.modCtrl (8 + j) fun c => { c with retraining := true, retrainSince := s.now }).eventC Det.cxlRetrain (.cxl j)
    else s

/-- R496: CXL_RETRAIN_DONE: the accesses go on. -/
def execCxlRetrainDone (j : Nat) (s : State) : Out :=
  within (Instr.cxlRetrainDone j).wf <|
    if s.live then s.modCtrl (8 + j) fun c => { c with retraining := false } else s

/-- R496: CXL_RETRAIN_TIMEOUT: the link has not returned within 1 ms (78,125 beats), and is lost. -/
def execCxlRetrainTimeout (j : Nat) (s : State) : Out :=
  within (Instr.cxlRetrainTimeout j).wf <|
    let c := s.ctrl (8 + j)
    if s.live && c.retraining && decide (c.retrainSince + 78125 ≤ s.now) then
      (s.modCtrl (8 + j) fun c => { c with retraining := false }).loseCxl j Det.cxlLinkLost
    else s

/-- R496: CXL_VIRAL: handled as a lost link. -/
def execCxlViral (j : Nat) (s : State) : Out :=
  within (Instr.cxlViral j).wf <| if s.live && (s.cxl j).linkUp then s.loseCxl j Det.cxlViral else s

/-- R160, R346: EXPANDER_FILL_DONE: an expander brought back by a block reset backs its window again. In PROBATION it is the end of the
pattern pass, which also fills. A fill that fails is FILL_FAIL. -/
def execExpanderFillDone (j : Nat) (ok : Bool) (s : State) : Out :=
  within (Instr.expanderFillDone j ok).wf <|
    let x := s.cxl j
    if !s.live || !x.linkUp || !x.enumerated || x.backed then s
    else if !ok then s.raiseF Det.fillFail (.cxl j) j
    else
      match (s.unit (44 + j)).state with
      | .in_ => (s.fillCxl j).setCxl j { x with backed := true }
      | .probation => (s.fillCxl j).modUnit (44 + j) fun u => { u with patternDone := true }
      | _ => s

end Sys2Proof.Machine
end

