-- ==== Sys2Proof/Machine/Espalier.lean ====
section
/-!
DEFINITION. The espalier (chapter 5): one flit through one router, and one flit into a unit.
-/
namespace Sys2Proof.Machine

/-- The FC_TGT index of a unit on the mesh. -/
def Attach.target : Attach → Option Nat
  | .vp n => some n | .me n => some (16 + n) | .cl n => some (32 + n) | .ce n => some (40 + n) | .cxl n => some (44 + n)
  | .slice _ | .host | .dma | .cue | .graft => none

/-- R125: a stopped unit injects and accepts nothing. -/
def State.attachStopped (s : State) (u : Attach) : Bool :=
  match u.target with
  | some i => (s.unit i).state.stopped
  | none => false

/-- R111, R112, R118: a flit is discarded and counted. -/
def State.dropFlit (s : State) (r : Nat) (via : List Nat) : State := (s.count Cnt.espDrop).eventC Det.espDrop .espalier r via

/-- The command that owns a flit's TAG: by request id, or by the slot's OPTAG (Table ESP-1). -/
def State.flitOwner (s : State) (f : Flit) : Option (Nat × Nat) :=
  if f.kind = 1 ∨ f.kind = 2 then Tab.find s.esp.reqOwner (f.tag % 65536)
  else if f.kind = 0 then (s.ce.colls.find? fun c => c.optag == f.tag % 4096).map fun c => (c.queue, c.tok)
  else none

/-- R119: the SECDED of a flit at router `r`: its new value, or none where it is discarded. -/
def State.secded (s : State) (r : Nat) (f : Flit) (err : FlitError) (via : List Nat) : State × Option Flit :=
  match err with
  | .clean => (s, some f)
  | .single => ((s.count Cnt.espEccCorr).eventC Det.espEccCorr .espalier r via, some f)
  | .doubleSideband => (s.dropFlit r via, none)
  | .doubleData =>
    let tgt := (s.flitOwner f).map fun o => 64 + o.1
    if f.poison then (s, some f)
    else ((s.count Cnt.espPoison).raise Det.espPoison .espalier tgt r via, some { f with poison := true })

/-- The half of ESP_EDGE that counts EDGE_OVER (Table REG-11): bits [31:16], saturating. -/
def State.countEdgeOver (s : State) (p : Nat) : State :=
  let v := (s.counter (Cnt.espEdge p)).toNat
  let w : Word := BitVec.ofNat 32 (v % 65536 + 65536 * satAdd 65535 (v / 65536) 1)
  { s with counters := Tab.put s.counters (Cnt.espEdge p) w }

/-- The half of ESP_EDGE that counts LATE. -/
def State.countEdgeLate (s : State) (p : Nat) : State :=
  let v := (s.counter (Cnt.espEdge p)).toNat
  let w : Word := BitVec.ofNat 32 (satAdd 65535 (v % 65536) 1 + 65536 * (v / 65536))
  { s with counters := Tab.put s.counters (Cnt.espEdge p) w }

/-- R122: an edge router whose entry names a second input counts ESP_EDGE_OVER once in the cycle. -/
def State.edgeOver (s : State) (r cycle : Nat) (via : List Nat) : State :=
  let t := 20 * s.now + cycle + 1
  if Tab.get 0 s.esp.edgeOver r = t then s
  else
    let s : State := { s with esp.edgeOver := Tab.put s.esp.edgeOver r t }
    let p := if r % 8 = 0 then r / 8 else 8 + r / 8
    ((s.count Cnt.espEdgeOver).countEdgeOver p).eventC Det.espEdgeOver .espalier r via

/-- R111, R112: a flit driven onto one output. -/
def State.drive (s : State) (r : Nat) (f : Flit) (o : Link) (via : List Nat) : State :=
  let age := f.age + latency r o
  match neighbourOf r o with
  | none => { s with esp.arrived := s.esp.arrived ++ [(r, o, { f with age := age })] }
  | some (r', l') =>
    if 40 ≤ age then s.dropFlit r via else { s with esp.inflight := s.esp.inflight ++ [(r', l', { f with age := age })] }

/-- R111, R122: a flit on input `l` of router `r` in core cycle `cycle` of the present beat. -/
def State.hop (s : State) (r : Nat) (l : Link) (f : Flit) (cycle : Nat) (err : FlitError) (via : List Nat) : State :=
  match s.secded r f err via with
  | (s, none) => s
  | (s, some f) =>
    let e := (s.img.map fun m => Img.entryAt m r s.beat cycle).getD 0
    let named := Link.all.filter fun o => outField e o == l.code
    let outs := outputsFor r e l
    if named.isEmpty then s.dropFlit r via
    else if outs.isEmpty then s.edgeOver r cycle via
    else forEach outs (fun o st => st.drive r f o via) s

/-- R117, R125: the unit at the attach point injects, in a cycle whose path is live. -/
def State.mayInject (s : State) (r : Nat) (l : Link) (cycle : Nat) : Bool :=
  match attachAt r l, s.img with
  | some u, some m =>
    let es := Img.path m r l s.beat cycle
    !s.attachStopped u && !es.isEmpty && !deadPath u es
  | some _, none => false
  | none, _ => true

/-- R111: one router and one flit, injected by the unit at the input or arrived by a link. -/
def execFlitHop (r : Nat) (input : Link) (inject : Option Flit) (cycle : Nat) (err : FlitError) (s : State) : Out :=
  within (Instr.flitHop r input inject cycle err).wf <|
    let via := ((attachAt r input).bind Attach.target).toList
    match inject with
    | some f => if s.mayInject r input cycle then s.hop r input f cycle err via else s
    | none =>
      match s.esp.inflight.find? fun x => x.1 == r && x.2.1 == input with
      | some x => { s with esp.inflight := s.esp.inflight.erase x }.hop r input x.2.2 cycle err via
      | none => s

/-- R119: what a poisoned flit does to the unit that receives it. -/
def State.poisonedFlit (s : State) (u : Attach) (f : Flit) : State :=
  match u with
  | .vp n =>
    if f.piece = 0 then s.modPort n fun x => { x with fwd := none }
    else s.modPort n fun x => { x with fwd := x.fwd.map fun sl => { sl with payloadBad := true } }
  | _ =>
    match s.flitOwner f with
    | some (q, tok) => s.finish q tok { status := St.dataUe, detail := 0 }
    | none => s

/-- R117, R119, R125: a flit reaches the unit at attach point `l` of router `r`. -/
def execFlitDeliver (r : Nat) (l : Link) (err : FlitError) (s : State) : Out :=
  within (Instr.flitDeliver r l err).wf <|
    match s.esp.arrived.find? fun x => x.1 == r && x.2.1 == l, attachAt r l with
    | some x, some u =>
      let s : State := { s with esp.arrived := s.esp.arrived.erase x }
      let via := u.target.toList
      if s.attachStopped u then s
      else
        match s.secded r x.2.2 err via with
        | (s, none) => s
        | (s, some f) =>
          if !u.serves.contains f.kind then (s.count Cnt.espMisroute).eventC Det.espMisroute .espalier r via
          else if f.poison then s.poisonedFlit u f
          else s
    | _, _ => s

end Sys2Proof.Machine
end

