-- ==== Sys2Proof/Machine/Slots.lean ====
section
/-!
DEFINITION. The slot path of a voice port (chapter 3): the checks on an arriving slot (R74), its release to forwarding and to the
ingress buffer (R71, R73), the slot that a port sends (R55, R67, R582), and the cue node (R70).
-/
namespace Sys2Proof.Machine

/-! ### Arrival (R38, R74) -/

/-- R74: a slot is lost under one cause. `red`: it adds to the red count (R42). -/
def State.slotLost (s : State) (p cnt det : Nat) (red : Bool) : State :=
  let s := s.modPort p fun x => { x with red := x.red + b2n red }
  ((s.count (Cnt.vp p Cnt.slotLost)).count (Cnt.vp p cnt)).eventC det (.vp p)

/-- The slot aligner takes one slot more; it is four beats deep. -/
def State.pushSlot (s : State) (p : Nat) (sl : Slot) : State :=
  s.modPort p fun x => { x with aligner := (x.aligner ++ [sl]).drop (x.aligner.length + 1 - 4) }

/-- Table VOX-14: symbols corrected, by lane. -/
def State.noteCorr (s : State) (p : Nat) (corr : List Nat) : State :=
  let s := forEach (numbered 0 corr) (fun x st => st.countN (Cnt.vp p (Cnt.fecCorr x.1)) x.2) s
  if corr.all (· == 0) then s else s.eventC Det.fecCorr (.vp p)

/-- R38: an accepted slot whose error is amber. -/
def State.noteAmber (s : State) (p : Nat) (e : Int) : State :=
  if zoneOf e = .amber then
    ((s.modPort p fun x => { x with amber := x.amber.add e }).count (Cnt.vp p Cnt.edge)).eventC Det.edge (.vp p)
  else s

/-- The score by which port `p` judges a slot sent in beat `sent` (R107); none for the bootstrap score. -/
def State.rxImg (s : State) (p : Nat) (sent : Stamp) : Option Mem :=
  if (s.port p).state.scheduled then s.imgAt sent else none

/-- R89, R80: the receive entry admits the slot. Under the bootstrap score a CUE slot is admitted in any beat (R76). -/
def entryAdmits (m : Option Mem) (p : Nat) (sl : Slot) : Bool :=
  sl.cls == .rest ||
    match m with
    | some m => let code := Img.classCode m p 1 (sl.stamp % 4096); code == 6 || code == sl.cls.code
    | none => sl.cls == .cue

/-- R66: a CHOIR slot has the TYPE that its command fixes. -/
def State.formatOk (s : State) (sl : Slot) : Bool :=
  match sl.eclass with
  | .choirHi | .choirLo => s.choirTypeOk sl.part sl.optag sl.segment sl.etype
  | .rest | .cue | .stream | .graft | .openSlot | .bad => true

/-- R76: a CUE slot all of whose messages, if it has any, are of roll call. -/
def Slot.rollCallOnly (sl : Slot) : Bool :=
  sl.eclass == .cue && (cuesOf sl.payload sl.etype).all fun c => decide (1 ≤ c.typ) && decide (c.typ ≤ 4)

/-- R76, R82, R107: the slot's epoch is that of the score under which it was sent. -/
def epochOk (m : Option Mem) (sl : Slot) : Bool := sl.epoch == (m.map Img.epoch).getD 0 || sl.rollCallOnly

/-- Checks 5 to 7 of Table VOX-12 on a slot sent in beat `sent`. -/
def State.judgeSlot (s : State) (p : Nat) (sent : Stamp) (sl : Slot) (payOk : Bool) : State :=
  let m := s.rxImg p sent
  if !(sl.classOk && s.formatOk sl && entryAdmits m p sl) then
    ((s.count (Cnt.vp p Cnt.badClass)).eventC Det.badClass (.vp p)).pushSlot p {}
  else if !epochOk m sl then
    ((s.count (Cnt.vp p Cnt.epochForeign)).eventC Det.epochForeign (.vp p)).pushSlot p {}
  else if payOk then s.pushSlot p sl
  else ((s.count (Cnt.vp p Cnt.payloadCrc)).eventC Det.payloadCrc (.vp p)).pushSlot p { sl with payloadBad := true }

/-- Table GRF-9: a slot that a port in probation receives: it is discarded, and a failure ends the probation. -/
def State.probationSlot (s : State) (p : Nat) (ok : Bool) : State :=
  if !s.probationRuns p then s
  else if ok then s.modUnit p fun u => { u with worked := true }
  else (s.unitOut p).raiseOn Det.probationMismatch (unitAt p)

/-- What remains of a slot that failed one of checks 1 to 4: REST. -/
def State.afterLoss (s : State) (p : Nat) : State :=
  if (s.unit p).state = .probation then s.probationSlot p false else s.pushSlot p {}

/-- Checks 2 to 7 of Table VOX-12 on a decoded codeword. -/
def State.checkSlot (s : State) (p w : Nat) (bs : List Byte) (e : Int) : State :=
  let r := Slot.decode bs
  let sent := (s.sentBeat p).getD (BitVec.ofNat 56 r.slot.stamp)
  if !r.hdrOk then (s.slotLost p Cnt.hdrCrc Det.hdrCrc false).afterLoss p
  else if w ≠ beatWord (sent.toNat % 4096) ∨ r.slot.stamp ≠ sent.toNat % 2 ^ 32 then (s.slotLost p Cnt.stamp Det.stamp true).afterLoss p
  else if zoneOf e = .red then (s.slotLost p Cnt.phase Det.phase true).afterLoss p
  else
    let s := ((s.noteAmber p e).noteFallen p r.slot.fallen).noteOos p r.slot.oos
    let s := s.modPort p fun x => { x with frame := if x.frame.isNone then some (sent, s.now) else x.frame }
    if (s.unit p).state = .probation then
      s.probationSlot p (r.slot.classOk && r.payOk && r.slot.shadow && !r.slot.payloadBad)
    else s.judgeSlot p sent r.slot r.payOk

/-- R74: the slot that arrives, with its phase measured whatever the outcome. An out-of-step or stopped port discards it (R42,
Table GRF-8). -/
def State.slotIn (s : State) (p : Nat) (code : Option (Nat × List Byte)) (corr : List Nat) (phase : Int) : State :=
  let x := s.port p
  let e := x.err phase
  let s := s.setPort p { x with phase := x.phase.add e, uncorr := x.uncorr + b2n code.isNone }
  if x.state = .outOfStep ∨ (s.unit p).state.stopped then s
  else
    match code with
    | none => (s.slotLost p Cnt.fecUncorr Det.fecUncorr false).afterLoss p
    | some (w, bs) => (s.noteCorr p corr).checkSlot p w bs e

/-- R74: SLOT_RX, in the slot's landing beat. The slot of the neighbour's beat 4,095 is the tail slot. -/
def execSlotRx (p : Nat) (code : Option (Nat × List Byte)) (corr : List Nat) (phase : Int) (s : State) : Out :=
  within (Instr.slotRx p code corr phase).wf <|
    if s.live && (s.port p).state.linked && !(s.sentBeat p).any fun b => b.toNat % 4096 == 4095 then s.slotIn p code corr phase else s

/-! ### Release (R71, R73, R120, R582) -/

/-- The end of a path is a voice port. -/
def Attach.port : Attach → Option Nat
  | .vp n => some n
  | .me _ | .slice _ | .ce _ | .cl _ | .host | .dma | .cxl _ | .cue | .graft => none

/-- R120, R121: the paths of port `p` in the present beat on which a CHOIR slot of this part is forwarded: they end at voice ports, and
perhaps at the serving CE. -/
def State.forwardPaths (s : State) (p part : Nat) : List (Nat × List (Attach × Nat)) :=
  match s.img with
  | none => []
  | some m => (Img.portPaths m p s.beat).filter fun x =>
      x.2.any (fun e => e.1.port.isSome) && x.2.all fun e => e.1.port.isSome || e.1 == .ce (part % 4)

/-- R120: the core cycle, counted from the release beat, in which piece `i` reaches port `q` on the chosen paths. -/
def pieceArrival (paths : List (Nat × List (Attach × Nat))) (q i : Nat) : Option Nat :=
  paths[i]?.bind fun x => (x.2.find? fun e => e.1 == .vp q).map (·.2)

/-- R120: the pieces reach port `q` by cycles 0, 7 and 15 of its send beat. -/
def piecesInTime (paths : List (Nat × List (Attach × Nat))) (q : Nat) : Bool :=
  [(0, 20), (1, 27), (2, 35)].all fun x => (pieceArrival paths q x.1).any fun t => decide (t ≤ x.2)

/-- R582: the slot holds output port `q`'s next beat, unless one whose piece 0 came earlier does; the other is lost. -/
def State.holdBeat (s : State) (q : Nat) (sl : Slot) (at_ : Nat) : State :=
  let y := s.port q
  let taken := y.fwd.isSome && y.fwdDue == s.now + 1
  let s := s.onlyIf taken (·.count (Cnt.vp q Cnt.fwdNoSlot))
  if taken && decide (y.fwdAt ≤ at_) then s else s.modPort q fun y => { y with fwd := some sl, fwdDue := s.now + 1, fwdAt := at_ }

/-- R120, R582: a slot on its way to output port `q`. A stopped port takes nothing (R125). -/
def State.forwardTo (s : State) (paths : List (Nat × List (Attach × Nat))) (sl : Slot) (q : Nat) : State :=
  if (s.unit q).state.stopped then s
  else if piecesInTime paths q then
    s.holdBeat q { sl with hops := min 63 (sl.hops + 1) } ((pieceArrival paths q 0).getD 0)
  else (((s.count Cnt.espLate).countEdgeLate q).eventC Det.espLate .espalier q [q]).holdBeat q {} ((pieceArrival paths q 0).getD 35)

/-- R71, R120: a released CHOIR slot goes on, at the first three cycles whose paths fit, to the ports at which they end. -/
def State.forwardSlot (s : State) (p : Nat) (sl : Slot) : State :=
  let paths := (s.forwardPaths p sl.part).take 3
  let outs := (paths.flatMap fun x => x.2.filterMap fun e => e.1.port).foldl (fun l q => insertAsc q l) []
  forEach outs (fun q st => st.forwardTo paths sl q) s

/-- R73: an entry of the ingress buffer that a slot other than a CUE slot may use is free. -/
def Port.ingressRoom (x : Port) : Bool := decide (x.ingress.length < 240)

/-- R73: a slot that finds no entry loses its local copy. -/
def State.ingressOvf (s : State) (p : Nat) : State := s.slotLost p Cnt.ingressOvf Det.ingressOvf false

/-- R73: the slot waits in the ingress buffer. -/
def State.holdIngress (s : State) (p : Nat) (sl : Slot) : State :=
  s.modPort p fun x => { x with ingress := x.ingress ++ [(s.now, sl)] }

/-- R390: a STREAM slot waits for its landing, or for its onward gang; one without a route is dropped as R581 drops a message. -/
def State.streamSlot (s : State) (p : Nat) (sl : Slot) : State :=
  if !(s.port p).ingressRoom then s.ingressOvf p
  else if sl.route ≠ s.self ∧ (s.onward (sl.route % 1024)).isEmpty then s.badCue p sl.typ
  else s.holdIngress p sl

/-- R121: what becomes of a released slot of each class at this member. -/
def State.deliverSlot (s : State) (p : Nat) (sl : Slot) : State :=
  match sl.eclass with
  | .choirHi | .choirLo =>
    let s := s.forwardSlot p sl
    match s.gangOf p with
    | some g => if (s.port p).ingressRoom then s.collSlot g sl else s.ingressOvf p
    | none => s
  | .cue => s.modPort p fun x => { x with cueIn := x.cueIn ++ cuesOf sl.payload sl.etype }
  | .stream => s.streamSlot p sl
  | .graft => if (s.port p).ingressRoom then s.onGraftSlot p sl else s.ingressOvf p
  | .rest | .openSlot | .bad => s

/-- R293: the descant unit takes the field of an accepted slot in its release beat. -/
def State.descantOf (s : State) (p : Nat) (sl : Slot) : State :=
  match sl.descant.dvalid, s.gangOf p with
  | true, some g => s.descantArrive g sl.descant
  | _, _ => s

/-- R71: the oldest slot of the aligner is released. -/
def State.releaseSlot (s : State) (p : Nat) : State :=
  match (s.port p).aligner with
  | [] => s
  | sl :: rest => ((s.modPort p fun x => { x with aligner := rest }).descantOf p sl).deliverSlot p sl

/-- R71: SLOT_RELEASE. -/
def execSlotRelease (p : Nat) (s : State) : Out :=
  within (Instr.slotRelease p).wf <| if s.live then s.releaseSlot p else s

/-! ### Sending (R55, R67, R582) -/

/-- R80, R88: the class code of port `p`'s transmit entry in the present beat. A port outside the schedule runs the bootstrap
pattern. -/
def State.txEntry (s : State) (p : Nat) : Nat :=
  match s.img, (s.port p).state.scheduled with
  | some m, true => Img.classCode m p 0 s.beat
  | _, _ => if s.beat % 32 = 0 ∧ (s.port p).state = .aligned then 1 else 0

/-- R82: the epoch of a slot that port `p` sends. -/
def State.txEpoch (s : State) (p : Nat) : Nat := if (s.port p).state.scheduled then s.epoch else 0

/-- A slot as a slot of the class that it carries. -/
def Slot.plain (sl : Slot) : Slot := { sl with cls := sl.eclass, typ := sl.etype, otype := 0 }

/-- R61: a slot that this member relays. -/
def Slot.relayed (sl : Slot) : Slot := { sl.plain with hops := min 63 (sl.hops + 1) }

/-- R70: up to `n` messages of a send queue, oldest first. -/
def State.takeCues (s : State) (key n : Nat) : State × List (Bool × Cue) :=
  let q := s.cueQueue key
  let xs := q.items.take n
  ((if xs.isEmpty then s else s.setCueQueue key { q with items := q.items.drop n }), xs)

/-- R70, R514: the CUE slot of port `p`: the messages for this port alone, then those of its gang, eight at most. -/
def State.cueSlot (s : State) (p : Nat) : State × Option Slot :=
  let a := s.takeCues (portKey p) 8
  let b := match s.gangOf p with
    | some g => a.1.takeCues g (8 - a.2.length)
    | none => (a.1, [])
  let xs := a.2 ++ b.2
  let s := forEach xs (fun x st => if x.2.typ = 0x20 ∧ !x.1 then st.remotePlaced x.2 else st) b.1
  if xs.isEmpty then (s, none)
  else (s, some { cls := .cue, typ := xs.length, source := s.self, payload := xs.flatMap fun x => x.2.encode })

/-- R390: the STREAM slots of every port that wait for gang `g`, with their ports and places. -/
def State.waitingStreams (s : State) (g : Nat) : List (Nat × Nat × Nat × Slot) :=
  (List.range 16).flatMap fun p => ((numbered 0 (s.port p).ingress).filter fun x =>
    x.2.2.eclass == .stream && x.2.2.route != s.self && s.gangTo (x.2.2.route % 1024) == some g).map fun x => (x.2.1, p, x.1, x.2.2)

/-- R389, R390: the STREAM slot that goes next on gang `g`: relayed slots in arrival order, then this member's own. -/
def State.streamOut (s : State) (g : Nat) : State × Option Slot :=
  let first := (s.waitingStreams g).foldl (fun b x =>
    match b with
    | none => some x
    | some y => if x.1 < y.1 then some x else b) none
  match first with
  | some (_, p, i, sl) => (s.dropIngress p i, some sl.relayed)
  | none => s.streamOwn g

/-- R331, R332: the GRAFT slot that goes next on gang `g`. -/
def State.graftSlotOut (s : State) (g : Nat) : State × Option Slot :=
  match s.graftOut g with
  | some (s', sl) => (s', some (if sl.source = s.self then sl else sl.relayed))
  | none => (s, none)

/-- The next slot of class `code` that port `p` can send. -/
def State.classOut (s : State) (p code : Nat) : State × Option Slot :=
  match code, s.gangOf p with
  | 1, _ => s.cueSlot p
  | 2, some g => s.collSlotOut g false
  | 3, some g => s.collSlotOut g true
  | 4, some g => s.streamOut g
  | 5, some g => s.graftSlotOut g
  | _, _ => (s, none)

/-- The first of several classes that has something to send. -/
def State.firstOut (s : State) (p : Nat) : List Nat → State × Option Slot
  | [] => (s, none)
  | c :: cs =>
    match s.classOut p c with
    | (s, some sl) => (s, some sl)
    | (s, none) => State.firstOut s p cs

/-- R66: traffic carried in an OPEN slot. -/
def Slot.inOpen (sl : Slot) : Slot := { sl with cls := .openSlot, typ := sl.cls.code, otype := sl.typ }

/-- R67: this member's own filling of an entry: REST where it has nothing of that class. -/
def State.ownFill (s : State) (p code : Nat) : State × Slot :=
  let r := if code = 6 then s.firstOut p [1, 2, 3, 4, 5] else s.classOut p code
  (r.1, (r.2.map fun sl => if code = 6 then sl.inOpen else sl).getD { source := s.self })

/-- R582: the entry takes the forwarded slot; REST in place of a late slot goes in any entry (R120). -/
def takesForward (code : Nat) (sl : Slot) : Bool := sl.cls == .rest || code == sl.cls.code || code == 6

/-- R582: the slot of the beat: a forwarded one that holds it, or this member's own. -/
def State.fillSlot (s : State) (p : Nat) : State × Slot :=
  let x := s.port p
  let code := s.txEntry p
  match x.fwd, decide (x.fwdDue = s.now) with
  | some sl, true => if takesForward code sl then (s, sl) else (s.count (Cnt.vp p Cnt.fwdNoSlot)).ownFill p code
  | _, _ => s.ownFill p code

/-- R55, R57, R58, R61: the slot leaves with this hop's own fields, and becomes the message symbols of the codeword. -/
def State.emit (s : State) (p : Nat) (sl : Slot) (op : Option Descant) : State :=
  let x := s.port p
  let sl := { sl with
    oos := x.state == .outOfStep, fallen := s.fc.safe, epoch := s.txEpoch p, stamp := s.tact.stamp.toNat % 2 ^ 32
    descant := op.getD {} }
  let c := scrambleAll false x.scrambler 0 (messageSymbols (beatWord s.beat) sl.encode)
  s.setPort p { x with txSlot := sl, scrambler := c.1, txSymbols := c.2, fwd := none }

/-- Table GRF-9: the slot of a port in probation: its partner's slot of this beat with SHADOW set, or REST with a PRBS-31 payload. -/
def State.shadowSlot (s : State) (p : Nat) : State × Slot :=
  let own := match s.partnerOf p with
    | some q =>
      let sl := (s.port q).txSlot
      if sl.stamp = s.tact.stamp.toNat % 2 ^ 32 ∧ sl.cls ≠ SlotClass.rest then some sl else none
    | none => none
  match own with
  | some sl => (s, { sl with shadow := true })
  | none => (s.drawn, { shadow := true, source := s.self, payload := (List.range 576).map (Config.prbsByte s.fresh) })

/-- R42, R64, R67, Table GRF-8: what port `p` sends in the present beat. -/
def State.sendSlot (s : State) (p : Nat) : State :=
  let x := s.port p
  if s.fc.safe ∨ x.state = .outOfStep ∨ (s.unit p).state.stopped then s.emit p { source := s.self } none
  else if (s.unit p).state = .probation then
    let r := s.shadowSlot p
    r.1.emit p r.2 none
  else
    let r := s.fillSlot p
    let d := r.1.descantDepart p
    d.1.emit p r.2 d.2

/-- R55: SLOT_TX. Beat 4,095 carries the tail slot. -/
def execSlotTx (p : Nat) (s : State) : Out :=
  within (Instr.slotTx p).wf <|
    if s.sys.pwrgd && (s.port p).state.framed && s.beat != 4095 then s.sendSlot p else s

/-! ### The cue node (R70, R581) -/

/-- Table FLT-11: CUE_ORDER: under a real score, a message does not follow the last one of its source and destination. -/
def State.cueOrder (s : State) (p : Nat) (c : Cue) : State :=
  if !s.score.member || c.typ == 0x20 || c.src == 0x3FF then s
  else
    let key := pairKey c.src c.dest
    let want := Tab.find s.sync.cueRx key
    let s := { s with sync.cueRx := Tab.put s.sync.cueRx key ((c.seq + 1) % 65536) }
    if want.any (· != c.seq) then s.eventC Det.cueOrder (.vp p) c.src else s

/-- Table VOX-10: a message at its consumer. -/
def State.consumeCue (s : State) (p : Nat) (c : Cue) : State :=
  match c.typ with
  | 0x01 => s.answerRollCall p
  | 0x02 | 0x03 => s.noteHere p c
  | 0x20 => s.onRemote c
  | 0x21 => s.onRebar c
  | 0x30 => s.onPrepare p c
  | 0x31 => s.onAck c
  | 0x32 => s.onCommit p c
  | 0x33 => s.onAbort p c
  | 0x40 => s.onMemberLost p c
  | _ => s

/-- R70, R581: a message is delivered or routed onward. JOIN and window messages have rules of their own for who relays them (R279,
R391, R470). -/
def State.takeCue (s : State) (p : Nat) (c : Cue) : State :=
  if !cueTypeOk c.typ then s.badCue p c.typ
  else
    let s := s.cueOrder p c
    match c.typ with
    | 0x04 => s.onJoin p c
    | 0x10 => s.onReserve p c
    | 0x11 => s.onConfirm p c
    | 0x12 => s.onRelease p c
    | 0x13 => s.onRetry p c
    | _ => if c.neighbour || c.dest == s.routeSelf then s.consumeCue p c else s.relayCue p c

/-- R70: CUE_MESSAGE: the oldest message that arrived on port `p`. -/
def execCueMessage (p : Nat) (s : State) : Out :=
  within (Instr.cueMessage p).wf <|
    match s.live, (s.port p).cueIn with
    | true, c :: rest => (s.modPort p fun x => { x with cueIn := rest }).takeCue p c
    | _, _ => s

end Sys2Proof.Machine
end

