-- ==== Sys2Proof/Machine/Switch.lean ====
section
/-!
DEFINITION. The score switch (R105, R107, R118, R326, R339–R341): what changes at the downbeat of the target phrase.
-/
namespace Sys2Proof.Machine

/-- The present beat is the downbeat of phrase `p` (R105). -/
def State.atPhrase (s : State) (p : Nat) : Bool := s.tact.stamp == BitVec.ofNat 56 (p * 2 ^ 18)

/-! ### Entries that differ between two images (R108, R340) -/

/-- A part's entry is identical in both images. -/
def samePart (old new : Mem) (p : Nat) : Bool :=
  (Img.part old p).valid && (Img.part new p).valid && old.readN (Img.partOff old p) 160 == new.readN (Img.partOff new p) 160

/-- The entry of a route at SELF is identical in both images. -/
def sameRoute (old new : Mem) (p id : Nat) : Bool := Img.route old p id == Img.route new p id && (Img.route new p id).isSome

/-- A descant tree's entry is identical in both images. -/
def sameTree (old new : Mem) (t : Nat) : Bool := (Img.dtree new t).valid && Img.dtree old t == Img.dtree new t

/-- The route ids that a collective uses at SELF. -/
def Coll.routes (c : Coll) : List Nat := (c.inputs.map (·.route) ++ c.outputs.map (·.route)).map fun r => r % 2048

/-- The collective uses its descant tree: it runs on it, waits for its size, or holds contexts in it. -/
def State.usesTree (s : State) (c : Coll) : Bool :=
  c.alg == some .descant || c.alg.isNone
    || s.ce.ctxs.any fun x => x.owner == .command c.queue c.tok || x.owner == .lateness c.queue c.tok

/-- R340: ERR_DETAIL of a collective that the switch ends, or none for one that continues. -/
def State.graftedAway (s : State) (old new : Mem) (c : Coll) : Option Nat :=
  match c.routes.find? fun r => !sameRoute old new c.part r with
  | some r => some r
  | none =>
    if s.usesTree c && !sameTree old new c.dtree then some (0x10000 + c.dtree)
    else if samePart old new c.part then none
    else some ((c.routes.head?).getD (0x10000 + c.dtree))

/-- R340: the collectives that the new score ends, and R419: the barrier contexts that it abandons. -/
def State.endChanged (s : State) (old new : Mem) : State :=
  let s := forEach s.ce.colls (fun c st =>
    match s.graftedAway old new c with
    | some d => st.stopColl c { status := St.abortedGraft, detail := d }
    | none => st) s
  let s := { s with
    ce.early := s.ce.early.filter fun e => samePart old new e.part
    ce.ctxs := s.ce.ctxs.filter fun x => sameTree old new x.dtree
    ce.dsend := s.ce.dsend.filter fun x => sameTree old new x.op.dtree }
  s.abandonChorus 3 fun b => !samePart old new b.part || !sameTree old new b.dtree

/-! ### What the new score brings -/

/-- R118: flits still in flight are discarded and counted. -/
def State.dropFlits (s : State) : State :=
  let n := s.esp.inflight.length + s.esp.arrived.length
  let s : State := { s with esp.inflight := [], esp.arrived := [] }
  forEach (List.range n) (fun _ st => (st.count Cnt.espDrop).eventC Det.espDrop .espalier) s

/-- R326: bits of CE_LOST_MAP whose roster entry is zero clear; one whose member is still listed is counted. An engine that joins
starts with the map clear (R476). -/
def State.keepLost (s : State) (joined : Bool) (new : Mem) : State :=
  if joined then { s with ce.lost := [], ce.badDowns := [] }
  else
    let kept := s.ce.lost.filter fun x => Img.roster new x != 0
    forEach kept (fun x st => (st.count (Cnt.ceMw 1)).eventC Det.lostStillListed .engine x) { s with ce.lost := kept }

/-- R80, R72: port `p` under the new score `new`. A port that the score newly includes enters the schedule; one that runs goes on with
the new H; one that the score leaves out runs the bootstrap pattern. -/
def State.adoptPort (old : Option Mem) (new : Mem) (p : Nat) (s : State) : State :=
  let x := s.port p
  let was := (old.map fun m => Img.enabled m p).getD false
  match x.state with
  | .inSchedule | .outOfStep =>
    if !Img.enabled new p then s.setPort p { x with state := .aligned, since := s.now, h := x.hMin, matched := false }
    else if landOk new x p then s.setPort p { x with h := Img.land new p }
    else (s.setPort p { x with state := .aligned, since := s.now, h := x.hMin, matched := false }).landRange p
  | .aligned =>
    if Img.enabled new p && !(s.unit p).state.stopped && (s.unit p).state != .probation && (!was || x.matched) then s.enterSchedule new p
    else s
  | .down | .training | .framing => s

/-- R341: a committed member whose transfer carried PRUNE steps out. -/
def State.pruneSelf (s : State) : State :=
  let s := (s.count (Cnt.grf 5)).eventC Det.pruned .member s.graft.graftId
  { s.leaveChorus with graft.outcome := 1 }

/-- R107, R164, R400: the banks change places; lease accounts and REMOTE_SIGNAL numbers begin again. -/
def State.swapBanks (s : State) : State :=
  { s with
    score.active := 1 - s.score.active, score.member := true, score.standby := .empty, score.target := none
    score.rootHold := true, score.rootReal := s.score.member, score.switchStamp := s.tact.stamp
    score.deadActive := s.score.deadStandby
    sys.admitted := false, sys.admitSeen := none
    sync.txSeq := [], sync.rxSeq := []
    mem.leases := [] }

/-- R339: a committed graft applies its masks and ends. -/
def State.graftSwitched (s : State) : State :=
  if s.graft.locked ∧ s.graft.phase = .committed then
    let s := s.applyMasks
    { s with graft := { s.graft.unlock with outcome := 1 } }
  else s

/-- R105, R107: the switch, at the downbeat of the target phrase. -/
def State.switchScore (s : State) : State :=
  if s.score.target.any s.atPhrase && s.score.standby == .ready then
    let old := s.img
    let new := s.standbyBank
    let s := s.swapBanks.dropFlits
    let s := match old with
      | some o => s.endChanged o new
      | none => s
    let s := (s.keepLost old.isNone new).graftSwitched
    forEach (List.range 16) (State.adoptPort old new) s
  else if s.graft.pruned && s.graft.phase == .committed && s.atPhrase s.graft.tgt then s.pruneSelf
  else s

/-- R107: SCORE_SWITCH. -/
def execScoreSwitch (s : State) : Out := within true <| if s.live then s.switchScore else s

end Sys2Proof.Machine
end

