-- ==== Sys2Proof/Machine/Tactus.lean ====
section
/-!
DEFINITION. Commands of the Tactus (chapter 2), but for DOWNBEAT.
-/
namespace Sys2Proof.Machine

/-- R21, R46: a loss of TACT_REF, or of the reference on the upstream lanes. -/
def execReferenceLoss (lanes : Bool) (s : State) : Out :=
  within true <|
    if lanes then
      if s.tact.mode = .carried then s.enterHoldover else s
    else
      let s := { s with tact.refLost := true, tact.refBad := true, tact.refGood := 0 }
      match s.tact.mode with
      | .pinned | .conductor => s.enterHoldover
      | .carried | .none => s

/-- R22: a pulse that agrees with the count. -/
def State.pulseAt (s : State) (phase : Int) (agrees : Bool) : State :=
  let seen := match s.tact.frames with
    | f :: fs => (if f.pulse = none then { f with pulse := some agrees } else f) :: fs
    | [] => []
  { s with tact.frames := seen, tact.pulseThisMeasure := true, tact.pulseSeen := true, tact.phaseError := phase }

/-- Table TAC-11: a pulse at a wrong beat is counted and ignored; the third running with one offset may step the member out. -/
def State.slip (s : State) (offset : Int) : State :=
  let d := twos offset 12
  let run := if s.tact.displacedRun = 0 ∨ s.tact.displaced ≠ d then 1 else s.tact.displacedRun + 1
  (({ s with tact.displaced := d, tact.displacedRun := run, tact.pulseThisMeasure := true, tact.pulseMissing := 0
             tact.frames := [] }).count Cnt.dbSlip).eventC Det.dbSlip .member d

/-- R22: a downbeat pulse, `offset` beats from the counted beat 0. A PINNED engine that acquires takes its beat 0 from it. -/
def execDownbeatPulse (offset phase : Int) (s : State) : Out :=
  within true <|
    match s.tact.mode, s.tact.state with
    | .pinned, .acquiring =>
      let agrees := offset == 0 || !s.tact.pulseSeen
      let s := s.pulseAt phase agrees
      { s with tact.stamp := s.tact.stamp - BitVec.ofInt 56 offset }
    | .pinned, .locked | .pinned, .holdover =>
      if offset = 0 then { s.pulseAt phase true with tact.displacedRun := 0, tact.pulseMissing := 0 } else s.slip offset
    | _, _ => s

/-- Table TAC-11: a downbeat displaced by the same nonzero offset three times running. -/
def execDbDisplaced (s : State) : Out :=
  within true <|
    if s.timed ∧ 3 ≤ s.tact.displacedRun then s.stepOut Det.dbDisplaced s.tact.displaced else s

/-- Table TAC-8: no downbeat pulse in two consecutive measures. -/
def execDownbeatMissing (s : State) : Out :=
  within true <| if s.tact.mode = .pinned ∧ 2 ≤ s.tact.pulseMissing then s.enterHoldover else s

/-- R24, R30: an accepted frame follows the last one or begins a new run. While LOCKED, two consecutive frames that agree with
each other and not with the count step the member out (Table TAC-11). -/
def State.frameIn (s : State) (f : Timecode) : State :=
  let hold := bitAt f.flags 0
  let follows := (s.tact.frames.head?.map fun x => f.stamp == x.stamp + 4096).getD false
  let seen : FrameSeen := { stamp := f.stamp, holdover := hold, pulse := none }
  let next := (s.tact.stamp / 4096#56 + 1) * 4096#56
  let off := s.timed && f.stamp != next
  let run : Nat := if off then (if follows ∧ 0 < s.tact.disagree then 2 else 1) else 0
  let s : State := { s with tact.frames := (seen :: (if follows then s.tact.frames else [])).take 3, tact.frameThisMeasure := true
                            tact.disagree := run, tact.srcHoldover := if s.tact.state = .locked then hold else s.tact.srcHoldover }
  if s.tact.state = .locked ∧ run = 2 then s.stepOut Det.tcDisagree else s

/-- R24: a timecode frame is accepted, or counted as TC_BAD and ignored. -/
def execTimecodeFrame (f : Timecode) (s : State) : Out :=
  within (Instr.timecodeFrame f).wf <|
    match s.tact.mode, s.tact.state with
    | .pinned, .acquiring | .pinned, .locked | .pinned, .holdover =>
      if f.accepted then s.frameIn f
      else ({ s with tact.frames := [], tact.frameThisMeasure := true, tact.disagree := 0 }.count Cnt.tcBad).eventC Det.tcBad
        .member
    | _, _ => s

/-- R49: the holdover has lasted TACT_HOLDOVER_LIMIT measures, and its return has not come at this downbeat. -/
def execHoldoverLimit (s : State) : Out :=
  within true <| if s.tact.state = .holdover ∧ s.tact.limitReached then s.stepOut Det.holdoverLimit else s

/-- R27: a write refused outside FREE and STEPPED_OUT. -/
def State.tactRefuse (s : State) : State := { s with tact.ctrlRefused := true }.eventC Det.ctrlRefused .member

/-- TACT_CTRL.MODE. -/
def TactMode.ofCode (n : Nat) : TactMode :=
  match n with
  | 0 => .none | 1 => .pinned | 2 => .carried | _ => .conductor

/-- The code of a mode. -/
def TactMode.code : TactMode → Nat
  | .none => 0 | .pinned => 1 | .carried => 2 | .conductor => 3

/-- R529: a write of TACT_CTRL in FREE or STEPPED_OUT. UPSTREAM equal to BACKUP with BACKUP_EN set is out of range. -/
def State.tactCtrl (s : State) (v : Nat) : State :=
  let m := TactMode.ofCode (fld v 0 2)
  if bitAt v 12 && fld v 4 4 == fld v 8 4 then s
  else
    let s := { s with tact.mode := m, tact.upstream := fld v 4 4, tact.backup := fld v 8 4, tact.backupEn := bitAt v 12 }
    match s.tact.state, m with
    | .free, .none => s
    | .free, _ => if s.tact.pllLocked then s.acquire else s
    | .steppedOut, .none => { s with tact.state := .free }
    | _, _ => s

/-- R27, R29, R529: a write to TACT_CTRL or TACT_EPOCH. -/
def State.writeTact (s : State) (epoch : Bool) (v : Nat) : State :=
  match s.tact.state with
  | .free | .steppedOut => if epoch then { s with tact.epoch := BitVec.ofNat 56 (v / 2 ^ 18 * 2 ^ 18) } else s.tactCtrl v
  | .acquiring | .locked | .holdover => s.tactRefuse

/-- R529: TACT_CTRL_WRITE. -/
def execTactCtrlWrite (epoch : Bool) (v : DWord) (s : State) : Out :=
  within true <| s.whenLive fun s => s.writeTact epoch v.toNat

end Sys2Proof.Machine
end

