-- ==== Sys2Proof/Machine/FlashOps.lean ====
section
/-!
DEFINITION. Stored configuration in flash (R458–R466, R502): copies, their validity and selection, and the writing of a copy in
the steps of Table PWR-4.
-/
namespace Sys2Proof.Machine

/-- Table PWR-2: body capacity of an object's slot. -/
def bodyCap (object : Nat) : Nat :=
  match object with
  | 1 => 0x1000000 - 4096 | 2 => 0x200000 - 4096 | _ => 0x80000 - 4096

/-- The slot of copy A or B of an object in `Sys.flash`. -/
def flashSlot (object : Nat) (copyB : Bool) : Nat := 2 * object + b2n copyB

/-- The body's bytes. -/
def FlashCopy.bytes (c : FlashCopy) : List Byte := c.body.readN 0 c.bodyLen

/-- R462: the copy's signature verifies, or it needs none. -/
def State.signed (s : State) (c : FlashCopy) : Bool :=
  if c.keySlot = 0xFF then c.object != 1 && !s.sys.signAll
  else decide (c.keySlot < 4) && !bitAt s.sys.keyRevoked.toNat c.keySlot && c.sigOk

/-- R459: MAGIC. -/
def flashMagic : Word := 0x43464C4F#32

/-- R460: a copy is valid. -/
def State.copyValid (s : State) (object : Nat) (c : FlashCopy) : Bool :=
  c.magic == flashMagic && c.format == 1 && c.object == object && c.commit == 0xA5#8 && c.hdrCrcOk
    && decide (c.bodyLen ≤ bodyCap object) && c.bodyCrc == crc32c c.bytes && s.signed c
    && (object != 1 || decide (s.sys.rollback ≤ c.version))

/-- A slot's copy, if it is valid. -/
def State.validCopy (s : State) (object : Nat) (copyB : Bool) : Option FlashCopy :=
  (Tab.find s.sys.flash (flashSlot object copyB)).filter (s.copyValid object)

/-- R461: the selected copy: true for B. -/
def State.selected (s : State) (object : Nat) : Option (Bool × FlashCopy) :=
  match s.validCopy object false, s.validCopy object true with
  | some a, some b => if idxLater a.sequence b.sequence then some (true, b) else some (false, a)
  | some a, none => some (false, a)
  | none, some b => some (true, b)
  | none, none => none

/-- R465: the SEQUENCE that a write must carry. -/
def State.nextSeqOf (s : State) (object : Nat) : Word :=
  ((s.selected object).map fun x => x.2.sequence + 1).getD 1

/-- Table PWR-3: a copy image: header sector, then body. -/
def copyOf (bs : List Byte) (sigOk : Bool) : FlashCopy :=
  { magic := BitVec.ofNat 32 (leAt bs 0 4), object := leAt bs 4 1, keySlot := leAt bs 5 1, format := leAt bs 6 2
    sequence := BitVec.ofNat 32 (leAt bs 8 4), bodyLen := leAt bs 12 4, bodyCrc := BitVec.ofNat 32 (leAt bs 16 4)
    version := leAt bs 20 4, hdrCrcOk := (crc32c (bs.take 248)).toNat == leAt bs 248 4
    commit := BitVec.ofNat 8 (leAt bs 252 1), sigOk := sigOk, body := Mem.writeN [] 0 (bs.drop 4096) }

/-! ### Checks of a submitted image (R502) -/

/-- Table HST-7: a result code with its DETAIL. -/
abbrev Answer := Nat × Nat

namespace Res
def ok : Nat := 0
def busy : Nat := 1
def badArg : Nat := 2
def notPresent : Nat := 3
def refused : Nat := 4
def badImage : Nat := 5
def badSequence : Nat := 6
def rollback : Nat := 7
def authFail : Nat := 8
def writeFail : Nat := 9
end Res

/-- R502: the first check that a copy image of `len` bytes fails, as a result and its DETAIL. -/
def State.imageFault (s : State) (object len : Nat) (c : FlashCopy) : Option Answer :=
  if c.magic ≠ flashMagic ∨ c.format ≠ 1 ∨ c.object ≠ object then some (Res.badImage, 1)
  else if !c.hdrCrcOk || c.commit != 0xFF#8 then some (Res.badImage, 2)
  else if bodyCap object < c.bodyLen ∨ c.bodyLen + 4096 ≠ len ∨ c.bodyCrc ≠ crc32c c.bytes then some (Res.badImage, 3)
  else if !s.signed c then some (Res.badImage, 4)
  else if object = 1 ∧ c.version < s.sys.rollback then some (Res.rollback, s.sys.rollback)
  else if c.sequence ≠ s.nextSeqOf object then some (Res.badSequence, (s.nextSeqOf object).toNat)
  else none

/-! ### Writing a copy (R464, R465) -/

/-- R464: the inactive copy of an object: true for B. With no selected copy it is A (R457). -/
def State.inactive (s : State) (object : Nat) : Bool := ((s.selected object).map fun x => !x.1).getD false

/-- Table PWR-4, step 0: the whole slot is erased. -/
def State.startFlash (s : State) (object : Nat) (c : FlashCopy) (failAt : Option Nat) (mailbox : Bool) : State :=
  let b := s.inactive object
  { s with sys.flash := Tab.del s.sys.flash (flashSlot object b), mgmt.updating := true, mgmt.busy := s.mgmt.busy || mailbox
           sys.flashWrite := some { object := object, copyB := b, step := 0, image := c, failAt := failAt, mailbox := mailbox } }

/-- R465: an interruption ends the write; the copy stays as Table PWR-4 says. -/
def State.stopFlash (s : State) : State :=
  match s.sys.flashWrite with
  | some _ => { s with sys.flashWrite := none, mgmt.updating := false, mgmt.busy := false }
  | none => s

/-- R499: the mailbox's command ends: output in the buffer, RESULT, DETAIL, BUSY clear, and its MSI-X source fires. -/
def State.mboxDone (s : State) (r : Answer) (out : List Byte) : State :=
  let s := { s with mgmt.buffer := s.mgmt.buffer.writeN 0 out, mgmt.result := r.1, mgmt.detail := r.2, mgmt.busy := false }
  if s.mgmt.irqEn then s.fire s.mgmt.vector else s

/-- The write has ended: FLASH_WRITE reports by the mailbox, a PLDM update by ApplyComplete (R501). -/
def State.flashDone (s : State) (w : FlashWrite) (failed : Option Nat) : State :=
  let s := { s with sys.flashWrite := none, mgmt.updating := false }
  let s := match failed with
    | some _ => s.eventC Det.writeFail .mgmt
    | none => s
  if w.mailbox then
    s.mboxDone (match failed with
      | some n => (Res.writeFail, n)
      | none => (Res.ok, 0)) []
  else if failed.isSome then s.eventC Det.fwUpdateFail .mgmt else s

/-- Table PWR-4: the step under way ends. A read-back mismatch abandons the write before the commit byte lands, or erases the
header sector after it. -/
def State.flashStep (s : State) : State :=
  match s.sys.flashWrite with
  | none => s
  | some w =>
    let slot := flashSlot w.object w.copyB
    match w.step with
    | 2 =>
      let s := { s with sys.flash := Tab.put s.sys.flash slot w.image }
      if w.failAt = some 2 then s.flashDone w (some 2) else { s with sys.flashWrite := some { w with step := 3 } }
    | 3 =>
      if w.failAt = some 3 then ({ s with sys.flash := Tab.del s.sys.flash slot }).flashDone w (some 3)
      else ({ s with sys.flash := Tab.put s.sys.flash slot { w.image with commit := 0xA5#8 } }).flashDone w none
    | n => { s with sys.flashWrite := some { w with step := n + 1 } }

end Sys2Proof.Machine
end

