-- ==== Sys2Proof/Machine/Tick.lean ====
section
/-!
DEFINITION. The clock: what beats that pass do by themselves, and one beat when no command waits.
-/
namespace Sys2Proof.Machine

/-- R221: a finished command or transfer waits for room in ring `r`. -/
def State.ringStalls (s : State) (r : Nat) : Bool :=
  let g := s.ring r
  g.enabled && g.full &&
    (s.queues.any (fun y => y.2.inflight.any fun z => z.done.any fun d => s.recordRing y.1 z d == r)
      || s.dma.channels.any fun c => c.2.state == .completing && c.2.done.isSome && c.2.cmd.isNone && c.2.active.ring == r)

/-- R221: `n` beats in which full rings stall. -/
def State.countStalls (s : State) (n : Nat) : State :=
  forEach ((s.rings.map (·.1)).filter s.ringStalls)
    (fun r st => (st.countN (Cnt.fullStall r) n).eventC Det.fullStall .engine r) s

/-- `n` beats pass: the count of beats, the stalls of full rings (R221) and the deadlock detector (R427). -/
def State.elapse (s : State) (n : Nat) : State := ({ s with now := s.now + n }.countStalls n).dlBeats n

/-- One beat passes. The engine's own count holds at the last beat of its measure until the command DOWNBEAT crosses the bar,
since that row holds what a downbeat does. One step of a flash write ends (Table PWR-4). -/
def State.tick (s : State) : State :=
  { s.elapse 1 with tact.stamp := if s.beat = 4095 then s.tact.stamp else s.tact.stamp + 1 }.flashStep

end Sys2Proof.Machine
end

