-- ==== Sys2Proof/Machine/Downbeat.lean ====
section
/-!
DEFINITION. The local downbeat: every action that falls due at it, in the order of R44.
-/
namespace Sys2Proof.Machine

/-! ### The score and the ports -/

/-- R106: a target whose image is no longer READY is dropped. -/
def State.dropTarget (s : State) : State := if s.score.standby = .ready then s else { s with score.target := none }

/-- R80: at a phrase downbeat a port that aligned again, and whose far port runs the same score, becomes IN_SCHEDULE. -/
def State.portsEnter (s : State) : State :=
  match s.img with
  | none => s
  | some m =>
    if s.tact.stamp.toNat % 2 ^ 18 ≠ 0 then s
    else
      forEach ((List.range 16).filter fun p =>
          Img.enabled m p && (s.port p).state == .aligned && (s.port p).matched && !(s.unit p).state.stopped
            && (s.unit p).state != .probation)
        (fun p st => st.enterSchedule m p) s

/-- R342: one neighbour's tail slot against the active score. -/
def State.splitWith (s : State) (p : Nat) (t : TailSlot) : State :=
  let id := s.scoreId
  if !s.score.member || (t.tact != .locked && t.tact != .holdover) || t.fingerprint == 0 then s
  else if idxLater id.1 t.sequence then s.stepOut Det.scoreSplit p
  else if t.sequence = id.1 ∧ t.fingerprint ≠ id.2 then
    let s := s.eventC Det.fingerprintDiff .engine p
    if id.2.toNat < t.fingerprint.toNat then s.stepOut Det.scoreSplit p else s
  else s

/-- R342: each enabled port whose last tail slot arrived. -/
def State.splitCheck (s : State) : State :=
  forEach ((List.range 16).filter fun p => s.enabled p && (s.port p).tailsLost == 0)
    (fun p st => match (s.port p).nb with
      | some t => st.splitWith p t
      | none => st) s

/-- R322, R474: downbeats running at which an enabled port was DOWN, as R54 says it, or OUT_OF_STEP, or its neighbour ran no score. -/
def State.countBad (s : State) : State :=
  let bad := fun (p : Nat) =>
    !(s.port p).state.linked || (s.port p).state == .outOfStep || (s.port p).nb.any fun t => t.fingerprint == 0
  forEach ((List.range 16).filter s.enabled)
    (fun p st => { st with
      ce.badDowns := Tab.put st.ce.badDowns p (if bad p then Tab.get 0 st.ce.badDowns p + 1 else 0) }) s

/-! ### Messages sent at a downbeat -/

/-- R80: a LOCKED member calls every neighbour that is not a member. -/
def State.callRoll (s : State) : State :=
  if s.score.member && s.tact.state == .locked then
    forEach ((List.range 16).filter fun p => (s.port p).state.linked && (s.port p).nb.any fun t => t.member.isNone)
      (fun p st => st.tellNeighbour p 0x01 st.rollCallBody) s
  else s

/-- R311: SEGMENT_RETRY again for each segment of an input of which no resent slot has come. -/
def State.retryAgain (s : State) (c : Coll) (i : CInput) : State :=
  forEach i.segs (fun x st =>
    match x.2.asked with
    | some (cause, _) => if x.2.resent then st else (st.sendWindow c 0x13 i.gang i.route i.down x.1 cause.code).1
    | none => st) s

/-- R311: the retries asked for are one downbeat older. -/
def Coll.ageRetries (c : Coll) : Coll :=
  let older := fun (_ : Nat) (x : SegIn) => { x with asked := x.asked.map fun a => (a.1, a.2 + 1) }
  { c with inputs := c.inputs.map fun i => { i with segs := Tab.mapVals older i.segs } }

/-- R280.3, R280.5, R311: a slotted collective at a downbeat. -/
def State.collDownbeat (s : State) (c : Coll) : State :=
  if c.keep.isSome then s
  else
    let s := if c.alg = some .tree ∨ c.alg = some .canon then s.confirmInputs c else s
    let s := forEach c.inputs (fun i st => st.retryAgain c i) s
    let s := s.putColl c.ageRetries
    match s.collOf c.queue c.tok with
    | some c => s.releaseAll c
    | none => s

/-- R415, R417: the rebar, at the downbeats of measures 0 and 1 of a phrase. -/
def State.rebarDownbeat (s : State) : State :=
  if !s.score.member then s
  else if s.tact.stamp.toNat % 2 ^ 18 = 0 then s.sendRebars
  else if s.tact.stamp.toNat % 2 ^ 18 = 4096 then s.rebarMisses
  else s

/-- R331, R333, R335: the graft controller at a downbeat: PACE begins again, and what had to wait is tried again. -/
def State.graftDownbeat (s : State) : State := { s with graft.sentMeasure := 0 }.skipTransfers.buildImage.answerPrepare

/-- R345: a member whose unit is OUT steps out. -/
def State.memberOut (s : State) : State := if (s.unit 48).state = .out then s.leaveChorus else s

/-! ### The downbeat -/

/-- What is timed by beats, once the Tactus has locked (R455). -/
def State.timedDownbeat (s : State) : State :=
  let s := s.splitCheck.countBad
  let s := s.rebarDownbeat.callRoll.sendJoinRequest.ageJoin.repeatAdmits
  let s := forEach s.ce.colls (fun c st => st.collDownbeat c) s
  let s := forEach (s.dma.channels.map (·.1)) (fun ch st => st.chanDownbeat ch) s
  let s := forEach s.queueIds (fun q st => st.stallCount q) s
  let s := forEach (s.wiresOfKind .downbeat) (fun w st => st.fireWire w) s
  let s := forEach (List.range 49) (fun i st => st.probationDownbeat i) { s with graft.probationUsed := s.graft.probation }
  s.graftDownbeat.governDownbeat

/-- R44: the score switch comes first; then the Tactus, the member itself and its ports, and what beats time. -/
def State.downbeatActions (s : State) : State :=
  let s := s.dropTarget.switchScore.tactDownbeat.memberOut.portsEnter
  if s.tact.everLocked then s.timedDownbeat else s

/-- R435, R439, R442: the collector's own measure ends. -/
def State.collectorDownbeat (s : State) : State := { s with fc.logged := [] }.quietDownbeat.shadowDownbeat

/-- The engine's count goes on to the next downbeat. -/
def State.toDownbeat (s : State) : State :=
  let n := 4096 - s.beat
  { s.elapse n with tact.stamp := s.tact.stamp + BitVec.ofNat 56 n }

/-- R44: DOWNBEAT. -/
def execDownbeat (s : State) : Out :=
  within true <|
    if s.sys.pwrgd then
      let s := s.toDownbeat.collectorDownbeat
      if s.live then s.downbeatActions else s
    else s

end Sys2Proof.Machine
end

