-- ==== Sys2Proof/Machine/Grafting.lean ====
section
/-!
DEFINITION. Commands of pruning and grafting (chapter 12). A mailbox command takes its arguments from GRF_MBOX_ARG0–ARG3.
-/
namespace Sys2Proof.Machine

/-- R327, R328: a mailbox command runs, or is ignored while BUSY is 1. -/
def State.mailbox (s : State) (f : State → State) : State :=
  if !s.live then s else if s.graft.mboxBusy then s.mboxIgnored else f s

/-- R330: SUBMIT. -/
def execSubmit (s : State) : Out := within true <| s.mailbox State.submitGraft

/-- R336: CANCEL. -/
def execCancel (s : State) : Out := within true <| s.mailbox State.cancelGraft

/-- R344: DRAIN. -/
def execDrain (s : State) : Out := within true <| s.mailbox State.drainUnit

/-- R345: OUT. -/
def execOut (s : State) : Out := within true <| s.mailbox State.outUnit

/-- R345: RETURN. -/
def execReturnUnit (s : State) : Out := within true <| s.mailbox State.returnTo

/-- R344: a draining unit with nothing in flight is QUIESCED. Table FLT-4: a HELD unit goes on to OUT by itself. -/
def execUnitQuiesced (i : Nat) (s : State) : Out :=
  within (Instr.unitQuiesced i).wf <|
    if (s.unit i).state = .drain ∧ s.quiet i then
      let s := s.setUnitState i .quiesced
      if i < 48 ∧ s.held i then s.unitOut i else s
    else s

/-- R345: the RETURNING work ends. -/
def execReturnDone (i : Nat) (pass : Bool) (s : State) : Out :=
  within (Instr.returnDone i pass).wf <|
    if !s.live || (s.unit i).state != .returning then s
    else if !pass then (s.unitOut i).raiseOn Det.returnFail (unitAt i)
    else if s.returned i then (s.clearReturned i).setUnitState i .probation
    else s

/-- R346: one comparison of a unit in probation. -/
def execShadowCompare (i : Nat) (agree : Bool) (s : State) : Out :=
  within (Instr.shadowCompare i agree).wf <|
    if !s.live || (s.unit i).state != .probation || !s.probationRuns i then s
    else if agree then s.modUnit i fun u => { u with worked := true }
    else (s.unitOut i).raiseOn Det.probationMismatch (unitAt i)

/-- R346: probation has lasted GRF_PROBATION.MEASURES measures, and a tier-2 port's pattern pass has ended. -/
def execProbationPass (i : Nat) (s : State) : Out :=
  within (Instr.probationPass i).wf <|
    let u := s.unit i
    if u.state = .probation ∧ !u.passed ∧ s.graft.probationUsed ≤ u.probCount ∧ (u.patternDone ∨ i < 44 ∨ i = 48) then
      s.modUnit i fun u => { u with passed := true }
    else s

/-- R332, R333: a GRAFT slot. -/
def execGraftSlotRx (p : Nat) (sl : Slot) (s : State) : Out :=
  within (Instr.graftSlotRx p sl).wf <| if s.live then s.onGraftSlot p sl else s

/-- R335: PREPARE. -/
def execPrepare (p : Nat) (c : Cue) (s : State) : Out :=
  within (Instr.prepare p c).wf <| if s.live then s.onPrepare p c else s

/-- R336: ACK. -/
def execAck (p : Nat) (c : Cue) (s : State) : Out :=
  within (Instr.ack p c).wf <| if s.live then s.onAck c else s

/-- R335: the downbeat of measure 47. -/
def execAckDeadline (s : State) : Out := within true <| if s.live then s.ackDeadline else s

/-- R336: the downbeat of measure 48. -/
def execGraftDecide (s : State) : Out :=
  within true <|
    if s.live && s.graft.master && !s.graft.decided && s.tact.stamp == beforePhrase s.graft.tgt 48 then s.decideGraft else s

/-- R337: COMMIT. -/
def execCommit (p : Nat) (c : Cue) (s : State) : Out :=
  within (Instr.commit p c).wf <| if s.live then s.onCommit p c else s

/-- R337: ABORT. -/
def execAbort (p : Nat) (c : Cue) (s : State) : Out :=
  within (Instr.abort p c).wf <| if s.live then s.onAbort p c else s

/-- R337: the downbeat of measure 63. -/
def execNoDecision (s : State) : Out := within true <| if s.live then s.noDecision else s

end Sys2Proof.Machine
end

