-- ==== Sys2Proof/Machine/MgmtOps.lean ====
section
/-!
DEFINITION. The management controller's commands (R497–R508): paths, arguments, outputs, tokens and fuses.
-/
namespace Sys2Proof.Machine

/-! ### Outputs -/

/-- The bytes of fields, each with its offset and length, in a block of `n` bytes. -/
def blockOf (n : Nat) (fs : List (Nat × Nat × Nat)) : List Byte :=
  (fs.foldl (fun (m : Mem) f => m.writeN f.1 (leBytes f.2.2 f.2.1)) []).readN 0 n

/-- GET_INFO's entry of an object (Table HST-8). -/
def State.infoOf (s : State) (object : Nat) : List (Nat × Nat × Nat) :=
  let o := 16 + 16 * (object - 1)
  match s.selected object with
  | some (b, c) => [(o, 1, b2n b), (o + 4, 4, c.sequence.toNat), (o + 8, 4, c.version), (o + 12, 1, c.keySlot)]
  | none => [(o, 1, 0xFF)]

/-- Table HST-8: the info block. -/
def State.infoBlock (s : State) : List Byte :=
  blockOf 84 ([(0, 4, 0x42002100), (8, 8, s.sys.serial.toNat), (80, 1, s.sys.rollback),
    (81, 1, s.sys.keyRevoked.toNat + 16 * b2n s.sys.signAll), (82, 1, s.mgmt.jtag), (83, 1, b2n s.mgmt.updating)]
    ++ [1, 2, 3, 4].flatMap s.infoOf)

/-- A log entry's 32 bytes (Table FLT-3). -/
def LogEntry.bytes (e : LogEntry) : List Byte :=
  let cls := match e.cls with
    | .c => 0 | .u => 1 | .f => 2
  let st := match e.tstate with
    | .serving => 0 | .contained => 1 | .held => 2
  leBytes (e.stamp.toNat + e.cycle * 2 ^ 56) 8
    ++ leBytes (e.detector + cls * 2 ^ 8 + b2n e.conseq * 2 ^ 10 + b2n e.injected * 2 ^ 11 + e.unit.word * 2 ^ 16
        + e.rcount * 2 ^ 32 + st * 2 ^ 40) 8
    ++ leBytes e.detail.toNat 8 ++ leBytes e.seq.toNat 8

/-- Table FLT-8: the last-gasp record's bytes. -/
def State.gaspBytes (s : State) (g : LastGasp) : List Byte :=
  let ring := (g.ring.flatMap (·.bytes)).take 2048
  let body := blockOf 64 [(0, 4, 0x474C4C4F), (4, 4, 0x42002100), (8, 8, s.sys.serial.toNat), (16, 8, g.stamp.toNat),
      (24, 1, g.detector), (25, 1, b2n g.safe + 2 * b2n g.powerLoss + 4 * b2n g.later), (26, 2, g.unit.word),
      (28, 4, g.seq.toNat), (32, 2, g.tj.toNat), (34, 2, g.power.toNat), (36, 1, g.tactState)]
    ++ g.grpCounts.flatMap (fun c => leBytes c.toNat 4) ++ ring ++ leBytes 0 (4092 - 192 - ring.length)
  body ++ leBytes (crc32c body).toNat 4

/-- READ_SENSORS: 256 entries, by sensor ID. -/
def State.sensorBytes (s : State) : List Byte :=
  (List.range 256).flatMap fun i => leBytes (i + Tab.get 0 s.mgmt.sensors i * 2 ^ 32) 8

/-! ### Paths and the end of a command (R497–R499) -/

/-- Table HST-5: the controller takes a management command that comes this way. -/
def State.pathOpen (s : State) (p : MPath) : Bool :=
  s.sys.vstby && !s.sys.recovery && match p with
    | .smbus => true
    | .vdm => s.sys.pwrgd && s.host.linkUp
    | .mailbox => s.live

/-- Arguments 0–3. -/
def State.mgmtArg (s : State) (r : MReq) (i : Nat) : Nat :=
  match r.path with
  | .mailbox => (Tab.get 0 s.mgmt.args i).toNat
  | .smbus | .vdm => (r.args.getD i 0).toNat

/-- The first `n` bytes of the command's input. -/
def State.mgmtInput (s : State) (r : MReq) (n : Nat) : List Byte :=
  match r.path with
  | .mailbox => s.mgmt.buffer.readN 0 n
  | .smbus | .vdm => (r.input ++ leBytes 0 n).take n

/-- R498: the command ends: by the mailbox's registers, or with a response of RESULT, DETAIL and the output. -/
def State.mgmtEnd (s : State) (r : MReq) (a : Answer) (out : List Byte) : State :=
  match r.path with
  | .mailbox => s.mboxDone a out
  | .smbus | .vdm => { s with mgmt.mctpReply := leBytes a.1 1 ++ leBytes a.2 4 ++ out }

/-- R498, R499: a command on an open path runs, unless one is running: the mailbox then ignores it, and MCTP answers BUSY. With the
main rails off only the last-gasp commands are available (Table HST-5): `standby`. -/
def State.mgmtRun (s : State) (r : MReq) (standby : Bool) (f : State → State) : State :=
  if !s.pathOpen r.path || (!s.sys.pwrgd && !standby) then s
  else if s.mgmt.busy then
    match r.path with
    | .mailbox => s
    | .smbus | .vdm => s.mgmtEnd r (Res.busy, 0) []
  else f s

/-! ### The commands (Table HST-6) -/

/-- GET_INFO. -/
def State.doInfo (s : State) (r : MReq) : State := s.mgmtEnd r (Res.ok, 0) s.infoBlock

/-- READ_LASTGASP. -/
def State.doReadGasp (s : State) (r : MReq) : State :=
  match s.fc.lastGasp with
  | some g => s.mgmtEnd r (Res.ok, 0) (s.gaspBytes g)
  | none => s.mgmtEnd r (Res.notPresent, 0) []

/-- CLEAR_LASTGASP. -/
def State.doClearGasp (s : State) (r : MReq) : State := { s with fc.lastGasp := none }.mgmtEnd r (Res.ok, 0) []

/-- READ_SENSORS. -/
def State.doSensors (s : State) (r : MReq) : State := s.mgmtEnd r (Res.ok, 0) s.sensorBytes

/-- R499, R502: an image that fails a check is reported, and flash is untouched. -/
def State.imageRefused (s : State) (r : MReq) (a : Answer) : State := (s.eventC Det.rollbackRefused .mgmt).mgmtEnd r a []

/-- R464, R499, R502: FLASH_WRITE of the copy image in tier 1. -/
def State.doFlashWrite (s : State) (r : MReq) (sigOk : Bool) (failAt : Option Nat) : State :=
  let object := s.mgmtArg r 0
  let a := s.mgmtArg r 1
  let len := s.mgmtArg r 2
  match r.path with
  | .smbus | .vdm => s.mgmtEnd r (Res.refused, 3) []
  | .mailbox =>
    if !s.sys.run then s.mgmtEnd r (Res.refused, 1) []
    else if s.mgmt.updating then s.mgmtEnd r (Res.refused, 2) []
    else if object < 1 ∨ 4 < object then s.mgmtEnd r (Res.badArg, 0) []
    else if a % 2048 ≠ 0 ∨ !s.inTier1 a len then s.mgmtEnd r (Res.badArg, 1) []
    else if len < 4096 then s.mgmtEnd r (Res.badArg, 2) []
    else
      match s.load a len with
      | (s', .data bs) =>
        let c := copyOf bs sigOk
        match s'.imageFault object len c with
        | some x => s'.imageRefused r x
        | none => s'.startFlash object c failAt true
      | (s', _) => s'.mgmtEnd r (Res.badArg, 1) []

/-- R505: JTAG_NONCE replaces the previous nonce. -/
def State.doNonce (s : State) (r : MReq) (nonce : BitVec 256) : State :=
  { s with mgmt.nonce := some nonce }.mgmtEnd r (Res.ok, 0) (leBytes nonce.toNat 32)

/-- R505: the first check that a token fails. `kind` is the command's; the outcomes of the key hash and the signature are given. -/
def State.tokenFault (s : State) (kind : Nat) (t : List Byte) (keyOk sigOk : Bool) : Option Nat :=
  let sub := leAt t 5 1
  let key := leAt t 6 1
  if leAt t 0 4 ≠ 0x544A4C4F ∨ leAt t 4 1 ≠ kind ∨ (kind = 1 ∧ sub ≠ 1 ∧ sub ≠ 2) ∨ (kind = 2 ∧ 4 ≤ sub) then some 1
  else if leAt t 8 8 ≠ s.sys.serial.toNat then some 2
  else if s.mgmt.nonce ≠ some (BitVec.ofNat 256 (leAt t 16 32)) then some 3
  else if 4 ≤ key ∨ bitAt s.sys.keyRevoked.toNat key ∨ !keyOk then some 4
  else if !sigOk then some 5 else none

/-- R505: each nonce serves one token: one that has passed check 3 has used it. -/
def State.useNonce (s : State) (fault : Option Nat) : State :=
  match fault with
  | some n => if n ≤ 3 then s else { s with mgmt.nonce := none }
  | none => { s with mgmt.nonce := none }

/-- R505: a token's failure is counted; after 8 of them every token is refused. -/
def State.tokenFailed (s : State) (r : MReq) (n : Nat) : State :=
  { s with mgmt.failedTokens := s.mgmt.failedTokens + 1 }.mgmtEnd r (Res.authFail, n) []

/-- R505: a token is checked, and `f` acts on an accepted one. -/
def State.withToken (s : State) (r : MReq) (kind : Nat) (keyOk sigOk : Bool) (f : List Byte → State → State) : State :=
  let t := s.mgmtInput r 256
  if 8 ≤ s.mgmt.failedTokens then s.mgmtEnd r (Res.authFail, 0) []
  else
    let fault := s.tokenFault kind t keyOk sigOk
    let s := s.useNonce fault
    match fault with
    | some n => s.tokenFailed r n
    | none => f t s

/-- R508: JTAG_UNLOCK opens the token's scope. -/
def State.doUnlock (s : State) (r : MReq) (keyOk sigOk : Bool) : State :=
  s.withToken r 1 keyOk sigOk fun t s => { s with mgmt.jtag := max s.mgmt.jtag (leAt t 5 1) }.mgmtEnd r (Res.ok, 0) []

/-- R503: ADVANCE_ROLLBACK. -/
def State.doRollback (s : State) (r : MReq) : State :=
  let v := s.mgmtArg r 0
  if s.sys.rollback < v ∧ v ≤ 128 ∧ v ≤ s.sys.fwVersion then { s with sys.rollback := v }.mgmtEnd r (Res.ok, 0) []
  else s.mgmtEnd r (Res.badArg, 0) []

/-- R504: REVOKE_KEY: not by its own key, and never the last one. -/
def State.doRevoke (s : State) (r : MReq) (keyOk sigOk : Bool) : State :=
  s.withToken r 2 keyOk sigOk fun t s =>
    let k := leAt t 5 1
    let keys := s.sys.keyRevoked ||| (1#4 <<< k)
    if leAt t 6 1 = k ∨ keys = 0xF#4 then s.tokenFailed r 0
    else { s with sys.keyRevoked := keys }.mgmtEnd r (Res.ok, 0) []

/-- R498: a write to MGMT_MBOX_CMD runs the command of its code; outcomes that the host's write does not carry are free values. An
unknown code names no command, and ends with BAD_ARG. -/
def State.mgmtCmd (s : State) (code : Nat) : State :=
  let r : MReq := { path := .mailbox }
  let n := s.fresh
  s.mgmtRun r false fun s =>
    match code with
    | 0x01 => s.doInfo r
    | 0x02 => s.doReadGasp r
    | 0x03 => s.doClearGasp r
    | 0x04 => s.doSensors r
    | 0x10 => s.drawn.doFlashWrite r (Config.verifies n) none
    | 0x20 => s.drawn.doNonce r (Config.nonce n)
    | 0x21 => s.drawn.doUnlock r (Config.verifies n) (Config.verifies n)
    | 0x30 => s.doRollback r
    | 0x31 => s.drawn.doRevoke r (Config.verifies n) (Config.verifies n)
    | _ => s.mgmtEnd r (Res.badArg, 0) []

end Sys2Proof.Machine
end

