-- ==== Sys2Proof/Machine/Ports.lean ====
section
/-!
DEFINITION. Commands of the voice ports (chapter 3): tail slots, timing, bring-up and roll call.
-/
namespace Sys2Proof.Machine

/-- R68: the tail slot of beat 4,095, with its codeword's message symbols. -/
def State.sendTail (s : State) (p frac : Nat) : State :=
  let x := s.port p
  let t := s.tailOf p frac
  let c := scrambleAll true x.scrambler 0 (messageSymbols (beatWord 4095) t.encode)
  s.setPort p { x with txTail := some t, scrambler := c.1, txSymbols := c.2, echoDue := false
                       echoT1 := if t.echoReq then some t.txTime else x.echoT1 }

/-- R68: at beat 4,095 a port from FRAMING onward sends the tail slot. -/
def execTailSlotTx (p frac : Nat) (s : State) : Out :=
  within (Instr.tailSlotTx p frac).wf <|
    if (s.port p).state.framed ∧ s.beat = 4095 then s.sendTail p frac else s

/-- R69: a tail slot arrives, or is lost: uncorrectable, with a wrong beat word, or with a wrong CRC. -/
def execTailSlotRx (p : Nat) (code : Option (Nat × List Byte)) (arrival : DWord) (phase : Int) (s : State) : Out :=
  within (Instr.tailSlotRx p code arrival phase).wf <|
    if (s.port p).state.framed then
      match code with
      | none => s.tailLost p true
      | some (w, bs) =>
        if w = beatWord 4095 then
          match TailSlot.decode bs with
          | some t => s.tailIn p t arrival phase
          | none => s.tailLost p false
        else s.tailLost p false
    else s

/-- R42: the red count of the measure has reached TACT_RED_LIMIT. -/
def execOutOfStep (p : Nat) (s : State) : Out :=
  within (Instr.outOfStep p).wf <|
    if (s.port p).state = .inSchedule ∧ s.tact.redLimitUsed ≤ (s.port p).red then
      ((s.goOutOfStep p).count (Cnt.vp p Cnt.outOfStep)).raiseOn Det.outOfStep (.vp p)
    else s

/-- R41, R43, R583: the port's downbeat, the beat in which the slot sent at the neighbour's beat 0 lands. -/
def execPortDownbeat (p : Nat) (s : State) : Out :=
  within (Instr.portDownbeat p).wf <|
    if (s.port p).state.linked && (s.sentBeat p).any fun b => b.toNat % 4096 == 0 then
      let s := if (s.port p).state = .outOfStep then s.realign p else s.slew p
      s.modPort p (·.newMeasure)
    else s

/-- R79: training ends. -/
def execTrainingDone (p : Nat) (s : State) : Out :=
  within (Instr.trainingDone p).wf <|
    if (s.port p).state = .training then
      s.modPort p fun x => { x with state := .framing, since := s.now, delayValid := false, frame := none, echoT1 := none }
    else s

/-- R78: every lane has shown its marker twice 4,096 codewords apart, with a skew of at most 60 ns. The port sets its centre, and
is ALIGNED once an echo exchange has given H_min. R72: a score whose H lies outside the range raises LAND_RANGE. -/
def execPortAlign (p : Nat) (spacing : List Nat) (skew : Nat) (phase : Int) (s : State) : Out :=
  within (Instr.portAlign p spacing skew phase).wf <|
    let x := s.port p
    if x.state = .framing ∧ spacing = [4096, 4096, 4096, 4096] ∧ skew ≤ 60000 ∧ x.delayValid then
      let h := hMinOf x.delay.toNat
      let s := s.setPort p { x with state := .aligned, since := s.now, centre := phase, slew := 0, hMin := h, h := h
                                    phase := {}, amber := {}, red := 0, uncorr := 0, conflict := false }
      match s.img with
      | some m => if Img.enabled m p && !landOk m (s.port p) p then s.landRange p else s
      | none => s
    else s

/-- R78: no markers within 4 measures. -/
def execFramingTimeout (p : Nat) (s : State) : Out :=
  within (Instr.framingTimeout p).wf <|
    if (s.port p).state = .framing ∧ (s.port p).since + 16384 ≤ s.now then
      (s.train p).eventC Det.framingTimeout (.vp p)
    else s

/-- R79: the lanes lose signal, or more than 1,024 codewords of a measure were uncorrectable. -/
def execPortDown (p : Nat) (signal : Bool) (s : State) : Out :=
  within (Instr.portDown p signal).wf <|
    if (s.port p).state ≠ .down ∧ (signal ∨ 1024 < (s.port p).uncorr) then
      (s.portToDown p).raiseOn Det.portDown (.vp p)
    else s

/-- R79: the lanes have been idle for at least 1 ms, and the port trains again. -/
def execPortRetrain (p : Nat) (s : State) : Out :=
  within (Instr.portRetrain p).wf <|
    let x := s.port p
    if s.live && x.state == .down && !x.holdDown && decide (x.since + 78125 ≤ s.now) && (s.unit p).state != .out
        && (s.resetOf p).inReset.isNone then
      s.train p
    else s

/-- R524, R530: a write to VP_CTRL: PMD 3 is out of range, and HOLD_DOWN takes the port DOWN at once. -/
def State.writeVpCtrl (s : State) (p v : Nat) : State :=
  if fld v 0 2 = 3 then s
  else
    let s := s.modPort p fun x => { x with pmd := fld v 0 2, holdDown := bitAt v 2, precode := bitAt v 3 }
    if bitAt v 2 ∧ (s.port p).state ≠ .down then s.portToDown p else s

/-- R530: VP_HOLD_DOWN. -/
def execVpHoldDown (p : Nat) (v : Word) (s : State) : Out :=
  within (Instr.vpHoldDown p v).wf <| s.whenLive fun s => s.writeVpCtrl p v.toNat

/-- R80, R467: a ROLL_CALL is answered on its port with HERE or HOLD. -/
def execRollCall (p : Nat) (c : Cue) (s : State) : Out :=
  within (Instr.rollCall p c).wf <| if (s.port p).state.linked then s.answerRollCall p else s

/-- R80: a neighbour that can join answers HERE. -/
def execHere (p : Nat) (c : Cue) (s : State) : Out :=
  within (Instr.here p c).wf <| if (s.port p).state.linked then s.noteHere p c else s

/-- R80: a neighbour that cannot yet join answers HOLD with its estimated ready beat. -/
def execHold (p : Nat) (c : Cue) (s : State) : Out :=
  within (Instr.hold p c).wf <| if (s.port p).state.linked then s.noteHere p c else s

end Sys2Proof.Machine
end

