-- ==== Sys2Proof/Machine/Queues.lean ====
section
/-!
DEFINITION. Commands of the queues and completion rings (chapters 8 and 21).
-/
namespace Sys2Proof.Machine

/-- R204, R206: the host writes the doorbell of queue `q`. -/
def execDoorbell (q : Nat) (v : Word) (s : State) : Out :=
  within (Instr.doorbell q v).wf <| s.whenLive fun s => s.bell q v 0

/-- R207: how many commands the sequencer fetches at once from index `i`: eight where they lie in one page, and no more than it
may hold or than are published. -/
def Queue.fetchCount (x : Queue) (i : Word) : Nat :=
  let inPage := 32 - (x.base.toNat / 64 + i.toNat % x.size) % 32
  min (min 8 inPage) (min (8 - x.fetched.length) (min (x.tail - i).toNat (x.size - i.toNat % x.size)))

/-- R207: the next index to fetch. -/
def Queue.nextFetch (x : Queue) : Word := x.fetch + BitVec.ofNat 32 x.fetched.length

/-- The commands in fetched bytes. -/
def commandsIn : Nat → Word → List Byte → List Fetched
  | 0, _, _ => []
  | n + 1, i, bs => { idx := i, cmd := BitVec.ofNat 512 (leAt bs 0 64) } :: commandsIn n (i + 1) (bs.drop 64)

/-- R207, R225: the sequencer fetches ahead of issue; a page that cannot be read leaves an uncorrectable fetch. -/
def State.fetchAhead (s : State) (q : Nat) : State :=
  let x := s.queue q
  let i := x.nextFetch
  let n := x.fetchCount i
  let add := fun (st : State) (fs : List Fetched) =>
    st.modQueue q fun x => { x with
      fetched := x.fetched ++ fs
      head := if x.fetched.isEmpty then some { since := st.now } else x.head }
  match s.load (x.base.toNat + 64 * (i.toNat % x.size)) (64 * n) with
  | (s', .data bs) => add s' (commandsIn n i bs)
  | (s', .ue page _) => add s' [{ idx := i, cmd := 0, ue := some page }]
  | (s', .unbacked a) => s'.unbackedEvent a

/-- R207, R208: the sequencer fetches while FETCH is earlier than TAIL and it holds fewer than 8 commands. -/
def execCommandFetch (q : Nat) (s : State) : Out :=
  within (Instr.commandFetch q).wf <|
    let x := s.queue q
    if s.released && x.state == .running && decide (x.fetched.length < 8) && x.fetched.all (fun f => f.ue.isNone)
        && idxLater x.nextFetch x.tail then
      s.fetchAhead q
    else s

/-- R217: the oldest finished command of queue `q` with index `idx` completes. -/
def execCommandComplete (q : Nat) (idx : Word) (s : State) : Out :=
  within (Instr.commandComplete q idx).wf <|
    match s.live, (s.queue q).inflight.find? fun x => x.idx == idx && x.done.isSome with
    | true, some x =>
      match x.done with
      | some d => s.completeOne q x d
      | none => s
    | _, _ => s

/-- R202: a write to Q_CTRL with ENABLE. -/
def execQCtrlEnable (q : Nat) (v : Word) (s : State) : Out :=
  within (Instr.qCtrlEnable q v).wf <| s.whenReleased fun s => s.writeQCtrl q (v ||| 1#32).toNat

/-- Table QUE-8: a write to Q_CTRL with DISABLE. -/
def execQCtrlDisable (q : Nat) (v : Word) (s : State) : Out :=
  within (Instr.qCtrlDisable q v).wf <| s.whenReleased fun s => s.writeQCtrl q (v ||| 2#32).toNat

/-- R226: a write to Q_CTRL with SUSPEND. -/
def execQCtrlSuspend (q : Nat) (v : Word) (s : State) : Out :=
  within (Instr.qCtrlSuspend q v).wf <| s.whenReleased fun s => s.writeQCtrl q (v ||| 4#32).toNat

/-- R226: a write to Q_CTRL with RESUME. -/
def execQCtrlResume (q : Nat) (v : Word) (s : State) : Out :=
  within (Instr.qCtrlResume q v).wf <| s.whenReleased fun s => s.writeQCtrl q (v ||| 8#32).toNat

/-- R227: a write to Q_CTRL with RESET. -/
def execQCtrlReset (q : Nat) (v : Word) (s : State) : Out :=
  within (Instr.qCtrlReset q v).wf <| s.whenReleased fun s => s.writeQCtrl q (v ||| 16#32).toNat

/-- R226, R544: a write to Q_FETCH, of an index from HEAD to TAIL, while the queue is SUSPENDED or HALTED. -/
def State.writeQFetch (s : State) (q : Nat) (v : Word) : State :=
  let x := s.queue q
  if (x.state = .suspended ∨ x.state = .halted) ∧ idxAtOrLater x.headIdx v ∧ idxAtOrLater v x.tail then s.branchTo q v
  else s.refuseQueue q

/-- R226, R544: Q_FETCH_WRITE. -/
def execQFetchWrite (q : Nat) (v : Word) (s : State) : Out :=
  within (Instr.qFetchWrite q v).wf <| s.whenReleased fun s => s.writeQFetch q v

/-- R544: a write to Q_WATCHDOG restarts the count. -/
def State.writeQWatchdog (s : State) (q v : Nat) : State :=
  s.modQueue q fun x => { x with watchdog := fld v 0 16, stalled := 0 }

/-- R544: Q_WATCHDOG_WRITE. -/
def execQWatchdogWrite (q : Nat) (v : Word) (s : State) : Out :=
  within (Instr.qWatchdogWrite q v).wf <| s.whenReleased fun s => s.writeQWatchdog q v.toNat

/-- R220: the ring may be enabled. -/
def State.mayEnableRing (s : State) (g : Ring) : Bool :=
  pow2Between g.size 64 65536 && decide (g.base.toNat % 2048 = 0) && s.oneRmwRegion g.base.toNat (32 * g.size)

/-- R220, R547: CR_CTRL.ENABLE sets both indices to 0 before the checks. -/
def State.enableRing (s : State) (r : Nat) : State :=
  let g := s.ring r
  if g.enabled then s
  else
    let g := { g with tail := 0, head := 0 }
    if s.mayEnableRing g then s.setRing r { g with enabled := true, unsignalled := 0, oldest := none }
    else s.setRing r { g with cfgRefused := true }

/-- R220, R547: CR_CTRL_ENABLE. -/
def execCrCtrlEnable (r : Nat) (s : State) : Out :=
  within (Instr.crCtrlEnable r).wf <| s.whenReleased fun s => s.enableRing r

/-- R547: a command in flight or a SOFTWARE transfer names the ring. -/
def State.ringNamed (s : State) (r : Nat) : Bool :=
  (s.queues.any fun y => y.2.inflight.any fun z => ringOf z.cmd == r)
    || s.dma.channels.any fun y => y.2.software && y.2.state != .idle && y.2.state != .halted
        && y.2.active.ring == r

/-- R547: CR_CTRL.DISABLE. -/
def State.disableRing (s : State) (r : Nat) : State :=
  if s.ringNamed r then s.modRing r fun g => { g with cfgRefused := true } else s.modRing r fun g => { g with enabled := false }

/-- R547: CR_CTRL_DISABLE. -/
def execCrCtrlDisable (r : Nat) (s : State) : Out :=
  within (Instr.crCtrlDisable r).wf <| s.whenReleased fun s => s.disableRing r

/-- R547: a write to CR_HEAD, from the present head to CR_TAIL. -/
def State.writeCrHead (s : State) (r : Nat) (v : Word) : State :=
  let g := s.ring r
  if idxLater v g.head || idxLater g.tail v then s.setRing r { g with headRefused := true } else s.setRing r { g with head := v }

/-- R547: CR_HEAD_WRITE. -/
def execCrHeadWrite (r : Nat) (v : Word) (s : State) : Out :=
  within (Instr.crHeadWrite r v).wf <| s.whenReleased fun s => s.writeCrHead r v

/-- R224: the oldest record since the last message has waited CR_IRQ_DELAY × 64 beats. -/
def execCrIrqDelay (r : Nat) (s : State) : Out :=
  within (Instr.crIrqDelay r).wf <|
    let g := s.ring r
    match g.oldest with
    | some b =>
      if s.live && g.irqCount != 0 && g.irqDelay != 0 && decide (b + 64 * g.irqDelay ≤ s.now) then s.ringMessage r else s
    | none => s

end Sys2Proof.Machine
end

