-- ==== Sys2Proof/Machine/Score.lean ====
section
/-!
DEFINITION. Commands of the score (chapter 4), but for SCORE_SWITCH.
-/
namespace Sys2Proof.Machine

/-- R101: a host write of `len` bytes to a bank window. -/
def State.writeBank (s : State) (bank off len v : Nat) : State :=
  if s.bankHeld || bank == s.score.active then
    { s with score.writeRefused := true }.eventC Det.writeRefused .engine off
  else
    let s := s.setStandby (s.standbyBank.writeN off (leBytes v len))
    match s.score.standby with
    | .ready | .failed => { s with score.standby := .empty }
    | .empty | .checking => s

/-- R101: BANK_WRITE. -/
def execBankWrite (bank off len : Nat) (v : DWord) (s : State) : Out :=
  within (Instr.bankWrite bank off len v).wf <| s.whenLive fun s => s.writeBank bank off len v.toNat

/-- R532: SCR_CTRL.LOAD, which leaves the standby bank in CHECKING, and SCR_CTRL.DISCARD, which leaves it EMPTY. -/
def State.writeScrCtrl (s : State) (b : BankState) : State :=
  if s.bankHeld then { s with score.loadRefused := true } else { s with score.standby := b }

/-- R532: SCORE_LOAD. -/
def execScoreLoad (s : State) : Out := within true <| s.whenLive fun s => s.writeScrCtrl .checking

/-- R532: SCORE_DISCARD. -/
def execScoreDiscard (s : State) : Out := within true <| s.whenLive fun s => s.writeScrCtrl .empty

/-- R102, R104: the load checks end. -/
def execLoadCheckDone (s : State) : Out :=
  within true <| if s.live && s.score.standby == .checking then s.checkDone else s

/-- R532: a host write to SCR_TARGET. -/
def State.writeScrTarget (s : State) (v : Nat) : State :=
  if s.score.member then { s with score.targetRefused := true }.eventC Det.targetRefused .engine (fld v 0 38)
  else (s.setTarget (fld v 0 38)).1

/-- R532: SCR_TARGET_WRITE. -/
def execScrTargetWrite (v : DWord) (s : State) : Out :=
  within true <| s.whenLive fun s => s.writeScrTarget v.toNat

/-- R107: every slot sent under the rootstock has landed, and the former bank is free. -/
def execRootstockRelease (s : State) : Out :=
  within true <|
    if s.score.rootHold && decide (s.rootLand ≤ (s.tact.stamp - s.score.switchStamp).toNat) then
      { s with score.rootHold := false, score.rootReal := false }
    else s

end Sys2Proof.Machine
end

