-- ==== Sys2Proof/Machine/Regs.lean ====
section
/-!
DEFINITION. The registers of BAR0 as a read finds them (chapters 20 and 21): width and value of each, block by block.
-/
namespace Sys2Proof.Machine

/-! ### Layout -/

/-- A value made of fields, each with its lowest bit. -/
def pack (fs : List (Nat × Nat)) : Nat := fs.foldl (fun a x => a + x.1 * 2 ^ x.2) 0

/-- A register: true for 64 bits, and its value. -/
abbrev Reg := Option (Bool × Nat)

def r32 (v : Nat) : Reg := some (false, v)
def r64 (v : Nat) : Reg := some (true, v)

/-- Index and offset within its instance of offset `o` in an array of `n` instances of `stride` bytes at `base`. -/
def inArr (o base stride n : Nat) : Option (Nat × Nat) :=
  if base ≤ o ∧ o < base + stride * n then some ((o - base) / stride, (o - base) % stride) else none

/-- R548: the address at which a counter is kept: a member-wide CE counter is one storage for all four instances. -/
def cntKey (a : Nat) : Nat :=
  match inArr a 0x480000 0x4000 4 with
  | some (_, o) => if 0x140 ≤ o ∧ o < 0x14C then 0x480000 + o else a
  | none => a

/-- R525: a 32-bit RC counter stands at BAR0 address `a`. -/
def isCounter (a : Nat) : Bool :=
  let among := fun (o lo hi : Nat) => decide (lo ≤ o) && decide (o ≤ hi)
  let arr := fun (base stride n lo hi : Nat) => match inArr a base stride n with
    | some (_, o) => among o lo hi
    | none => false
  decide (a % 4 = 0) && (among a 0x010040 0x01004C
    || arr 0x020000 0x1000 16 0x40 0x50 || arr 0x020000 0x1000 16 0x80 0xBC
    || among a 0x300010 0x300014 || among a 0x300018 0x300024 || among a 0x300100 0x30013C
    || a == 0x340034 || arr 0x340400 0x40 12 0x00 0x28
    || arr 0x440000 0x40 64 0x24 0x24
    || arr 0x480000 0x4000 4 0x40 0x60 || arr 0x480000 0x4000 4 0x140 0x148
    || arr 0x500000 0x1000 16 0x40 0x4C || arr 0x540000 0x2000 8 0x40 0x6C
    || among a 0x580040 0x580054 || among a 0x5CE040 0x5CE068
    || among a 0x600100 0x60017C || among a 0x600400 0x6007FC
    || among a 0x640050 0x640064 || among a 0x680040 0x680054)

/-! ### Codes -/

def GraftPhase.code : GraftPhase → Nat
  | .idle => 0 | .distributing => 1 | .receiving => 2 | .ready => 3 | .failed => 4 | .prepared => 5 | .committed => 6
def QState.code : QState → Nat
  | .disabled => 0 | .running => 1 | .suspended => 2 | .halted => 3 | .resetting => 4
def HaltCause.code : HaltCause → Nat
  | .none => 0 | .failed => 1 | .fetchUe => 2 | .badDoorbell => 3 | .haltInsn => 4 | .waitAbandoned => 5
  | .waitDeadlock => 6 | .watchdog => 7 | .unitReset => 8
def ChState.code : ChState → Nat
  | .idle => 0 | .armed => 1 | .running => 2 | .completing => 3 | .halted => 4
def CoreState.code : CoreState → Nat
  | .reset => 0 | .idle => 1 | .busy => 2
def TgtState.code : TgtState → Nat
  | .serving => 0 | .contained => 1 | .held => 2
def FClass.code : FClass → Nat
  | .c => 0 | .u => 1 | .f => 2
def BarState.code : BarState → Nat
  | .idle => 0 | .armed => 1 | .abandoned => 2
def BankState.code : BankState → Nat
  | .empty => 0 | .checking => 1 | .ready => 2 | .failed => 3
def WakeKind.code : WakeKind → Nat
  | .off => 0 | .tallyGe => 1 | .barrier => 2 | .ring => 3 | .downbeat => 4 | .software => 5
/-- OWNER_KIND and OWNER (Table SYN-1). -/
def Owner.code : Owner → Nat × Nat
  | .none => (0, 0) | .queue q => (1, q) | .host => (2, 0) | .cluster c => (3, c)

/-! ### Identity, time, fabric (chapter 20) -/

/-- OLS_BEAT (Table REG-2): 0 while the stamp is not valid. -/
def State.olsBeat (s : State) : Nat :=
  if s.timed then pack [(s.tact.stamp.toNat, 0), (s.tact.cycle, 56), (1, 63)] else 0

/-- OLS_IDENT (R1). -/
def olsIdent : Nat := 0x42002100

/-- Table REG-1. -/
def State.globalReg (s : State) (o : Nat) : Reg :=
  match o with
  | 0x00 => r32 olsIdent
  | 0x08 => r64 s.sys.serial.toNat
  | 0x10 => r32 s.sys.ctrlUnit
  | 0x14 => r32 (pack [(s.sys.phase, 0), (b2n s.sys.recovery, 4), (b2n s.sys.run, 5), (b2n s.fc.safe, 6),
      (b2n s.sys.blockRefused, 7), (s.sys.cfgSkipped, 8)])
  | 0x18 => r64 s.olsBeat
  | 0x20 => r32 s.power.cap
  | 0x28 => r64 (pack [(s.power.meDuty, 0), (s.power.clDuty, 8), (s.power.power.toNat, 16), (s.power.tj.toNat, 32)])
  | _ => none

/-- Table REG-6. -/
def State.tactReg (s : State) (o : Nat) : Reg :=
  let t := s.tact
  match o with
  | 0x00 => r32 (pack [(t.mode.code, 0), (t.upstream, 4), (t.backup, 8), (b2n t.backupEn, 12)])
  | 0x04 => r32 (pack [(t.state.code, 0), (b2n t.ctrlRefused, 3), (t.depth, 4), (b2n t.srcHoldover, 10),
      (b2n (t.mode == .conductor && s.timed), 11), (t.inUse, 12), (min 0xFFFF t.holdMeasures, 16)])
  | 0x08 => r32 t.redLimit
  | 0x0C => r32 t.holdoverLimit
  | 0x10 => r64 t.epoch.toNat
  | 0x18 => r64 t.lockStamp.toNat
  | 0x20 => r32 (pack [(t.freq.toNat, 0), (b2n t.refLost, 16)])
  | _ => none

/-- Table REG-7. -/
def State.vpReg (s : State) (p o : Nat) : Reg :=
  let x := s.port p
  match o with
  | 0x00 => r32 (pack [(x.pmd, 0), (b2n x.holdDown, 2), (b2n x.precode, 3)])
  | 0x04 => r32 (pack [(x.state.code, 0), (b2n (x.state == .outOfStep), 3), ((s.gangOf p).getD 0, 4),
      ((x.nb.bind (·.member)).getD 0, 8), (b2n (x.nb.bind (·.member)).isSome, 18), (b2n ((x.nb.map (·.fallen)).getD false), 19),
      ((x.nb.map (·.tact.code)).getD 0, 20), (b2n x.shadowTx, 23)])
  | 0x08 => r64 x.eq.toNat
  | 0x10 => r32 (pack [(x.hMin, 0), (x.h, 8)])
  | 0x14 => r32 (twos x.slew 16)
  | 0x18 => r64 (pack [((phase16 x.lastPhase.mean).toNat, 0), ((phase16 x.lastPhase.min).toNat, 16),
      ((phase16 x.lastPhase.max).toNat, 32)])
  | 0x20 => r64 (pack [(x.delay.toNat, 0), (b2n x.delayValid, 63)])
  | 0x28 => r64 x.offset.toNat
  | _ => none

/-- SCR_ACTIVE_ID [39:0] of an image. -/
def idOf (m : Mem) : Nat := pack [((Img.sequence m).toNat, 0), (Img.epoch m, 32)]

/-- The READY image of the standby bank. -/
def State.readyImg (s : State) : Option Mem := if s.score.standby = .ready then some s.standbyBank else none

/-- Table REG-9. -/
def State.scoreReg (s : State) (o : Nat) : Reg :=
  let c := s.score
  match o with
  | 0x00 => r32 0
  | 0x08 => r64 (pack [(c.active, 0), (c.standby.code, 1), (b2n c.target.isSome, 3), (b2n s.bankLocked, 4),
      (b2n c.writeRefused, 8), (b2n c.loadRefused, 9), (b2n c.targetPast, 10), (b2n c.busy, 11), (b2n c.targetRefused, 12),
      (c.loadErr, 16), (c.errOffset, 32)])
  | 0x10 => r64 (c.target.getD 0)
  | 0x18 => r64 ((s.img.map fun m => (Img.fingerprint m).toNat).getD 0)
  | 0x20 => r64 ((s.img.map fun m => pack [(idOf m, 0), (Img.self m, 40), (1, 50)]).getD 0)
  | 0x28 => r64 ((s.readyImg.map fun m => (Img.fingerprint m).toNat).getD 0)
  | 0x30 => r64 ((s.readyImg.map idOf).getD 0)
  | 0x38 => r64 c.switchStamp.toNat
  | 0x40 => r32 0
  | _ => none

/-- Table REG-11. -/
def State.espReg (s : State) (o : Nat) : Reg :=
  match o with
  | 0x00 => r32 (pack [(s.score.deadStandby, 0), (s.score.deadActive, 16)])
  | 0x04 => r32 (b2n s.uniform)
  | _ => none

/-! ### Memory (Tables REG-12 to REG-16) -/

def State.memStatus (s : State) : Nat :=
  pack [(b2n s.mem.fillDone, 0), (b2n s.mem.t1FillDone, 1), (b2n s.mem.regionRefused, 2), (b2n s.mem.recodeBusy, 3),
    (b2n s.mem.recode.isSome, 4), (b2n ((List.range 12).any fun k => (s.ctrl k).breach), 5)]

/-- MEM_LEASE_STATE; an entry beyond LEASE_COUNT reads 0. -/
def State.leaseReg (s : State) (l : Nat) : Nat :=
  if l < s.leaseCount then
    let x := s.lease l
    pack [(twos x.deficit 32, 0), (b2n x.behind, 32), (b2n x.eligible, 33), (min 0xFFFFFF x.run, 40)]
  else 0

/-- MEM_REGION_BASE, LIMIT and ATTR. -/
def State.regionReg (s : State) (n o : Nat) : Reg :=
  let r := s.region n
  match o with
  | 0x00 => r64 r.stagedBase
  | 0x08 => r64 r.stagedLimit
  | 0x10 => r32 (pack [(b2n r.valid, 0), (r.strength, 1), (b2n r.strict, 3), (r.group, 4),
      (b2n (r.stagedBase != r.base || r.stagedLimit != r.limit), 8)])
  | _ => none

def State.cxlReg (s : State) (j o : Nat) : Reg :=
  let x := s.cxl j
  match o with
  | 0x00 => r64 (pack [(b2n x.linkUp, 0), (b2n x.enumerated, 1), (b2n x.backed, 2), (x.rate, 3), (x.width, 5)])
  | 0x08 => r64 (pack [(x.raw, 0), (s.cxlUsable j / mib64, 32)])
  | _ => none

/-- The arrays of the memory block. -/
def State.memArr (s : State) (o : Nat) : Reg :=
  match inArr o 0x100 0x20 16, inArr o 0x800 8 12, inArr o 0x900 0x10 4, inArr o 0x1000 8 64, inArr o 0x2000 8 256 with
  | some (n, i), _, _, _, _ => s.regionReg n i
  | _, some (k, 0), _, _, _ => r64 (pack [((s.ctrl k).scrubPage, 0), (min 0xFFFF (s.ctrl k).scrubPasses, 48)])
  | _, _, some (j, i), _, _ => s.cxlReg j i
  | _, _, _, some (i, 0), _ => r64 (Tab.get 0 s.mem.repairCand i).toNat
  | _, _, _, _, some (l, 0) => r64 (s.leaseReg l)
  | _, _, _, _, _ => none

def State.memReg (s : State) (o : Nat) : Reg :=
  let m := s.mem
  match o with
  | 0x00 => r32 (pack [(m.t1Next, 0), (m.t2Next, 4), (m.t1, 8), (m.t2, 12)])
  | 0x04 => r32 s.memStatus
  | 0x08 => r32 (pack [(m.scrubHours1, 0), (m.scrubHours2, 16)])
  | 0x0C => r32 m.leaseSlip
  | 0x10 => r32 (pack [(m.recodeRegion, 0), (m.recodeStrength, 4)])
  | 0x18 => r64 m.recodePtr
  | 0x20 => r64 m.poisonAddr.toNat
  | 0x28 => r32 (pack [(b2n m.poisonDone, 0), (b2n m.poisonBit, 1), (b2n m.poisonUnbacked, 2)])
  | 0x2C => r32 (pack ((List.range 12).map fun k => (b2n (s.ctrl k).breach, k)))
  | 0x30 => r32 m.repairWptr.toNat
  | 0x40 => r64 (pack [(m.slicePass.toNat, 0), (m.cxlPass.toNat, 32), (b2n m.selftestDone, 63)])
  | 0x48 => r64 m.injAddr.toNat
  | 0x50 => r64 (pack [(m.injCount, 0), (m.injStart, 6), (m.injStride, 18), (m.injPattern, 30), (b2n m.injArmed, 62)])
  | _ => s.memArr o

/-! ### Host, mailbox and graft (Tables REG-17 to REG-19) -/

def State.hostReg (s : State) (o : Nat) : Reg :=
  let h := s.host
  match o with
  | 0x00 => r64 h.bar2Base.toNat
  | 0x08 => r32 (pack [(h.rate, 0), (h.width, 3), (b2n h.flit, 8), (b2n h.bme, 9), (b2n h.d3hot, 10), (b2n h.linkUp, 11)])
  | 0x10 => r64 h.ptmMaster.toNat
  | 0x18 => r64 h.ptmBeat.toNat
  | 0x20 => r32 h.ptmSeq.toNat
  | _ => none

def State.mgmtReg (s : State) (o : Nat) : Reg :=
  let m := s.mgmt
  match o with
  | 0x00 => r32 0
  | 0x08 => r64 (pack [(b2n m.busy, 0), (m.result, 8), (m.detail, 32)])
  | 0x30 => r32 (pack [(m.vector, 0), (b2n m.irqEn, 11)])
  | _ => match inArr o 0x10 8 4 with
    | some (i, 0) => r64 (Tab.get 0 m.args i).toNat
    | _ => none

/-- GRF_UNIT_STATE[i]. -/
def State.unitReg (s : State) (i : Nat) : Nat :=
  let u := s.unit i
  pack [(u.state.code, 0), (b2n u.passed, 3), (u.partner, 4), (b2n u.noPartner, 8), (u.probCount, 16)]

/-- 32 bits of a member map. -/
def mapWord (xs : List Nat) (w : Nat) : Nat := pack ((List.range 32).map fun b => (b2n (xs.contains (32 * w + b)), b))

def State.graftArr (s : State) (o : Nat) : Reg :=
  match inArr o 0x18 8 4, inArr o 0x100 8 49, inArr o 0x400 4 32 with
  | some (i, 0), _, _ => r64 (Tab.get 0 s.graft.args i).toNat
  | _, some (i, 0), _ => r64 (s.unitReg i)
  | _, _, some (w, _) => r32 (if s.graft.master then mapWord s.graft.acked w else 0)
  | _, _, _ => none

def State.graftReg (s : State) (o : Nat) : Reg :=
  let g := s.graft
  match o with
  | 0x00 => r32 (pack [(g.vector, 0), (b2n g.irqEn, 11), (g.pace, 16)])
  | 0x08 => r32 0
  | 0x10 => r64 (pack [(b2n g.mboxBusy, 0), (g.result, 8), (g.detail, 32)])
  | 0x38 => r64 (pack [(g.graftId, 0), (g.phase.code, 12), (b2n g.master, 15), (g.outcome, 16), (g.reason, 20), (g.tgt, 24)])
  | 0x40 => r32 g.probation
  | _ => s.graftArr o

/-! ### Queues and rings (Tables RGE-1 to RGE-5) -/

/-- Q_STATUS. -/
def State.qStatus (s : State) (q : Nat) : Nat :=
  let x := s.queue q
  pack [(x.state.code, 0), (b2n x.cfgRefused, 3), (b2n x.resetRefused, 4), (x.haltCause.code, 8), (x.inflight.length, 12),
    (x.pin.length, 18), (b2n (s.held (64 + q)), 22), (x.foreignBell, 32), (x.badCtrl, 48)]

def State.queueReg (s : State) (q o : Nat) : Reg :=
  let x := s.queue q
  match o with
  | 0x00 => r32 (pack [(x.producer, 8), (x.errRing, 16), (b2n x.errContinue, 24)])
  | 0x08 => r64 (s.qStatus q)
  | 0x10 => r64 x.base.toNat
  | 0x18 => r64 x.headAddr.toNat
  | 0x20 => r32 x.size
  | 0x24 => r32 x.initIndex.toNat
  | 0x28 => r32 x.tail.toNat
  | 0x2C => r32 x.fetch.toNat
  | 0x30 => r32 x.headIdx.toNat
  | 0x34 => r32 x.haltIndex.toNat
  | 0x38 => r32 (pack [(x.watchdog, 0), (min 0xFFFF x.stalled, 16)])
  | 0x3C => r32 x.mark.toNat
  | _ => match inArr o 0x80 8 8 with
    | some (i, 0) => r64 (Tab.get 0 x.sregs i).toNat
    | _ => none

def State.ringReg (s : State) (r o : Nat) : Reg :=
  let g := s.ring r
  match o with
  | 0x00 => r64 g.base.toNat
  | 0x08 => r32 g.size
  | 0x0C => r32 0
  | 0x10 => r32 (pack [(b2n g.enabled, 0), (b2n g.cfgRefused, 1), (b2n g.headRefused, 2),
      (b2n ((g.tail - g.head).toNat == g.size), 3)])
  | 0x14 => r32 g.tail.toNat
  | 0x18 => r32 g.head.toNat
  | 0x1C => r32 g.vector
  | 0x20 => r32 (pack [(g.irqCount, 0), (g.irqDelay, 16)])
  | _ => none

/-! ### Engines (Tables RGE-6 to RGE-10) -/

/-- R549: CE_LATE_SEL's entry. -/
def State.lateEntry (s : State) (c : Nat) : LateEntry :=
  match Tab.get (false, 0) s.ce.lateSel c with
  | (false, i) => Tab.get {} s.ce.lateParts i
  | (true, i) => Tab.get {} s.ce.lateMembers i

/-- Table RGE-8: DATA0 and DATA1 of the selected entry. -/
def State.lateData (s : State) (c : Nat) : Nat × Nat :=
  let e := s.lateEntry c
  (pack [(e.sum, 0), (if (Tab.get (false, 0) s.ce.lateSel c).1 then 0 else e.max, 48)], e.measured)

/-- R549: CE_LATE_DATA1 as it would be read. -/
def State.lateData1 (s : State) (c : Nat) : Nat := ((Tab.find s.ce.lateLatch c).map (·.toNat)).getD (s.lateData c).2

/-- R549: a read of CE_LATE_DATA0 latches DATA1; a read of CE_LATE_DATA1 clears the entry. -/
def State.readLate (s : State) (c : Nat) (data1 : Bool) : State :=
  if data1 then
    let s := { s with ce.lateLatch := Tab.del s.ce.lateLatch c }
    match Tab.get (false, 0) s.ce.lateSel c with
    | (false, i) => { s with ce.lateParts := Tab.put s.ce.lateParts i {} }
    | (true, i) => { s with ce.lateMembers := Tab.put s.ce.lateMembers i {} }
  else { s with ce.lateLatch := Tab.put s.ce.lateLatch c (BitVec.ofNat 64 (s.lateData c).2) }

/-- R320: times and total lateness of member `m` in the window. -/
def laggardSum (w : List (Nat × Nat)) (m : Nat) : Nat × Nat :=
  let xs := w.filter fun x => x.1 == m
  (xs.length, xs.foldl (fun a x => a + x.2) 0)

/-- R320: the first of two members is the laggard. -/
def worseThan (w : List (Nat × Nat)) (a b : Nat) : Bool :=
  let x := laggardSum w a
  let y := laggardSum w b
  decide (y.1 < x.1) || (x.1 == y.1 && (decide (y.2 < x.2) || (x.2 == y.2 && decide (a < b))))

/-- R320: CE_LAGGARD. -/
def State.laggardReg (s : State) : Nat :=
  match s.ce.lateWindow with
  | [] => 0
  | x :: xs =>
    let m := xs.foldl (fun a y => if worseThan s.ce.lateWindow y.1 a then y.1 else a) x.1
    pack [(m, 0), (1, 15), ((laggardSum s.ce.lateWindow m).1, 16)]

def State.ceReg (s : State) (c o : Nat) : Reg :=
  match o with
  | 0x00 => r32 (pack [(s.unitLoad (40 + c), 0), (s.stagingUsed c, 8), (b2n (s.resetOf (40 + c)).inReset.isSome, 15)])
  | 0x08 => r32 s.laggardReg
  | 0x10 => r32 (pack [(b2n (Tab.get (false, 0) s.ce.lateSel c).1, 0), ((Tab.get (false, 0) s.ce.lateSel c).2, 16)])
  | 0x18 => r64 (s.lateData c).1
  | 0x20 => r64 (s.lateData1 c)
  | 0x100 => r32 (pack [(s.ce.lateThresh, 0), (s.ce.lostMeasures, 16)])
  | 0x104 => r32 0
  | 0x108 => r32 (pack [(s.ce.ctxs.length, 0), (b2n s.ce.declareRefused, 11), (s.ce.lost.length, 12)])
  | _ => match inArr o 0x200 4 32 with
    | some (w, _) => r32 (mapWord s.ce.lost w)
    | none => none

def State.meReg (s : State) (m o : Nat) : Reg :=
  let x := s.me m
  match o with
  | 0x00 => r32 (pack [(s.unitLoad (16 + m), 0), (b2n x.topk.isSome, 4), ((x.topk.map (·.q)).getD 0, 5),
      ((x.topk.map (·.k)).getD 0, 16), (b2n (s.resetOf (16 + m)).inReset.isSome, 27)])
  | 0x04 => r32 ((x.topk.map (·.loff)).getD 0)
  | 0x08 => r64 x.arrayCycles.toNat
  | _ => none

def State.clReg (s : State) (c o : Nat) : Reg :=
  let x := s.cl c
  match o with
  | 0x00 => r32 (pack [(b2n x.imageValid, 0), (b2n (s.resetOf (32 + c)).inReset.isSome, 1), (x.strayDone, 8)])
  | 0x04 => r32 (pack ((List.range 8).map fun k => ((s.core c k).state.code, 2 * k)))
  | 0x08 => r32 (match x.launches with
    | l :: _ => pack [(l.queue, 0), (l.mask, 8), (1, 16)]
    | [] => 0)
  | _ => none

/-! ### DMA (Tables RGE-11 to RGE-14) -/

/-- A register set, at 8-byte steps (Table DMA-1). -/
def DmaSet.reg (d : DmaSet) (i : Nat) : DWord :=
  match i with
  | 0 => d.src | 1 => d.dst | 2 => d.len | 3 => d.aux | 4 => d.opctl | 5 => d.event | _ => d.thresh

/-- DMA_CH_STATUS. -/
def State.chStatus (s : State) (ch : Nat) : Nat :=
  let c := s.chan ch
  pack [(c.state.code, 0), (b2n c.shadowArmed, 3), (b2n c.cfgRefused, 4), (b2n c.lateFail, 5), (b2n c.trail.isSome, 6),
    (c.setRefused, 8), (c.lastStatus, 24), (c.entry, 32)]

def State.chanReg (s : State) (ch o : Nat) : Reg :=
  let c := s.chan ch
  match o with
  | 0x80 => r32 (pack [(b2n c.software, 0), (b2n c.flagged, 1)])
  | 0x84 => r32 0
  | 0x88 => r64 (s.chStatus ch)
  | 0x90 => r64 c.progress
  | _ => match inArr o 0x00 8 7, inArr o 0x40 8 7 with
    | some (i, 0), _ => r64 (c.active.reg i).toNat
    | _, some (i, 0) => r64 (c.shadow.reg i).toNat
    | _, _ => none

def State.landReg (s : State) (w o : Nat) : Reg :=
  let x := s.landWin w
  match o with
  | 0x00 => r64 x.base.toNat
  | 0x08 => r64 x.limit.toNat
  | 0x10 => r64 (pack [(b2n x.enable, 0), (x.window, 1), (x.tally, 7), (x.inc, 19), (x.source, 22), (b2n x.anySource, 32)])
  | _ => none

def State.dmaReg (s : State) (o : Nat) : Reg :=
  match o with
  | 0x00 => r32 (b2n s.dma.serial)
  | 0x04 => r32 (pack [(b2n s.dma.shareRefused, 0), (b2n s.dma.landCfgRefused, 1),
      ((s.dma.channels.filter fun c => c.2.state != .idle).length, 8), (s.dma.streams.length, 16)])
  | 0x08 => r32 s.dma.streamStall
  | _ => match inArr o 0x1000 0x100 64, inArr o 0x8000 0x20 64 with
    | some (ch, i), _ => s.chanReg ch i
    | _, some (w, i) => s.landReg w i
    | _, _ => none

/-! ### The sync unit (Table RGE-15) -/

/-- SYN_TALLY_CFG. -/
def State.tallyCfg (s : State) (t : Nat) : Nat :=
  let x := s.tally t
  pack [(b2n x.remote, 0), (x.owner.code.1, 1), (x.owner.code.2, 3), (b2n x.abandoned, 11)]

def State.barReg (s : State) (b o : Nat) : Reg :=
  let x := s.barrier b
  match o with
  | 0x00 => r64 (pack [(b2n x.chorus, 0), (x.part, 1), (x.dtree, 9), (x.expect, 16), (x.owner.code.1, 25), (x.owner.code.2, 27)])
  | 0x08 => r32 0
  | 0x0C => r32 (pack [(x.state.code, 0), (x.arrivals, 8), (x.cause, 20)])
  | 0x10 => r64 x.gen.toNat
  | _ => none

def State.wakeReg (s : State) (w o : Nat) : Reg :=
  let x := s.wake w
  match o with
  | 0x00 => r64 (pack [(x.kind.code, 0), (x.object, 3), (x.step, 16)])
  | 0x08 => r64 x.thresh.toNat
  | _ => none

/-- The detector's registers and the flags. -/
def State.dlReg (s : State) (o : Nat) : Reg :=
  match inArr o 0xE100 4 8, inArr o 0xE140 4 8, inArr o 0xE200 4 128 with
  | some (i, _), _, _ => r32 (mapWord s.sync.dlMask i)
  | _, some (i, _), _ => r32 (mapWord s.sync.dlReport i)
  | _, _, some (i, _) => r32 (pack [(Tab.get 0 s.sync.dlWaitObj (2 * i), 0), (Tab.get 0 s.sync.dlWaitObj (2 * i + 1), 16)])
  | _, _, _ => none

def State.syncReg (s : State) (o : Nat) : Reg :=
  match o with
  | 0xD400 => r64 0
  | 0xD408 => r64 s.sync.wakeAbandoned.toNat
  | 0xE000 => r32 (b2n s.sync.cfgRefused)
  | 0xE120 => r32 (pack [(s.sync.dlWindow, 0), (b2n s.sync.dlBreak, 16)])
  | _ => match inArr o 0x0000 8 4096, inArr o 0x8000 4 4096, inArr o 0xC000 0x20 64, inArr o 0xD000 0x10 64 with
    | some (t, 0), _, _, _ => r64 (s.tally t).value.toNat
    | _, some (t, _), _, _ => r32 (s.tallyCfg t)
    | _, _, some (b, i), _ => s.barReg b i
    | _, _, _, some (w, i) => s.wakeReg w i
    | _, _, _, _ => s.dlReg o

/-! ### The fault collector (Table RGE-16) -/

/-- Word `i` of a log entry (Table FLT-3). -/
def LogEntry.word (e : LogEntry) (i : Nat) : Nat :=
  match i with
  | 0 => pack [(e.stamp.toNat, 0), (e.cycle, 56)]
  | 1 => pack [(e.detector, 0), (e.cls.code, 8), (b2n e.conseq, 10), (b2n e.injected, 11), (e.unit.word, 16), (e.rcount, 32),
      (e.tstate.code, 40)]
  | 2 => e.detail.toNat
  | _ => e.seq.toNat

/-- FC_TGT[t] (R437). -/
def State.tgtReg (s : State) (t : Nat) : Nat :=
  let g := s.tgt t
  if 51 ≤ t ∧ t < 64 then 0
  else pack [(g.state.code, 0), (g.recoveries, 8), (g.quiet, 16), (g.lastDetector, 32),
    (if t < 48 then min 3 (s.recentResets t) else 0, 40)]

def State.fcArr (s : State) (o : Nat) : Reg :=
  match inArr o 0x30 8 4, inArr o 0x200 4 32, inArr o 0x1000 8 384, inArr o 0x4000 8 2048 with
  | some (i, 0), _, _, _ => r64 ((s.fc.mirrorData.map fun e => e.word i).getD 0)
  | _, some (g, _), _, _ => r32 (Tab.get 0 s.fc.grpThresh g).toNat
  | _, _, some (t, 0), _ => r64 (s.tgtReg t)
  | _, _, _, some (i, 0) => r64 (((Tab.find s.fc.log (i / 4)).map fun e => e.word (i % 4)).getD 0)
  | _, _, _, _ => none

def State.fcReg (s : State) (o : Nat) : Reg :=
  let f := s.fc
  match o with
  | 0x00 => r32 (pack [(f.vecC, 0), (f.vecU, 11), (b2n f.irqEn, 22)])
  | 0x04 => r32 (pack [(b2n f.clearRefused, 0), (b2n f.safe, 1)])
  | 0x08 => r32 f.irqStatus.toNat
  | 0x0C => r32 f.cthresh.toNat
  | 0x10 => r64 (pack [(f.quietMeasures, 0), (f.recoveryLimit, 16), (f.resetShadow, 24)])
  | 0x18 => r64 0
  | 0x20 => r32 f.wptr.toNat
  | 0x24 => r32 f.rptr.toNat
  | 0x28 => r32 f.mirrorSel.toNat
  | 0x2C => r32 (b2n f.mirrorDone)
  | _ => s.fcArr o

/-! ### BAR0 -/

/-- The register at BAR0 address `a`, but for counters and windows. -/
def State.blockReg (s : State) (a : Nat) : Reg :=
  let o := a % 0x40000
  match a / 0x40000 with
  | 0 =>
    if a < 0x10000 then s.globalReg a
    else if a < 0x20000 then s.tactReg (a - 0x10000)
    else if a < 0x30000 then s.vpReg (a / 0x1000 % 16) (a % 0x1000)
    else none
  | 1 => s.scoreReg o
  | 0xC => s.espReg o
  | 0xD => s.memReg o
  | 0x10 => if o < 0x10000 then s.queueReg (o / 0x100) (o % 0x100) else none
  | 0x11 => if o < 0x1000 then s.ringReg (o / 0x40) (o % 0x40) else none
  | 0x12 => if o < 0x10000 then s.ceReg (o / 0x4000) (o % 0x4000) else none
  | 0x14 => if o < 0x10000 then s.meReg (o / 0x1000) (o % 0x1000) else none
  | 0x15 => if o < 0x10000 then s.clReg (o / 0x2000) (o % 0x2000) else none
  | 0x16 => s.dmaReg o
  | 0x17 => s.syncReg o
  | 0x18 => s.fcReg o
  | 0x19 => s.graftReg o
  | 0x1A => s.hostReg o
  | 0x1B => s.mgmtReg o
  | _ => none

/-- R454: the queue, DMA and sync blocks. -/
def heldBlock (a : Nat) : Bool :=
  let b := a / 0x40000
  b == 0x10 || b == 0x11 || b == 0x16 || b == 0x17

/-- The register at BAR0 address `a`: its width and value. Before release the queue, DMA and sync blocks read as 0 (R454). -/
def State.reg (s : State) (a : Nat) : Reg :=
  let r := if isCounter a then r32 (s.counter (cntKey a)).toNat else s.blockReg a
  if heldBlock a && !s.sys.run then r.map fun x => (x.1, 0) else r

/-! ### Windows: bytes that are reached by 32-bit or 64-bit accesses -/

/-- A join-table entry (Table REG-10). -/
def JoinEntry.bytes (e : JoinEntry) : List Byte :=
  leBytes e.eui.toNat 8 ++ leBytes e.fingerprint.toNat 8 ++ leBytes e.sequence.toNat 4
    ++ leBytes (pack [(1, 0), (b2n e.matches_, 1), (b2n e.refused, 2)]) 1 ++ leBytes e.epoch 1
    ++ leBytes (min 63 e.unheard) 2 ++ leBytes e.stamp.toNat 8

/-- The bytes of join-table entry `m`: an engine that is not a convener reads zeros (R531). -/
def State.joinBytes (s : State) (m : Nat) : List Byte :=
  match s.isConvener, Tab.find s.sys.join m with
  | true, some e => e.bytes
  | _, _ => leBytes 0 32

/-- An MSI-X table entry: message address, data and vector control. -/
def MsixEntry.bytes (e : MsixEntry) : List Byte :=
  leBytes e.addr.toNat 8 ++ leBytes e.data.toNat 4 ++ leBytes (b2n e.masked) 4

/-- Eight pending bits of the PBA. -/
def State.pbaByte (s : State) (i : Nat) : Byte :=
  BitVec.ofNat 8 (pack ((List.range 8).map fun b => (b2n (s.host.pba.contains (8 * i + b)), b)))

/-- `n` bytes of a window at address `a`, or none where no window lies. -/
def State.window (s : State) (a n : Nat) : Option (List Byte) :=
  if 0x100000 ≤ a ∧ a < 0x200000 then some (s.score.bankA.readN (a - 0x100000) n)
  else if 0x200000 ≤ a ∧ a < 0x300000 then some (s.score.bankB.readN (a - 0x200000) n)
  else if 0x48000 ≤ a ∧ a < 0x50000 then some (((s.joinBytes ((a - 0x48000) / 32)).drop (a % 32)).take n)
  else if 0x688000 ≤ a ∧ a < 0x690000 then
    some ((((Tab.get {} s.host.vectors ((a - 0x688000) / 16) : MsixEntry).bytes).drop (a % 16)).take n)
  else if 0x690000 ≤ a ∧ a < 0x690100 then some ((List.range n).map fun i => s.pbaByte (a - 0x690000 + i))
  else if 0x6C1000 ≤ a ∧ a < 0x6C2000 then some (s.mgmt.buffer.readN (a - 0x6C1000) n)
  else none

/-! ### Reads -/

/-- R8, R542: what a read of the register at `a` clears or latches. -/
def State.regRead (s : State) (a : Nat) : State :=
  if isCounter a then { s with counters := Tab.put s.counters (cntKey a) 0 }
  else
    match inArr a 0x400000 0x100 256, inArr a 0x480000 0x4000 4, inArr a 0x500000 0x1000 16, inArr a 0x540000 0x2000 8,
        inArr a 0x581000 0x100 64 with
    | some (q, 0x08), _, _, _, _ => s.modQueue q fun x => { x with foreignBell := 0, badCtrl := 0 }
    | _, some (c, 0x18), _, _, _ => s.readLate c false
    | _, some (c, 0x20), _, _, _ => s.readLate c true
    | _, _, some (m, 0x08), _, _ => s.setMe m { s.me m with arrayCycles := 0 }
    | _, _, _, some (c, 0x00), _ => s.setCl c { s.cl c with strayDone := 0 }
    | _, _, _, _, some (ch, 0x88) => s.modChan ch fun c => { c with setRefused := 0 }
    | _, _, _, _, _ => s

/-- R447: the safe state leaves this register readable. -/
def safeRead (a : Nat) : Bool := a == 0 || (decide (0x600000 ≤ a) && decide (a < 0x640000))

/-- The completion of a BAR read. -/
def State.barAnswer (s : State) (v : Option Nat) : State := { s with host.barReply := some v, host.barPoison := false }

/-- What the read of a register clears: nothing before release, in a block that reads as 0. -/
def State.consume (s : State) (a : Nat) : State := if heldBlock a && !s.sys.run then s else s.regRead a

/-- R7: a 64-bit access. -/
def State.read64 (s : State) (a : Nat) : State :=
  match s.reg a, s.reg (a + 4) with
  | some (true, v), _ => (s.barAnswer (some v)).consume a
  | none, none => s.barAnswer (some 0)
  | _, _ => s.barAnswer none

/-- R7: a 32-bit access to a 32-bit register, or to a half of a 64-bit one. The lower half latches the upper. -/
def State.readHalf (s : State) (a : Nat) : State :=
  match s.reg a, s.reg (a - 4) with
  | some (false, v), _ => (s.barAnswer (some v)).consume a
  | some (true, v), _ =>
    let s := (s.barAnswer (some (v % 2 ^ 32))).consume a
    { s with host.latch := some (a + 4, v / 2 ^ 32) }
  | none, some (true, v) => s.barAnswer (some (if a % 8 = 4 then v / 2 ^ 32 else 0))
  | none, _ => s.barAnswer (some 0)

/-- R7: a 32-bit access, which reads a latched upper half. -/
def State.read32 (s : State) (a : Nat) : State :=
  match s.host.latch with
  | some (b, v) =>
    if a = b then
      let s := s.barAnswer (some v)
      { s with host.latch := none }
    else s.readHalf a
  | none => s.readHalf a

/-- R7, R447, R485: a host read of BAR0. -/
def State.barRead (s : State) (a : Nat) (wide : Bool) : State :=
  if !s.sys.pwrgd || (s.fc.safe && !safeRead a) then s.barAnswer none
  else
    match s.window a (if wide then 8 else 4) with
    | some bs => s.barAnswer (some (leNat bs))
    | none => if wide then s.read64 a else s.read32 a

/-- R8: RC_READ: a host read of a register. -/
def execRcRead (off : Nat) (wide : Bool) (s : State) : Out := within (Instr.rcRead off wide).wf <| s.barRead off wide

/-- R549: CE_LATE_READ: a 64-bit read of CE_LATE_DATA0 or CE_LATE_DATA1. -/
def execCeLateRead (c : Nat) (data1 : Bool) (s : State) : Out :=
  within (Instr.ceLateRead c data1).wf <| s.barRead (0x480018 + 0x4000 * c + (if data1 then 8 else 0)) true

end Sys2Proof.Machine
end

