-- ==== Sys2Proof/Machine/RegWrite.lean ====
section
/-!
DEFINITION. Writes to the registers of BAR0 (chapters 20 and 21), block by block. Each answers the state after the write and whether
the register took it: a write that is out of range, that its state does not allow, or to a register that ignores writes, is not
taken (R523, R524, R541).
-/
namespace Sys2Proof.Machine

/-- The state after a write, and whether the register took it. -/
abbrev Put := State × Bool

/-- R524: a write is taken where `c` holds, and is otherwise ignored whole. -/
def State.putIf (s : State) (c : Bool) (f : State → State) : Put := if c then (f s, true) else (s, false)

/-- `n` lies in a range. -/
def within2 (n lo hi : Nat) : Bool := decide (lo ≤ n) && decide (n ≤ hi)

/-! ### MSI-X (R493) -/

/-- R493: pending vectors whose last condition has cleared send their messages. -/
def State.flushVectors (s : State) : State :=
  forEach s.host.pba (fun v st =>
    if st.msixBlocked v then st else { st with host.pba := st.host.pba.filter fun x => x != v }.sendVector v) s

/-- A 32-bit write at byte `o` of the MSI-X table. -/
def State.writeMsix (s : State) (o v : Nat) : State :=
  let k := o / 16
  let e : MsixEntry := Tab.get {} s.host.vectors k
  let a := e.addr.toNat
  let e' : MsixEntry := match o % 16 / 4 with
    | 0 => { e with addr := BitVec.ofNat 64 (a / 2 ^ 32 * 2 ^ 32 + v) }
    | 1 => { e with addr := BitVec.ofNat 64 (a % 2 ^ 32 + v * 2 ^ 32) }
    | 2 => { e with data := BitVec.ofNat 32 v }
    | _ => { e with masked := bitAt v 0 }
  { s with host.vectors := Tab.put s.host.vectors k e' }.flushVectors

/-! ### Identity, time, fabric, memory (chapter 20) -/

def State.putGlobal (s : State) (o v : Nat) : Put :=
  match o with
  | 0x10 => (s.writeOlsCtrl v, true)
  | 0x14 => ({ s with sys.blockRefused := s.sys.blockRefused && !bitAt v 7 }, true)
  | 0x20 => s.putIf (within2 (fld v 0 10) 300 690) fun s => { s with power.cap := fld v 0 10 }
  | _ => (s, false)

/-- R529: FREE or STEPPED_OUT takes TACT_CTRL, unless UPSTREAM equals an enabled BACKUP. -/
def State.takesTact (s : State) (v : Nat) : Bool :=
  (s.tact.state == .free || s.tact.state == .steppedOut) && !(bitAt v 12 && fld v 4 4 == fld v 8 4)

/-- R529: a new holdover limit counts at once. -/
def State.newLimit (s : State) (n : Nat) : State :=
  let passed := s.tact.state == .holdover && decide (n ≤ (s.now - s.tact.holdSince) / 4096)
  { s with tact.holdoverLimit := n, tact.limitReached := passed }

def State.putTact (s : State) (o v : Nat) : Put :=
  match o with
  | 0x00 => (s.writeTact false v, s.takesTact v)
  | 0x04 => ({ s with tact.ctrlRefused := s.tact.ctrlRefused && !bitAt v 3 }, true)
  | 0x08 => s.putIf (within2 (fld v 0 7) 1 64) fun s => { s with tact.redLimit := fld v 0 7 }
  | 0x0C => s.putIf (within2 (fld v 0 11) 1 1024) fun s => s.newLimit (fld v 0 11)
  | 0x10 => (s.writeTact true v, s.takesTact 0)
  | _ => (s, false)

def State.putVp (s : State) (p o v : Nat) : Put :=
  match o with
  | 0x00 => (s.writeVpCtrl p v, decide (fld v 0 2 ≠ 3))
  | 0x08 => (s.modPort p fun x => { x with eq := BitVec.ofNat 64 v }, true)
  | _ => (s, false)

/-- R532: SCR_CTRL: LOAD, then DISCARD. -/
def State.putScrCtrl (s : State) (v : Nat) : Put :=
  ((s.onlyIf (bitAt v 0) fun s => s.writeScrCtrl .checking).onlyIf (bitAt v 1) fun s => s.writeScrCtrl .empty,
    !s.bankHeld && !(bitAt v 0 && bitAt v 1))

def State.putScore (s : State) (o v : Nat) : Put :=
  let c := s.score
  match o with
  | 0x00 => s.putScrCtrl v
  | 0x08 => ({ s with
      score.writeRefused := c.writeRefused && !bitAt v 8, score.loadRefused := c.loadRefused && !bitAt v 9
      score.targetPast := c.targetPast && !bitAt v 10, score.busy := c.busy && !bitAt v 11
      score.targetRefused := c.targetRefused && !bitAt v 12 }, true)
  | 0x10 => (s.writeScrTarget v, !c.member && (s.setTarget (fld v 0 38)).2 == .set)
  | 0x40 => (s.onlyIf (bitAt v 0) fun s => s.freshAdmit true, true)
  | _ => (s, false)

/-- R136: the write of ATTR is taken. -/
def State.takesAttr (s : State) (n v : Nat) : Bool := n == 15 || s.regionOk n ((s.region n).written v)

/-- R137: the write of MEM_RECODE is taken. -/
def State.takesRecode (s : State) (v : Nat) : Bool :=
  let r := s.region (fld v 0 4)
  fld v 0 4 != 15 && (!bitAt v 31 || (s.mem.recode.isNone && r.valid && decide (fld v 4 2 ≤ s.ceiling r.base)))

/-- R536: the write of PGC_INJECT is taken. -/
def State.takesInject (s : State) (v : Nat) : Bool :=
  within2 (fld v 0 6) 1 33 && (!bitAt v 63 || (s.writeInject v).mem.injArmed) && !s.mem.injArmed

def State.putMem (s : State) (o v : Nat) : Put :=
  match o with
  | 0x00 => ({ s with mem.t1Next := fld v 0 2, mem.t2Next := fld v 4 2 }, true)
  | 0x04 => ({ s with
      mem.regionRefused := s.mem.regionRefused && !bitAt v 2, mem.recodeBusy := s.mem.recodeBusy && !bitAt v 3 }, true)
  | 0x08 => s.putIf (decide (fld v 0 14 ≤ 8760) && decide (fld v 16 14 ≤ 8760)) fun s =>
      { s with mem.scrubHours1 := fld v 0 14, mem.scrubHours2 := fld v 16 14 }
  | 0x0C => s.putIf (decide (16 ≤ fld v 0 16)) fun s => { s with mem.leaseSlip := fld v 0 16 }
  | 0x10 => (s.writeRecode v, s.takesRecode v)
  | 0x20 => (s.queryPoison (BitVec.ofNat 64 v), true)
  | 0x48 => s.putIf (!s.mem.injArmed) fun s => { s with mem.injAddr := BitVec.ofNat 64 v }
  | 0x50 => (s.writeInject v, s.takesInject v)
  | _ =>
    match inArr o 0x100 0x20 16 with
    | some (n, 0x00) => (s.writeBound n false v, true)
    | some (n, 0x08) => (s.writeBound n true v, true)
    | some (n, 0x10) => (s.writeRegionAttr n v, s.takesAttr n v)
    | _ => (s, false)

/-! ### Host, mailboxes and graft -/

def State.putHost (s : State) (o v : Nat) : Put :=
  match o with
  | 0x00 => ({ s with host.bar2Base := BitVec.ofNat 64 v }, true)
  | _ => (s, false)

/-- R498, R540: the management mailbox, which ignores writes while BUSY is 1. -/
def State.putMgmt (s : State) (o v : Nat) : Put :=
  if s.mgmt.busy then (s, false)
  else
    match o with
    | 0x00 => (s.mgmtCmd (fld v 0 8), true)
    | 0x30 => ({ s with mgmt.vector := fld v 0 11, mgmt.irqEn := bitAt v 11 }, true)
    | _ =>
      match inArr o 0x10 8 4 with
      | some (i, 0) => ({ s with mgmt.args := Tab.put s.mgmt.args i (BitVec.ofNat 64 v) }, true)
      | _ => (s, false)

/-- R327: a write to GRF_MBOX_CMD; an unknown code names no command. -/
def State.graftCmd (s : State) (code : Nat) : State :=
  match code with
  | 0x01 => s.mailbox State.submitGraft
  | 0x02 => s.mailbox State.cancelGraft
  | 0x10 => s.mailbox State.drainUnit
  | 0x11 => s.mailbox State.outUnit
  | 0x12 => s.mailbox State.returnTo
  | _ => s

def State.putGraft (s : State) (o v : Nat) : Put :=
  match o with
  | 0x00 => s.putIf (decide (1 ≤ fld v 16 12)) fun s =>
      { s with graft.vector := fld v 0 11, graft.irqEn := bitAt v 11, graft.pace := fld v 16 12 }
  | 0x08 => (s.graftCmd (fld v 0 8), !s.graft.mboxBusy)
  | 0x40 => s.putIf (decide (1 ≤ fld v 0 16)) fun s => { s with graft.probation := fld v 0 16 }
  | _ =>
    match inArr o 0x18 8 4 with
    | some (i, 0) =>
      if s.graft.mboxBusy then (s.mboxIgnored, false)
      else ({ s with graft.args := Tab.put s.graft.args i (BitVec.ofNat 64 v) }, true)
    | _ => (s, false)

/-! ### Queues and rings -/

/-- R545: the control bit of a write to Q_CTRL is taken: it leaves no refusal behind. -/
def State.takesQCtrl (s : State) (q v : Nat) : Bool :=
  let t := s.writeQCtrl q v
  (t.queue q).badCtrl == (s.queue q).badCtrl && (!bitAt v 0 || (t.queue q).state == .running)
    && (!bitAt v 4 || (t.queue q).resetRefused == (s.queue q).resetRefused)
    && !((s.queue q).state == .disabled && decide (8 < fld v 8 4))

/-- R544: a configuration register, written only while the queue is DISABLED. -/
def State.putQCfg (s : State) (q : Nat) (f : Queue → Queue) : Put :=
  s.putIf ((s.queue q).state == .disabled) fun s => s.modQueue q f

/-- R544: an S register. -/
def State.putSreg (s : State) (q i v : Nat) : Put :=
  let st := (s.queue q).state
  s.putIf (st == .disabled || st == .suspended || st == .halted) fun s =>
    s.modQueue q fun x => { x with sregs := Tab.put x.sregs i (BitVec.ofNat 64 v) }

def State.putQueue (s : State) (q o v : Nat) : Put :=
  match o with
  | 0x00 => (s.writeQCtrl q v, s.takesQCtrl q v)
  | 0x08 => (s.modQueue q fun x =>
      { x with cfgRefused := x.cfgRefused && !bitAt v 3, resetRefused := x.resetRefused && !bitAt v 4 }, true)
  | 0x10 => s.putQCfg q fun x => { x with base := BitVec.ofNat 64 v }
  | 0x18 => s.putQCfg q fun x => { x with headAddr := BitVec.ofNat 64 v }
  | 0x20 => s.putQCfg q fun x => { x with size := fld v 0 17 }
  | 0x24 => s.putQCfg q fun x => { x with initIndex := BitVec.ofNat 32 v }
  | 0x2C => (s.writeQFetch q (BitVec.ofNat 32 v), ((s.writeQFetch q (BitVec.ofNat 32 v)).queue q).fetch == BitVec.ofNat 32 v)
  | 0x38 => (s.writeQWatchdog q v, true)
  | _ =>
    match inArr o 0x80 8 8 with
    | some (i, 0) => s.putSreg q i v
    | _ => (s, false)

/-- R547: a configuration register, written only while the ring is not enabled. -/
def State.putRCfg (s : State) (r : Nat) (f : Ring → Ring) : Put := s.putIf (!(s.ring r).enabled) fun s => s.modRing r f

def State.putRing (s : State) (r o v : Nat) : Put :=
  match o with
  | 0x00 => s.putRCfg r fun g => { g with base := BitVec.ofNat 64 v }
  | 0x08 => s.putRCfg r fun g => { g with size := fld v 0 17 }
  | 0x0C =>
    let t := (s.onlyIf (bitAt v 0) fun s => s.enableRing r).onlyIf (bitAt v 1) fun s => s.disableRing r
    (t, (t.ring r).cfgRefused == (s.ring r).cfgRefused && (!bitAt v 0 || bitAt v 1 || (t.ring r).enabled))
  | 0x10 => (s.modRing r fun g =>
      { g with cfgRefused := g.cfgRefused && !bitAt v 1, headRefused := g.headRefused && !bitAt v 2 }, true)
  | 0x18 => (s.writeCrHead r (BitVec.ofNat 32 v), ((s.writeCrHead r (BitVec.ofNat 32 v)).ring r).head == BitVec.ofNat 32 v)
  | 0x1C => s.putRCfg r fun g => { g with vector := fld v 0 11 }
  | 0x20 => s.putIf (decide (fld v 0 9 ≤ 256)) fun s => s.modRing r fun g => { g with irqCount := fld v 0 9, irqDelay := fld v 16 8 }
  | _ => (s, false)

/-! ### Engines -/

def State.putCe (s : State) (c o v : Nat) : Put :=
  match o with
  | 0x10 => s.putIf (bitAt v 0 || decide (fld v 16 10 < 256)) fun s =>
      { s with ce.lateSel := Tab.put s.ce.lateSel c (bitAt v 0, fld v 16 10), ce.lateLatch := Tab.del s.ce.lateLatch c }
  | 0x100 => s.putIf (within2 (fld v 16 7) 1 64) fun s => { s with ce.lateThresh := fld v 0 16, ce.lostMeasures := fld v 16 7 }
  | 0x104 => (s.writeDeclare v, s.score.member && fld v 0 10 != s.self && s.inRoster (fld v 0 10))
  | 0x108 => ({ s with ce.declareRefused := s.ce.declareRefused && !bitAt v 11 }, true)
  | _ => (s, false)

/-! ### DMA -/

/-- A register set with register `i` at a new value. -/
def DmaSet.put (d : DmaSet) (i v : Nat) : DmaSet :=
  let x := BitVec.ofNat 64 v
  match i with
  | 0 => { d with src := x } | 1 => { d with dst := x } | 2 => { d with len := x } | 3 => { d with aux := x }
  | 4 => { d with opctl := x } | 5 => { d with event := x } | _ => { d with thresh := x }

/-- R371, R373: a write to a set. A QUEUE channel ignores it; a SOFTWARE channel that does not take it counts it. -/
def State.putSet (s : State) (ch : Nat) (shadow : Bool) (i v : Nat) : Put :=
  let c := s.chan ch
  if !c.software then (s, false)
  else if shadow then
    if c.shadowArmed then (s.setRefused ch, false)
    else (s.modChan ch fun c => { c with shadow := c.shadow.put i v }, true)
  else if c.state = .idle then (s.modChan ch fun c => { c with active := c.active.put i v }, true)
  else (s.setRefused ch, false)

/-- R373, R554: a write to DMA_CH_CMD. -/
def State.chanCmd (s : State) (ch v : Nat) : State :=
  match (List.range 5).filter (bitAt v) with
  | [] => s
  | [0] => s.cmdGo ch
  | [1] => s.cmdArm ch
  | [2] => s.cmdDisarm ch
  | [3] => s.cmdAbort ch
  | [4] => s.cmdClear ch
  | _ => s.setRefused ch

def State.putChan (s : State) (ch o v : Nat) : Put :=
  match o with
  | 0x80 => (s.writeChCfg ch v, (s.chan ch).state == .idle && !(s.chan ch).shadowArmed && (s.chan ch).trail.isNone)
  | 0x84 =>
    let t := s.chanCmd ch v
    (t, (t.chan ch).setRefused == (s.chan ch).setRefused && (t.chan ch).cfgRefused == (s.chan ch).cfgRefused)
  | 0x88 => (s.modChan ch fun c =>
      { c with cfgRefused := c.cfgRefused && !bitAt v 4, lateFail := c.lateFail && !bitAt v 5 }, true)
  | _ =>
    match inArr o 0x00 8 7, inArr o 0x40 8 7 with
    | some (i, 0), _ => s.putSet ch false i v
    | _, some (i, 0) => s.putSet ch true i v
    | _, _ => (s, false)

/-- R555: BASE and LIMIT, ignored while ENABLE is 1, and CTRL. -/
def State.putLand (s : State) (w o v : Nat) : Put :=
  let x := s.landWin w
  match o with
  | 0x00 => s.putIf (!x.enable) fun s => s.setLandWin w { x with base := BitVec.ofNat 64 v }
  | 0x08 => s.putIf (!x.enable) fun s => s.setLandWin w { x with limit := BitVec.ofNat 64 v }
  | 0x10 => (s.writeLandCtrl w v, !(x.enable && bitAt v 0) && ((s.writeLandCtrl w v).landWin w).enable == bitAt v 0)
  | _ => (s, false)

def State.putDma (s : State) (o v : Nat) : Put :=
  match o with
  | 0x00 => (s.writeShare v, s.dmaQuiet)
  | 0x04 => ({ s with
      dma.shareRefused := s.dma.shareRefused && !bitAt v 0, dma.landCfgRefused := s.dma.landCfgRefused && !bitAt v 1 }, true)
  | 0x08 => s.putIf (within2 (fld v 0 7) 1 64) fun s => { s with dma.streamStall := fld v 0 7 }
  | _ =>
    match inArr o 0x1000 0x100 64, inArr o 0x8000 0x20 64 with
    | some (ch, i), _ => s.putChan ch i v
    | _, some (w, i) => s.putLand w i v
    | _, _ => (s, false)

/-! ### The sync unit -/

/-- R406, R558: a write to SYN_BAR_CTRL. -/
def State.barCtrl (s : State) (b v : Nat) : State :=
  match (List.range 3).filter (bitAt v) with
  | [] => s
  | [0] => s.armBarrier b
  | [1] => s.disarmBarrier b
  | [2] => s.rearmBarrier b
  | _ => s.syncRefused b

/-- R421, R557: the write of SYN_TALLY_CFG is taken. -/
def State.takesTally (s : State) (t v : Nat) : Bool :=
  (!(s.tally t).abandoned || bitAt v 31) && (ownerOf (fld v 1 2) (fld v 3 8)).isSome

def State.putBar (s : State) (b o v : Nat) : Put :=
  match o with
  | 0x00 => (s.writeBarCfg b v, (s.barrier b).state == .idle && (ownerOf (fld v 25 2) (fld v 27 8)).isSome)
  | 0x08 => (s.barCtrl b v, (s.barCtrl b v).sync.cfgRefused == s.sync.cfgRefused)
  | _ => (s, false)

def State.putSync (s : State) (o v : Nat) : Put :=
  match o with
  | 0xD400 => (s.writeWakeFire v, true)
  | 0xD408 => ({ s with sync.wakeAbandoned := s.sync.wakeAbandoned &&& ~~~ BitVec.ofNat 64 v }, true)
  | 0xE000 => ({ s with sync.cfgRefused := s.sync.cfgRefused && !bitAt v 0 }, true)
  | 0xE120 => (s.writeDl none v, decide (fld v 0 16 ≠ 0))
  | _ =>
    match inArr o 0x0000 8 4096, inArr o 0x8000 4 4096, inArr o 0xC000 0x20 64, inArr o 0xD000 0x10 64,
        inArr o 0xE100 4 8 with
    | some (t, 0), _, _, _, _ => (s.writeTally t (BitVec.ofNat 64 v), !(s.tally t).abandoned)
    | _, some (t, _), _, _, _ => (s.writeTallyCfg t v, s.takesTally t v)
    | _, _, some (b, i), _, _ => s.putBar b i v
    | _, _, _, some (w, 0), _ => (s.writeWakeSrc w v, (WakeKind.ofCode (fld v 0 3)).isSome)
    | _, _, _, some (w, 8), _ => (s.writeWakeThresh w (BitVec.ofNat 64 v), true)
    | _, _, _, _, some (i, _) => (s.writeDl (some i) v, true)
    | _, _, _, _, _ => (s, false)

/-! ### The fault collector -/

def State.putFc (s : State) (o v : Nat) : Put :=
  match o with
  | 0x00 => (s.writeFcCtrl v, true)
  | 0x04 => ({ s with fc.clearRefused := s.fc.clearRefused && !bitAt v 0 }, true)
  | 0x08 => ({ s with fc.irqStatus := s.fc.irqStatus &&& ~~~ BitVec.ofNat 6 v }, true)
  | 0x0C => ({ s with fc.cthresh := s.fc.cthresh &&& ~~~ BitVec.ofNat 32 v }, true)
  | 0x10 => s.putIf (decide (1 ≤ fld v 0 16) && decide (1 ≤ fld v 24 6)) fun s =>
      { s with fc.quietMeasures := fld v 0 16, fc.recoveryLimit := fld v 16 8, fc.resetShadow := fld v 24 6 }
  | 0x18 => (s.inject v, true)
  | 0x24 => ({ s with fc.rptr := BitVec.ofNat 32 v }, true)
  | 0x28 => (s.selectMirror (BitVec.ofNat 32 v), true)
  | _ =>
    match inArr o 0x200 4 32, inArr o 0x1000 8 384 with
    | some (g, _), _ => ({ s with fc.grpThresh := Tab.put s.fc.grpThresh g (BitVec.ofNat 32 v) }, true)
    | _, some (t, 0) => s.putIf (bitAt v 63 && okTarget t) fun s => s.clearTarget t
    | _, _ => (s, false)

/-! ### BAR0 -/

/-- A whole write to the register at BAR0 address `a`. -/
def State.putReg (s : State) (a v : Nat) : Put :=
  let o := a % 0x40000
  match a / 0x40000 with
  | 0 =>
    if a < 0x10000 then s.putGlobal a v
    else if a < 0x20000 then s.putTact (a - 0x10000) v
    else if a < 0x30000 then s.putVp (a / 0x1000 % 16) (a % 0x1000) v
    else (s, false)
  | 1 => s.putScore o v
  | 0xD => s.putMem o v
  | 0x10 => if o < 0x10000 then s.putQueue (o / 0x100) (o % 0x100) v else (s, false)
  | 0x11 => if o < 0x1000 then s.putRing (o / 0x40) (o % 0x40) v else (s, false)
  | 0x12 => if o < 0x10000 then s.putCe (o / 0x4000) (o % 0x4000) v else (s, false)
  | 0x16 => s.putDma o v
  | 0x17 => s.putSync o v
  | 0x18 => s.putFc o v
  | 0x19 => s.putGraft o v
  | 0x1A => s.putHost o v
  | 0x1B => s.putMgmt o v
  | _ => (s, false)

/-- R447: the writes that the safe state leaves effective. -/
def safeWrite (a : Nat) : Bool := a == 0x600008 || a == 0x60000C || a == 0x600024

/-- R447, R454: a whole write to a register, where the engine's state lets any write through. -/
def State.writeReg (s : State) (a v : Nat) : Put :=
  if !s.sys.pwrgd || (s.fc.safe && !safeWrite a) || (heldBlock a && !s.sys.run) then (s, false) else s.putReg a v

/-- A write to a window at address `a`, of 4 or 8 bytes; none where no window lies. -/
def State.putWindow (s : State) (a n v : Nat) : Option State :=
  if 0x100000 ≤ a ∧ a < 0x200000 then some (s.writeBank 0 (a - 0x100000) n v)
  else if 0x200000 ≤ a ∧ a < 0x300000 then some (s.writeBank 1 (a - 0x200000) n v)
  else if 0x48000 ≤ a ∧ a < 0x50000 then some s
  else if 0x688000 ≤ a ∧ a < 0x690000 then
    some ((s.writeMsix (a - 0x688000) (v % 2 ^ 32)).onlyIf (n == 8) fun s => s.writeMsix (a - 0x688000 + 4) (v / 2 ^ 32))
  else if 0x690000 ≤ a ∧ a < 0x690100 then some s
  else if 0x6C1000 ≤ a ∧ a < 0x6C2000 then
    some (if s.mgmt.busy then s else { s with mgmt.buffer := s.mgmt.buffer.writeN (a - 0x6C1000) (leBytes v n) })
  else none

/-- R7: a 32-bit write: to a 32-bit register, or to a half of a 64-bit one. The whole value takes effect with the upper half; an upper
half that follows no lower half is no split write, and is ignored. -/
def State.write32 (s : State) (a v : Nat) : State :=
  match s.reg a, s.reg (a - 4) with
  | some (false, _), _ => (s.writeReg a v).1
  | some (true, _), _ => { s with host.lowHalf := some (a, v) }
  | none, some (true, _) =>
    match s.host.lowHalf with
    | some (b, lo) =>
      if b + 4 = a then (({ s with host.lowHalf := none }).writeReg b (lo + v * 2 ^ 32)).1 else s
    | none => s
  | none, _ => s

/-- R7, R447, R485: a host write to BAR0. A posted write of another width, or to a reserved offset, has no effect. -/
def State.barWrite (s : State) (a : Nat) (wide : Bool) (v : Nat) : State :=
  let v := if wide then v % 2 ^ 64 else v % 2 ^ 32
  match (if s.live then s.putWindow a (if wide then 8 else 4) v else none) with
  | some s' => s'
  | none =>
    if wide then
      match s.reg a with
      | some (true, _) => (s.writeReg a v).1
      | _ => s
    else s.write32 a v

/-- R524: REGISTER_WRITE: a host write to BAR0. -/
def execRegisterWrite (off : Nat) (wide : Bool) (v : DWord) (s : State) : Out :=
  within (Instr.registerWrite off wide v).wf <| s.barWrite off wide v.toNat

/-- R493: MSIX_TABLE_WRITE: a 32-bit write at an offset of the MSI-X table. -/
def execMsixTableWrite (off : Nat) (v : Word) (s : State) : Out :=
  within (Instr.msixTableWrite off v).wf <| s.whenLive fun s => s.writeMsix off v.toNat

/-! ### The service path (R508) -/

/-- R327, R508: registers that SVC_ACCESS cannot reach: the mailboxes and FC_INJECT. -/
def svcBarred (a : Nat) : Bool :=
  (decide (0x640008 ≤ a) && decide (a < 0x640038)) || (decide (0x6C0000 ≤ a) && decide (a < 0x6C2000))
    || (decide (0x600018 ≤ a) && decide (a < 0x600020))

/-- R508: SVC_ACCESS: on Update-DR, one access as a host's would be; Capture-DR then loads its data with DONE or ERROR. SAFE_KEY is
taken only from the host port (R451). -/
def execSvcAccess (dr : BitVec 128) (s : State) : Out :=
  within (Instr.svcAccess dr).wf <|
    let a := fld dr.toNat 0 24
    let wide := bitAt dr.toNat 25
    let ctl := fld dr.toNat 0 26
    let v := fld dr.toNat 64 64
    let reply := fun (st : State) (x : Option Nat) => { st with
      mgmt.dr := match x with
        | some d => BitVec.ofNat 128 (pack [(ctl, 0), (1, 26), (d, 64)])
        | none => BitVec.ofNat 128 (pack [(ctl, 0), (1, 27)]) }
    if !s.sys.pwrgd || s.mgmt.jtag != 2 || s.mgmt.ir != 0x10 then s
    else if svcBarred a || decide (a % (if wide then 8 else 4) ≠ 0) then reply s none
    else if bitAt dr.toNat 24 then
      reply (s.barWrite a wide (if a = 0x600000 then v % 2 ^ 24 else v)) (some 0)
    else
      let t := s.barRead a wide
      reply { t with host.barReply := s.host.barReply, host.barPoison := s.host.barPoison } (t.host.barReply.getD none)

end Sys2Proof.Machine
end

