-- ==== Sys2Proof/Machine/Host.lean ====
section
/-!
DEFINITION. Commands of the host port (chapter 18): BAR2 accesses, PTM, the ends of the engine's own host reads, the link and
configuration space.
-/
namespace Sys2Proof.Machine

/-! ### BAR2 (R486) -/

/-- R486: the device address of BAR2 offset `off`: the base without its bits below the window size. -/
def State.bar2Addr (s : State) (off : Nat) : Nat := s.host.bar2Base.toNat / s.host.bar2Size * s.host.bar2Size + off

/-- R159, R447: BAR2 is served: the fill is done, and the engine is not in the safe state. -/
def State.bar2Open (s : State) : Bool := s.live && s.mem.fillDone

/-- The TLP lies in the BAR. -/
def State.inBar2 (s : State) (off n : Nat) : Bool := decide (off + n ≤ s.host.bar2Size)

/-- Table MEM-7: a poisoned completion, whose data the manual does not state. -/
def State.barPoisoned (s : State) (n : Nat) : State :=
  let s := { s.barAnswer (some (leNat ((List.range n).map (Config.poisonedData s.fresh)))) with host.barPoison := true }
  s.drawn

/-- R129, R138, R149: a BAR2 read of `n` bytes at device address `a`. -/
def State.bar2Load (s : State) (a n : Nat) : State :=
  if !s.backed a n then (s.unbackedEvent a).barAnswer none
  else
    match s.load a n with
    | (s, .data bs) => s.barAnswer (some (leNat bs))
    | (s, .ue page det) => (s.barPoisoned n).memFault .host det page
    | (s, .unbacked a) => (s.unbackedEvent a).barAnswer none

/-- R486: BAR2_READ. -/
def execBar2Read (off len : Nat) (s : State) : Out :=
  within (Instr.bar2Read off len).wf <|
    if !s.inBar2 off len then s
    else if s.bar2Open then s.bar2Load (s.bar2Addr off) len
    else s.barAnswer none

/-- R129, R141, R145: a BAR2 write of `bs` at device address `a`. -/
def State.bar2Store (s : State) (a : Nat) (bs : List Byte) : State :=
  if !s.backed a bs.length then s.unbackedEvent a
  else
    match s.strictPart a bs.length with
    | some p => s.strictWrite .host p
    | none =>
      match s.store a bs with
      | (s, .ok) => s
      | (s, .strict _) => s
      | (s, .ue page) => s.memFault .host Det.strictHostWrite page
      | (s, .unbacked a) => s.unbackedEvent a

/-- R486, R490: a class-U fault of the host port, with its counter. -/
def State.hostFault (s : State) (det cnt detail : Nat) : State := (s.count (Cnt.host cnt)).raise det .host (some 50) detail

/-- R486: BAR2_WRITE. -/
def execBar2Write (off : Nat) (data : List Byte) (poisoned : Bool) (s : State) : Out :=
  within (Instr.bar2Write off data poisoned).wf <|
    if !s.inBar2 off data.length || !s.live then s
    else if poisoned then s.hostFault Det.poisonedTlp 2 (s.bar2Addr off)
    else if s.mem.fillDone then s.bar2Store (s.bar2Addr off) data
    else s

/-! ### PTM (R484) -/

/-- R484: PTM_DIALOG: the master time, and the beat stamp and core cycle of the same instant. -/
def execPtmDialog (time : DWord) (s : State) : Out :=
  within (Instr.ptmDialog time).wf <|
    if s.live && s.host.linkUp then
      { s with host.ptmMaster := time, host.ptmBeat := s.olsBeat, host.ptmSeq := s.host.ptmSeq + 1 }
    else s

/-! ### The ends of host reads (R490) -/

/-- The state without an outstanding host read. -/
def State.dropRead (s : State) (id : Nat) : State := { s with host.reads := s.host.reads.filter fun r => r.id != id }

/-- The side of channel `ch` that waits for read `id`: its open trail (true), or its running transfer. -/
def Channel.sideWaiting (c : Channel) (id : Nat) : Option (Bool × RemoteTx) :=
  let is := fun (r : RemoteTx) => (r.hostWait.map (·.1)) == some id
  match c.trail.filter is with
  | some r => some (true, r)
  | none => (c.remote.filter is).map fun r => (false, r)

/-- A channel's host read has delivered its bytes. -/
def State.chanData (s : State) (ch id : Nat) (bs : List Byte) : State :=
  let c := s.chan ch
  match c.hostWait with
  | some (i, use) =>
    if i ≠ id then s
    else s.setChan ch (match use with
      | .a => { c with hostWait := none, hostA := some bs }
      | .b => { c with hostWait := none, hostB := some bs }
      | .flush => { c with hostWait := none, flushed := true })
  | none =>
    match c.sideWaiting id with
    | some (trail, r) =>
      let again := (r.hostWait.map (·.2)).getD false
      s.setChan ch (c.setSide trail (some { r.fill again bs with hostWait := none }))
    | none => s

/-- R490: a channel's host read has failed: DATA_UE, with bits [42:11] of the host address. -/
def State.chanError (s : State) (ch id a : Nat) : State :=
  let c := s.chan ch
  match c.hostWait with
  | some (i, _) => if i ≠ id then s else s.failXfer ch St.dataUe (hostDetail a)
  | none =>
    match c.sideWaiting id with
    | some (trail, r) =>
      let again := (r.hostWait.map (·.2)).getD false
      let r' := { r with hostWait := none }
      (s.setChan ch (c.setSide trail (some r'))).failSide ch trail r' St.dataUe (hostDetail a)
        (if again then r.resend.headD 0 else r.nextSeg)
    | none => s

/-- A command's host read has delivered its bytes: a collective's contribution, or the read that follows its writes. A FENCE goes on
by FENCE_COMPLETE. -/
def State.commandData (s : State) (q tok : Nat) (flush : Bool) (bs : List Byte) : State :=
  match s.collOf q tok with
  | none => s
  | some c =>
    if flush then
      match c.ended with
      | some d => s.completeColl c d
      | none => s
    else
      let c := { c with hostSrc := some bs }
      (s.putColl c).proceed c

/-- R490: a command's host read has failed. -/
def State.commandError (s : State) (q tok : Nat) (flush : Bool) (a : Nat) : State :=
  let d : Done := { status := St.dataUe, detail := hostDetail a }
  match s.collOf q tok with
  | none => s.finish q tok d
  | some c => if flush then s.completeColl c d else s.stopColl c d

/-- A host read ends with its data. -/
def State.readData (s : State) (r : HostRead) (bs : List Byte) : State :=
  let s := s.dropRead r.id
  match r.chan, r.cmd with
  | some ch, _ => s.chanData ch r.id bs
  | none, some (q, tok) => s.commandData q tok r.flush bs
  | none, none => s

/-- R490: a host read ends with an error. -/
def State.readError (s : State) (r : HostRead) : State :=
  let s := s.dropRead r.id
  match r.chan, r.cmd with
  | some ch, _ => s.chanError ch r.id r.addr
  | none, some (q, tok) => s.commandError q tok r.flush r.addr
  | none, none => s

/-- The outstanding read `id`. -/
def State.readOf (s : State) (id : Nat) : Option HostRead := s.host.reads.find? fun r => r.id == id

/-- R490: a completion of an outstanding read. -/
def State.completeRead (s : State) (r : HostRead) : HostCpl → State
  | .data bs => if bs.length = r.len then s.readData r bs else s
  | .unsupported | .abort => (s.hostFault Det.pcieUncorr 1 r.addr).readError r
  | .poisoned => (s.hostFault Det.poisonedTlp 2 r.addr).readError r

/-- R490: HOST_READ_COMPLETION. A completion that answers no outstanding read changes nothing. -/
def execHostReadCompletion (id : Nat) (c : HostCpl) (s : State) : Out :=
  within (Instr.hostReadCompletion id c).wf <|
    match s.live && s.host.linkUp, s.readOf id with
    | true, some r => s.completeRead r c
    | _, _ => s

/-- R491: the completion timeout in beats of 12.8 ns, by the Device Control 2 value; none for a value the engine does not take. -/
def timeoutBeats : Nat → Option Nat
  | 0 => some 3906250        -- 50 ms, the reset value
  | 1 => some 3907           -- range A: 50 us
  | 2 => some 78125          -- 1 ms
  | 5 => some 1250000        -- range B: 16 ms
  | 6 => some 5078125        -- 65 ms
  | 9 => some 20312500       -- range C: 260 ms
  | 10 => some 78125000      -- 1 s
  | 13 => some 312500000     -- range D: 4 s
  | 14 => some 1328125000    -- 17 s
  | _ => none

/-- R491: the read has reached the completion timeout. -/
def State.timedOut (s : State) (r : HostRead) : Bool := (timeoutBeats s.host.cplTimeout).any fun n => decide (r.since + n ≤ s.now)

/-- R491: CPL_TIMEOUT. -/
def execCplTimeout (id : Nat) (s : State) : Out :=
  within (Instr.cplTimeout id).wf <|
    match s.live, s.readOf id with
    | true, some r => if s.timedOut r then (s.hostFault Det.cplTimeout 3 r.addr).readError r else s
    | _, _ => s

/-! ### The link (R492, R569) -/

/-- R492: the link goes down: its fault names the first access lost, and every access in flight ends. -/
def State.linkDown (s : State) : State :=
  let reads := s.host.reads
  let s := s.hostFault Det.hostLinkDown 4 ((reads.head?.map (·.addr)).getD 0)
  forEach reads (fun r st => st.readError r)
    { s with host.linkUp := false, host.rate := 0, host.width := 0, host.flit := false }

/-- R492: HOST_LINK_DOWN. -/
def execHostLinkDown (s : State) : Out :=
  within true <| if s.sys.pwrgd && s.host.linkUp then s.linkDown else s

/-- R569: HOST_REFCLK_LOSS. -/
def execHostRefclkLoss (s : State) : Out :=
  within true <|
    if s.sys.pwrgd then
      let s := s.raise Det.hostRefclkLoss .host (some 50) 0
      if s.host.linkUp then s.linkDown else s
    else s

/-- R481, R492: HOST_LINK_UP: the link has trained, and pending messages are sent. -/
def execHostLinkUp (rate width : Nat) (flit : Bool) (s : State) : Out :=
  within (Instr.hostLinkUp rate width flit).wf <|
    if s.sys.pwrgd && !s.host.linkUp then
      let s := { s with host.linkUp := true, host.rate := rate, host.width := width, host.flit := flit }
      s.flushVectors
    else s

/-! ### Configuration space (R483, R491, R493) -/

/-- The field that a write sets. A completion-timeout value outside the ranges of R491 is ignored. -/
def State.setConfig (s : State) : CfgWrite → State
  | .bme on => { s with host.bme := on }
  | .d3hot on => { s with host.d3hot := on }
  | .msixEnable on => { s with host.msixEnable := on }
  | .funcMask on => { s with host.funcMask := on }
  | .cplTimeout v => if (timeoutBeats v).isSome then { s with host.cplTimeout := v } else s
  | .bar2Size n => if 30 ≤ n ∧ n ≤ 39 then { s with host.bar2Size := 2 ^ n } else s

/-- R482, R483: CONFIG_SPACE_WRITE. Messages whose last condition clears are sent (R493). -/
def execConfigSpaceWrite (w : CfgWrite) (s : State) : Out :=
  within (Instr.configSpaceWrite w).wf <|
    if s.sys.pwrgd && s.host.linkUp then
      let s := s.setConfig w
      s.flushVectors
    else s

end Sys2Proof.Machine
end

