-- ==== Sys2Proof/Machine/Management.lean ====
section
/-!
DEFINITION. Commands of the management controller (chapter 18), but for the service path's register access.
-/
namespace Sys2Proof.Machine

/-- Table HST-8: GET_INFO. -/
def execGetInfo (r : MReq) (s : State) : Out := within (Instr.getInfo r).wf <| s.mgmtRun r false fun s => s.doInfo r
/-- R449: READ_LASTGASP. -/
def execReadLastgasp (r : MReq) (s : State) : Out :=
  within (Instr.readLastgasp r).wf <| s.mgmtRun r true fun s => s.doReadGasp r
/-- R449: CLEAR_LASTGASP. -/
def execClearLastgasp (r : MReq) (s : State) : Out :=
  within (Instr.clearLastgasp r).wf <| s.mgmtRun r true fun s => s.doClearGasp r
/-- R500: READ_SENSORS. With the main rails off only VSTBY is available (Table HST-5). -/
def execReadSensors (r : MReq) (s : State) : Out :=
  within (Instr.readSensors r).wf <| s.mgmtRun r true fun s => s.doSensors r
/-- R465, R502: FLASH_WRITE. -/
def execFlashWrite (r : MReq) (sigOk : Bool) (failAt : Option Nat) (s : State) : Out :=
  within (Instr.flashWrite r sigOk failAt).wf <| s.mgmtRun r false fun s => s.doFlashWrite r sigOk failAt
/-- R505: JTAG_NONCE. -/
def execJtagNonce (r : MReq) (nonce : BitVec 256) (s : State) : Out :=
  within (Instr.jtagNonce r nonce).wf <| s.mgmtRun r false fun s => s.doNonce r nonce
/-- R508: JTAG_UNLOCK. -/
def execJtagUnlock (r : MReq) (keyOk sigOk : Bool) (s : State) : Out :=
  within (Instr.jtagUnlock r keyOk sigOk).wf <| s.mgmtRun r false fun s => s.doUnlock r keyOk sigOk
/-- R503: ADVANCE_ROLLBACK. -/
def execAdvanceRollback (r : MReq) (s : State) : Out :=
  within (Instr.advanceRollback r).wf <| s.mgmtRun r false fun s => s.doRollback r
/-- R504: REVOKE_KEY. -/
def execRevokeKey (r : MReq) (keyOk sigOk : Bool) (s : State) : Out :=
  within (Instr.revokeKey r keyOk sigOk).wf <| s.mgmtRun r false fun s => s.doRevoke r keyOk sigOk

/-! ### PLDM, SPDM, MCTP -/

/-- R501: the update is taken: after release, or of firmware in RECOVERY; not beside another write (R499). -/
def State.takesUpdate (s : State) (object : Nat) : Bool :=
  s.sys.vstby && s.sys.pwrgd && !s.mgmt.updating && decide (1 ≤ object) && decide (object ≤ 4)
    && (s.sys.run || (s.sys.recovery && object == 1))

/-- R501, R502: PLDM_FIRMWARE_UPDATE: one component, verified and then written. -/
def execPldmFirmwareUpdate (object : Nat) (image : List Byte) (sigOk : Bool) (failAt : Option Nat) (s : State) : Out :=
  within (Instr.pldmFirmwareUpdate object image sigOk failAt).wf <|
    let c := copyOf image sigOk
    if !s.takesUpdate object then s.eventC Det.fwUpdateFail .mgmt
    else
      match s.imageFault object image.length c with
      | some _ => (s.eventC Det.rollbackRefused .mgmt).eventC Det.fwUpdateFail .mgmt
      | none => s.startFlash object c failAt false

/-- R506: the request codes that the responder answers: GET_VERSION, GET_CAPABILITIES, NEGOTIATE_ALGORITHMS, GET_DIGESTS,
GET_CERTIFICATE, CHALLENGE and GET_MEASUREMENTS. -/
def spdmCodes : List Nat := [0x84, 0xE1, 0xE3, 0x81, 0x82, 0x83, 0xE0]

/-- Table HST-11: a measurement block: raw for indices 3 and 4, otherwise a digest, which the model does not compute. -/
def State.measurement (s : State) (i : Nat) : List Byte :=
  match i with
  | 3 => leBytes s.sys.rollback 1 ++ leBytes (s.sys.keyRevoked.toNat + 16 * b2n s.sys.signAll) 1 ++ leBytes s.mgmt.jtag 1
  | 4 => (s.img.map fun m => leBytes (Img.sequence m).toNat 4 ++ leBytes (Img.fingerprint m).toNat 8
      ++ leBytes (Img.epoch m) 1).getD (leBytes 0 13)
  | _ => (List.range 48).map (Config.digestByte s.fresh)

/-- R506: SPDM_REQUEST: the answer's code, and for GET_MEASUREMENTS the block that the first byte of the request names; the content
of the other answers is not the manual's. -/
def execSpdmRequest (code : Nat) (body : List Byte) (s : State) : Out :=
  within (Instr.spdmRequest code body).wf <|
    if !s.sys.vstby || !s.sys.pwrgd || s.sys.recovery then s
    else if code = 0xE0 then
      { s with mgmt.spdm := 0x60#8 :: s.measurement (leAt body 0 1) }.drawn
    else if spdmCodes.contains code then
      { s with mgmt.spdm := BitVec.ofNat 8 (code % 128) :: (List.range 48).map (Config.digestByte s.fresh) }.drawn
    else { s with mgmt.spdm := [0x7F#8] }.eventC Det.spdmFail .mgmt

/-- R497: MCTP_CONTROL: Set Endpoint ID (0x01) assigns an endpoint other than 0 and 255, Get Endpoint ID (0x02) gives it. -/
def execMctpControl (code : Nat) (v : Nat) (s : State) : Out :=
  within (Instr.mctpControl code v).wf <|
    if !s.sys.vstby then s
    else
      match code with
      | 1 =>
        if 0 < v ∧ v < 255 then { s with mgmt.eid := v, mgmt.mctpReply := leBytes 0 1 ++ leBytes v 1 }
        else { s with mgmt.mctpReply := leBytes 2 1 }
      | 2 => { s with mgmt.mctpReply := leBytes 0 1 ++ leBytes s.mgmt.eid 1 }
      | _ => { s with mgmt.mctpReply := leBytes 5 1 }

/-- Table HST-9: sensors that the engine's state gives: Tactus state, engine state, governor, event counts and targets HELD. -/
def State.ownSensors (s : State) : List (Nat × Nat) :=
  let eng := if s.sys.recovery then 3 else if s.fc.safe then 2 else if s.sys.run then 1 else 0
  let gov := if s.power.clDuty < 16 then 2 else if s.power.meDuty < 16 then 1 else 0
  [(20, s.tact.state.code), (21, eng), (22, gov), (30, s.mgmt.eventsC), (31, s.mgmt.eventsU), (32, s.mgmt.eventsF),
    (33, (s.fc.targets.filter fun t => t.2.state == .held).length)]

/-- Table HST-9: the sensors with a reading of their own. -/
def analogIds : List Nat := [1, 2, 3, 4, 5, 6, 7, 8, 9, 10, 11, 12, 13, 14, 15, 16]

/-- R519, R522: a reading feeds the governor: the hottest of the die, and a stack whose sensor answers within range has recovered. -/
def State.readSensor (s : State) (id : Nat) (v : Int) : State :=
  if id = 1 then { s with power.hottest := max s.power.hottest v }
  else if 2 ≤ id ∧ id ≤ 9 ∧ -320 ≤ v ∧ v ≤ 1200 then
    { s with power.failed := s.power.failed.filter fun i => i != 62 + id }
  else s

/-- R500: PLDM_SENSOR_REFRESH. With the main rails off, every sensor but VSTBY (16) is unavailable. A stack at 85 °C or more is
HBM_TEMP_HIGH (Table FLT-11). -/
def execPldmSensorRefresh (readings : List (Nat × Nat)) (s : State) : Out :=
  within (Instr.pldmSensorRefresh readings).wf <|
    if !s.sys.vstby then s
    else if !s.sys.pwrgd then
      { s with mgmt.sensors := (readings.filter fun x => x.1 == 16).foldl (fun t x => Tab.put t x.1 x.2) [] }
    else
      let mine := readings.filter fun x => analogIds.contains x.1
      let s : State := { s with mgmt.sensors := (mine ++ s.ownSensors).foldl (fun t x => Tab.put t x.1 x.2) s.mgmt.sensors }
      let s := forEach mine (fun x st => st.readSensor x.1 (sext x.2 16)) s
      forEach (mine.filter fun x => decide (2 ≤ x.1) && decide (x.1 ≤ 9) && decide (85 * 8 ≤ sext x.2 16))
        (fun x st => st.eventC Det.hbmTempHigh (.stack (x.1 - 2))) s

/-- R500: PLDM_PLATFORM_REQUEST: SetEventReceiver (0x04) names the receiver of events; a sensor reading (0x11, 0x21) gives the
value last refreshed, or that the sensor is unavailable; the answer to any other request holds nothing of the manual's. -/
def execPldmPlatformRequest (code : Nat) (arg : Nat) (s : State) : Out :=
  within (Instr.pldmPlatformRequest code arg).wf <|
    if !s.sys.vstby || s.sys.recovery then s
    else
      match code with
      | 0x04 => { s with mgmt.eventReceiver := arg, mgmt.mctpReply := leBytes 0 1 }
      | 0x11 | 0x21 =>
        match Tab.find s.mgmt.sensors arg with
        | some v => { s with mgmt.mctpReply := leBytes 0 1 ++ leBytes v 4 }
        | none => { s with mgmt.mctpReply := leBytes 1 1 }
      | _ => { s with mgmt.mctpReply := leBytes 0 1 }

/-- R430: MC_WATCHDOG: the controller restarts, and a flash write ends under R465. -/
def execMcWatchdog (s : State) : Out :=
  within true <|
    if !s.sys.vstby then s
    else
      let s := { s.stopFlash with mgmt.busy := false, mgmt.restarts := s.mgmt.restarts + 1 }
      s.raise Det.mcWatchdog .mgmt none

/-! ### JTAG (R507, R508) -/

/-- R507, R508: the instructions that act in the present lock state. -/
def State.irAllowed (s : State) (ir : Nat) : Bool :=
  ir == 0x01 || ir == 0xFF || (decide (1 ≤ s.mgmt.jtag) && [0x00, 0x02, 0x03, 0x04].contains ir)
    || (decide (2 ≤ s.mgmt.jtag) && ir == 0x10)

/-- R507: IDCODE. -/
def State.idcode (s : State) : BitVec 128 :=
  BitVec.ofNat 128 (2 * 2 ^ 28 + 0x4200 * 2 ^ 12 + (Config.jedec s.sys.serial.toNat).toNat * 2 + 1)

/-- R507: TAP_INSTRUCTION: a code that does not act selects the bypass register. -/
def execTapInstruction (ir : Nat) (s : State) : Out :=
  within (Instr.tapInstruction ir).wf <|
    if !s.sys.pwrgd then s
    else
      let ir := if s.irAllowed ir then ir else 0xFF
      { s with mgmt.ir := ir, mgmt.dr := if ir = 0x01 then s.idcode else if ir = 0xFF then 0 else s.mgmt.dr
               mgmt.pinsTaken := [0x00, 0x02, 0x03, 0x04].contains ir }

end Sys2Proof.Machine
end

