-- ==== Sys2Proof/Machine/Boot.lean ====
section
/-!
DEFINITION. The steps of the start-up sequence (Table PWR-1, R453–R463): what each of them does to the engine. What no register
decides (fuses, locks, training, self-test, the expanders found) is the command's operand.
-/
namespace Sys2Proof.Machine

/-- R453: one step of the sequence: PHASE shows it. A class-F event or RECOVERY ends the sequence. -/
def State.bootStep (phase : Nat) (f : State → State) (s : State) : State :=
  if s.fc.safe || s.sys.recovery then s else f { s with sys.phase := phase }

/-! ### Step 1: firmware (R457, R460–R462, R575) -/

/-- Step 1 of a cold start: the firmware copy is selected, and SAFE_N is released when the step ends; with no valid copy the engine
stays in RECOVERY. -/
def State.bootFirmware (s : State) : State :=
  match s.selected 1 with
  | some x => { s with sys.fwVersion := x.2.version, sys.safeN := true }
  | none => { s with sys.recovery := true }

/-! ### Configuration records (R463) -/

/-- A record's offset, its WIDE and LATE bits, and its value. -/
structure Record where
  off : Nat
  wide : Bool
  late : Bool
  value : Nat
deriving DecidableEq, Repr

/-- R463: record `i` of a body. -/
def recordAt (m : Mem) (i : Nat) : Record :=
  let w := leNat (m.readN (16 * i) 4)
  let v := leNat (m.readN (16 * i + 8) 8)
  { off := fld w 0 24, wide := bitAt w 24, late := bitAt w 25, value := if bitAt w 24 then v else v % 2 ^ 32 }

/-- R463: the records of a body, 4,096 at most. -/
def recordsOf (c : FlashCopy) : List Record := (List.range (min 4096 (c.bodyLen / 16))).map (recordAt c.body)

/-- CFG_SKIPPED counts a record. -/
def State.skipRecord (s : State) : State := { s with sys.cfgSkipped := min 4096 (s.sys.cfgSkipped + 1) }

/-- R463: one record: a write of the register it names, or it is skipped. -/
def State.applyRecord (allowed : Nat → Bool) (put : State → Nat → Nat → Put) (r : Record) (s : State) : State :=
  if !allowed r.off then s.skipRecord
  else if 0x688000 ≤ r.off ∧ r.off < 0x690000 then (s.putWindow r.off (if r.wide then 8 else 4) r.value).getD s
  else
    match s.blockReg r.off with
    | some (w, _) =>
      if w != r.wide then s.skipRecord
      else match put s r.off r.value with
        | (t, true) => t
        | (t, false) => t.skipRecord
    | none => s.skipRecord

/-- R463: the offsets of the registers that an early record may name. -/
def earlyOk (a : Nat) : Bool := (decide (0x10000 ≤ a) && decide (a < 0x40000)) || (decide (0x340000 ≤ a) && decide (a < 0x400000))

/-- R463: a late record names no bank window, no mailbox and no FC_INJECT. -/
def lateOk (a : Nat) : Bool := !(decide (0x100000 ≤ a) && decide (a < 0x300000)) && !svcBarred a

/-- R132, R463: an early record of a cold start: MEM_CODE_CEIL sets the ceilings that the start applies. -/
def State.putCold (s : State) (a v : Nat) : Put :=
  match s.putReg a v with
  | (t, ok) => ({ t with mem.t1 := t.mem.t1Next, mem.t2 := t.mem.t2Next }, ok)

/-- R136: the pages of region `n` of `s` keep the strength they had in `old`. -/
def State.keepsPages (old s : State) (n : Nat) : Bool :=
  let r := s.region n
  !r.valid || ((r.base :: (old.strengthMarks ++ s.strengthMarks)).filter fun a => decide (r.base ≤ a) && decide (a < r.limit)).all fun a =>
    (s.locate a).isNone || old.strengthAt a == s.strengthAt a

/-- R136, R463: an early record of a warm start whose pages keep their contents: one that would give a region another strength than
its pages have is refused. -/
def State.putWarm (old s : State) (a v : Nat) : Put :=
  match inArr a 0x340100 0x20 16 with
  | some (n, 0x10) =>
    match s.putReg a v with
    | (t, true) => if n = 15 ∨ old.keepsPages t n then (t, true) else (s.regionRefuse n, false)
    | x => x
  | _ => s.putReg a v

/-- R463: a late record, as a host write after release would be. It cannot write the SAFE_KEY of FC_CTRL. -/
def State.putLate (s : State) (a v : Nat) : Put := s.putReg a (if a = 0x600000 then v % 2 ^ 24 else v)

/-- R463: the records of the selected copy that are early, or late, in body order. -/
def State.runRecords (late : Bool) (allowed : Nat → Bool) (put : State → Nat → Nat → Put) (s : State) : State :=
  match s.selected 4 with
  | none => s
  | some x => forEach ((recordsOf x.2).filter fun r => r.late == late) (State.applyRecord allowed put) s

/-- R461: with no valid configuration copy the engine keeps its reset values and reports it. -/
def State.noConfig (s : State) : State :=
  if (s.selected 4).isNone then (s.eventC Det.flashReadErr .mgmt 4).report Det.flashReadErr else s

/-- Step 2: the fuse map (R11), then the early records. -/
def State.bootFuses (b : Boot) (put : State → Nat → Nat → Put) (s : State) : State :=
  let s := { s with sys.unitsOk := b.fuseOk }
  if !b.fuseOk then (s.report Det.fuseShortfall).raiseF Det.fuseShortfall .engine 0
  else (s.eventC Det.bootstrapRun .member).noConfig.runRecords false earlyOk put

/-! ### Step 3: clock, Tactus and ports -/

/-- Step 3: the core PLL locks, the Tactus unit acquires in the stored mode, and the ports begin TRAINING. -/
def State.bootClock (b : Boot) (s : State) : State :=
  if !b.pllOk then s.raiseF Det.corePllUnlock .engine 0
  else
    let s : State := { s with tact.pllLocked := true }
    let s := match s.tact.state, s.tact.mode with
      | .free, .none => s
      | .free, _ => s.acquire
      | _, _ => s
    forEach (List.range 16) (fun p st => if (st.port p).holdDown then st else st.train p) s

/-! ### Step 4: HBM4 (R155, R156) and the flash score (R103) -/

/-- Step 4: repair of a cold start: factory repair, then the field repair map. -/
def State.bootRepair (b : Boot) (s : State) : State :=
  if !b.pprOk then s.raiseF Det.pprFail .engine 0
  else if (s.selected 3).isNone then (s.eventC Det.repairMapInvalid .engine).report Det.repairMapInvalid
  else
    let s := forEach b.repairBad (fun k st => (st.count (Cnt.memErr k Cnt.repairBad)).eventC Det.repairBad (.stack k)) s
    forEach b.noRoom (fun x st => (st.count (Cnt.memErr x.1 Cnt.repairNoroom)).eventC Det.repairNoroom (.stack x.1)) s

/-- A score copy becomes the content of bank A. -/
def State.bankFrom (s : State) (c : FlashCopy) : State :=
  { s with score.bankA := c.body.filter fun x => decide (x.1 < 0x100000), score.standby := .checking }

/-- Step 4: HBM4 trains, or retrains on its exit from self-refresh; the flash score is copied to bank A. -/
def State.bootMemory (b : Boot) (cold : Bool) (s : State) : State :=
  let s := s.onlyIf cold (State.bootRepair b)
  if s.fc.safe then s
  else if !b.phyOk then s.raiseF Det.phyFail .engine 0
  else
    let s : State := { s with sys.selfRefresh := false }
    match s.selected 2 with
    | some x => s.bankFrom x.2
    | none => s

/-! ### Step 5: expanders (R495) and the load checks (R103, R104) -/

/-- R495: an expander is enumerated; its raw capacity is limited to 512 GiB. -/
def State.enumerate (e : Expander) (s : State) : State :=
  s.modCxl e.port fun x => { x with
    linkUp := true, enumerated := true, rate := e.rate, width := e.width, raw := min 8192 e.raw }

/-- R103: no flash score copy passes. -/
def State.noScore (s : State) : State := (s.raise Det.flashScoreFail .engine none).report Det.flashScoreFail

/-- R103: the load checks of the chosen flash copy; where it fails, the other copy is tried. -/
def State.bootScore (s : State) : State :=
  match s.selected 2 with
  | none => s.noScore
  | some (b, _) =>
    let s := s.checkDone
    if s.score.standby = .ready then s
    else
      match s.validCopy 2 (!b) with
      | none => s.noScore
      | some c =>
        let s := (s.bankFrom c).checkDone
        if s.score.standby = .ready then s else s.noScore

/-- Step 5. -/
def State.bootCxl (b : Boot) (s : State) : State := (forEach b.expanders State.enumerate s).bootScore

/-! ### Step 6: decoder self-test (R158) -/

/-- Step 6: a decoder that fails is named over MCTP, and is a class-F fault. -/
def State.bootSelfTest (b : Boot) (s : State) : State :=
  let pass := fun (n : Nat) (bad : List Nat) => (List.range n).foldl (fun a i => if bad.contains i then a else a + 2 ^ i) 0
  let s := { s with
    mem.slicePass := BitVec.ofNat 32 (pass 32 b.sliceFail), mem.cxlPass := BitVec.ofNat 4 (pass 4 b.cxlFail), mem.selftestDone := true }
  match b.sliceFail, b.cxlFail with
  | i :: _, _ => (s.report Det.decoderSelftest).raiseF Det.decoderSelftest (.stack (i / 4)) i
  | [], j :: _ => (s.report Det.decoderSelftest).raiseF Det.decoderSelftest (.cxl j) (32 + j)
  | [], [] => s

/-! ### Steps 7 and 8: the fills (R157, R159) -/

/-- R157: the pages of a row without a spare are poisoned. -/
def State.poisonRow (pages : List Nat) (s : State) : State :=
  forEach pages (fun a st =>
    match st.locate a with
    | some (_, ph) => { st with mem.poison := insertAsc (ph / 2048 * 2048) st.mem.poison }
    | none => st) s

/-- R159: an expander whose fill has completed backs its window, while its unit is IN. -/
def State.backCxl (j : Nat) (s : State) : State :=
  if (s.cxl j).enumerated && (s.unit (44 + j)).state == .in_ then s.modCxl j fun x => { x with backed := true } else s

/-- R159: both fills: zero data, no poison, empty tables and deficits. -/
def State.bootFill (b : Boot) (s : State) : State :=
  if !b.fillOk then s.raiseF Det.fillFail .engine 0
  else
    let s : State := { s with
      ram := [], mem.poison := [], mem.errs := [], mem.corrected := [], mem.leases := [], mem.ports := []
      mem.t1FillDone := true, mem.fillDone := true }
    let s := forEach [0, 1, 2, 3] State.backCxl s
    forEach b.noRoom (fun x st => st.poisonRow x.2) s

/-! ### Step 9: images and release (R368, R454) -/

/-- R368: the management firmware has loaded the resident image of these clusters. -/
def State.bootImages (b : Boot) (s : State) : State :=
  forEach b.images (fun c st => st.setCl c { st.cl c with imageValid := true }) s

/-- R454: the cores of a cluster whose image is valid leave RESET. -/
def State.wakeCores (c : Nat) (s : State) : State :=
  if (s.cl c).imageValid then forEach (List.range 8) (fun k st => st.modCore c k fun x => { x with state := .idle }) s else s

/-- R454, R463: late records, then release. -/
def State.letRun (s : State) : State :=
  let s := s.runRecords true lateOk State.putLate
  forEach (List.range 8) State.wakeCores { s with sys.run := true, sys.phase := 10 }

/-- R441, R478: the bytes of every ME's SRAM are undefined after a reset. -/
def State.undefMes (s : State) : State :=
  forEach (List.range 16) (fun m st => (st.setMe m { undef := some st.fresh }).drawn) s

end Sys2Proof.Machine
end

