-- ==== Sys2Proof/Machine/Resets.lean ====
section
/-!
DEFINITION. Commands of power-up and resets (Table PWR-6, R477–R480, R573, R574).
-/
namespace Sys2Proof.Machine

/-! ### Cold reset -/

/-- Table PWR-6: what a cold reset keeps: the standby domain (management controller, last-gasp record, standby ring, the next
ceilings), fuses and flash. R465: it interrupts a flash write. -/
def State.coldBase (s : State) : State :=
  let s := s.stopFlash
  { pending := s.pending, now := s.now, fresh := s.fresh, issued := s.issued, finished := s.finished
    mem := { t1Next := s.mem.t1Next, t2Next := s.mem.t2Next, t1 := s.mem.t1Next, t2 := s.mem.t2Next }
    fc := { standby := s.fc.standby, lastGasp := s.fc.lastGasp }
    sys := { serial := s.sys.serial, keyRevoked := s.sys.keyRevoked, rollback := s.sys.rollback, signAll := s.sys.signAll
             flash := s.sys.flash, vstby := s.sys.vstby, thermTripN := s.sys.thermTripN }
    host := { written := s.host.written, sent := s.host.sent }
    mgmt := { s.mgmt with failedTokens := 0, jtag := 0, pinsTaken := false, deviceKey := s.mgmt.deviceKey + 1
                          eventsC := 0, eventsU := 0, eventsF := 0 } }

/-- R453: the start-up sequence of a cold start, up to release. -/
def State.coldStart (b : Boot) (s : State) : State :=
  let s := s.coldBase.undefMes
  let s := s.bootStep 1 State.bootFirmware
  let s := s.bootStep 2 (State.bootFuses b State.putCold)
  let s := s.bootStep 3 (State.bootClock b)
  let s := s.bootStep 4 (State.bootMemory b true)
  let s := s.bootStep 5 (State.bootCxl b)
  let s := s.bootStep 6 (State.bootSelfTest b)
  let s := s.bootStep 7 (State.bootFill b)
  s.bootStep 9 (State.bootImages b)

/-- R477, R573, R576: PWRGD may rise, or the cold reset that ends RECOVERY may come: VSTBY is up, THERM_TRIP_N is high, and the main
domain has not started. -/
def State.coldDue (s : State) : Bool :=
  s.sys.vstby && s.sys.thermTripN && (!s.sys.pwrgd || (s.sys.phase == 0 && !s.fc.safe) || s.sys.recovery)

/-- R453: COLD_RESET. -/
def execColdReset (b : Boot) (s : State) : Out :=
  within (Instr.coldReset b).wf <| if s.coldDue then s.coldStart b else s

/-! ### Release -/

/-- R454: RELEASE. -/
def execRelease (s : State) : Out :=
  within true <|
    if s.live && s.sys.phase == 9 && s.mem.fillDone && s.sys.unitsOk && !s.sys.run then s.letRun else s

/-! ### Warm reset (R478) -/

/-- Table PWR-6, R452, R463, R478: what a warm reset keeps: memory with its poison, errors and ceilings, the system area, the fault
log, the standby domain and the firmware. -/
def State.warmBase (s : State) : State :=
  { pending := s.pending, now := s.now, fresh := s.fresh, issued := s.issued, finished := s.finished, ram := s.ram
    mem := { t1Next := s.mem.t1Next, t2Next := s.mem.t2Next, t1 := s.mem.t1, t2 := s.mem.t2, poison := s.mem.poison, errs := s.mem.errs
             repairWptr := s.mem.repairWptr, repairCand := s.mem.repairCand }
    fc := { log := s.fc.log, mirror := s.fc.mirror, standby := s.fc.standby, wptr := s.fc.wptr, rptr := s.fc.rptr
            lastGasp := s.fc.lastGasp }
    sys := { serial := s.sys.serial, keyRevoked := s.sys.keyRevoked, rollback := s.sys.rollback, signAll := s.sys.signAll
             flash := s.sys.flash, flashWrite := s.sys.flashWrite, fwVersion := s.sys.fwVersion, vstby := s.sys.vstby
             safeN := s.sys.safeN, thermTripN := s.sys.thermTripN, selfRefresh := true }
    host := { written := s.host.written, sent := s.host.sent }
    mgmt := { s.mgmt with jtag := 0, pinsTaken := false } }

/-- The expanders found again serve what they held. -/
def State.warmBack (old : State) (s : State) : State :=
  forEach [0, 1, 2, 3] (fun j st => if (old.cxl j).backed && (old.cxl j).raw == (st.cxl j).raw then st.backCxl j else st)
    { s with mem.t1FillDone := true, mem.fillDone := true }

/-- R478: the warm start: steps 2 to 6 and 9, with the fills only where one has not completed since the last cold reset. -/
def State.warmStart (b : Boot) (old : State) : State :=
  let s := old.warmBase.undefMes
  let s := s.bootStep 2 (State.bootFuses b (if old.mem.fillDone then old.putWarm else State.putReg))
  let s := s.bootStep 3 (State.bootClock b)
  let s := s.bootStep 4 (State.bootMemory b false)
  let s := s.bootStep 5 (State.bootCxl b)
  let s := s.bootStep 6 (State.bootSelfTest b)
  let s := if old.mem.fillDone then s.bootStep 6 (State.warmBack old) else s.bootStep 7 (State.bootFill b)
  s.bootStep 9 (State.bootImages b)

/-- R448: PERST_N in the safe state only retrains the host link. -/
def State.retrainHost (s : State) : State := { s with host.linkUp := false, host.rate := 0, host.width := 0, host.flit := false }

/-- R478: WARM_RESET: a cycle of PERST_N with PWRGD high, once start-up has begun. -/
def execWarmReset (b : Boot) (s : State) : Out :=
  within (Instr.warmReset b).wf <|
    if !s.sys.pwrgd || s.sys.recovery || s.sys.phase == 0 then s
    else if s.fc.safe then s.retrainHost
    else s.warmStart b

/-! ### Function-level reset (R479) -/

/-- R479: the host-port configuration at reset; the link and what has passed over it stay. -/
def HostPort.flr (h : HostPort) : HostPort :=
  { linkUp := h.linkUp, rate := h.rate, width := h.width, flit := h.flit, nextRead := h.nextRead, written := h.written, sent := h.sent }

/-- R479: the owner is the host or a queue. -/
def Owner.hostOrQueue : Owner → Bool
  | .host | .queue _ => true
  | .none | .cluster _ => false

/-- R479: every command in flight loses its unit; every collective at this member stops. -/
def State.flrCommands (s : State) : State :=
  let s := forEach s.queues (fun x st => forEach x.2.inflight (fun y st => st.stripCommand x.1 y) st) s
  forEach s.ce.colls (fun c st => { st with ce := st.ce.dropColl c.part c.optag }) s

/-- R479: queues, rings, channels, landing windows and vectors return to reset; HOST- and queue-owned objects are ABANDONED. -/
def State.flrAll (s : State) : State :=
  let s : State := { s.flrCommands with queues := [], rings := [] }
  let s := s.abandonOwned Owner.hostOrQueue
  { s with
    dma.channels := [], dma.windows := [], dma.streams := [], dma.landing := [], dma.holder := none, dma.lateFails := []
    host := s.host.flr }

/-- R479, R480: FLR. Before release it resets the host-port configuration alone; the safe state stays as it is (R448). -/
def execFlr (s : State) : Out :=
  within true <|
    if !s.live || !s.host.linkUp then s
    else
      let s := s.eventC Det.flrRx .host
      if s.sys.run then s.flrAll else { s with host := s.host.flr }

/-! ### Power -/

/-- R449, R574: PWRGD falls: a class-F event with the last-gasp record; the main domain stops. -/
def State.losePwrgd (s : State) : State :=
  let again := s.fc.safe
  let s := s.raiseF Det.pwrgdLost .engine 0
  let s := if again then s.gasp Det.pwrgdLost .engine true true else s
  { s.retrainHost with sys.pwrgd := false, sys.safeN := false, sys.run := false, sys.recovery := false, sys.phase := 0 }

/-- R574: PWRGD_LOST. -/
def execPwrgdLost (s : State) : Out := within true <| if s.sys.pwrgd then s.losePwrgd else s

/-- R573: VSTBY_UP: the management controller starts. -/
def execVstbyUp (s : State) : Out :=
  within true <| if s.sys.vstby then s else { s with sys.vstby := true, mgmt := { deviceKey := s.mgmt.deviceKey } }

/-- R449, R465: VSTBY_LOSS: a flash write is interrupted; the last-gasp record, the standby ring and the next ceilings are lost. -/
def execVstbyLoss (s : State) : Out :=
  within true <|
    if s.sys.vstby then
      { s.stopFlash with
        sys.vstby := false, fc.lastGasp := none, fc.standby := [], mem.t1Next := 1, mem.t2Next := 1
        mgmt := { deviceKey := s.mgmt.deviceKey } }
    else s

/-! ### Joining (R470–R473) -/

/-- R470, R471: JOIN_REQUEST. -/
def execJoinRequest (p : Nat) (c : Cue) (s : State) : Out :=
  within (Instr.joinRequest p c).wf <| if s.live then s.onRequest p c else s

/-- R472: JOIN_GO. -/
def execJoinGo (s : State) : Out := within true <| s.whenLive fun s => s.freshAdmit true

/-- R473: JOIN_ADMIT. -/
def execJoinAdmit (p : Nat) (c : Cue) (s : State) : Out :=
  within (Instr.joinAdmit p c).wf <| if s.live then s.onAdmit p c else s

/-- R471: JOIN_REFUSE. -/
def execJoinRefuse (p : Nat) (c : Cue) (s : State) : Out :=
  within (Instr.joinRefuse p c).wf <| if s.live then s.onRefuse p c else s

/-- R471: JOIN_ENTRY_EXPIRY: an entry unheard for 64 measures is cleared. -/
def execJoinEntryExpiry (m : Nat) (s : State) : Out :=
  within (Instr.joinEntryExpiry m).wf <|
    match Tab.find s.sys.join m with
    | some e => if s.live && decide (64 ≤ e.unheard) then { s with sys.join := Tab.del s.sys.join m } else s
    | none => s

end Sys2Proof.Machine
end

