-- ==== Sys2Proof/Machine/Dispatch.lean ====
section
/-!
DEFINITION. The meaning of every command: one arm per constructor, each a direct call of its own meaning.
-/
namespace Sys2Proof.Machine

/-- The effect of a command on everything but the queue of commands. -/
def exec (i : Instr) (s : State) : Host.Outcome State Fault Refusal :=
  match i with
  | .referenceLoss lanes => Sys2Proof.Machine.execReferenceLoss lanes s
  | .downbeatPulse offset phase => Sys2Proof.Machine.execDownbeatPulse offset phase s
  | .dbDisplaced => Sys2Proof.Machine.execDbDisplaced s
  | .downbeatMissing => Sys2Proof.Machine.execDownbeatMissing s
  | .timecodeFrame f => Sys2Proof.Machine.execTimecodeFrame f s
  | .downbeat => Sys2Proof.Machine.execDownbeat s
  | .holdoverLimit => Sys2Proof.Machine.execHoldoverLimit s
  | .tactCtrlWrite epoch v => Sys2Proof.Machine.execTactCtrlWrite epoch v s
  | .tailSlotTx p frac => Sys2Proof.Machine.execTailSlotTx p frac s
  | .tailSlotRx p code arrival phase => Sys2Proof.Machine.execTailSlotRx p code arrival phase s
  | .slotRx p code corr phase => Sys2Proof.Machine.execSlotRx p code corr phase s
  | .outOfStep p => Sys2Proof.Machine.execOutOfStep p s
  | .portDownbeat p => Sys2Proof.Machine.execPortDownbeat p s
  | .trainingDone p => Sys2Proof.Machine.execTrainingDone p s
  | .portAlign p spacing skew phase => Sys2Proof.Machine.execPortAlign p spacing skew phase s
  | .framingTimeout p => Sys2Proof.Machine.execFramingTimeout p s
  | .portDown p signal => Sys2Proof.Machine.execPortDown p signal s
  | .portRetrain p => Sys2Proof.Machine.execPortRetrain p s
  | .slotTx p => Sys2Proof.Machine.execSlotTx p s
  | .slotRelease p => Sys2Proof.Machine.execSlotRelease p s
  | .cueMessage p => Sys2Proof.Machine.execCueMessage p s
  | .rollCall p c => Sys2Proof.Machine.execRollCall p c s
  | .here p c => Sys2Proof.Machine.execHere p c s
  | .hold p c => Sys2Proof.Machine.execHold p c s
  | .bankWrite bank off len v => Sys2Proof.Machine.execBankWrite bank off len v s
  | .scoreLoad => Sys2Proof.Machine.execScoreLoad s
  | .scoreDiscard => Sys2Proof.Machine.execScoreDiscard s
  | .loadCheckDone => Sys2Proof.Machine.execLoadCheckDone s
  | .scrTargetWrite v => Sys2Proof.Machine.execScrTargetWrite v s
  | .scoreSwitch => Sys2Proof.Machine.execScoreSwitch s
  | .rootstockRelease => Sys2Proof.Machine.execRootstockRelease s
  | .flitHop r input inject cycle err => Sys2Proof.Machine.execFlitHop r input inject cycle err s
  | .flitDeliver r l err => Sys2Proof.Machine.execFlitDeliver r l err s
  | .memoryRead who addr len => Sys2Proof.Machine.execMemoryRead who addr len s
  | .memoryWrite who addr data => Sys2Proof.Machine.execMemoryWrite who addr data s
  | .pageLockGrant k => Sys2Proof.Machine.execPageLockGrant k s
  | .pageService k => Sys2Proof.Machine.execPageService k s
  | .pageDecode k => Sys2Proof.Machine.execPageDecode k s
  | .rmwWriteDone k => Sys2Proof.Machine.execRmwWriteDone k s
  | .scrubRead k => Sys2Proof.Machine.execScrubRead k s
  | .recodeStart v => Sys2Proof.Machine.execRecodeStart v s
  | .recodePage => Sys2Proof.Machine.execRecodePage s
  | .leaseAccount => Sys2Proof.Machine.execLeaseAccount s
  | .leaseBreach k => Sys2Proof.Machine.execLeaseBreach k s
  | .leaseBreachEnd k => Sys2Proof.Machine.execLeaseBreachEnd k s
  | .regionAttrWrite n v => Sys2Proof.Machine.execRegionAttrWrite n v s
  | .regionBoundWrite n limit v => Sys2Proof.Machine.execRegionBoundWrite n limit v s
  | .poisonQuery v => Sys2Proof.Machine.execPoisonQuery v s
  | .injectArm v => Sys2Proof.Machine.execInjectArm v s
  | .cxlLinkLost j => Sys2Proof.Machine.execCxlLinkLost j s
  | .doorbell q v => Sys2Proof.Machine.execDoorbell q v s
  | .commandFetch q => Sys2Proof.Machine.execCommandFetch q s
  | .commandComplete q idx => Sys2Proof.Machine.execCommandComplete q idx s
  | .qCtrlEnable q v => Sys2Proof.Machine.execQCtrlEnable q v s
  | .qCtrlDisable q v => Sys2Proof.Machine.execQCtrlDisable q v s
  | .qCtrlSuspend q v => Sys2Proof.Machine.execQCtrlSuspend q v s
  | .qCtrlResume q v => Sys2Proof.Machine.execQCtrlResume q v s
  | .qCtrlReset q v => Sys2Proof.Machine.execQCtrlReset q v s
  | .qFetchWrite q v => Sys2Proof.Machine.execQFetchWrite q v s
  | .qWatchdogWrite q v => Sys2Proof.Machine.execQWatchdogWrite q v s
  | .crCtrlEnable r => Sys2Proof.Machine.execCrCtrlEnable r s
  | .crCtrlDisable r => Sys2Proof.Machine.execCrCtrlDisable r s
  | .crHeadWrite r v => Sys2Proof.Machine.execCrHeadWrite r v s
  | .crIrqDelay r => Sys2Proof.Machine.execCrIrqDelay r s
  | .nop q => Sys2Proof.Machine.execNop q s
  | .jump q => Sys2Proof.Machine.execJump q s
  | .loop q => Sys2Proof.Machine.execLoop q s
  | .call q => Sys2Proof.Machine.execCall q s
  | .ret q => Sys2Proof.Machine.execRet q s
  | .halt q => Sys2Proof.Machine.execHalt q s
  | .sets q => Sys2Proof.Machine.execSets q s
  | .adds q => Sys2Proof.Machine.execAdds q s
  | .brs q => Sys2Proof.Machine.execBrs q s
  | .atBeat q => Sys2Proof.Machine.execAtBeat q s
  | .atDownbeat q => Sys2Proof.Machine.execAtDownbeat q s
  | .wait q => Sys2Proof.Machine.execWait q s
  | .waitTimeout q => Sys2Proof.Machine.execWaitTimeout q s
  | .signal q => Sys2Proof.Machine.execSignal q s
  | .remoteSignal q => Sys2Proof.Machine.execRemoteSignal q s
  | .arrive q => Sys2Proof.Machine.execArrive q s
  | .arriveWait q => Sys2Proof.Machine.execArriveWait q s
  | .arriveWaitTimeout q => Sys2Proof.Machine.execArriveWaitTimeout q s
  | .fence q => Sys2Proof.Machine.execFence q s
  | .fenceComplete q => Sys2Proof.Machine.execFenceComplete q s
  | .copy q => Sys2Proof.Machine.execCopy q s
  | .fill q => Sys2Proof.Machine.execFill q s
  | .compare q => Sys2Proof.Machine.execCompare q s
  | .gather q => Sys2Proof.Machine.execGather q s
  | .scatter q => Sys2Proof.Machine.execScatter q s
  | .bcast q => Sys2Proof.Machine.execBcast q s
  | .reduce q => Sys2Proof.Machine.execReduce q s
  | .harvest q => Sys2Proof.Machine.execHarvest q s
  | .dbcast q => Sys2Proof.Machine.execDbcast q s
  | .dreduce q => Sys2Proof.Machine.execDreduce q s
  | .counts q => Sys2Proof.Machine.execCounts q s
  | .loadq q => Sys2Proof.Machine.execLoadq q s
  | .score q => Sys2Proof.Machine.execScore q s
  | .topk q => Sys2Proof.Machine.execTopk q s
  | .quant q => Sys2Proof.Machine.execQuant q s
  | .dequant q => Sys2Proof.Machine.execDequant q s
  | .launch q => Sys2Proof.Machine.execLaunch q s
  | .launchTimeout q idx => Sys2Proof.Machine.execLaunchTimeout q idx s
  | .record q => Sys2Proof.Machine.execRecord q s
  | .mark q => Sys2Proof.Machine.execMark q s
  | .windowReserve p c => Sys2Proof.Machine.execWindowReserve p c s
  | .windowConfirm p c => Sys2Proof.Machine.execWindowConfirm p c s
  | .windowRelease p c => Sys2Proof.Machine.execWindowRelease p c s
  | .segmentRetry p c => Sys2Proof.Machine.execSegmentRetry p c s
  | .combine part optag seg adderFault => Sys2Proof.Machine.execCombine part optag seg adderFault s
  | .segmentIncomplete part optag input seg => Sys2Proof.Machine.execSegmentIncomplete part optag input seg s
  | .retryGiveUp part optag input seg => Sys2Proof.Machine.execRetryGiveUp part optag input seg s
  | .pitchInject part optag => Sys2Proof.Machine.execPitchInject part optag s
  | .rootStagingRelease part optag => Sys2Proof.Machine.execRootStagingRelease part optag s
  | .lateDiscard dtree optag => Sys2Proof.Machine.execLateDiscard dtree optag s
  | .neighbourLost x => Sys2Proof.Machine.execNeighbourLost x s
  | .memberLost p c => Sys2Proof.Machine.execMemberLost p c s
  | .ceLostDeclare v => Sys2Proof.Machine.execCeLostDeclare v s
  | .submit => Sys2Proof.Machine.execSubmit s
  | .cancel => Sys2Proof.Machine.execCancel s
  | .drain => Sys2Proof.Machine.execDrain s
  | .out => Sys2Proof.Machine.execOut s
  | .returnUnit => Sys2Proof.Machine.execReturnUnit s
  | .unitQuiesced unit => Sys2Proof.Machine.execUnitQuiesced unit s
  | .returnDone unit pass => Sys2Proof.Machine.execReturnDone unit pass s
  | .shadowCompare unit agree => Sys2Proof.Machine.execShadowCompare unit agree s
  | .probationPass unit => Sys2Proof.Machine.execProbationPass unit s
  | .graftSlotRx p sl => Sys2Proof.Machine.execGraftSlotRx p sl s
  | .prepare p c => Sys2Proof.Machine.execPrepare p c s
  | .ack p c => Sys2Proof.Machine.execAck p c s
  | .ackDeadline => Sys2Proof.Machine.execAckDeadline s
  | .graftDecide => Sys2Proof.Machine.execGraftDecide s
  | .commit p c => Sys2Proof.Machine.execCommit p c s
  | .abort p c => Sys2Proof.Machine.execAbort p c s
  | .noDecision => Sys2Proof.Machine.execNoDecision s
  | .wfi cl core => Sys2Proof.Machine.execWfi cl core s
  | .coreWake cl core => Sys2Proof.Machine.execCoreWake cl core s
  | .olspush cl core v => Sys2Proof.Machine.execOlspush cl core v s
  | .olsdone cl core => Sys2Proof.Machine.execOlsdone cl core s
  | .olswpendClear cl core mask => Sys2Proof.Machine.execOlswpendClear cl core mask s
  | .dmaGo ch => Sys2Proof.Machine.execDmaGo ch s
  | .dmaArm ch => Sys2Proof.Machine.execDmaArm ch s
  | .dmaDisarm ch => Sys2Proof.Machine.execDmaDisarm ch s
  | .dmaAbort ch => Sys2Proof.Machine.execDmaAbort ch s
  | .dmaClear ch => Sys2Proof.Machine.execDmaClear ch s
  | .dmaChCfgWrite ch v => Sys2Proof.Machine.execDmaChCfgWrite ch v s
  | .dmaStart ch => Sys2Proof.Machine.execDmaStart ch s
  | .dmaBurst => Sys2Proof.Machine.execDmaBurst s
  | .dmaComplete ch => Sys2Proof.Machine.execDmaComplete ch s
  | .streamLanding p => Sys2Proof.Machine.execStreamLanding p s
  | .landingSegmentDone source optag seg => Sys2Proof.Machine.execLandingSegmentDone source optag seg s
  | .streamStall ch => Sys2Proof.Machine.execStreamStall ch s
  | .streamEntryExpiry source optag => Sys2Proof.Machine.execStreamEntryExpiry source optag s
  | .dmaShareWrite v => Sys2Proof.Machine.execDmaShareWrite v s
  | .dmaLandCtrlWrite w v => Sys2Proof.Machine.execDmaLandCtrlWrite w v s
  | .tallySet t v => Sys2Proof.Machine.execTallySet t v s
  | .tallyCfgWrite t v => Sys2Proof.Machine.execTallyCfgWrite t v s
  | .tallyRearm t v => Sys2Proof.Machine.execTallyRearm t v s
  | .barrierArm b => Sys2Proof.Machine.execBarrierArm b s
  | .barrierDisarm b => Sys2Proof.Machine.execBarrierDisarm b s
  | .barrierRearm b => Sys2Proof.Machine.execBarrierRearm b s
  | .wakeSrcWrite w v => Sys2Proof.Machine.execWakeSrcWrite w v s
  | .wakeThreshWrite w v => Sys2Proof.Machine.execWakeThreshWrite w v s
  | .wakeFire v => Sys2Proof.Machine.execWakeFire v s
  | .remoteSignalMsg c => Sys2Proof.Machine.execRemoteSignalMsg c s
  | .rebar c => Sys2Proof.Machine.execRebar c s
  | .watchdog q => Sys2Proof.Machine.execWatchdog q s
  | .deadlock => Sys2Proof.Machine.execDeadlock s
  | .dlCfgWrite mask v => Sys2Proof.Machine.execDlCfgWrite mask v s
  | .blockResetRelease unit => Sys2Proof.Machine.execBlockResetRelease unit s
  | .shadowClose unit => Sys2Proof.Machine.execShadowClose unit s
  | .recovered t => Sys2Proof.Machine.execRecovered t s
  | .fcTgtClear t => Sys2Proof.Machine.execFcTgtClear t s
  | .fcInject v => Sys2Proof.Machine.execFcInject v s
  | .safeRequest v => Sys2Proof.Machine.execSafeRequest v s
  | .mirrorSelect v => Sys2Proof.Machine.execMirrorSelect v s
  | .lockstep parity => Sys2Proof.Machine.execLockstep parity s
  | .coldReset b => Sys2Proof.Machine.execColdReset b s
  | .release => Sys2Proof.Machine.execRelease s
  | .warmReset b => Sys2Proof.Machine.execWarmReset b s
  | .flr => Sys2Proof.Machine.execFlr s
  | .pwrgdLost => Sys2Proof.Machine.execPwrgdLost s
  | .joinRequest p c => Sys2Proof.Machine.execJoinRequest p c s
  | .joinGo => Sys2Proof.Machine.execJoinGo s
  | .joinAdmit p c => Sys2Proof.Machine.execJoinAdmit p c s
  | .joinRefuse p c => Sys2Proof.Machine.execJoinRefuse p c s
  | .joinEntryExpiry m => Sys2Proof.Machine.execJoinEntryExpiry m s
  | .bar2Read off len => Sys2Proof.Machine.execBar2Read off len s
  | .bar2Write off data poisoned => Sys2Proof.Machine.execBar2Write off data poisoned s
  | .ptmDialog time => Sys2Proof.Machine.execPtmDialog time s
  | .hostReadCompletion id r => Sys2Proof.Machine.execHostReadCompletion id r s
  | .cplTimeout id => Sys2Proof.Machine.execCplTimeout id s
  | .hostLinkDown => Sys2Proof.Machine.execHostLinkDown s
  | .hostRefclkLoss => Sys2Proof.Machine.execHostRefclkLoss s
  | .msixTableWrite off v => Sys2Proof.Machine.execMsixTableWrite off v s
  | .configSpaceWrite w => Sys2Proof.Machine.execConfigSpaceWrite w s
  | .getInfo r => Sys2Proof.Machine.execGetInfo r s
  | .readLastgasp r => Sys2Proof.Machine.execReadLastgasp r s
  | .clearLastgasp r => Sys2Proof.Machine.execClearLastgasp r s
  | .readSensors r => Sys2Proof.Machine.execReadSensors r s
  | .flashWrite r sigOk failAt => Sys2Proof.Machine.execFlashWrite r sigOk failAt s
  | .jtagNonce r nonce => Sys2Proof.Machine.execJtagNonce r nonce s
  | .jtagUnlock r keyOk sigOk => Sys2Proof.Machine.execJtagUnlock r keyOk sigOk s
  | .advanceRollback r => Sys2Proof.Machine.execAdvanceRollback r s
  | .revokeKey r keyOk sigOk => Sys2Proof.Machine.execRevokeKey r keyOk sigOk s
  | .pldmFirmwareUpdate object image sigOk failAt => Sys2Proof.Machine.execPldmFirmwareUpdate object image sigOk failAt s
  | .spdmRequest code body => Sys2Proof.Machine.execSpdmRequest code body s
  | .pldmSensorRefresh readings => Sys2Proof.Machine.execPldmSensorRefresh readings s
  | .mcWatchdog => Sys2Proof.Machine.execMcWatchdog s
  | .svcAccess dr => Sys2Proof.Machine.execSvcAccess dr s
  | .cxlRetrain j => Sys2Proof.Machine.execCxlRetrain j s
  | .cxlRetrainTimeout j => Sys2Proof.Machine.execCxlRetrainTimeout j s
  | .cxlViral j => Sys2Proof.Machine.execCxlViral j s
  | .serdesPllUnlock p => Sys2Proof.Machine.execSerdesPllUnlock p s
  | .corePllUnlock => Sys2Proof.Machine.execCorePllUnlock s
  | .crossingErr => Sys2Proof.Machine.execCrossingErr s
  | .powerSample eighthWatts => Sys2Proof.Machine.execPowerSample eighthWatts s
  | .tjMax eighthDegrees => Sys2Proof.Machine.execTjMax eighthDegrees s
  | .thermTrip => Sys2Proof.Machine.execThermTrip s
  | .sensorFail id => Sys2Proof.Machine.execSensorFail id s
  | .railWarn rail => Sys2Proof.Machine.execRailWarn rail s
  | .railFault rail => Sys2Proof.Machine.execRailFault rail s
  | .olsBlockReset v => Sys2Proof.Machine.execOlsBlockReset v s
  | .vpHoldDown p v => Sys2Proof.Machine.execVpHoldDown p v s
  | .ceLateRead c data1 => Sys2Proof.Machine.execCeLateRead c data1 s
  | .rcRead off wide => Sys2Proof.Machine.execRcRead off wide s
  | .registerWrite off wide v => Sys2Proof.Machine.execRegisterWrite off wide v s
  | .vstbyUp => Sys2Proof.Machine.execVstbyUp s
  | .vstbyLoss => Sys2Proof.Machine.execVstbyLoss s
  | .hostLinkUp rate width flit => Sys2Proof.Machine.execHostLinkUp rate width flit s
  | .cxlRetrainDone j => Sys2Proof.Machine.execCxlRetrainDone j s
  | .expanderFillDone j ok => Sys2Proof.Machine.execExpanderFillDone j ok s
  | .hotRefresh k enter => Sys2Proof.Machine.execHotRefresh k enter s
  | .phyRetrain slice ok => Sys2Proof.Machine.execPhyRetrain slice ok s
  | .thermTripRelease eighthDegrees => Sys2Proof.Machine.execThermTripRelease eighthDegrees s
  | .coreReinitialised cl core => Sys2Proof.Machine.execCoreReinitialised cl core s
  | .mctpControl code v => Sys2Proof.Machine.execMctpControl code v s
  | .pldmPlatformRequest code arg => Sys2Proof.Machine.execPldmPlatformRequest code arg s
  | .tapInstruction ir => Sys2Proof.Machine.execTapInstruction ir s

end Sys2Proof.Machine
end

