-- ==== Sys2Proof/Safety.lean ====
section
/-!
DEFINITION. What a safe step and a well-formed state are, in the terms of the claims.
-/
namespace Sys2Proof
open Sys2Proof.Machine

/-- The step answers a next state. -/
def Completes (s : State) : Prop := ∃ t, Machine.step s = .next t

/-- Command `c` answers a next state in `s`, and that state is as `P` says. -/
def Answers (c : Instr) (s : State) (P : State → Prop) : Prop := ∃ t, Machine.exec c s = .next t ∧ P t

/-- `t` with all that reports write set back to what `s` has: the RC counters (R431, R525), the log with its mirror and its
standby ring (R435, R436, R449), the interrupt bits (R432, R433), the messages pending and sent (R493) and the event counts that
sensors 30 to 32 read. -/
def unreported (s t : State) : State :=
  { t with
    counters := s.counters
    fc := { t.fc with irqStatus := s.fc.irqStatus, cthresh := s.fc.cthresh, log := s.fc.log, mirror := s.fc.mirror
                      wptr := s.fc.wptr, standby := s.fc.standby, logged := s.fc.logged }
    mgmt := { t.mgmt with eventsC := s.mgmt.eventsC, eventsU := s.mgmt.eventsU, eventsF := s.mgmt.eventsF }
    host := { t.host with pba := s.host.pba, sent := s.host.sent } }

/-- `t` is `s` but for what reports write. -/
def ButReports (s t : State) : Prop := unreported s t = s

/-- The RC counters that a report of detector `det` can write: its own, its group's, and those of a message that is blocked (R431,
R493). -/
def reportCells (det : Nat) : List Nat :=
  [Cnt.det det, Cnt.grp (det / 8), Cnt.host 5, Cnt.det Det.msiBlocked, Cnt.grp (Det.msiBlocked / 8)]

/-- Every RC counter but those at `as` is as before. -/
def CountersBut (as : List Nat) (s t : State) : Prop := ∀ a, a ∉ as → t.counter a = s.counter a

/-- R525: a counter value that has risen by `n`, saturating. -/
def risen (v : Word) (n : Nat) : Word := BitVec.ofNat 32 (satAdd 0xFFFFFFFF v.toNat n)

/-- R431, R435: `t` is `s` but for the report of one class-C event of detector `det`: it is counted, and nothing but what reports
write has changed. -/
def Reported (det : Nat) (s t : State) : Prop :=
  ButReports s t ∧ t.counter (Cnt.det det) = risen (s.counter (Cnt.det det)) 1 ∧ CountersBut (reportCells det) s t

/-- R438: the state in which target `t` is CONTAINED by an event of `det` that names it. -/
def containedBy (s : State) (det t : Nat) : State :=
  s.setTgt t { s.tgt t with state := .contained, quiet := 0, lastDetector := det, named := true }

/-- R438: an event of `det` on `unit` with target `t` has its reaction: no open shadow covers it, the target is not HELD and its
recoveries are not used up. -/
def Reacts (s : State) (det : Nat) (unit : UnitId) (t : Nat) : Prop :=
  s.covered det unit (some t) [] = false ∧ (s.tgt t).state ≠ .held ∧ (s.tgt t).recoveries < s.fc.recoveryLimit

/-- R446, R449: `t` is `s` after a class-F event of `det` has driven the engine into the safe state: SAFE_N is asserted, tier 1
is in self-refresh, the timecode output is silent, and a last-gasp record names the event unless one already stood. -/
def EntersSafe (det : Nat) (s t : State) : Prop :=
  ∃ g, ButReports { s with fc.safe := true, fc.lastGasp := some g, sys.safeN := false, sys.selfRefresh := true
                           tact.outTc := none } t ∧
    (s.fc.lastGasp = none → g.detector = det ∧ g.safe = true ∧ g.later = false) ∧
    (∀ x, s.fc.lastGasp = some x → g = { x with later := true })

/-- R207, R210: command `c` stands at the head of queue `q` with index `idx` (its own IDX applied): its wait, its encoding, its
ranges and its ring let it go on to its own conditions, it asks for a record, and the number that its issue takes is new. -/
def AtHead (s : State) (q : Nat) (idx : Word) (c : BitVec 512) : Prop :=
  s.viewHead q = .open_ idx c ∧ quietOf c = false ∧ ∀ y ∈ (s.queue q).inflight, y.tok ≠ s.issued

/-- R207, R231: `s` after the command at the head of queue `q` has left it: the next fetched command is at the head, and the one
that left is in flight as `x` says. -/
def headLeft (s : State) (q : Nat) (x : Inflight) : State :=
  let y := s.queue q
  { s.setQueue q { y with fetch := y.fetch + 1, fetched := y.fetched.drop 1, progress := true
                          head := if (y.fetched.drop 1).isEmpty then none else some { since := s.now }
                          inflight := y.inflight ++ [x] } with issued := s.issued + 1 }

/-- R215, R217, R231: `s` after the command at the head of queue `q` has issued and finished with outcome `d`; its record
waits. -/
def headDone (s : State) (q : Nat) (idx : Word) (c : BitVec 512) (d : Done) : State :=
  { headLeft s q { tok := s.issued, idx := idx, cmd := c, since := s.now, done := some { d with order := s.finished } } with
    finished := s.finished + 1 }

/-- R212: the same on the unit at FC_TGT index `u`, which remembers the queue that issued last. -/
def unitLeft (s : State) (q u : Nat) (x : Inflight) : State := { headLeft s q x with lastIssued := Tab.put s.lastIssued u q }

/-- R137, R138: the `n` bytes at device address `a` lie in one page, at `ph` of memory, and the page reads without an error. -/
def Readable (s : State) (a n ph : Nat) : Prop :=
  ∃ k, s.locate a = some (k, ph) ∧ 0 < n ∧ ph % 2048 + n ≤ 2048 ∧ a % 2048 = ph % 2048 ∧ ph / 2048 * 2048 ∉ s.mem.poison ∧
    Tab.find s.mem.errs (ph / 2048 * 2048) = none

/-- R141, R142, R161: a narrow write of `n` bytes at `a` is taken, at `ph` of memory: RMW, no injection waiting. -/
def Writable (s : State) (a n ph : Nat) : Prop :=
  Readable s a n ph ∧ n < 2048 ∧ s.isStrict a = false ∧ s.mem.injArmed = false

/-- R497, R498: command `c`, asked for by request `r`, ends in state `u` with answer `a` and output `out`: over MCTP in a response of
RESULT, DETAIL and the output; by the mailbox in its registers and its buffer. -/
def MgmtEnds (c : Instr) (r : MReq) (s u : State) (a : Answer) (out : List Byte) : Prop :=
  (r.path ≠ .mailbox → Machine.exec c s = .next { u with mgmt.mctpReply := leBytes a.1 1 ++ leBytes a.2 4 ++ out }) ∧
    (r.path = .mailbox → Answers c s fun t => ButReports { u with
      mgmt.buffer := u.mgmt.buffer.writeN 0 out, mgmt.result := a.1, mgmt.detail := a.2, mgmt.busy := false } t)

/-- Commands that write no byte of memory, whatever the state: they act on time, links, registers, faults and the management side
alone. -/
def storesNothing : Instr → Bool
  | .referenceLoss _ | .downbeatPulse _ _ | .downbeatMissing | .tactCtrlWrite _ _ | .tailSlotTx _ _ | .portDownbeat _
  | .trainingDone _ | .framingTimeout _ | .portRetrain _ | .rollCall _ _ | .here _ _ | .hold _ _ | .bankWrite _ _ _ _
  | .scoreLoad | .scoreDiscard | .loadCheckDone | .scrTargetWrite _ | .rootstockRelease | .rmwWriteDone _ | .recodeStart _
  | .leaseAccount | .leaseBreach _ | .leaseBreachEnd _ | .regionAttrWrite _ _ | .regionBoundWrite _ _ _ | .poisonQuery _
  | .injectArm _ | .qFetchWrite _ _ | .qWatchdogWrite _ _ | .crCtrlEnable _ | .crCtrlDisable _ | .crHeadWrite _ _
  | .crIrqDelay _ | .rootStagingRelease _ _ | .lateDiscard _ _ | .ceLostDeclare _ | .cancel | .returnUnit | .probationPass _
  | .graftSlotRx _ _ | .prepare _ _ | .ack _ _ | .ackDeadline | .graftDecide | .commit _ _ | .abort _ _ | .noDecision
  | .wfi _ _ | .coreWake _ _ | .olswpendClear _ _ _ | .dmaGo _ | .dmaArm _ | .dmaDisarm _ | .dmaAbort _ | .dmaClear _
  | .dmaChCfgWrite _ _ | .dmaStart _ | .landingSegmentDone _ _ _ | .streamEntryExpiry _ _ | .dmaShareWrite _
  | .dmaLandCtrlWrite _ _ | .tallySet _ _ | .tallyCfgWrite _ _ | .tallyRearm _ _ | .barrierArm _ | .barrierDisarm _
  | .barrierRearm _ | .wakeSrcWrite _ _ | .wakeThreshWrite _ _ | .wakeFire _ | .remoteSignalMsg _ | .dlCfgWrite _ _
  | .blockResetRelease _ | .shadowClose _ | .recovered _ | .fcTgtClear _ | .fcInject _ | .safeRequest _ | .mirrorSelect _
  | .lockstep _ | .pwrgdLost | .joinRequest _ _ | .joinGo | .joinAdmit _ _ | .joinRefuse _ _ | .joinEntryExpiry _
  | .ptmDialog _ | .msixTableWrite _ _ | .configSpaceWrite _ | .getInfo _ | .readLastgasp _ | .clearLastgasp _
  | .readSensors _ | .jtagNonce _ _ | .jtagUnlock _ _ _ | .advanceRollback _ | .revokeKey _ _ _ | .pldmFirmwareUpdate _ _ _ _
  | .spdmRequest _ _ | .pldmSensorRefresh _ | .cxlRetrain _ | .corePllUnlock | .crossingErr | .powerSample _ | .tjMax _
  | .thermTrip | .railWarn _ | .railFault _ | .vpHoldDown _ _ | .ceLateRead _ _ | .rcRead _ _ | .vstbyUp | .vstbyLoss
  | .hostLinkUp _ _ _ | .cxlRetrainDone _ | .hotRefresh _ _ | .phyRetrain _ _ | .thermTripRelease _ | .coreReinitialised _ _
  | .mctpControl _ _ | .pldmPlatformRequest _ _ | .tapInstruction _ => true
  | _ => false

end Sys2Proof
end

