-- ==== Sys2Proof/Certificates/Slice0/Obligations.lean ====
section
/-!
DEFINITION. The statements about the OL-4200. Each names in its docstring the rules of spec/ that it rests on; where it rests on
a choice of the model, it names the entry of the assumption log.
-/
open Sys2Proof Sys2Proof.Machine

/-- OLS_IDENT reads 0x4200_2100 and OLS_SERIAL the engine's EUI-64. R1. -/
def Obligations.IdentAndSerial : Prop :=
  ∀ s : State, s.sys.pwrgd = true →
    ((∀ v, s.host.latch ≠ some (0, v)) → Machine.exec (.rcRead 0x0000 false) s =
      .next { s with host.barReply := some (some 0x42002100), host.barPoison := false }) ∧
    (s.fc.safe = false → Machine.exec (.rcRead 0x0008 true) s =
      .next { s with host.barReply := some (some s.sys.serial.toNat), host.barPoison := false })

/-- TACT_CTRL is taken only in FREE and STEPPED_OUT. R27. -/
def Obligations.TactCtrlTakesItsFields : Prop :=
  ∀ (s : State) (v : DWord), s.live = true →
    (s.tact.state = .free ∨ s.tact.state = .steppedOut → ¬ (bitAt v.toNat 12 = true ∧ fld v.toNat 4 4 = fld v.toNat 8 4) →
      Answers (.tactCtrlWrite false v) s fun t => t.tact.mode.code = fld v.toNat 0 2 ∧ t.tact.upstream = fld v.toNat 4 4 ∧
        t.tact.backup = fld v.toNat 8 4 ∧ t.tact.backupEn = bitAt v.toNat 12 ∧ { t with tact := s.tact } = s) ∧
    (s.tact.state = .free ∨ s.tact.state = .steppedOut → bitAt v.toNat 12 = true → fld v.toNat 4 4 = fld v.toNat 8 4 →
      Machine.exec (.tactCtrlWrite false v) s = .next s) ∧
    (s.tact.state ≠ .free → s.tact.state ≠ .steppedOut → Answers (.tactCtrlWrite false v) s fun t =>
      Reported Det.ctrlRefused { s with tact.ctrlRefused := true } t)

/-- 4-bit elements are packed two to a byte, the even one low. R169. -/
def Obligations.FourBitElementsPackTwoToAByte : Prop :=
  (∀ (f : Num.Fmt) (cs : List Nat) (i : Nat), f.bits = 4 → i < cs.length → (∀ c ∈ cs, c < 16) →
    fld (leAt (Num.packCodes f cs) (i / 2) 1) (4 * (i % 2)) 4 = cs.getD i 0) ∧
  (∀ (f : Num.Fmt) (n i : Nat) (bs : List Byte), f.bits = 4 → i < n →
    (Num.unpackCodes f n bs)[i]? = some (fld (leAt bs (i / 2) 1) (4 * (i % 2)) 4)) ∧
  (∀ (f : Num.Fmt) (cs : List Nat), f.bits = 4 → (∀ c ∈ cs, c < 16) →
    (Num.packCodes f cs).length = (cs.length + 1) / 2 ∧ Num.unpackCodes f cs.length (Num.packCodes f cs) = cs)

/-- HALT waits for its queue to drain, completes with OK and halts the queue. R240. -/
def Obligations.HaltHaltsItsQueue : Prop :=
  (∀ (s : State) (q : Nat) (f : Fetched) (fs : List Fetched), q < 256 → s.released = true → (s.queue q).state = .running →
    (s.queue q).fetched = f :: fs → f.ue = none → opcodeOf f.cmd = 0x05 → s.headerAbandoned f.cmd = false →
    (s.queue q).inflight ≠ [] → Machine.exec (.halt q) s = .next s) ∧
  (∀ (s : State) (q : Nat) (idx : Word) (c : BitVec 512), q < 256 → s.viewHead q = .open_ idx c → opcodeOf c = 0x05 →
    (s.queue q).inflight = [] → Answers (.halt q) s fun t =>
      (t.queue q).state = .halted ∧ (t.queue q).haltCause = .haltInsn ∧ (t.queue q).haltIndex = idx ∧
      (t.queue q).fetch = (s.queue q).fetch + 1 ∧
      (quietOf c = false → (t.queue q).inflight = [{ tok := s.issued, idx := idx, cmd := c, since := s.now
                                                     done := some { status := St.ok, order := s.finished } }]) ∧
      (quietOf c = true → (t.queue q).inflight = [])) ∧
  (∀ (s : State) (q : Nat), q < 256 → s.released = true → (s.queue q).state = .halted → s.held (64 + q) = false →
    Machine.exec (.qCtrlResume q 8) s = .next (s.setQueue q { s.queue q with state := .running }))

/-- MARK writes Q_MARK, and with IRQ set its record and message go at once. R269. -/
def Obligations.MarkAndItsRecord : Prop :=
  (∀ (s : State) (q : Nat) (idx : Word) (c : BitVec 512), q < 256 → s.viewHead q = .open_ idx c → opcodeOf c = 0x61 →
    (∀ y ∈ (s.queue q).inflight, y.tok ≠ s.issued) →
    (quietOf c = false ∨ bitAt (cf c 20 1) 0 = true → Answers (.mark q) s fun t =>
      (t.queue q).mark = BitVec.ofNat 32 (cf c 16 4) ∧ (t.queue q).inflight = (s.queue q).inflight ++
        [{ tok := s.issued, idx := idx, cmd := c, since := s.now, done := some { status := St.ok, order := s.finished } }]) ∧
    (quietOf c = true → bitAt (cf c 20 1) 0 = false → Answers (.mark q) s fun t =>
      (t.queue q).mark = BitVec.ofNat 32 (cf c 16 4) ∧ (t.queue q).inflight = (s.queue q).inflight)) ∧
  (∀ (s : State) (q r ph : Nat) (x : Inflight) (d : Done) (g : Ring), q < 256 → s.live = true → (s.queue q).inflight = [x] →
    opcodeOf x.cmd = 0x61 → bitAt (cf x.cmd 20 1) 0 = true → sigInc x.cmd = 0 → x.done = some d → d.status = St.ok → x.chan = none →
    (s.queue q).state = .running → (s.queue q).fetch ≠ (s.queue q).tail → (s.queue q).pin = [] →
    ((s.queue q).fetch - (s.queue q).headWritten).toNat < 16 → r = ringOf x.cmd → g = s.ring r → g.enabled = true → g.full = false →
    s.earlierRecord r d.order = false → Writable s (g.base.toNat + 32 * (g.tail.toNat % g.size)) 32 ph → s.ram.wf = true →
    s.host.pba.contains g.vector = false → s.msixBlocked g.vector = false → Answers (.commandComplete q x.idx) s fun t =>
      t.ram.readN ph 32 = recordBytes q x d s.stamp (g.tail.toNat / g.size % 2 == 0) ∧ (t.ring r).tail = g.tail + 1 ∧
      (t.ring r).unsignalled = 0 ∧ (t.ring r).oldest = none ∧ Tab.get 0 t.host.sent g.vector = Tab.get 0 s.host.sent g.vector + 1)

/-- A REMOTE_SIGNAL to a lost member completes with OK and its message is discarded. R404. -/
def Obligations.RemoteSignalToALostMember : Prop :=
  ∀ (s : State) (q : Nat) (idx : Word) (c : BitVec 512), q < 256 → s.viewHead q = .open_ idx c → opcodeOf c = 0x22 →
    (∀ y ∈ (s.queue q).inflight, y.tok ≠ s.issued) → s.syncTakes q = true → remoteCheck s c = none → cf c 16 2 ≠ s.self →
    s.ce.lost.contains (cf c 16 2) = true →
    (quietOf c = false → Answers (.remoteSignal q) s fun t =>
      Reported Det.remoteToLost ((headDone s q idx c { status := St.ok }).count (Cnt.syn 4)) t) ∧
    (quietOf c = true → Answers (.remoteSignal q) s fun t =>
      (t.queue q).fetch = (s.queue q).fetch + 1 ∧ (t.queue q).inflight = (s.queue q).inflight ∧ t.cueQ = s.cueQ ∧
      t.counter (Cnt.syn 4) = risen (s.counter (Cnt.syn 4)) 1)

/-- Every step keeps the memory in its canonical form. An invariant of every step, over all 238 commands and the tick: the
memory of chapter 6 keeps its canonical form. -/
def Obligations.MemoryStaysCanonical : Prop :=
  ∀ s t : State, s.ram.wf = true → Machine.step s = .next t → t.ram.wf = true

/-- After reset no byte of memory is listed and every byte reads 0. The memory after reset (R159, log entry 10). -/
def Obligations.ResetMemoryIsCanonical : Prop := State.reset.ram.wf = true ∧ ∀ a, State.reset.ram.read a = 0

/-- Reset values of the queues, rings, sync objects, channels, targets and counters. Reset values that the register tables
give (chapters 20 and 21, R525). The tallies' zeros, the targets' SERVING and the completion timeout are the model's choices
(log entries 14 and 225). -/
def Obligations.ResetValues : Prop :=
  State.reset.pending = [] ∧ State.reset.tact.state = .free ∧ State.reset.tact.epoch = 0 ∧ State.reset.tact.redLimit = 4 ∧
  State.reset.dma.serial = false ∧ State.reset.ce.lateThresh = 0 ∧ State.reset.host.bar2Base = 0 ∧
  timeoutBeats State.reset.host.cplTimeout = some 3906250 ∧
  (∀ q, (State.reset.queue q).state = .disabled ∧ (State.reset.queue q).errContinue = false) ∧ (∀ r, (State.reset.ring r).enabled = false) ∧
  (∀ k, State.reset.tally k = { value := 0, remote := false, owner := .none, abandoned := false }) ∧
  (∀ b, (State.reset.barrier b).state = .idle) ∧ (∀ ch, (State.reset.chan ch).state = .idle) ∧
  (∀ k, (State.reset.tgt k).state = .serving ∧ (State.reset.tgt k).recoveries = 0) ∧ (∀ a, State.reset.counter a = 0)

/-- A step takes the command at the front of the queue and runs it. The step of the block: the command at the front of the
queue is taken and run (95_what_each_step_holds.md). -/
def Obligations.StepRunsFrontCommand : Prop :=
  ∀ (c : Instr) (s : State), Machine.step { s with pending := c :: s.pending } = Machine.exec c s

/-- On an empty queue a step is one beat (the model's choice, log entry 1). MODEL's choice (log entry 1): a step on an empty
queue is one beat of the clock. -/
def Obligations.EmptyQueueTicks : Prop :=
  ∀ s : State, s.pending = [] → ∃ t, Machine.step s = .next t ∧ t.now = s.now + 1 ∧ t.pending = [] ∧ t.ram = s.ram ∧
    t.tact.stamp = (if s.beat = 4095 then s.tact.stamp else s.tact.stamp + 1) ∧ t.queues = s.queues ∧ t.ports = s.ports

/-- A well-formed command answers a next state, any other is refused as ill-formed. Every command the engine can be sent has
an effect in every state; which commands are ill-formed is the model's choice (log entry 5). -/
def Obligations.CommandsRunOrAreIllFormed : Prop :=
  ∀ (c : Instr) (s : State),
    (c.wf = true → ∃ t, Machine.exec c s = .next t) ∧ (c.wf = false → Machine.exec c s = .refused .illFormed)

/-- No command changes the queue of waiting commands. The queue of waiting commands is not the engine's (log entry 3). -/
def Obligations.CommandsLeaveTheQueue : Prop :=
  ∀ (c : Instr) (s t : State), Machine.exec c s = .next t → t.pending = s.pending

/-- Commands that store nothing leave every byte of memory as it was. The memory frame of the commands that write no byte of
memory (chapter 6, 95_what_each_step_holds.md). -/
def Obligations.CommandsThatStoreNothing : Prop :=
  ∀ (c : Instr) (s t : State), storesNothing c = true → Machine.exec c s = .next t → ∀ a, t.ram.read a = s.ram.read a

/-- The loss of the reference, or of pulses, starts the holdover. R21, R46: the reference or the pulses are lost. -/
def Obligations.HoldoverBegins : Prop :=
  (∀ s : State, s.tact.mode = .none ∨ s.tact.mode = .carried →
    Machine.exec (.referenceLoss false) s = .next { s with tact.refLost := true, tact.refBad := true, tact.refGood := 0 }) ∧
  (∀ s : State, s.tact.mode = .pinned ∨ s.tact.mode = .conductor → s.tact.state = .locked →
    Answers (.referenceLoss false) s fun t =>
      ButReports { s with tact.refLost := true, tact.refBad := true, tact.refGood := 0, tact.state := .holdover
                          tact.holdSince := s.now, tact.holdMeasures := 0, tact.qualified := 0, tact.limitReached := false
                          tact.echoSince := false, tact.frames := [] } t ∧
      t.counter Cnt.holdover = risen (s.counter Cnt.holdover) 1 ∧
      t.counter (Cnt.det Det.holdoverEntry) = risen (s.counter (Cnt.det Det.holdoverEntry)) 1) ∧
  (∀ s : State, s.tact.mode = .carried → s.tact.state = .locked → s.tact.refLost = false →
    Answers (.referenceLoss true) s fun t => t.tact.state = .holdover ∧ t.tact.stamp = s.tact.stamp ∧ t.ports = s.ports ∧
      t.score = s.score) ∧
  (∀ s : State, s.tact.mode = .pinned → 2 ≤ s.tact.pulseMissing → s.tact.state = .locked →
    Answers .downbeatMissing s fun t => t.tact.state = .holdover ∧ t.tact.stamp = s.tact.stamp ∧ t.ports = s.ports ∧
      t.score = s.score)

/-- Downbeat pulses, timecode frames and writes of the Tactus registers. R22, R24, R27, R29, R529: the inputs of the Tactus
unit. -/
def Obligations.TactusInputs : Prop :=
  (∀ (s : State) (phase : Int), s.tact.mode = .pinned → s.tact.state = .locked ∨ s.tact.state = .holdover →
    Answers (.downbeatPulse 0 phase) s fun t => t.tact.stamp = s.tact.stamp ∧ t.tact.state = s.tact.state ∧
      t.tact.phaseError = phase ∧ t.tact.pulseMissing = 0 ∧ t.tact.displacedRun = 0 ∧ { t with tact := s.tact } = s) ∧
  (∀ (s : State) (offset phase : Int), s.tact.mode = .pinned → s.tact.state = .locked ∨ s.tact.state = .holdover →
    offset ≠ 0 → Answers (.downbeatPulse offset phase) s fun t => t.tact.stamp = s.tact.stamp ∧ t.tact.state = s.tact.state ∧
      t.counter Cnt.dbSlip = risen (s.counter Cnt.dbSlip) 1 ∧ ButReports { s with tact := t.tact } t) ∧
  (∀ (s : State) (f : Timecode), (Instr.timecodeFrame f).wf = true → s.tact.mode = .pinned → s.tact.state = .acquiring →
    f.accepted = true → Answers (.timecodeFrame f) s fun t => (t.tact.frames.head?.map FrameSeen.stamp) = some f.stamp ∧
      t.tact.frameThisMeasure = true ∧ { t with tact := s.tact } = s) ∧
  (∀ (s : State) (f : Timecode), (Instr.timecodeFrame f).wf = true → s.tact.mode = .pinned →
    s.tact.state = .acquiring ∨ s.tact.state = .locked ∨ s.tact.state = .holdover → f.accepted = false →
    Answers (.timecodeFrame f) s fun t =>
      ButReports { s with tact.frames := [], tact.frameThisMeasure := true, tact.disagree := 0 } t ∧
      t.counter Cnt.tcBad = risen (s.counter Cnt.tcBad) 1) ∧
  (∀ (s : State) (v : DWord), s.live = true → s.tact.state = .free ∨ s.tact.state = .steppedOut →
    Machine.exec (.tactCtrlWrite true v) s = .next { s with tact.epoch := BitVec.ofNat 56 (v.toNat / 2 ^ 18 * 2 ^ 18) }) ∧
  (∀ (s : State) (e : Bool) (v : DWord), s.live = true →
    s.tact.state = .acquiring ∨ s.tact.state = .locked ∨ s.tact.state = .holdover →
    Answers (.tactCtrlWrite e v) s fun t => Reported Det.ctrlRefused { s with tact.ctrlRefused := true } t)

/-- A third displaced pulse or the holdover limit makes the member step out. R48 to R50, Table TAC-11: the member steps out.
-/
def Obligations.MemberStepsOut : Prop :=
  (∀ s : State, s.timed = true → 3 ≤ s.tact.displacedRun → Reacts s Det.dbDisplaced .member 48 →
    Answers .dbDisplaced s fun t => t.tact.state = .steppedOut ∧ t.score.member = false ∧ t.score.target = none ∧
      t.score.standby = s.score.standby ∧ t.graft.locked = false) ∧
  (∀ s : State, s.tact.state = .holdover → s.tact.limitReached = true → Reacts s Det.holdoverLimit .member 48 →
    Answers .holdoverLimit s fun t => t.tact.state = .steppedOut ∧ t.score.member = false ∧ t.score.target = none ∧
      t.score.standby = s.score.standby ∧ t.graft.locked = false)

/-- A CONDUCTOR locks at a downbeat and loads TACT_EPOCH. R29, as State.acquiringDownbeat has it. -/
def Obligations.ConductorLoadsItsEpoch : Prop :=
  State.reset.tact.epoch = 0 ∧
  ∀ s : State, s.tact.mode = .conductor → s.tact.pllLocked = true → s.tact.refLost = false →
    s.acquiringDownbeat.tact.state = .locked ∧
      s.acquiringDownbeat.tact.stamp.toNat = s.tact.epoch.toNat / 2 ^ 18 * 2 ^ 18

/-- DOWNBEAT passes to beat 0 and counts the quiet measures of fault targets. R44, R435, R439. -/
def Obligations.DownbeatEndsTheMeasure : Prop :=
  ∀ s : State, s.sys.pwrgd = true → s.tact.state = .free → s.tact.everLocked = false → s.score.target = none →
    s.score.member = false → s.graft.pruned = false → Answers .downbeat s fun t =>
      t.now = s.now + (4096 - s.beat) ∧ t.beat = 0 ∧ t.tact.state = .free ∧ t.fc.logged = [] ∧
      ∀ k, (t.tgt k).state = (s.tgt k).state ∧ (t.tgt k).recoveries = (s.tgt k).recoveries ∧ (t.tgt k).named = false ∧
        ((s.tgt k).state = .contained → (t.tgt k).quiet = if (s.tgt k).named then 0 else min 0xFFFF ((s.tgt k).quiet + 1))

/-- A voice port's states: out of step, trained, aligned, down, retraining. R42, R72, R78, R79, R585. -/
def Obligations.PortStates : Prop :=
  (∀ (s : State) (p : Nat), p < 16 → (s.port p).state = .inSchedule → s.tact.redLimitUsed ≤ (s.port p).red →
    s.tact.mode ≠ .carried ∨ s.tact.inUse ≠ p → Reacts s Det.outOfStep (.vp p) p → Answers (.outOfStep p) s fun t =>
      ButReports (containedBy (s.setPort p { s.port p with state := .outOfStep, since := s.now }) Det.outOfStep p) t ∧
      t.counter (Cnt.vp p Cnt.outOfStep) = risen (s.counter (Cnt.vp p Cnt.outOfStep)) 1) ∧
  (∀ (s : State) (p : Nat), p < 16 → (s.port p).state = .inSchedule → s.tact.redLimitUsed ≤ (s.port p).red →
    s.tact.mode = .carried → s.tact.inUse = p → s.tact.state = .locked → s.tact.refLost = false →
    Reacts s Det.outOfStep (.vp p) p → Answers (.outOfStep p) s fun t => (t.port p).state = .outOfStep ∧ t.tact.state = .holdover ∧ t.tact.stamp = s.tact.stamp) ∧
  (∀ (s : State) (p : Nat), p < 16 → (s.port p).state = .training →
    Machine.exec (.trainingDone p) s = .next (s.setPort p
      { s.port p with state := .framing, since := s.now, delayValid := false, frame := none, echoT1 := none })) ∧
  (∀ (s : State) (p skew : Nat) (phase : Int) (x : Port), p < 16 → (s.port p).state = .framing → skew ≤ 60000 →
    (s.port p).delayValid = true →
    x = { s.port p with state := .aligned, since := s.now, centre := phase, slew := 0, hMin := hMinOf (s.port p).delay.toNat
                        h := hMinOf (s.port p).delay.toNat, phase := {}, amber := {}, red := 0, uncorr := 0, conflict := false } →
    ((∀ m, s.img = some m → Img.enabled m p = true → landOk m x p = true) →
      Machine.exec (.portAlign p [4096, 4096, 4096, 4096] skew phase) s = .next (s.setPort p x)) ∧
    (∀ m, s.img = some m → Img.enabled m p = true → landOk m x p = false → Reacts s Det.landRange (.vp p) p →
      Answers (.portAlign p [4096, 4096, 4096, 4096] skew phase) s fun t =>
        ButReports (containedBy (s.setPort p x) Det.landRange p) t)) ∧
  (∀ (s : State) (p : Nat), p < 16 → (s.port p).state = .framing → (s.port p).since + 16384 ≤ s.now →
    Answers (.framingTimeout p) s fun t => Reported Det.framingTimeout
      (s.setPort p { s.port p with state := .training, since := s.now, pmdUsed := (s.port p).pmd, eqUsed := (s.port p).eq }) t) ∧
  (∀ (s : State) (p : Nat), p < 16 → (s.port p).state ≠ .down → s.tact.mode ≠ .carried →
    Reacts s Det.portDown (.vp p) p → Answers (.portDown p true) s fun t =>
      ButReports (containedBy (s.setPort p ((s.port p).toDown s.now)) Det.portDown p) t) ∧
  (∀ (s : State) (p : Nat), p < 16 → s.live = true → (s.port p).state = .down → (s.port p).holdDown = false →
    (s.port p).since + 78125 ≤ s.now → (s.unit p).state ≠ .out → (s.resetOf p).inReset = none →
    Machine.exec (.portRetrain p) s = .next
      (s.setPort p { s.port p with state := .training, since := s.now, pmdUsed := (s.port p).pmd, eqUsed := (s.port p).eq }))

/-- Slots: tail slots, reception with its checks, release, transmission and the port's downbeat. R34, R41, R55, R68, R69, R71,
R73, R74, R80, R530. -/
def Obligations.SlotPath : Prop :=
  (∀ (s : State) (p frac : Nat), p < 16 → (s.port p).state.framed = true → s.beat = 4095 →
    Answers (.tailSlotTx p frac) s fun t => (t.port p).txTail = some (s.tailOf p frac) ∧ (t.port p).echoDue = false ∧
      (∀ q, q ≠ p → t.port q = s.port q) ∧ { t with ports := s.ports } = s) ∧
  (∀ (s : State) (p : Nat) (arrival : DWord) (phase : Int), p < 16 → (s.port p).state.framed = true →
    (s.port p).tailsLost = 0 → (s.port p).echoT1 = none →
    Answers (.tailSlotRx p none arrival phase) s fun t => Reported Det.tailLost ((s.setPort p { s.port p with
      tails := [], tailsLost := 1, tailPhase := none, rxArrival := none, echoDue := false, matched := false
      uncorr := (s.port p).uncorr + 1 }).count (Cnt.vp p Cnt.tailLost)) t) ∧
  (∀ (s : State) (p : Nat) (bs : List Byte) (arrival : DWord) (phase : Int) (x : TailSlot), p < 16 → bs.length = 640 →
    (s.port p).state.framed = true → TailSlot.decode bs = some x →
    Answers (.tailSlotRx p (some (beatWord 4095, bs)) arrival phase) s fun t =>
      (t.port p).nb = some x ∧ (t.port p).tailsLost = 0 ∧ (t.port p).rxArrival = some arrival ∧ (t.port p).echoDue = x.echoReq) ∧
  (∀ (s : State) (p : Nat) (corr : List Nat) (phase : Int), p < 16 → corr.length ≤ 4 → s.live = true →
    (s.port p).state = .inSchedule → (s.sentBeat p).any (fun b => b.toNat % 4096 == 4095) = false →
    (s.unit p).state = .in_ → Answers (.slotRx p none corr phase) s fun t =>
      (t.port p).uncorr = (s.port p).uncorr + 1 ∧ (t.port p).red = (s.port p).red ∧
      (t.port p).aligner = ((s.port p).aligner ++ [({} : Slot)]).drop ((s.port p).aligner.length + 1 - 4) ∧
      t.counter (Cnt.vp p Cnt.slotLost) = risen (s.counter (Cnt.vp p Cnt.slotLost)) 1 ∧
      t.counter (Cnt.vp p Cnt.fecUncorr) = risen (s.counter (Cnt.vp p Cnt.fecUncorr)) 1 ∧
      (∀ q, q ≠ p → t.port q = s.port q)) ∧
  (∀ (s : State) (p w : Nat) (bs : List Byte) (phase : Int) (sent : Stamp), p < 16 → w < 2 ^ 20 → bs.length = 640 → s.live = true →
    (s.port p).state = .inSchedule → s.sentBeat p = some sent → sent.toNat % 4096 ≠ 4095 → (s.unit p).state = .in_ →
    (Slot.decode bs).hdrOk = true → (Slot.decode bs).payOk = true → w = beatWord (sent.toNat % 4096) →
    (Slot.decode bs).slot.stamp = sent.toNat % 2 ^ 32 → zoneOf ((s.port p).err phase) = .green →
    (Slot.decode bs).slot.fallen = false → (Slot.decode bs).slot.oos = false → (s.port p).frame.isSome = true →
    (Slot.decode bs).slot.classOk = true → s.formatOk (Slot.decode bs).slot = true →
    entryAdmits (s.imgAt sent) p (Slot.decode bs).slot = true → epochOk (s.imgAt sent) (Slot.decode bs).slot = true →
    Machine.exec (.slotRx p (some (w, bs)) [] phase) s = .next (s.setPort p { s.port p with
      phase := (s.port p).phase.add ((s.port p).err phase)
      aligner := ((s.port p).aligner ++ [(Slot.decode bs).slot]).drop ((s.port p).aligner.length + 1 - 4) })) ∧
  (∀ (s : State) (p : Nat), p < 16 → s.sys.pwrgd = true → (s.port p).state = .outOfStep → s.beat ≠ 4095 →
    Answers (.slotTx p) s fun t => (t.port p).txSlot.cls = .rest ∧ (t.port p).txSlot.oos = true ∧
      (t.port p).txSlot.stamp = s.tact.stamp.toNat % 2 ^ 32 ∧ (t.port p).txSlot.fallen = s.fc.safe ∧
      (∀ q, q ≠ p → t.port q = s.port q) ∧ { t with ports := s.ports } = s) ∧
  (∀ (s : State) (p : Nat) (sl : Slot) (rest : List Slot), p < 16 → s.live = true → (s.port p).aligner = sl :: rest →
    sl.descant.dvalid = false → sl.eclass = .rest →
    Machine.exec (.slotRelease p) s = .next (s.setPort p { s.port p with aligner := rest })) ∧
  (∀ (s : State) (p : Nat) (sl : Slot) (rest : List Slot), p < 16 → s.live = true → (s.port p).aligner = sl :: rest →
    sl.descant.dvalid = false → sl.eclass = .cue → Machine.exec (.slotRelease p) s = .next (s.setPort p
      { s.port p with aligner := rest, cueIn := (s.port p).cueIn ++ cuesOf sl.payload sl.etype })) ∧
  (∀ (s : State) (p : Nat), p < 16 → (s.port p).state = .inSchedule →
    (s.sentBeat p).any (fun b => b.toNat % 4096 == 0) = true → (s.port p).amber.n = 0 →
    Machine.exec (.portDownbeat p) s = .next (s.setPort p (s.port p).newMeasure)) ∧
  (∀ (s : State) (p : Nat), p < 16 → (s.port p).state = .inSchedule →
    (s.sentBeat p).any (fun b => b.toNat % 4096 == 0) = true → (s.port p).amber.n ≠ 0 → 0 < (s.port p).amber.sum →
    -64 ≤ (s.port p).slew → (s.port p).slew ≤ 60 → Machine.exec (.portDownbeat p) s =
      .next (s.setPort p ({ s.port p with slew := (s.port p).slew + 4 } : Port).newMeasure)) ∧
  (∀ (s : State) (p : Nat) (v : Word), p < 16 → s.live = true → fld v.toNat 0 2 ≠ 3 → bitAt v.toNat 2 = false →
    Machine.exec (.vpHoldDown p v) s =
      .next (s.setPort p { s.port p with pmd := fld v.toNat 0 2, holdDown := false, precode := bitAt v.toNat 3 })) ∧
  (∀ (s : State) (p : Nat) (v : Word), p < 16 → s.live = true → fld v.toNat 0 2 ≠ 3 → bitAt v.toNat 2 = true →
    Answers (.vpHoldDown p v) s fun t => (t.port p).state = .down ∧ (t.port p).holdDown = true ∧
      (∀ q, q ≠ p → t.port q = s.port q))

/-- Class-F events drive the engine into the safe state. R430, R446, R449 to R451, R522, R569, R571, R576. -/
def Obligations.ClassFEntersSafeState : Prop :=
  (∀ s : State, s.sys.pwrgd = true → s.fc.safe = false → Answers .thermTrip s fun t =>
    EntersSafe Det.thermTrip { s with sys.thermTripN := false } t) ∧
  (∀ (s : State) (rail : Nat), s.sys.pwrgd = true → s.fc.safe = false → (Instr.railFault rail).wf = true → Answers (.railFault rail) s fun t =>
    EntersSafe Det.railFault s t) ∧
  (∀ (s : State), s.sys.pwrgd = true → s.fc.safe = false → s.tact.pllLocked = true → Answers .corePllUnlock s fun t =>
    t.fc.safe = true ∧ t.sys.safeN = false ∧ t.tact.pllLocked = false ∧ t.ram = s.ram ∧ t.queues = s.queues ∧ ∀ p, (t.port p).state = .down) ∧
  (∀ (s : State), s.sys.pwrgd = true → s.fc.safe = false → Answers .crossingErr s fun t =>
    t.fc.safe = true ∧ t.sys.safeN = false ∧ t.ram = s.ram ∧ t.queues = s.queues ∧ ∀ p, (t.port p).state = .down) ∧
  (∀ (s : State) (v : Word), s.live = true → fld v.toNat 24 8 = 0xA5 → Answers (.safeRequest v) s fun t =>
    EntersSafe Det.safeRequest { s with fc.vecC := fld v.toNat 0 11, fc.vecU := fld v.toNat 11 11, fc.irqEn := bitAt v.toNat 22 } t) ∧
  (∀ (s : State) (parity : Bool), s.fc.safe = false → Answers (.lockstep parity) s fun t =>
    EntersSafe (if parity then Det.regParity else Det.lockstep) s t) ∧
  (∀ (s : State), s.sys.pwrgd = true → s.fc.safe = true → Answers .crossingErr s fun t => ButReports s t) ∧
  (∀ (s : State) (rail : Nat), s.sys.pwrgd = true → s.fc.safe = true → (Instr.railFault rail).wf = true → Answers (.railFault rail) s fun t => ButReports s t)

/-- Power samples, the clamp, the temperature limit and failed sensors. R519 to R522, R571, R576. -/
def Obligations.PowerAndTemperature : Prop :=
  (∀ (s : State) (w : Nat), s.live = true → w ≤ 5520 → Machine.exec (.powerSample w) s =
    .next { s with power.last := w, power.sum := s.power.sum + w, power.samples := s.power.samples + 1 }) ∧
  (∀ (s : State) (w : Nat), s.live = true → 5520 < w → s.power.clamp = none → Answers (.powerSample w) s fun t =>
    Reported Det.powerOver { s with
      power.last := w, power.sum := s.power.sum + w, power.samples := s.power.samples + 1, power.meDuty := 1
      power.clDuty := 1, power.clamp := some (s.power.meDuty, s.power.clDuty) } t) ∧
  (∀ (s : State) (x : Int), s.live = true → 840 ≤ x → s.power.tjHold = false → Answers (.tjMax x) s fun t =>
    Reported Det.tjMax { s with power.hottest := max s.power.hottest x, power.meDuty := 1, power.clDuty := 1
                                power.tjHold := true, power.coolRun := 0 } t) ∧
  (∀ (s : State) (x : Int), s.live = true → x < 800 → s.power.failed = [] → Machine.exec (.tjMax x) s =
    .next { s with power.hottest := max s.power.hottest x, power.tjHold := false }) ∧
  (∀ (s : State) (x : Int), s.sys.pwrgd = false → x < 800 →
    Machine.exec (.thermTripRelease x) s = .next { s with sys.thermTripN := true }) ∧
  (∀ (s : State) (i : Nat), i < 72 → s.live = true → i ∉ s.power.failed → s.power.tjHold = false → Answers (.sensorFail i) s fun t =>
    ButReports { s with power.failed := insertAsc i s.power.failed, power.meDuty := 1, power.clDuty := 1
                        power.tjHold := true, power.coolRun := 0 } t) ∧
  (∀ (s : State) (r : Nat), r < 6 → s.sys.vstby = true → Answers (.railWarn r) s fun t => Reported Det.railWarn s t)

/-- SERDES, HBM4 and CXL links: retrain, loss, fill and hot refresh. R154, R160, R495, R496, R569. -/
def Obligations.LinksAndRefresh : Prop :=
  (∀ (s : State) (p : Nat), p < 16 → s.sys.pwrgd = true → (s.port p).state ≠ .down → s.tact.mode ≠ .carried →
    Reacts s Det.serdesPllUnlock (.vp p) p → Answers (.serdesPllUnlock p) s fun t =>
      ButReports (containedBy (s.setPort p ((s.port p).toDown s.now)) Det.serdesPllUnlock p) t) ∧
  (∀ (s : State) (k : Nat), k < 8 → s.live = true → (s.ctrl k).hotRefresh = false → Answers (.hotRefresh k true) s fun t =>
    Reported Det.refreshHot (s.setCtrl k { s.ctrl k with hotRefresh := true }) t) ∧
  (∀ (s : State) (k : Nat), k < 8 → s.live = true →
    Machine.exec (.hotRefresh k false) s = .next (s.setCtrl k { s.ctrl k with hotRefresh := false })) ∧
  (∀ (s : State) (x : Nat), x < 32 → s.live = true → Answers (.phyRetrain x true) s fun t => Reported Det.phyRetrain s t) ∧
  (∀ (s : State) (x : Nat), x < 32 → s.live = true → Answers (.phyRetrain x false) s fun t => EntersSafe Det.phyFail s t) ∧
  (∀ (s : State) (j : Nat), j < 4 → s.live = true → (s.cxl j).linkUp = true → (s.ctrl (8 + j)).retraining = false →
    Answers (.cxlRetrain j) s fun t =>
      Reported Det.cxlRetrain (s.setCtrl (8 + j) { s.ctrl (8 + j) with retraining := true, retrainSince := s.now }) t) ∧
  (∀ (s : State) (j : Nat), j < 4 → s.live = true →
    Machine.exec (.cxlRetrainDone j) s = .next (s.setCtrl (8 + j) { s.ctrl (8 + j) with retraining := false })) ∧
  (∀ (s : State) (j : Nat), j < 4 → s.live = true → (s.ctrl (8 + j)).retraining = true →
    (s.ctrl (8 + j)).retrainSince + 78125 ≤ s.now → Answers (.cxlRetrainTimeout j) s fun t =>
      (t.cxl j).linkUp = false ∧ (t.cxl j).backed = false ∧ (t.ctrl (8 + j)).waiting = [] ∧ (t.ctrl (8 + j)).decoding = []) ∧
  (∀ (s : State) (j : Nat), j < 4 → s.live = true → (s.cxl j).linkUp = true → Answers (.cxlViral j) s fun t =>
      (t.cxl j).linkUp = false ∧ (t.cxl j).backed = false ∧ (t.ctrl (8 + j)).waiting = [] ∧ (t.ctrl (8 + j)).decoding = []) ∧
  (∀ (s : State) (j : Nat), j < 4 → s.live = true → (s.cxl j).linkUp = true → Answers (.cxlLinkLost j) s fun t =>
      (t.cxl j).linkUp = false ∧ (t.cxl j).backed = false ∧ (t.ctrl (8 + j)).waiting = [] ∧ (t.ctrl (8 + j)).decoding = []) ∧
  (∀ (s : State) (j : Nat), j < 4 → s.live = true → (s.cxl j).linkUp = true → (s.cxl j).enumerated = true →
    (s.cxl j).backed = false → (s.unit (44 + j)).state = .in_ → Answers (.expanderFillDone j true) s fun t =>
      t.cxl j = { s.cxl j with backed := true } ∧ t.ports = s.ports ∧
      ∀ a, (0x10000000000 + j * 2 ^ 39 ≤ a ∧ a < 0x10000000000 + (j + 1) * 2 ^ 39 → t.ram.read a = 0) ∧
        (¬ (0x10000000000 + j * 2 ^ 39 ≤ a ∧ a < 0x10000000000 + (j + 1) * 2 ^ 39) → t.ram.read a = s.ram.read a)) ∧
  (∀ (s : State) (j : Nat), j < 4 → s.live = true → (s.cxl j).linkUp = true → (s.cxl j).enumerated = true →
    (s.cxl j).backed = false → Answers (.expanderFillDone j false) s fun t => EntersSafe Det.fillFail s t)

/-- The cue node: reserved types, HERE, HOLD and answers to a roll call. R70, R80, R468, R581, R584. -/
def Obligations.CueNode : Prop :=
  (∀ (s : State) (p : Nat) (c : Cue) (rest : List Cue), p < 16 → s.live = true → (s.port p).cueIn = c :: rest → cueTypeOk c.typ = false →
    Answers (.cueMessage p) s fun t => Reported Det.badCue ((s.setPort p { s.port p with cueIn := rest }).count (Cnt.vp p Cnt.badCue)) t) ∧
  (∀ (s : State) (p : Nat) (c : Cue) (rest : List Cue), p < 16 → s.live = true → (s.port p).cueIn = c :: rest → c.typ = 0x02 →
    c.neighbour = true → s.score.member = false → Machine.exec (.cueMessage p) s =
      .next { s.setPort p { s.port p with cueIn := rest } with sys.lastHere := Tab.put s.sys.lastHere p c }) ∧
  (∀ (s : State) (p : Nat) (c : Cue), p < 16 → okCue c = true → (s.port p).state.linked = true →
    Machine.exec (.here p c) s = .next { s with sys.lastHere := Tab.put s.sys.lastHere p c } ∧
    Machine.exec (.hold p c) s = .next { s with sys.lastHere := Tab.put s.sys.lastHere p c }) ∧
  (∀ (s : State) (p : Nat) (c : Cue), p < 16 → okCue c = true → (s.port p).state.linked = true → s.ready = true →
    s.cueRoom (portKey p) false = true → Answers (.rollCall p c) s fun t =>
      (t.cueQueue (portKey p)).items = (s.cueQueue (portKey p)).items ++
        [(false, Cue.mk 0x02 true (s.keyNeighbour (portKey p)) s.self (s.nextSeq false (s.keyNeighbour (portKey p))) (s.hereBody false))] ∧
      { t with cueQ := s.cueQ, sync := s.sync } = s) ∧
  (∀ (s : State) (p : Nat) (c : Cue), p < 16 → okCue c = true → (s.port p).state.linked = true → s.ready = false →
    s.cueRoom (portKey p) false = true → Answers (.rollCall p c) s fun t =>
      (t.cueQueue (portKey p)).items = (s.cueQueue (portKey p)).items ++
        [(false, Cue.mk 0x03 true (s.keyNeighbour (portKey p)) s.self (s.nextSeq false (s.keyNeighbour (portKey p))) (s.hereBody true))] ∧
      { t with cueQ := s.cueQ, sync := s.sync, fresh := s.fresh } = s)

/-- Bank writes, LOAD, DISCARD, the load check and SCR_TARGET. R101, R102, R104 to R106, R532. -/
def Obligations.ScoreBank : Prop :=
  (∀ (s : State) (bank off len : Nat) (v : DWord), (Instr.bankWrite bank off len v).wf = true → s.live = true → s.bankHeld = false →
    bank ≠ s.score.active → Answers (.bankWrite bank off len v) s fun t =>
      t.standbyBank = s.standbyBank.writeN off (leBytes v.toNat len) ∧ t.activeBank = s.activeBank ∧
      (s.score.standby = .ready ∨ s.score.standby = .failed → t.score.standby = .empty) ∧
      { t with score := s.score } = s) ∧
  (∀ (s : State) (bank off len : Nat) (v : DWord), (Instr.bankWrite bank off len v).wf = true → s.live = true →
    s.bankHeld = true ∨ bank = s.score.active → Answers (.bankWrite bank off len v) s fun t =>
      Reported Det.writeRefused { s with score.writeRefused := true } t) ∧
  (∀ s : State, s.live = true → s.bankHeld = false →
    Machine.exec .scoreLoad s = .next { s with score.standby := .checking } ∧
    Machine.exec .scoreDiscard s = .next { s with score.standby := .empty }) ∧
  (∀ s : State, s.live = true → s.bankHeld = true →
    Machine.exec .scoreLoad s = .next { s with score.loadRefused := true } ∧
    Machine.exec .scoreDiscard s = .next { s with score.loadRefused := true }) ∧
  (∀ (s : State) (code off : Nat), s.live = true → s.score.standby = .checking → (Img.check s.checkCtx s.standbyBank).2 = some (code, off) →
    Answers .loadCheckDone s fun t => Reported Det.loadErr { s with score.standby := .failed, score.loadErr := code, score.errOffset := off } t) ∧
  (∀ (s : State), s.live = true → s.score.standby = .checking → (Img.check s.checkCtx s.standbyBank).2 = none →
    Answers .loadCheckDone s fun t => t.score.standby = .ready ∧ t.score.loadErr = 0 ∧ t.score.errOffset = 0 ∧
      t.standbyBank = (Img.check s.checkCtx s.standbyBank).1 ∧ t.activeBank = s.activeBank ∧ ButReports { s with score := t.score } t) ∧
  (∀ (s : State) (v : DWord), s.live = true → s.score.member = false → s.score.target = none → s.score.standby = .ready →
    (s.beatsTo (fld v.toNat 0 38)).any (fun d => decide (4096 ≤ d)) = true →
    Machine.exec (.scrTargetWrite v) s = .next { s with score.target := some (fld v.toNat 0 38) }) ∧
  (∀ (s : State) (v : DWord), s.live = true → s.score.member = true → Answers (.scrTargetWrite v) s fun t =>
    Reported Det.targetRefused { s with score.targetRefused := true } t)

/-- The score switch changes the active bank, and the rootstock is released. R107. -/
def Obligations.ScoreSwitchesBanks : Prop :=
  (∀ (s : State) (p : Nat), s.live = true → s.score.target = some p → s.atPhrase p = true → s.score.standby = .ready →
    Answers .scoreSwitch s fun t => t.score.active = 1 - s.score.active ∧ t.score.member = true ∧ t.score.standby = .empty ∧
      t.score.target = none ∧ t.score.rootHold = true ∧ t.score.rootReal = s.score.member ∧ t.score.bankA = s.score.bankA ∧
      t.score.bankB = s.score.bankB ∧ t.esp.inflight = [] ∧ t.esp.arrived = [] ∧ t.tact.stamp = s.tact.stamp) ∧
  (∀ s : State, s.score.rootHold = true → s.rootLand ≤ (s.tact.stamp - s.score.switchStamp).toNat →
    Machine.exec .rootstockRelease s = .next { s with score.rootHold := false, score.rootReal := false }) ∧
  (∀ s : State, s.score.rootHold = true → (s.tact.stamp - s.score.switchStamp).toNat < s.rootLand →
    Machine.exec .rootstockRelease s = .next s)

/-- Flits follow the cycle tables and are delivered to what serves them. R111, R112, R117. -/
def Obligations.FlitsFollowTheCycleTables : Prop :=
  (∀ (s : State) (r cycle : Nat) (l : Link) (f : Flit) (m : Mem) (o : Link) (r' : Nat) (l' : Link), r < 64 → cycle < 20 →
    s.esp.inflight.find? (fun x => x.1 == r && x.2.1 == l) = some (r, l, f) → s.img = some m →
    outputsFor r (Img.entryAt m r s.beat cycle) l = [o] → neighbourOf r o = some (r', l') → f.age + latency r o < 40 →
    Machine.exec (.flitHop r l none cycle .clean) s = .next { s with
      esp.inflight := s.esp.inflight.erase (r, l, f) ++ [(r', l', { f with age := f.age + latency r o })] }) ∧
  (∀ (s : State) (r cycle : Nat) (l : Link) (f : Flit) (m : Mem) (o : Link), r < 64 → cycle < 20 →
    s.esp.inflight.find? (fun x => x.1 == r && x.2.1 == l) = some (r, l, f) → s.img = some m →
    outputsFor r (Img.entryAt m r s.beat cycle) l = [o] → neighbourOf r o = none →
    Machine.exec (.flitHop r l none cycle .clean) s = .next { s with
      esp.inflight := s.esp.inflight.erase (r, l, f), esp.arrived := s.esp.arrived ++ [(r, o, { f with age := f.age + latency r o })] }) ∧
  (∀ (s : State) (r cycle : Nat) (l : Link) (f : Flit), r < 64 → cycle < 20 →
    s.esp.inflight.find? (fun x => x.1 == r && x.2.1 == l) = some (r, l, f) → s.img = none →
    Answers (.flitHop r l none cycle .clean) s fun t =>
      Reported Det.espDrop ({ s with esp.inflight := s.esp.inflight.erase (r, l, f) }.count Cnt.espDrop) t) ∧
  (∀ (s : State) (r : Nat) (l : Link) (f : Flit) (u : Attach), r < 64 → attachAt r l = some u →
    s.esp.arrived.find? (fun x => x.1 == r && x.2.1 == l) = some (r, l, f) → s.attachStopped u = false →
    u.serves.contains f.kind = true → f.poison = false →
    Machine.exec (.flitDeliver r l .clean) s = .next { s with esp.arrived := s.esp.arrived.erase (r, l, f) }) ∧
  (∀ (s : State) (r : Nat) (l : Link) (f : Flit) (u : Attach), r < 64 → attachAt r l = some u →
    s.esp.arrived.find? (fun x => x.1 == r && x.2.1 == l) = some (r, l, f) → s.attachStopped u = false →
    u.serves.contains f.kind = false → Answers (.flitDeliver r l .clean) s fun t =>
      Reported Det.espMisroute ({ s with esp.arrived := s.esp.arrived.erase (r, l, f) }.count Cnt.espMisroute) t)

/-- Memory reads: hits, misses, unbacked addresses, service and decoding. R137 to R140, R147, R149, R150, R163. -/
def Obligations.MemoryReads : Prop :=
  (∀ (s : State) (who : Requester) (a n k ph : Nat), (Instr.memoryRead who a n).wf = true → (∀ cl c, who ≠ .core cl c) → s.live = true →
    0 < n → a % 2048 + n ≤ 2048 → s.backed a n = true → s.locate a = some (k, ph) → ph / 2048 * 2048 ∉ s.mem.poison →
    (s.ctrl k).buffer.contains (ph / 2048 * 2048) = true → Answers (.memoryRead who a n) s fun t =>
      t.mem.reply = some (who, .data (s.ram.readN ph n)) ∧ t.ram = s.ram ∧ { t with mem := s.mem } = s) ∧
  (∀ (s : State) (who : Requester) (a n k ph : Nat), (Instr.memoryRead who a n).wf = true → (∀ cl c, who ≠ .core cl c) → s.live = true →
    0 < n → a % 2048 + n ≤ 2048 → s.backed a n = true → s.locate a = some (k, ph) → ph / 2048 * 2048 ∉ s.mem.poison →
    (s.ctrl k).buffer.contains (ph / 2048 * 2048) = false → (s.ctrl k).merged (ph / 2048 * 2048) = false →
    Answers (.memoryRead who a n) s fun t => t.mem.reply = some (who, .held) ∧
      (t.ctrl k).waiting = (s.ctrl k).waiting ++ [MemReq.mk who a n none (s.leaseOf who false a) false (s.ram.readN ph n)] ∧
      { t with mem := s.mem } = s) ∧
  (∀ (s : State) (who : Requester) (a n : Nat), (Instr.memoryRead who a n).wf = true → (∀ cl c, who ≠ .core cl c) → s.live = true →
    s.backed a n = false → Answers (.memoryRead who a n) s fun t => t.mem.reply = some (who, .unbacked) ∧
      t.counter Cnt.unbacked = risen (s.counter Cnt.unbacked) 1 ∧ ButReports { s with mem.reply := some (who, .unbacked) } t) ∧
  (∀ (s : State) (k pg : Nat) (rest : List Nat), k < 12 → s.mayServe k = true → (s.ctrl k).writeBack = pg :: rest →
    Machine.exec (.pageService k) s = .next { s.setCtrl k { s.ctrl k with writeBack := rest } with mem.errs := Tab.del s.mem.errs pg }) ∧
  (∀ (s : State) (k : Nat) (r : MemReq), k < 12 → s.mayServe k = true → (s.ctrl k).writeBack = [] → (s.ctrl k).locks = [] →
    s.leasedNext k = none → s.scrubDue k = false → (s.ctrl k).waiting = [r] → r.lease = none → r.data = none →
    Machine.exec (.pageService k) s = .next (s.setCtrl k { s.ctrl k with
      waiting := [], decoding := (s.ctrl k).decoding ++ [r], served := r.who :: (s.ctrl k).served.filter fun x => x != r.who })) ∧
  (∀ (s : State) (k k' ph : Nat) (r : MemReq) (rest : List MemReq), k < 12 → s.live = true → (s.ctrl k).decoding = r :: rest →
    r.narrow = false → s.locate r.addr = some (k', ph) → ph / 2048 * 2048 ∉ s.mem.poison → Tab.find s.mem.errs (ph / 2048 * 2048) = none →
    r.bytes = s.ram.readN ph r.len → Answers (.pageDecode k) s fun t =>
      t.mem.reply = some (r.who, .data (s.ram.readN ph r.len)) ∧ t.ram = s.ram ∧ (k' = k → (t.ctrl k).decoding = rest) ∧
      { t with mem := s.mem } = s) ∧
  (∀ (s : State) (k k' ph : Nat) (r : MemReq) (rest : List MemReq), k < 12 → s.live = true → (s.ctrl k).decoding = r :: rest →
    r.narrow = false → s.locate r.addr = some (k', ph) → ph / 2048 * 2048 ∈ s.mem.poison → r.who = .scrub → Answers (.pageDecode k) s fun t =>
      t.mem.reply = some (r.who, .poisoned (r.addr / 2048)) ∧ t.ram = s.ram)

/-- Memory writes: whole pages, narrow writes, STRICT regions and page locks. R141 to R146, R161. -/
def Obligations.MemoryWrites : Prop :=
  (∀ (s : State) (who : Requester) (a k ph : Nat) (bs : List Byte), (Instr.memoryWrite who a bs).wf = true →
    (∀ cl c, who ≠ .core cl c) → s.live = true → bs.length = 2048 → a % 2048 = 0 → s.backed a 2048 = true →
    s.locate a = some (k, ph) → ((s.ctrl k).locks.any fun l => l.page == ph) = false → s.mem.injArmed = false →
    s.ram.wf = true → Answers (.memoryWrite who a bs) s fun t => t.mem.reply = some (who, .data []) ∧ t.ram.readN ph 2048 = bs ∧
      (∀ x, x < ph ∨ ph + 2048 ≤ x → t.ram.read x = s.ram.read x) ∧ t.mem.poison = s.mem.poison.filter (fun x => x != ph) ∧
      { t with mem := s.mem, ram := s.ram } = s) ∧
  (∀ (s : State) (who : Requester) (a k ph : Nat) (bs : List Byte), (Instr.memoryWrite who a bs).wf = true →
    (∀ cl c, who ≠ .core cl c) → s.live = true → 0 < bs.length → bs.length < 2048 → a % 2048 + bs.length ≤ 2048 →
    s.backed a bs.length = true → s.isStrict a = false → s.locate a = some (k, ph) → ph / 2048 * 2048 ∉ s.mem.poison →
    (s.ctrl k).lockRoom (ph / 2048 * 2048) = true → s.ram.wf = true → Answers (.memoryWrite who a bs) s fun t =>
      t.mem.reply = some (who, .data []) ∧ t.ram.readN ph bs.length = bs ∧
      (∀ x, x < ph ∨ ph + bs.length ≤ x → t.ram.read x = s.ram.read x) ∧
      ((t.ctrl k).locks.any fun l => l.page == ph / 2048 * 2048) = true ∧ { t with mem := s.mem, ram := s.ram } = s) ∧
  (∀ (s : State) (a k ph : Nat) (bs : List Byte), (Instr.memoryWrite .host a bs).wf = true →
    s.live = true → 0 < bs.length → bs.length < 2048 → a % 2048 + bs.length ≤ 2048 →
    s.backed a bs.length = true → s.isStrict a = true → s.locate a = some (k, ph) → k < 12 → Answers (.memoryWrite .host a bs) s fun t =>
      t.mem.reply = some (.host, .poisoned (a / 2048)) ∧ t.ram = s.ram ∧
      t.counter (Cnt.memErr k Cnt.narrowWrite) = risen (s.counter (Cnt.memErr k Cnt.narrowWrite)) 1) ∧
  (∀ (s : State) (k k' ph : Nat) (r : MemReq), k < 12 → s.live = true → (s.ctrl k).lockWait = [r] → s.locate r.addr = some (k', ph) →
    k' = k → r.len ≠ 2048 → ph / 2048 * 2048 ∉ s.mem.poison → (s.ctrl k).lockRoom (ph / 2048 * 2048) = true →
    Answers (.pageLockGrant k) s fun t => t.mem.reply = some (r.who, .data []) ∧ t.ram = s.ram.writeN ph (r.data.getD []) ∧
      (t.ctrl k).lockWait = [] ∧ ((t.ctrl k).locks.any fun l => l.page == ph / 2048 * 2048) = true) ∧
  (∀ (s : State) (k : Nat) (l : PageLock), k < 12 → (s.ctrl k).locks.find? (fun l => l.issued) = some l →
    Machine.exec (.rmwWriteDone k) s = .next (s.setCtrl k { s.ctrl k with locks := (s.ctrl k).locks.erase l }))

/-- Patrol scrub and recode walk the pages. R132, R137, R153. -/
def Obligations.ScrubAndRecode : Prop :=
  (∀ (s : State) (k : Nat), k < 12 → s.scrubDue k = true → ctrlPage k (s.ctrl k).scrubPage ∉ s.mem.poison →
    Tab.find s.mem.errs (ctrlPage k (s.ctrl k).scrubPage) = none → (s.ctrl k).scrubPage + 1 < s.pagesOfCtrl k →
    Answers (.scrubRead k) s fun t => (t.ctrl k).scrubPage = (s.ctrl k).scrubPage + 1 ∧
      (t.ctrl k).scrubPasses = (s.ctrl k).scrubPasses ∧ ButReports { s with mem := t.mem } t) ∧
  (∀ (s : State) (k : Nat), k < 12 → s.scrubDue k = true → ctrlPage k (s.ctrl k).scrubPage ∉ s.mem.poison →
    Tab.find s.mem.errs (ctrlPage k (s.ctrl k).scrubPage) = none → (s.ctrl k).scrubPage + 1 = s.pagesOfCtrl k →
    Answers (.scrubRead k) s fun t => (t.ctrl k).scrubPage = 0 ∧ (t.ctrl k).scrubSince = s.now ∧
      (t.ctrl k).scrubPasses = satAdd 0xFFFF (s.ctrl k).scrubPasses 1 ∧ ButReports { s with mem := t.mem } t) ∧
  (∀ (s : State) (v : Word), s.live = true → fld v.toNat 0 4 ≠ 15 → bitAt v.toNat 31 = true → s.mem.recode = none →
    (s.region (fld v.toNat 0 4)).valid = true → fld v.toNat 4 2 ≤ s.ceiling (s.region (fld v.toNat 0 4)).base →
    Machine.exec (.recodeStart v) s = .next { s with
      mem.recodeRegion := fld v.toNat 0 4, mem.recodeStrength := fld v.toNat 4 2
      mem.recode := some { region := fld v.toNat 0 4, strength := fld v.toNat 4 2, ptr := (s.region (fld v.toNat 0 4)).base }
      mem.recodePtr := (s.region (fld v.toNat 0 4)).base }) ∧
  (∀ (s : State) (v : Word), s.live = true → fld v.toNat 0 4 ≠ 15 → bitAt v.toNat 31 = true → s.mem.recode.isSome = true →
    Answers (.recodeStart v) s fun t => Reported Det.recodeBusy { s with mem.recodeBusy := true } t) ∧
  (∀ (s : State) (rc : Recode) (k ph : Nat), s.live = true → s.mem.recode = some rc → s.locate rc.ptr = some (k, ph) →
    s.regionOf rc.ptr = rc.region → s.mayServe k = true → (s.ctrl k).breach = false → ((s.ctrl k).locks.any fun l => l.page == ph) = false →
    ph ∉ s.mem.poison → Tab.find s.mem.errs ph = none →
    (rc.ptr + 2048 < (s.region rc.region).limit → Answers .recodePage s fun t =>
      t.mem.recode = some { rc with ptr := rc.ptr + 2048 } ∧ t.ram = s.ram ∧ { t with mem := s.mem } = s) ∧
    ((s.region rc.region).limit ≤ rc.ptr + 2048 → Answers .recodePage s fun t =>
      t.mem.recode = none ∧ (t.region rc.region).strength = rc.strength ∧ t.ram = s.ram ∧ { t with mem := s.mem } = s))

/-- Leases, breaches, regions, poison queries and injection. R134 to R136, R151, R161, R164, R165, R535, R536. -/
def Obligations.LeasesAndRegions : Prop :=
  (∀ (s : State) (l : Nat) (x : Img.Lease), s.leases = [(l, x)] → ((s.ctrl x.stack).waiting.any fun r => r.lease == some l) = true → x.stack < 8 →
    Answers .leaseAccount s fun t => (t.lease l).deficit = (s.lease l).deficit + (40 * x.share : Nat) ∧ (t.lease l).eligible = true ∧
      (t.lease l).behind = decide (6400 < (s.lease l).deficit + (40 * x.share : Nat)) ∧ { t with mem := s.mem } = s) ∧
  (∀ (s : State) (l : Nat) (x : Img.Lease), s.leases = [(l, x)] → ((s.ctrl x.stack).waiting.any fun r => r.lease == some l) = false →
    Answers .leaseAccount s fun t => t.lease l = {} ∧ { t with mem := s.mem } = s) ∧
  (∀ (s : State) (k : Nat) (x : Nat × Img.Lease), k < 12 → (s.ctrl k).breach = false →
    (s.leases.find? fun x => x.2.stack == k && decide (s.mem.leaseSlip ≤ (s.lease x.1).run)) = some x → Answers (.leaseBreach k) s fun t =>
      (t.ctrl k).breach = true ∧ (t.ctrl k).calm = 0 ∧
      t.counter (Cnt.memErr k Cnt.leaseBreach) = risen (s.counter (Cnt.memErr k Cnt.leaseBreach)) 1 ∧
      ButReports { s with mem := t.mem } t) ∧
  (∀ (s : State) (k : Nat), k < 12 → (s.ctrl k).breach = true → s.mem.leaseSlip ≤ (s.ctrl k).calm →
    Machine.exec (.leaseBreachEnd k) s = .next (s.setCtrl k { s.ctrl k with breach := false })) ∧
  (∀ (s : State) (n : Nat) (lim : Bool) (v : DWord), n < 16 → s.live = true → Machine.exec (.regionBoundWrite n lim v) s =
    .next (s.setRegion n (if lim then { s.region n with stagedLimit := v.toNat } else { s.region n with stagedBase := v.toNat }))) ∧
  (∀ (s : State) (v : Word), s.live = true → Machine.exec (.regionAttrWrite 15 v) s =
    .next (s.setRegion 15 { s.region 15 with strict := bitAt v.toNat 3, group := fld v.toNat 4 4 })) ∧
  (∀ (s : State) (n : Nat) (v : Word), n < 15 → s.live = true → s.regionOk n ((s.region n).written v.toNat) = true →
    Machine.exec (.regionAttrWrite n v) s = .next (s.setRegion n ((s.region n).written v.toNat))) ∧
  (∀ (s : State) (n : Nat) (v : Word), n < 15 → s.live = true → s.regionOk n ((s.region n).written v.toNat) = false →
    Answers (.regionAttrWrite n v) s fun t => Reported Det.regionRefused { s with mem.regionRefused := true } t) ∧
  (∀ (s : State) (v : DWord), s.live = true → Answers (.poisonQuery v) s fun t =>
    t.mem.poisonDone = true ∧ t.mem.poisonAddr.toNat = v.toNat / 2048 * 2048 ∧
    t.mem.poisonUnbacked = (s.locate (v.toNat / 2048 * 2048)).isNone ∧
    (∀ k ph, s.locate (v.toNat / 2048 * 2048) = some (k, ph) → t.mem.poisonBit = s.mem.poison.contains ph) ∧ { t with mem := s.mem } = s) ∧
  (∀ (s t : State) (v : DWord), s.live = true → 1 ≤ fld v.toNat 0 6 → fld v.toNat 0 6 ≤ 33 → s.mem.injArmed = false → bitAt v.toNat 63 = true →
    t = { s with mem.injCount := fld v.toNat 0 6, mem.injStart := fld v.toNat 6 12, mem.injStride := fld v.toNat 18 12, mem.injPattern := fld v.toNat 30 12 } →
    (t.mayInjectPage = true → Machine.exec (.injectArm v) s = .next { t with mem.injArmed := true }) ∧
    (t.mayInjectPage = false → Answers (.injectArm v) s fun u => Reported Det.regionRefused { s with mem.regionRefused := true } u))

/-- NOP, JUMP, CALL, RET, LOOP and HALT. R210, R231, R237 to R240. -/
def Obligations.ControlGroup : Prop :=
  (∀ (s : State) (q : Nat) (f : Fetched) (fs : List Fetched), s.released = true → (s.queue q).state = .running →
    (s.queue q).fetched = f :: fs → f.ue = none → s.headerAbandoned f.cmd = false → s.headerMet f.cmd = true →
    (s.queue q).headFree f.cmd = true → s.plainFault q f.cmd = none → s.viewHead q = .open_ f.idx (withIdx (s.queue q) f.cmd)) ∧
  (∀ (s : State) (q : Nat) (idx : Word) (c : BitVec 512), q < 256 → AtHead s q idx c → opcodeOf c = 0x00 →
    Machine.exec (.nop q) s = .next (headDone s q idx c { status := St.ok })) ∧
  (∀ (s u : State) (q : Nat) (idx : Word) (c : BitVec 512), q < 256 → s.viewHead q = .open_ idx c → quietOf c = true → sigInc c = 0 →
    (∀ y ∈ (s.queue q).inflight, y.tok ≠ s.issued) → opcodeOf c = 0x00 →
    u = { s.setQueue q { s.queue q with
            fetch := (s.queue q).fetch + 1, fetched := (s.queue q).fetched.drop 1, progress := true
            head := if ((s.queue q).fetched.drop 1).isEmpty then none else some { since := s.now } } with
          issued := s.issued + 1, finished := s.finished + 1 } →
    Machine.exec (.nop q) s = .next (u.headDue q)) ∧
  (∀ (s u : State) (q : Nat) (idx t : Word) (c : BitVec 512), q < 256 → AtHead s q idx c → u = headDone s q idx c { status := St.ok } →
    t = idx + BitVec.ofNat 32 (cf c 16 4) → idxLater t (s.queue q).headIdx = false →
    (opcodeOf c = 0x01 → Machine.exec (.jump q) s =
      .next ((u.setQueue q { u.queue q with fetch := t, fetched := [], head := none }).headDue q)) ∧
    (opcodeOf c = 0x03 → (s.queue q).pin.length < 8 → Machine.exec (.call q) s =
      .next ((u.setQueue q { u.queue q with fetch := t, fetched := [], head := none, pin := (idx + 1) :: (s.queue q).pin }).headDue q))) ∧
  (∀ (s u : State) (q : Nat) (idx t : Word) (ts : List Word) (c : BitVec 512), q < 256 → AtHead s q idx c → opcodeOf c = 0x04 →
    u = headDone s q idx c { status := St.ok } → (s.queue q).pin = t :: ts → idxLater t (s.queue q).headIdx = false →
    Machine.exec (.ret q) s =
      .next ((u.setQueue q { u.queue q with fetch := t, fetched := [], head := none, pin := ts }).headDue q)) ∧
  (∀ (s : State) (q : Nat) (idx : Word) (c : BitVec 512), q < 256 → AtHead s q idx c →
    ((opcodeOf c = 0x03 ∧ (s.queue q).pin.length = 8 → Answers (.call q) s fun t => t = s.badCommand q idx c 6 0) ∧
     (opcodeOf c = 0x04 ∧ (s.queue q).pin = [] → Answers (.ret q) s fun t => t = s.badCommand q idx c 6 0))) ∧
  (∀ (s u : State) (q : Nat) (idx : Word) (n : DWord) (c : BitVec 512), q < 256 → AtHead s q idx c → opcodeOf c = 0x02 → cf c 16 1 = 0 →
    u = headDone s q idx c { status := St.ok } →
    n = (if bitAt (cf c 18 1) 0 then (s.queue q).sreg (cf c 17 1) else BitVec.ofNat 64 (cf c 24 8)) →
    n ≠ 0 → (s.queue q).pin.length < 8 → Machine.exec (.loop q) s = .next (u.setQueue q { u.queue q with
      sregs := Tab.put (s.queue q).sregs (cf c 17 1) n, pin := (idx + 1) :: (s.queue q).pin })) ∧
  (∀ (s u : State) (q : Nat) (idx p : Word) (ps : List Word) (v : DWord) (c : BitVec 512), q < 256 → AtHead s q idx c →
    opcodeOf c = 0x02 → cf c 16 1 ≠ 0 → u = headDone s q idx c { status := St.ok } → (s.queue q).pin = p :: ps →
    v = (s.queue q).sreg (cf c 17 1) - 1 →
    (v = 0 → Machine.exec (.loop q) s =
      .next ((u.setQueue q { u.queue q with sregs := Tab.put (s.queue q).sregs (cf c 17 1) v, pin := ps }).headDue q)) ∧
    (v ≠ 0 → idxLater p (s.queue q).headIdx = false → Machine.exec (.loop q) s =
      .next ((u.setQueue q { u.queue q with sregs := Tab.put (s.queue q).sregs (cf c 17 1) v, fetch := p, fetched := [], head := none }).headDue q))) ∧
  (∀ (s u : State) (q : Nat) (idx : Word) (c : BitVec 512), q < 256 → AtHead s q idx c → opcodeOf c = 0x05 →
    u = headDone s q idx c { status := St.ok } → Machine.exec (.halt q) s =
      .next ((u.setQueue q { u.queue q with state := .halted, haltCause := .haltInsn, haltIndex := idx }).writeHead q))

/-- SETS, ADDS, BRS, AT_BEAT, AT_DOWNBEAT, RECORD and MARK. R241 to R244, R268, R269. -/
def Obligations.ScalarsTimeAndRecords : Prop :=
  (∀ (s u : State) (q : Nat) (idx : Word) (c : BitVec 512), q < 256 → AtHead s q idx c → u = headDone s q idx c { status := St.ok } →
    (opcodeOf c = 0x06 → ∀ v : DWord,
      (cf c 17 1 = 0 ∧ v = BitVec.ofNat 64 (cf c 24 8)) ∨ (cf c 17 1 = 1 ∧ v = (s.queue q).sreg (cf c 18 1)) ∨
      (cf c 17 1 = 2 ∧ v = (s.tally (cf c 20 2)).value) ∨ (cf c 17 1 = 3 ∧ v = BitVec.ofNat 64 s.stamp.toNat) ∨
      (4 ≤ cf c 17 1 ∧ v = BitVec.ofNat 64 ((s.img.map Img.self).getD 0xFFFF)) →
      Machine.exec (.sets q) s = .next (u.setQueue q { u.queue q with sregs := Tab.put (s.queue q).sregs (cf c 16 1) v })) ∧
    (opcodeOf c = 0x07 → Machine.exec (.adds q) s = .next (u.setQueue q { u.queue q with
      sregs := Tab.put (s.queue q).sregs (cf c 16 1) ((s.queue q).sreg (cf c 17 1) +
        if bitAt (cf c 19 1) 0 then (s.queue q).sreg (cf c 18 1) else BitVec.ofNat 64 (cf c 24 8)) })) ∧
    (opcodeOf c = 0x61 → Machine.exec (.mark q) s =
      .next (u.setQueue q { u.queue q with mark := BitVec.ofNat 32 (cf c 16 4) }))) ∧
  (∀ (s u : State) (q : Nat) (idx t : Word) (a b : DWord) (c : BitVec 512), q < 256 → AtHead s q idx c → opcodeOf c = 0x08 →
    u = headDone s q idx c { status := St.ok } → t = idx + BitVec.ofNat 32 (cf c 20 4) → a = (s.queue q).sreg (cf c 16 1) →
    b = (if bitAt (cf c 19 1) 0 then (s.queue q).sreg (cf c 17 1) else BitVec.ofNat 64 (cf c 24 8)) →
    (idxLater t (s.queue q).headIdx = false →
      (cf c 18 1 = 0 ∧ a = b ∨ cf c 18 1 = 1 ∧ a ≠ b ∨ cf c 18 1 = 2 ∧ a.toNat < b.toNat ∨ cf c 18 1 = 3 ∧ b.toNat ≤ a.toNat ∨
        cf c 18 1 = 4 ∧ a.toInt < b.toInt ∨ 5 ≤ cf c 18 1 ∧ b.toInt ≤ a.toInt) →
      Machine.exec (.brs q) s = .next ((u.setQueue q { u.queue q with fetch := t, fetched := [], head := none }).headDue q)) ∧
    ((cf c 18 1 = 0 ∧ a ≠ b ∨ cf c 18 1 = 1 ∧ a = b ∨ cf c 18 1 = 2 ∧ b.toNat ≤ a.toNat ∨ cf c 18 1 = 3 ∧ a.toNat < b.toNat ∨
        cf c 18 1 = 4 ∧ b.toInt ≤ a.toInt ∨ 5 ≤ cf c 18 1 ∧ a.toInt < b.toInt) →
      Machine.exec (.brs q) s = .next u)) ∧
  (∀ (s u : State) (q : Nat) (idx : Word) (c : BitVec 512) (h : HeadState) (t : Stamp), q < 256 → AtHead s q idx c → s.timed = true →
    u = headDone s q idx c { status := St.ok } → (s.queue q).head = some h →
    (opcodeOf c = 0x10 → h.target = some t ∨ (h.target = none ∧ t = atBeatTarget (s.queue q) (s.headBase q) c) →
      (s.reached t = true → Machine.exec (.atBeat q) s = .next u) ∧
      (s.reached t = false → Machine.exec (.atBeat q) s =
        .next (s.setQueue q { s.queue q with head := some { h with target := some t } }))) ∧
    (opcodeOf c = 0x11 → h.target = some t ∨ (h.target = none ∧ t = atDownbeatTarget (s.headBase q) c) →
      (s.reached t = true → Machine.exec (.atDownbeat q) s = .next u) ∧
      (s.reached t = false → Machine.exec (.atDownbeat q) s =
        .next (s.setQueue q { s.queue q with head := some { h with target := some t } })))) ∧
  (∀ (x : Queue) (base : Stamp) (c : BitVec 512),
    (cf c 24 1 = 0 → atBeatTarget x base c = BitVec.ofNat 56 (cf c 16 7)) ∧
    (cf c 24 1 = 1 → atBeatTarget x base c = base + BitVec.ofNat 56 (cf c 16 7)) ∧
    (2 ≤ cf c 24 1 → atBeatTarget x base c = BitVec.ofNat 56 (cf c 16 7 + (x.sreg (cf c 25 1)).toNat)) ∧
    (cf c 16 1 ≠ 1 → bitAt (cf c 18 1) 0 = false →
      atDownbeatTarget base c = BitVec.ofNat 56 ((base.toNat / 4096 + 1 + cf c 20 4) * 4096)) ∧
    (cf c 16 1 = 1 → bitAt (cf c 18 1) 0 = false →
      atDownbeatTarget base c = BitVec.ofNat 56 ((base.toNat / 2 ^ 18 + 1 + cf c 20 4) * 2 ^ 18))) ∧
  (∀ (s : State) (t : Stamp), s.reached t = true ↔ (t = s.tact.stamp ∨ 2 ^ 55 ≤ (t - s.tact.stamp).toNat)) ∧
  (∀ (s : State) (q k ph : Nat) (idx : Word) (c : BitVec 512), q < 256 → AtHead s q idx c → opcodeOf c = 0x60 →
    recordCheck s c = none → s.locate (cf c 16 8) = some (k, ph) → s.isStrict (cf c 16 8) = false → s.mem.injArmed = false →
    ph / 2048 * 2048 ∉ s.mem.poison → Tab.find s.mem.errs (ph / 2048 * 2048) = none → s.ram.wf = true → Answers (.record q) s fun t =>
      t.queue q = (headDone s q idx c { status := St.ok }).queue q ∧
      (∀ a, ¬ (ph ≤ a ∧ a < ph + 32) → t.ram.read a = s.ram.read a) ∧ t.ram.readN ph 32 = s.recordData q c ∧
      { t with ram := s.ram, mem := s.mem } = headDone s q idx c { status := St.ok }) ∧
  (∀ (s : State) (q : Nat) (c : BitVec 512),
    leAt (s.recordData q c) 0 7 = s.stamp.toNat ∧ leAt (s.recordData q c) 8 8 = ((s.queue q).sreg (cf c 24 1)).toNat ∧
      leAt (s.recordData q c) 16 8 = ((s.queue q).sreg (cf c 25 1)).toNat ∧
      leAt (s.recordData q c) 24 8 = (s.tally (cf c 26 2)).value.toNat)

/-- WAIT, SIGNAL, REMOTE_SIGNAL, ARRIVE and ARRIVE_WAIT, with their timeouts. R245 to R248, R410, R420, R424. -/
def Obligations.SyncInstructions : Prop :=
  (∀ (s : State) (q t v th : Nat) (idx : Word) (c : BitVec 512), q < 256 → AtHead s q idx c → opcodeOf c = 0x20 →
    t = fld (cf c 16 2) 0 12 → v = (s.tally t).value.toNat → th = cf c 24 8 →
    ((s.tally t).abandoned = false →
      (cf c 18 1 = 0 ∧ th ≤ v ∨ cf c 18 1 = 1 ∧ v = th ∨ cf c 18 1 = 2 ∧ v ≠ th ∨ 3 ≤ cf c 18 1 ∧ v < th →
        Machine.exec (.wait q) s = .next (headDone s q idx c { status := St.ok })) ∧
      (cf c 18 1 = 0 ∧ v < th ∨ cf c 18 1 = 1 ∧ v ≠ th ∨ cf c 18 1 = 2 ∧ v = th ∨ 3 ≤ cf c 18 1 ∧ th ≤ v →
        Machine.exec (.wait q) s = .next s)) ∧
    ((s.tally t).abandoned = true → (s.queue q).errContinue = true →
      Machine.exec (.wait q) s = .next (headDone s q idx c { status := 0x30, detail := t })) ∧
    ((s.tally t).abandoned = true → (s.queue q).errContinue = false → Machine.exec (.wait q) s =
      .next ((headDone s q idx c { status := 0x30, detail := t }).haltQueue q .failed idx false))) ∧
  (∀ (s : State) (q : Nat) (idx : Word) (c : BitVec 512) (h : HeadState), q < 256 → AtHead s q idx c →
    (s.queue q).head = some h → cf c 20 4 ≠ 0 → h.since + cf c 20 4 ≤ s.now → (s.queue q).errContinue = true →
    Reacts s Det.cmdTimeout (.queue q) (64 + q) →
    (opcodeOf c = 0x20 → s.waitMet c = false → Answers (.waitTimeout q) s fun t =>
      ButReports (containedBy (headDone s q idx c { status := 0x31, detail := fld (cf c 16 2) 0 12 }) Det.cmdTimeout (64 + q)) t) ∧
    (opcodeOf c = 0x24 → h.released = false → (s.headWaits q).isSome = true → Answers (.arriveWaitTimeout q) s fun t =>
      ButReports (containedBy (headDone s q idx c { status := 0x31, detail := 2 ^ 31 + cf c 16 1 }) Det.cmdTimeout (64 + q)) t)) ∧
  (∀ (s : State) (q t : Nat) (v : DWord) (idx : Word) (c : BitVec 512), q < 256 → AtHead s q idx c → opcodeOf c = 0x21 →
    s.syncTakes q = true → t = fld (cf c 16 2) 0 12 → (s.tally t).abandoned = false →
    v = (if cf c 18 1 = 0 then (s.tally t).value + BitVec.ofNat 64 (cf c 24 8) else BitVec.ofNat 64 (cf c 24 8)) →
    Answers (.signal q) s fun u => u = headDone (s.putTally t v) q idx c { status := St.ok } ∧
      u.tally t = { s.tally t with value := v } ∧ ∀ k, k ≠ t → u.tally k = s.tally k) ∧
  (∀ (s s' : State) (q : Nat) (idx : Word) (c : BitVec 512), q < 256 → AtHead s q idx c → opcodeOf c = 0x22 →
    s.syncTakes q = true → remoteCheck s c = none → cf c 16 2 ≠ s.self → s.ce.lost.contains (cf c 16 2) = false →
    s.sendCue 0x20 (cf c 16 2) (s.remoteBody (fld (cf c 18 2) 0 12) (cf c 24 4)) = (s', true) →
    Machine.exec (.remoteSignal q) s = .next (headLeft s' q
      { tok := s.issued, idx := idx, cmd := c, since := s.now, msg := some (s.nextSeq true (cf c 16 2)) })) ∧
  (∀ (s : State) (q b : Nat) (idx : Word) (c : BitVec 512), q < 256 → AtHead s q idx c → b = cf c 16 1 →
    (s.barrier b).state = .armed → s.syncTakes q = true → s.mayArrive b q = true →
    ((s.barrier b).arrivals + 1 < (s.barrier b).expect → opcodeOf c = 0x23 → Machine.exec (.arrive q) s =
      .next (headDone ((s.dlTouch (2 ^ 31 + b)).setBarrier b { s.barrier b with
        arrivals := (s.barrier b).arrivals + 1, arrived := insertAsc q (s.barrier b).arrived }) q idx c { status := St.ok })) ∧
    ((s.barrier b).arrivals + 1 < (s.barrier b).expect → ∀ h, (s.queue q).head = some h → h.arrived = none → h.released = false →
      opcodeOf c = 0x24 → Answers (.arriveWait q) s fun t =>
        t.queue q = { s.queue q with head := some { h with arrived := some b } } ∧
        t.barrier b = { s.barrier b with arrivals := (s.barrier b).arrivals + 1, arrived := insertAsc q (s.barrier b).arrived }) ∧
    ((s.barrier b).expect ≤ (s.barrier b).arrivals + 1 → (s.barrier b).chorus = false → opcodeOf c = 0x23 →
      Answers (.arrive q) s fun t =>
        t.barrier b = { s.barrier b with gen := (s.barrier b).gen + 1, arrivals := 0, arrived := [] } ∧
        ∀ k h, k ≠ q → (s.queue k).head = some h → h.arrived = some b → (t.queue k).head = some { h with released := true })) ∧
  (∀ (s : State) (q : Nat) (idx : Word) (c : BitVec 512) (h : HeadState), q < 256 → AtHead s q idx c → opcodeOf c = 0x24 →
    (s.queue q).head = some h → h.arrived.isSome = true → h.released = true →
    Machine.exec (.arriveWait q) s = .next (headDone s q idx c { status := St.ok }))

/-- COPY, FILL, COMPARE, GATHER and SCATTER take a channel; FENCE waits for writes. R249 to R254, R371, R372, R383. -/
def Obligations.DataCommandsAndFence : Prop :=
  (∀ (s : State) (i : Instr) (q ch : Nat) (idx : Word) (c : BitVec 512) (d : DmaSet), q < 256 → AtHead s q idx c →
    (i = .copy q ∧ opcodeOf c = 0x30 ∨ i = .fill q ∧ opcodeOf c = 0x31 ∨ i = .compare q ∧ opcodeOf c = 0x32 ∨
      i = .gather q ∧ opcodeOf c = 0x33 ∨ i = .scatter q ∧ opcodeOf c = 0x34) →
    d = setOfCommand c → dataCheck s c = none → s.channelFor c = some ch → s.narrowPart d = none → s.moves d ≠ 0 →
    (d.remote = false → Answers i s fun t =>
      (t.chan ch).state = .running ∧ (t.chan ch).active = d ∧ (t.chan ch).cmd = some (q, s.issued) ∧ (t.chan ch).progress = 0 ∧
      (t.chan ch).cursor = 0 ∧ (t.chan ch).remote = none ∧ (∀ k, k ≠ ch → t.chan k = s.chan k) ∧
      t.queue q = (headLeft s q { tok := s.issued, idx := idx, cmd := c, since := s.now, chan := some ch }).queue q ∧
      { t with queues := s.queues, issued := s.issued, dma := s.dma } = s) ∧
    (d.remote = true → s.ce.lost.contains d.member = false → Answers i s fun t =>
      (t.chan ch).state = .running ∧ (t.chan ch).active = d ∧ (t.chan ch).cmd = some (q, s.issued) ∧
      ((t.chan ch).remote.map fun r => (r.total, r.bytes, r.member, r.seg0)) =
        some (ceilDiv (s.moves d) 73728, s.moves d, d.member, d.winOff / 73728) ∧
      (∀ k, k ≠ ch → t.chan k = s.chan k) ∧ t.ram = s.ram)) ∧
  (∀ (s : State) (i : Instr) (q : Nat) (idx : Word) (c : BitVec 512), q < 256 → AtHead s q idx c →
    (i = .copy q ∧ opcodeOf c = 0x30 ∨ i = .fill q ∧ opcodeOf c = 0x31 ∨ i = .compare q ∧ opcodeOf c = 0x32 ∨
      i = .gather q ∧ opcodeOf c = 0x33 ∨ i = .scatter q ∧ opcodeOf c = 0x34) → dataCheck s c = none →
    (∀ ch, ch < 64 → (s.chan ch).state ≠ .idle) → cf c 44 1 < 64 ∨ cf c 44 1 = 255 → Machine.exec i s = .next s) ∧
  (∀ (s : State) (q : Nat) (idx : Word) (c : BitVec 512), q < 256 → AtHead s q idx c → opcodeOf c = 0x25 → s.syncTakes q = true →
    (cf c 16 1 = 0 → Machine.exec (.fence q) s = .next (headDone s q idx c { status := St.ok })) ∧
    (cf c 16 1 ≠ 0 → bitAt (cf c 16 1) 1 = false ∨ (s.queue q).lastHost = none → Machine.exec (.fence q) s =
      .next (headLeft s q { tok := s.issued, idx := idx, cmd := c, since := s.now })) ∧
    (∀ a, bitAt (cf c 16 1) 1 = true → (s.queue q).lastHost = some a → s.hostOpen = true → Answers (.fence q) s fun t =>
      (t.queue q).inflight = (s.queue q).inflight ++ [{ tok := s.issued, idx := idx, cmd := c, since := s.now }] ∧
      (t.queue q).lastHost = none ∧ (t.queue q).fetch = (s.queue q).fetch + 1 ∧ t.host.reads.length = s.host.reads.length + 1)) ∧
  (∀ (s : State) (q : Nat) (x : Inflight), q < 256 → s.live = true → (s.queue q).inflight = [x] → opcodeOf x.cmd = 0x25 →
    x.done = none → quietOf x.cmd = false → s.fenceDrained q x.tok (cf x.cmd 16 1) = true →
    ((s.dma.lateFails.any fun f => f.under q (cf x.cmd 16 1)) = false → Machine.exec (.fenceComplete q) s =
      .next { s.setQueue q { s.queue q with
                inflight := [{ x with done := some { status := St.ok, order := s.finished } }], progress := true } with
              finished := s.finished + 1 }) ∧
    (∀ f, s.dma.lateFails = [f] → f.under q (cf x.cmd 16 1) = true → (s.queue q).errContinue = true →
      Machine.exec (.fenceComplete q) s =
      .next { s.setQueue q { s.queue q with
                inflight := [{ x with done := some { status := 0x11, detail := f.page, order := s.finished } }], progress := true } with
              finished := s.finished + 1, dma.lateFails := [] }))

/-- BCAST, REDUCE, HARVEST, DBCAST, DREDUCE and COUNTS at issue. R210, R212, R258, R278, R280, R296, R297, R317, R324. -/
def Obligations.CollectivesAtIssue : Prop :=
  (∀ (s u : State) (i : Instr) (op q : Nat) (idx : Word) (c : BitVec 512), q < 128 → AtHead s q idx c → opcodeOf c = op →
    (i = .bcast q ∧ op = 0x40 ∨ i = .reduce q ∧ op = 0x41 ∨ i = .harvest q ∧ op = 0x42 ∨ i = .dbcast q ∧ op = 0x43 ∨
      i = .dreduce q ∧ op = 0x44 ∨ i = .counts q ∧ op = 0x45) → State.collCheck (q / 32) s c = none →
    u = { headLeft s q { tok := s.issued, idx := idx, cmd := c, since := s.now } with
          lastIssued := Tab.put s.lastIssued (40 + q / 32) q
          ce.colls := (s.ce.colls.filter fun x => !(x.part == (s.newColl q c).part && x.optag == (s.newColl q c).optag)) ++ [s.newColl q c]
          ce.muted := s.ce.muted.filter fun y => y != ((s.newColl q c).part, (s.newColl q c).optag) } →
    (∀ x, s.lostIn (Cc.part c) = some x → (s.queue q).errContinue = true → Answers i s fun t =>
      t.queue q = (headDone s q idx c { status := 0x20, detail := x }).queue q ∧ t.ce = s.ce ∧ t.ram = s.ram) ∧
    (s.lostIn (Cc.part c) = none → s.collStrict c = none → s.collReady q c = false → Machine.exec i s = .next s) ∧
    (s.lostIn (Cc.part c) = none → s.collStrict c = none → s.collReady q c = true → s.winsUnit (40 + q / 32) q c s.collReady = true →
      ((s.newColl q c).alg = some .descant → Machine.exec i s = .next (u.startSource (s.newColl q c))) ∧
      (op ≤ 0x42 → (s.newColl q c).alg ≠ some .descant → ∀ w c',
        w = (if (s.newColl q c).alg = none then u else u.openWindows (s.newColl q c)) → w.collOf q s.issued = some c' →
        Machine.exec i s = .next ((w.injectLateness c').startSource (s.newColl q c))))) ∧
  (∀ (s : State) (q k ph n : Nat) (idx : Word) (c : BitVec 512) (e : Img.DTree) (x : DCtx), q < 128 → AtHead s q idx c →
    State.collCheck (q / 32) s c = none → s.lostIn (Cc.part c) = none → s.collStrict c = none → s.collReady q c = true →
    s.winsUnit (40 + q / 32) q c s.collReady = true → Cc.srcHost c = false →
    s.dtree (s.collTree c) = some e → e.root ≠ s.self → e.member = true → e.arrivals = 1 →
    (n = if opcodeOf c = 0x45 then 8 else Cc.count c) →
    s.locate (Cc.src c) = some (k, ph) → ph % 2048 + n ≤ 2048 → ph / 2048 * 2048 ∉ s.mem.poison → Tab.find s.mem.errs (ph / 2048 * 2048) = none →
    x = { dtree := s.collTree c, dop := (if opcodeOf c = 0x45 then Dop.counts else Cc.op c), dseq := Cc.optag c
          dfmt := (if opcodeOf c = 0x45 then 8 else Cc.fin c), owner := .command q s.issued } →
    s.ctx x.dtree x.dop x.dseq = none →
    (opcodeOf c = 0x45 → Answers (.counts q) s fun t => t.ce.dsend = s.ce.dsend ++ [{
      gang := e.up, since := s.now, op := x.op false 1 (s.ram.readN ph 8 ++ s.ram.readN ph 8) }]) ∧
    (opcodeOf c = 0x44 → Answers (.dreduce q) s fun t => t.ce.dsend = s.ce.dsend ++ [{
      gang := e.up, since := s.now, op := x.op false 1 (pad16 (s.ram.readN ph n)) }]))

/-- LOADQ, SCORE, TOPK, QUANT, DEQUANT and LAUNCH with its timeout. R262, R264, R266, R267, R351 to R355, R366, R367. -/
def Obligations.ComputeGroup : Prop :=
  (∀ (s : State) (q m ph n : Nat) (idx : Word) (c : BitVec 512), 128 ≤ q → q < 192 → m = (q - 128) / 4 → AtHead s q idx c →
    s.meReady m c = true → s.winsUnit (16 + m) q c (fun _ c => s.meReady m c) = true →
    (opcodeOf c = 0x50 → loadqCheck m s c = none → Me.lfmt c ≠ 6 → Me.allMe c = false →
      n = Me.lq c * Me.ldim c * (Num.Fmt.ofCode (Me.lfmt c)).bits / 8 → Readable s (cf c 16 8) n ph → Answers (.loadq q) s fun t =>
        (t.me m).read (Me.qoff c) n = s.ram.readN ph n ∧ (∀ a, a < Me.qoff c ∨ Me.qoff c + n ≤ a → (t.me m).byte a = (s.me m).byte a) ∧
        (t.me m).batches = Tab.put (s.me m).batches (Me.qoff c) (Me.lq c, Me.ldim c) ∧ (∀ k, k ≠ m → t.me k = s.me k) ∧
        t.ram = s.ram ∧ ((t.queue q).inflight.map fun x => (x.tok, x.idx)) = ((s.queue q).inflight.map fun x => (x.tok, x.idx)) ++ [(s.issued, idx)]) ∧
    (opcodeOf c = 0x52 → topkCheck m s c = none → Me.mode c = 0 → Answers (.topk q) s fun t =>
      (t.me m).topk = some { q := Me.tq c, k := Me.k c, loff := Me.loff c, order := Num.smaller (Me.numctl c) } ∧
      (∀ k, k ≠ m → t.me k = s.me k) ∧ t.queue q = (headDone s q idx c { status := St.ok }).queue q ∧ t.ram = s.ram ∧ t.mem = s.mem) ∧
    (opcodeOf c = 0x52 → topkCheck m s c = none → 2 ≤ Me.mode c → ∀ ph',
      Readable s (cf c 16 8) (4 * Me.tq c * Me.n c) ph → Writable s (cf c 24 8) (16 * Me.tq c * Me.k c) ph' → s.ram.wf = true →
      Answers (.topk q) s fun t =>
        t.ram.readN ph' (16 * Me.tq c * Me.k c) =
          listBytes (Me.k c) (selectLists c s.candMember (s.ram.readN ph (4 * Me.tq c * Me.n c))) ∧
        (∀ a, a < ph' ∨ ph' + 16 * Me.tq c * Me.k c ≤ a → t.ram.read a = s.ram.read a)) ∧
    (opcodeOf c = 0x51 → scoreCheck m s c = none → Me.n c = 1 → Me.q c = 1 → Me.fe c ≠ 6 → Me.toTopk c = false →
      Tab.find (s.me m).batches (Me.sqoff c) = some (1, Me.dim c) → ∀ ph',
      n = Me.dim c * (Num.Fmt.ofCode (Me.fe c)).bits / 8 → Readable s (cf c 16 8) n ph → Writable s (cf c 24 8) 4 ph' → s.ram.wf = true →
      Answers (.score q) s fun t =>
        t.ram.readN ph' 4 = leBytes (Num.dot (decide (Me.fe c ≤ 2)) (Num.Fmt.ofCode 0xB) (Me.numctl c) ((s.me m).queryRow c 0)
          (Num.valuesOf (Num.Fmt.ofCode (Me.fe c)) none (Num.unpackCodes (Num.Fmt.ofCode (Me.fe c)) (Me.dim c) (s.ram.readN ph n)))).1 4 ∧
        (∀ a, a < ph' ∨ ph' + 4 ≤ a → t.ram.read a = s.ram.read a) ∧
        (t.me m).arrayCycles = BitVec.ofNat 64 (satAdd (2 ^ 64 - 1) (s.me m).arrayCycles.toNat (arrayCycles c))) ∧
    (∀ (i : Instr) (out : (List Byte × List Byte) × Num.Counts) (ph' : Nat), i = .quant q ∧ opcodeOf c = 0x53 ∨ i = .dequant q ∧ opcodeOf c = 0x54 →
      quantCheck s c = none → Qc.inScaled c = false → Qc.outScaled c = false → n = Num.packedLen (Num.Fmt.ofCode (Qc.fin c)) (Qc.count c) →
      out = quantOut c (s.ram.readN ph n) → Readable s (cf c 16 8) n ph → Writable s (cf c 24 8) out.1.1.length ph' → s.ram.wf = true →
      s.quantStrict c = none → Answers i s fun t =>
        t.ram.readN ph' out.1.1.length = out.1.1 ∧ ∀ a, a < ph' ∨ ph' + out.1.1.length ≤ a → t.ram.read a = s.ram.read a)) ∧
  (∀ (s : State) (q cl : Nat) (idx : Word) (c : BitVec 512), 208 ≤ q → q < 240 → cl = (q - 208) / 4 → AtHead s q idx c → opcodeOf c = 0x55 →
    launchCheck cl s c = none → s.unitTakes (32 + cl) = true → (∀ k, k < 8 → bitAt (cf c 40 1) k = true → (s.core cl k).state = .idle) →
    s.winsUnit (32 + cl) q c (fun _ c => s.unitTakes (32 + cl) && (coresOf (cf c 40 1)).all fun k => (s.core cl k).state == .idle) = true →
    Answers (.launch q) s fun t =>
      (∀ k, k < 8 → bitAt (cf c 40 1) k = true → t.core cl k = { s.core cl k with
        asleep := false, entry := BitVec.ofNat 64 (cf c 16 8), arg0 := BitVec.ofNat 64 (cf c 24 8), arg1 := BitVec.ofNat 64 (cf c 32 8)
        launchSeq := ((s.core cl k).launchSeq + 1) % 65536, launchPending := true, state := .busy, dirty := [], dirtyAt := [], dataUe := none }) ∧
      (∀ k, bitAt (cf c 40 1) k = false → t.core cl k = s.core cl k) ∧ (∀ x, x ≠ cl → t.cl x = s.cl x) ∧
      (t.cl cl).launches = (s.cl cl).launches ++ [{ queue := q, tok := s.issued, mask := cf c 40 1 }] ∧
      t.queue q = (headLeft s q { tok := s.issued, idx := idx, cmd := c, since := s.now }).queue q ∧ t.ram = s.ram ∧ t.mem = s.mem) ∧
  (∀ (s : State) (q cl : Nat) (x : Inflight), 208 ≤ q → q < 240 → cl = (q - 208) / 4 → s.live = true → (s.queue q).inflight = [x] →
    opcodeOf x.cmd = 0x55 → x.done = none → x.chan = none → quietOf x.cmd = false → (s.queue q).errContinue = true → cf x.cmd 44 4 ≠ 0 →
    x.since + cf x.cmd 44 4 ≤ s.now → (s.cl cl).launches = [{ queue := q, tok := x.tok, mask := cf x.cmd 40 1 }] →
    Answers (.launchTimeout q x.idx) s fun t =>
      (∀ k, k < 8 → (s.core cl k).state = .busy → bitAt (cf x.cmd 40 1) k = true → t.core cl k = {}) ∧
      (∀ k, bitAt (cf x.cmd 40 1) k = false → t.core cl k = s.core cl k) ∧ (t.cl cl).launches = [] ∧
      (t.queue q).inflight = [{ x with done := some { status := 0x31, detail := 0xFFFFFFFE, order := s.finished } }] ∧ t.ram = s.ram)

/-- SUBMIT, CANCEL, DRAIN, OUT and RETURN. R327 to R330, R336, R344, R345. -/
def Obligations.GraftMailbox : Prop :=
  (∀ (s : State) (i : Instr), i = .submit ∨ i = .cancel ∨ i = .drain ∨ i = .out ∨ i = .returnUnit → s.live = true →
    s.graft.mboxBusy = true → Machine.exec i s = .next (s.countN (Cnt.grf 0) 1)) ∧
  (∀ s : State, s.live = true → s.graft.mboxBusy = false → s.img = none → Answers .submit s fun t =>
    ButReports { s with graft.result := 4, graft.detail := 0, graft.mboxBusy := false } t) ∧
  (∀ (s : State) (act : Mem), s.live = true → s.graft.mboxBusy = false → s.img = some act → s.graft.phase ≠ .idle ∨ s.bankHeld = true →
    Answers .submit s fun t => ButReports { s with graft.result := 1, graft.detail := 0, graft.mboxBusy := false } t) ∧
  (∀ (s s' u : State) (act m : Mem) (own e : BundleEntry) (rest : List BundleEntry), s.live = true → s.graft.mboxBusy = false →
    s.img = some act → s.graft.phase = .idle → s.bankHeld = false → s.readBundle act (s.mboxArg 0) (s.mboxArg 1) = (s', .inr m) →
    (((Bundle.entries m).map (·.2)).filter fun e => e.member != Img.self act) = e :: rest → (s.onward e.member).isEmpty = false →
    s.timely (Bundle.target m) (distMeasures (e :: rest) s.graft.pace) = true →
    ((Bundle.entries m).map (·.2)).find? (fun e => e.member == Img.self act) = some own →
    u = (s'.setStandby (Mem.writeN [] 0 (m.readN own.offset own.length))).checkDone → u.score.standby = .ready →
    Answers .submit s fun t => t.score.standby = .ready ∧ t.graft.phase = .distributing ∧ t.graft.master = true ∧ t.graft.locked = true ∧
      t.graft.graftId = Bundle.graftId m ∧ t.graft.tgt = Bundle.target m ∧ t.graft.entries = e :: rest ∧ t.graft.sent = 0 ∧
      t.graft.paceUsed = s.graft.pace ∧ t.graft.result = 0 ∧ t.graft.mboxBusy = false ∧ t.score.active = s.score.active) ∧
  (∀ (s s' : State) (act : Mem) (o : Nat), s.live = true → s.graft.mboxBusy = false → s.img = some act → s.graft.phase = .idle →
    s.bankHeld = false → s.readBundle act (s.mboxArg 0) (s.mboxArg 1) = (s', .inl o) → Answers .submit s fun t =>
      ButReports { s' with graft.result := 2, graft.detail := o, graft.mboxBusy := false } t) ∧
  (∀ s : State, s.live = true → s.graft.mboxBusy = false → s.graft.master = true → s.graft.graftId = fld (s.mboxArg 0) 0 12 →
    s.graft.decided = false → Answers .cancel s fun t =>
      t.graft.outcome = 2 ∧ t.graft.reason = 4 ∧ t.graft.phase = .idle ∧ t.graft.locked = false ∧ t.graft.result = 0 ∧
      t.graft.mboxBusy = false ∧ t.score.active = s.score.active) ∧
  (∀ s : State, s.live = true → s.graft.mboxBusy = false → s.graft.master = false → Answers .cancel s fun t =>
    ButReports { s with graft.result := 7, graft.detail := 0, graft.mboxBusy := false } t) ∧
  (∀ (s : State) (i : Nat), s.live = true → s.graft.mboxBusy = false → unitOfId (s.mboxArg 0 % 2 ^ 32) = some i →
    ((s.unit i).state = .in_ → Answers .drain s fun t => (t.unit i).state = .drain ∧ t.graft.result = 0 ∧ t.graft.mboxBusy = false) ∧
    ((s.unit i).state ≠ .in_ → Answers .drain s fun t =>
      ButReports { s with graft.result := 6, graft.detail := (s.unit i).state.code, graft.mboxBusy := false } t) ∧
    ((s.unit i).state = .quiesced → Answers .out s fun t => (t.unit i).state = .out ∧ t.graft.result = 0 ∧ t.graft.mboxBusy = false) ∧
    ((s.unit i).state ≠ .quiesced → Answers .out s fun t =>
      ButReports { s with graft.result := 6, graft.detail := (s.unit i).state.code, graft.mboxBusy := false } t) ∧
    ((s.unit i).state = .out → 16 ≤ i → i < 48 → Answers .returnUnit s fun t =>
      (t.unit i).state = .returning ∧ t.resetOf i = { s.resetOf i with inReset := none, shadow := some s.fc.resetShadow } ∧
      t.graft.result = 0 ∧ t.graft.mboxBusy = false ∧ t.ports = s.ports ∧ t.ram = s.ram) ∧
    ((s.unit i).state ≠ .out → Answers .returnUnit s fun t =>
      ButReports { s with graft.result := 6, graft.detail := (s.unit i).state.code, graft.mboxBusy := false } t)) ∧
  (∀ (s : State) (i : Instr), i = .drain ∨ i = .out ∨ i = .returnUnit → s.live = true → s.graft.mboxBusy = false →
    unitOfId (s.mboxArg 0 % 2 ^ 32) = none → Answers i s fun t =>
      ButReports { s with graft.result := 5, graft.detail := 0, graft.mboxBusy := false } t)

/-- Units quiesce, return, are compared and pass probation. R344 to R346. -/
def Obligations.UnitsLeaveAndReturn : Prop :=
  (∀ (s : State) (i : Nat), i ≤ 48 → (s.unit i).state = .drain → s.quiet i = true → i = 48 ∨ s.held i = false → Answers (.unitQuiesced i) s fun t =>
    ButReports (s.setUnit i { s.unit i with state := .quiesced }) t) ∧
  (∀ (s : State) (i : Nat), i ≤ 48 → (s.unit i).state = .drain → s.quiet i = false → Machine.exec (.unitQuiesced i) s = .next s) ∧
  (∀ (s : State) (i : Nat), i ≤ 48 → s.live = true → (s.unit i).state = .returning → s.returned i = true → Answers (.returnDone i true) s fun t =>
    (t.unit i).state = .probation ∧ (16 ≤ i → i < 32 → (t.me (i - 16)).sram = [] ∧ (t.me (i - 16)).undef = none) ∧
    (32 ≤ i → i < 40 → (t.cl (i - 32)).sram = []) ∧ (i < 44 → t.ram = s.ram) ∧ t.ports = s.ports ∧ t.queues = s.queues) ∧
  (∀ (s : State) (i : Nat), i ≤ 48 → s.live = true → (s.unit i).state = .returning → Answers (.returnDone i false) s fun t =>
    (t.unit i).state = .out ∧ (t.unit i).passed = false) ∧
  (∀ (s : State) (i : Nat), i ≤ 48 → s.live = true → (s.unit i).state = .probation → s.probationRuns i = true →
    Machine.exec (.shadowCompare i true) s = .next (s.setUnit i { s.unit i with worked := true }) ∧
    Answers (.shadowCompare i false) s fun t => (t.unit i).state = .out ∧ (t.unit i).passed = false) ∧
  (∀ (s : State) (i : Nat), i ≤ 48 → (s.unit i).state = .probation → (s.unit i).passed = false →
    s.graft.probationUsed ≤ (s.unit i).probCount → (s.unit i).patternDone = true ∨ i < 44 ∨ i = 48 →
    Machine.exec (.probationPass i) s = .next (s.setUnit i { s.unit i with passed := true }))

/-- Graft slots and PREPARE, ACK, COMMIT, ABORT, with their deadlines. R332 to R339. -/
def Obligations.GraftMembers : Prop :=
  (∀ (s : State) (p : Nat) (sl : Slot), (Instr.graftSlotRx p sl).wf = true → s.live = true → sl.route % 1024 ≠ s.routeSelf →
    (s.onward (sl.route % 1024)).isEmpty = false → s.graft.relay.length < 1024 →
    Machine.exec (.graftSlotRx p sl) s = .next { s with graft.relay := s.graft.relay ++ [sl] }) ∧
  (∀ (s : State) (p : Nat) (sl : Slot), (Instr.graftSlotRx p sl).wf = true → s.live = true → sl.route % 1024 = s.routeSelf →
    s.score.member = true → s.graft.locked = true → s.graft.graftId ≠ sl.optag → Answers (.graftSlotRx p sl) s fun t =>
      Reported Det.grfBusyDrop (s.count (Cnt.grf 2)) t) ∧
  (∀ (s : State) (p : Nat) (sl : Slot), (Instr.graftSlotRx p sl).wf = true → s.live = true → sl.route % 1024 = s.routeSelf →
    s.score.member = true → s.graft.locked = false → (128 * sl.segment + sl.slotInSeg ≠ 0) → Answers (.graftSlotRx p sl) s fun t =>
      t.graft.locked = true ∧ t.graft.graftId = sl.optag ∧ t.graft.masterNo = sl.source ∧ t.graft.master = false ∧
      t.graft.phase = .receiving ∧ Tab.find t.graft.rx (128 * sl.segment + sl.slotInSeg) = some sl.payload ∧ t.score = s.score) ∧
  (∀ (s : State) (p : Nat) (sl : Slot), (Instr.graftSlotRx p sl).wf = true → s.live = true → sl.route % 1024 = s.routeSelf →
    s.score.member = true → s.graft.locked = false → sl.segment = 0 → sl.slotInSeg = 0 → sl.last = true → sl.payloadBad = false →
    bitAt (leAt sl.payload 2 1) 0 = true → sl.check = (crc64 sl.payload).toNat → Answers (.graftSlotRx p sl) s fun t =>
      t.graft.pruned = true ∧ t.graft.imageDone = true ∧ t.graft.phase = .ready ∧ t.graft.tgt = fld (leAt sl.payload 40 8) 0 38 ∧
      t.score = s.score) ∧
  (∀ (s : State) (p : Nat) (c : Cue), (Instr.ack p c).wf = true → s.live = true → s.graft.master = true → s.graft.decided = false →
    s.graft.graftId = fld (c.at 0 2) 0 12 → Machine.exec (.ack p c) s = .next { s with
      graft.acks := Tab.put s.graft.acks (c.at 2 2 % 1024) (c.at 4 1, c.at 5 1, c.at 8 8)
      graft.acked := if c.at 4 1 = 0 ∨ c.at 4 1 = 5 then insertAsc (c.at 2 2 % 1024) s.graft.acked else s.graft.acked }) ∧
  (∀ (s : State) (i : Instr) (p : Nat) (c : Cue), i = .prepare p c ∨ i = .commit p c ∨ i = .abort p c → i.wf = true → s.live = true →
    s.graft.flooded.contains (fld (c.at 0 2) 0 12, c.typ) = true → Machine.exec i s = .next s) ∧
  (∀ (s : State) (p : Nat) (c : Cue), (Instr.prepare p c).wf = true → s.live = true → s.score.member = true →
    s.graft.flooded.contains (fld (c.at 0 2) 0 12, c.typ) = false → s.graft.locked = false → Answers (.prepare p c) s fun t =>
      t.graft.prepare = some c ∧ (fld (c.at 0 2) 0 12, c.typ) ∈ t.graft.flooded ∧ t.graft.ackSent = s.graft.ackSent ∧ t.score = s.score) ∧
  (∀ (s : State) (p : Nat) (c : Cue), (Instr.abort p c).wf = true → s.live = true → s.graft.locked = true →
    s.graft.graftId = fld (c.at 0 2) 0 12 → s.graft.phase ≠ .committed → s.graft.imageDone = true → s.graft.pruned = false →
    s.graft.flooded.contains (fld (c.at 0 2) 0 12, c.typ) = false → Answers (.abort p c) s fun t =>
      t.graft.locked = false ∧ t.graft.phase = .idle ∧ t.graft.outcome = 2 ∧ t.graft.reason = c.at 4 1 ∧ t.score.standby = .empty ∧
      t.score.target = s.score.target) ∧
  (∀ (s : State) (p : Nat) (c : Cue), (Instr.commit p c).wf = true → s.live = true → s.score.member = true → s.graft.locked = true →
    s.graft.graftId = fld (c.at 0 2) 0 12 → s.graft.pruned = false → s.score.target = none → s.score.standby = .ready →
    (s.beatsTo (fld (c.at 8 8) 0 38)).any (fun d => decide (4096 ≤ d)) = true →
    s.graft.flooded.contains (fld (c.at 0 2) 0 12, c.typ) = false → Answers (.commit p c) s fun t =>
      t.graft.phase = .committed ∧ t.score.target = some (fld (c.at 8 8) 0 38) ∧ t.graft.tgt = fld (c.at 8 8) 0 38) ∧
  (∀ (s : State) (c : Cue), s.live = true → s.graft.prepare = some c → s.tact.stamp = beforePhrase (fld (c.at 8 8) 0 38) 47 →
    s.graft.ackSent = false → s.graft.imageDone = false → Answers .ackDeadline s fun t =>
      t.graft.ackSent = true ∧
      t.graft.reason = (if s.graft.locked && s.graft.graftId != fld (c.at 0 2) 0 12 then 3 else 1) ∧ t.score = s.score) ∧
  (∀ (s : State), s.live = true → s.graft.master = true → s.graft.decided = false → s.tact.stamp = beforePhrase s.graft.tgt 48 →
    (∀ x, s.abortReason = some x → Answers .graftDecide s fun t =>
      t.graft.outcome = 2 ∧ t.graft.reason = x.1 ∧ t.graft.phase = .idle ∧ t.graft.locked = false ∧ t.score.target = s.score.target) ∧
    (s.abortReason = none → s.graft.pruned = false → s.score.target = none → s.score.standby = .ready →
      Answers .graftDecide s fun t => t.graft.decided = true ∧ t.graft.phase = .committed ∧ t.score.target = some s.graft.tgt)) ∧
  (∀ (s : State) (q : Nat), s.live = true → s.graft.undecided = some q → s.tact.stamp = beforePhrase q 63 → Answers .noDecision s fun t =>
    t.graft.outcome = 3 ∧ t.graft.locked = false ∧ t.graft.phase = .idle ∧
    t.counter (Cnt.grf 4) = risen (s.counter (Cnt.grf 4)) 1 ∧ t.score.target = s.score.target)

/-- WFI, wakes, OLSPUSH, OLSDONE and the restart of cores. R363 to R368. -/
def Obligations.CoresSleepAndFinish : Prop :=
  (∀ (s : State) (cl k : Nat), cl < 8 → k < 8 → s.live = true → (s.core cl k).state ≠ .reset → (s.core cl k).asleep = false →
    (s.core cl k).wpend &&& (s.core cl k).wake = 0 → (s.core cl k).launchPending = false → (s.core cl k).irqPending = false →
    Machine.exec (.wfi cl k) s = .next (s.setCore cl k { s.core cl k with asleep := true, sleepSince := s.now })) ∧
  (∀ (s : State) (cl k : Nat), cl < 8 → k < 8 →
    (s.core cl k).wpend &&& (s.core cl k).wake ≠ 0 ∨ (s.core cl k).launchPending = true ∨ (s.core cl k).irqPending = true →
    Machine.exec (.wfi cl k) s = .next s ∧
    (s.live = true → (s.core cl k).asleep = true → Machine.exec (.coreWake cl k) s =
      .next ((s.setCore cl k { s.core cl k with asleep := false }).countN (Cnt.cl cl (4 + k)) (20 * (s.now - (s.core cl k).sleepSince))))) ∧
  (∀ (s : State) (cl k : Nat) (mask : DWord), cl < 8 → k < 8 → s.live = true → (s.core cl k).state ≠ .reset →
    Machine.exec (.olswpendClear cl k mask) s = .next (s.setCore cl k { s.core cl k with wpend := (s.core cl k).wpend &&& ~~~ mask })) ∧
  (∀ (s : State) (cl k q : Nat) (v : DWord), cl < 8 → k < 8 → s.live = true → (s.core cl k).state ≠ .reset → q = fld v.toNat 32 8 →
    (s.queue q).state = .running →
    ((s.queue q).producer = cl + 1 → BitVec.ofNat 32 v.toNat ≠ (s.queue q).tail → idxLater (s.queue q).tail (BitVec.ofNat 32 v.toNat) = true →
      (BitVec.ofNat 32 v.toNat - (s.queue q).headIdx).toNat ≤ (s.queue q).size → Machine.exec (.olspush cl k v) s =
        .next ((s.setQueue q { s.queue q with tail := BitVec.ofNat 32 v.toNat }).setCore cl k { s.core cl k with pushResult := 0 })) ∧
    ((s.queue q).producer ≠ cl + 1 → Answers (.olspush cl k v) s fun t => Reported Det.foreignBell
      ((s.setQueue q { s.queue q with foreignBell := satAdd 0xFFFF (s.queue q).foreignBell 1 }).setCore cl k { s.core cl k with pushResult := 1 }) t)) ∧
  (∀ (s : State) (cl k : Nat), cl < 8 → k < 8 → s.live = true → (s.core cl k).state = .idle → Answers (.olsdone cl k) s fun t =>
    Reported Det.strayDone (s.setCl cl { s.cl cl with strayDone := satAdd 0xFFFF (s.cl cl).strayDone 1 }) t) ∧
  (∀ (s : State) (cl k q : Nat) (x : Inflight), cl < 8 → k < 8 → s.live = true → (s.core cl k).state = .busy → (s.core cl k).dirtyAt = [] →
    (s.core cl k).dataUe = none → (s.cl cl).launches = [{ queue := q, tok := x.tok, mask := 2 ^ k }] → (s.queue q).inflight = [x] →
    x.done = none → quietOf x.cmd = false → Answers (.olsdone cl k) s fun t =>
      (t.core cl k).state = .idle ∧ (t.core cl k).launchPending = false ∧ (∀ j, j ≠ k → t.core cl j = s.core cl j) ∧
      (t.cl cl).launches = [] ∧ t.ram = s.ram ∧
      (t.queue q).inflight = [{ x with done := some { status := St.ok, order := s.finished } }]) ∧
  (∀ (s : State) (cl k : Nat), cl < 8 → k < 8 → s.released = true → (s.cl cl).imageValid = true → (s.resetOf (32 + cl)).inReset = none →
    (s.core cl k).state = .reset →
    Machine.exec (.coreReinitialised cl k) s = .next (s.setCore cl k { s.core cl k with state := .idle }))

/-- GO, ARM, DISARM, ABORT, CLEAR and the DMA registers. R371, R373 to R377, R384, R385, R387, R554, R555. -/
def Obligations.DmaRegisterCommands : Prop :=
  (∀ (s : State) (ch : Nat) (c : Channel), ch < 64 → s.released = true → c = s.chan ch → c.software = true → c.state = .idle →
    (s.ring c.active.ring).enabled = true → s.held (320 + ch) = false →
    (c.active.start = 0 → s.xferFault c.active = none → s.narrowPart c.active = none → s.moves c.active ≠ 0 → c.active.remote = false →
      Answers (.dmaGo ch) s fun t => (t.chan ch).state = .running ∧ (t.chan ch).active = c.active ∧ (t.chan ch).progress = 0 ∧
        (t.chan ch).cursor = 0 ∧ (t.chan ch).remote = none ∧ (t.chan ch).done = none ∧ (∀ k, k ≠ ch → t.chan k = s.chan k) ∧
        { t with dma := s.dma } = s) ∧
    (c.active.start ≠ 0 → s.alreadyMet c.active = false →
      Machine.exec (.dmaGo ch) s = .next (s.setChan ch { c with state := .armed, met := none }))) ∧
  (∀ (s : State) (ch : Nat) (c : Channel), ch < 64 → s.released = true → c = s.chan ch → c.software = false ∨ c.state ≠ .idle →
    Answers (.dmaGo ch) s fun t =>
      Reported Det.setRefused (s.setChan ch { c with setRefused := satAdd 0xFFFF c.setRefused 1 }) t) ∧
  (∀ (s : State) (ch : Nat) (c : Channel), ch < 64 → s.released = true → c = s.chan ch → c.software = true → c.shadowArmed = false →
    ((s.ring c.shadow.ring).enabled = true → s.held (320 + ch) = false → c.state ≠ .idle →
      Machine.exec (.dmaArm ch) s = .next (s.setChan ch { c with shadowArmed := true })) ∧
    ((s.ring c.shadow.ring).enabled = true → s.held (320 + ch) = false → c.state = .idle → c.shadow.start ≠ 0 → s.alreadyMet c.shadow = false →
      Machine.exec (.dmaArm ch) s = .next (s.setChan ch { c with active := c.shadow, state := .armed, met := none })) ∧
    ((s.ring c.shadow.ring).enabled = false → Answers (.dmaArm ch) s fun t =>
      Reported Det.setRefused (s.setChan ch { c with cfgRefused := true }) t) ∧
    (Answers (.dmaDisarm ch) s fun t =>
      Reported Det.setRefused (s.setChan ch { c with setRefused := satAdd 0xFFFF c.setRefused 1 }) t)) ∧
  (∀ (s : State) (ch : Nat) (c : Channel), ch < 64 → s.released = true → c = s.chan ch → c.software = true → c.shadowArmed = true →
    Machine.exec (.dmaDisarm ch) s = .next (s.setChan ch { c with shadowArmed := false })) ∧
  (∀ (s : State) (ch : Nat) (c : Channel), ch < 64 → s.released = true → c = s.chan ch → c.software = true →
    c.state = .armed ∨ c.state = .running → Answers (.dmaAbort ch) s fun t =>
      t.chan ch = { c with state := .completing, done := some { status := 0x30, detail := 0xFFFFFFFF }, remote := none, trail := none
                           hostWait := none, hostA := none, hostB := none } ∧
      (∀ k, k ≠ ch → t.chan k = s.chan k) ∧ t.dma.holder = (if s.dma.holder = some ch then none else s.dma.holder) ∧
      { t with dma := s.dma } = s) ∧
  (∀ (s : State) (ch : Nat) (c : Channel), ch < 64 → s.released = true → c = s.chan ch →
    (c.state = .halted → c.shadowArmed = false → Machine.exec (.dmaClear ch) s = .next (s.setChan ch { c with state := .idle })) ∧
    (c.state ≠ .halted → Answers (.dmaClear ch) s fun t =>
      Reported Det.setRefused (s.setChan ch { c with setRefused := satAdd 0xFFFF c.setRefused 1 }) t)) ∧
  (∀ (s : State) (ch : Nat) (c : Channel) (v : Word), ch < 64 → s.released = true → c = s.chan ch →
    (c.state = .idle → c.shadowArmed = false → c.trail = none → Machine.exec (.dmaChCfgWrite ch v) s =
      .next (s.setChan ch { c with software := bitAt v.toNat 0, flagged := bitAt v.toNat 1 })) ∧
    (c.state ≠ .idle ∨ c.shadowArmed = true ∨ c.trail.isSome = true → Answers (.dmaChCfgWrite ch v) s fun t =>
      Reported Det.setRefused (s.setChan ch { c with cfgRefused := true }) t)) ∧
  (∀ (s : State) (v : Word), s.released = true →
    (s.dmaQuiet = true → Machine.exec (.dmaShareWrite v) s = .next { s with dma.serial := bitAt v.toNat 0, dma.holder := none }) ∧
    (s.dmaQuiet = false → Answers (.dmaShareWrite v) s fun t => Reported Det.setRefused { s with dma.shareRefused := true } t)) ∧
  (∀ (s : State) (w : Nat) (v : DWord) (x y : LandWin), w < 64 → s.released = true → x = s.landWin w →
    y = { x with enable := bitAt v.toNat 0, window := fld v.toNat 1 6, tally := fld v.toNat 7 12, inc := fld v.toNat 19 3
                 source := fld v.toNat 22 10, anySource := bitAt v.toNat 32 } →
    (bitAt v.toNat 0 = false ∨ x.enable = false ∧ s.mayLand y = true → Machine.exec (.dmaLandCtrlWrite w v) s = .next (s.setLandWin w y)) ∧
    (bitAt v.toNat 0 = true → x.enable = true → Machine.exec (.dmaLandCtrlWrite w v) s = .next s) ∧
    (bitAt v.toNat 0 = true → x.enable = false → s.mayLand y = false →
      Machine.exec (.dmaLandCtrlWrite w v) s = .next { s with dma.landCfgRefused := true }))

/-- DMA starts, bursts, completion and the landing of streams. R375 to R379, R382, R386, R391 to R396. -/
def Obligations.DmaEngineAndLanding : Prop :=
  (∀ (s : State) (ch : Nat) (c : Channel), ch < 64 → s.released = true → c = s.chan ch → c.state = .armed →
    (c.met = some false → Answers (.dmaStart ch) s fun t => (t.chan ch).state = .completing ∧
      (t.chan ch).done = some { status := 0x30, detail := 0xFFFFFFFF } ∧ (∀ k, k ≠ ch → t.chan k = s.chan k) ∧ { t with dma := s.dma } = s) ∧
    (c.met = none → c.active.start ≠ 1 ∨ s.timed = false ∨ s.reached c.active.eventStamp = false → Machine.exec (.dmaStart ch) s = .next s) ∧
    (c.met = some true ∨ (c.met = none ∧ c.active.start = 1 ∧ s.timed = true ∧ s.reached c.active.eventStamp = true) →
      s.xferFault c.active = none → s.narrowPart c.active = none → s.moves c.active ≠ 0 → c.active.remote = false →
      Answers (.dmaStart ch) s fun t => (t.chan ch).state = .running ∧ (t.chan ch).active = c.active ∧ (t.chan ch).progress = 0 ∧
        (t.chan ch).cursor = 0 ∧ (∀ k, k ≠ ch → t.chan k = s.chan k) ∧ { t with dma := s.dma } = s)) ∧
  (∀ (s : State) (ch n ph ph' : Nat) (c : Channel), s.released = true → s.pickChan = some ch →
    (∀ k, (s.chan k).canResend true = false ∧ (s.chan k).canResend false = false) → c = s.chan ch → c.remote = none → c.scrambled = false →
    c.active.bHost = false → n = min (c.active.count - c.cursor) (toBoundary (c.active.dst.toNat + c.cursor)) →
    Writable s (c.active.dst.toNat + c.cursor) n ph' → s.ram.wf = true →
    (c.active.op = 1 → Answers .dmaBurst s fun t =>
      t.ram.readN ph' n = fillBytes c.active c.cursor n ∧ (∀ a, a < ph' ∨ ph' + n ≤ a → t.ram.read a = s.ram.read a) ∧
      (t.chan ch).cursor = c.cursor + n ∧ (t.chan ch).progress = c.progress + n ∧ t.dma.lastIssued = ch ∧
      ∀ k, k ≠ ch → t.chan k = s.chan k) ∧
    (c.active.op = 0 → c.active.aHost = false → c.hostA = none → Readable s (c.active.src.toNat + c.cursor) n ph → Answers .dmaBurst s fun t =>
      t.ram.readN ph' n = s.ram.readN ph n ∧ (∀ a, a < ph' ∨ ph' + n ≤ a → t.ram.read a = s.ram.read a) ∧
      (t.chan ch).cursor = c.cursor + n ∧ (t.chan ch).progress = c.progress + n ∧ t.dma.lastIssued = ch ∧
      ∀ k, k ≠ ch → t.chan k = s.chan k)) ∧
  (∀ (s : State) (ch q : Nat) (c : Channel) (d : Done) (x : Inflight), ch < 64 → s.live = true → c = s.chan ch → c.state = .completing →
    c.done = some d → c.cmd = some (q, x.tok) → (s.queue q).inflight = [x] → x.done = none → quietOf x.cmd = false →
    St.success d.status = true → Machine.exec (.dmaComplete ch) s =
      .next { s.setQueue q { s.queue q with inflight := [{ x with done := some { d with order := s.finished } }], progress := true } with
              finished := s.finished + 1 }) ∧
  (∀ (s : State) (ch ph : Nat) (c : Channel) (g : Ring), ch < 64 → s.live = true → c = s.chan ch → c.state = .completing →
    c.done = some { status := St.ok } → c.cmd = none → c.active.sigInc = 0 → c.shadowArmed = false → g = s.ring c.active.ring →
    g.full = false → Writable s (g.base.toNat + 32 * (g.tail.toNat % g.size)) 32 ph → s.ram.wf = true → Answers (.dmaComplete ch) s fun t =>
      (t.chan ch).state = .idle ∧ (t.chan ch).lastStatus = 0 ∧ (t.ring c.active.ring).tail = g.tail + 1 ∧
      t.ram.readN ph 32 = recordBytes 0xFF (softCommand c.active) { status := St.ok } s.stamp (g.tail.toNat / g.size % 2 == 0) ∧
      (∀ a, a < ph ∨ ph + 32 ≤ a → t.ram.read a = s.ram.read a) ∧ t.queues = s.queues) ∧
  (∀ (s : State) (p i : Nat) (sl : Slot), p < 16 → s.live = true → s.streamAt p = some (i, sl) →
    (s.stream sl.source sl.optag = none → Answers (.streamLanding p) s fun t => Reported Det.streamStray ((s.setPort p { s.port p with
      ingress := (s.port p).ingress.take i ++ (s.port p).ingress.drop (i + 1) }).count (Cnt.dma 2)) t) ∧
    (∀ x a, s.stream sl.source sl.optag = some x → x.completeAt = none →
      a = (s.landWin x.window).base.toNat + sl.segment * 73728 + 576 * sl.slotInSeg → a + sl.payload.length ≤ (s.landWin x.window).limit.toNat →
      (s.landRoom ((pagesOf a sl.payload).map (·.1)) = false → Machine.exec (.streamLanding p) s = .next s) ∧
      (s.landRoom ((pagesOf a sl.payload).map (·.1)) = true → Answers (.streamLanding p) s fun t =>
        (t.port p).ingress = (s.port p).ingress.take i ++ (s.port p).ingress.drop (i + 1) ∧
        ((t.stream sl.source sl.optag).map fun y => Tab.find (y.seg sl.segment).slots sl.slotInSeg) = some (some sl.payload)))) ∧
  (∀ (s : State) (p : Nat), p < 16 → s.streamAt p = none → Machine.exec (.streamLanding p) s = .next s) ∧
  (∀ (s : State) (src tag k : Nat) (x : StreamRx), (Instr.landingSegmentDone src tag k).wf = true → s.live = true → s.stream src tag = some x →
    x.completeAt = none → (x.seg k).passed = false → (x.seg k).gaveUp = false → (x.seg k).checked = .pass →
    (s.dma.landing.any fun y => y.2.source == src && y.2.optag == tag && y.2.seg == k) = false →
    Answers (.landingSegmentDone src tag k) s fun t => ∃ y, t.stream src tag = some y ∧ y.landed = insertAsc k x.landed ∧
      y.completeAt = (if x.total ≤ (insertAsc k x.landed).length then some s.now else none) ∧ t.ram = s.ram) ∧
  (∀ (s : State) (ch : Nat) (r : RemoteTx) (n : Nat), ch < 64 → s.live = true → (s.chan ch).trail = none → (s.chan ch).remote = some r →
    r.granted = 0 → r.reservedAt = some n →
    (n + 4096 * s.dma.streamStall ≤ s.now → Answers (.streamStall ch) s fun t => (t.chan ch).state = .completing ∧
      (t.chan ch).done = some { status := 0x23, detail := 0xFFFFFFFF } ∧ (t.chan ch).remote = none ∧ ∀ k, k ≠ ch → t.chan k = s.chan k) ∧
    (s.now < n + 4096 * s.dma.streamStall → Machine.exec (.streamStall ch) s = .next s)) ∧
  (∀ (s : State) (src tag n : Nat) (x : StreamRx), (Instr.streamEntryExpiry src tag).wf = true → s.stream src tag = some x → x.completeAt = some n →
    (n + 262144 ≤ s.now → Answers (.streamEntryExpiry src tag) s fun t => t.stream src tag = none ∧
      { t with dma.streams := s.dma.streams } = s) ∧
    (s.now < n + 262144 → Machine.exec (.streamEntryExpiry src tag) s = .next s))

/-- Writes of tallies, of their configuration, and of barrier contexts. R398, R405, R406, R420, R421, R557, R558. -/
def Obligations.TalliesAndBarriers : Prop :=
  (∀ (s : State) (t : Nat) (v : DWord), t < 4096 → s.released = true →
    ((s.tally t).abandoned = false → Answers (.tallySet t v) s fun u => u.tally t = { s.tally t with value := v } ∧
      (∀ k, k ≠ t → u.tally k = s.tally k) ∧ u.ram = s.ram ∧ u.queues = s.queues ∧ u.sync.barriers = s.sync.barriers) ∧
    ((s.tally t).abandoned = true → Machine.exec (.tallySet t v) s = .next s)) ∧
  (∀ (s : State) (t : Nat) (v : Word), t < 4096 → s.released = true →
    (∀ o, ownerOf (fld v.toNat 1 2) (fld v.toNat 3 8) = some o →
      ((s.tally t).abandoned = false ∨ bitAt v.toNat 31 = true → Machine.exec (.tallyCfgWrite t v) s =
        .next (s.setTally t { s.tally t with remote := bitAt v.toNat 0, owner := o, abandoned := false })) ∧
      ((s.tally t).abandoned = true → bitAt v.toNat 31 = false → Machine.exec (.tallyCfgWrite t v) s = .next s) ∧
      Machine.exec (.tallyRearm t v) s =
        .next (s.setTally t { s.tally t with remote := bitAt v.toNat 0, owner := o, abandoned := false })) ∧
    (ownerOf (fld v.toNat 1 2) (fld v.toNat 3 8) = none → Answers (.tallyRearm t v) s fun u =>
      Reported Det.synCfgRefused { s with sync.cfgRefused := true } u)) ∧
  (∀ (s : State) (b : Nat) (x : Barrier), b < 64 → s.released = true → x = s.barrier b →
    (x.state = .idle → s.mayArm b = true → Machine.exec (.barrierArm b) s =
      .next (s.setBarrier b { x with state := .armed, gen := 0, arrivals := 0, arrived := [], cause := 0 })) ∧
    (x.state = .idle → s.mayArm b = false → Answers (.barrierArm b) s fun u => Reported Det.synCfgRefused { s with sync.cfgRefused := true } u) ∧
    (x.state ≠ .idle → Machine.exec (.barrierArm b) s = .next s) ∧
    (x.state = .armed → x.arrivals = 0 → Machine.exec (.barrierDisarm b) s = .next (s.setBarrier b { x with state := .idle })) ∧
    (x.state = .armed → x.arrivals ≠ 0 → Answers (.barrierDisarm b) s fun u => Reported Det.synCfgRefused { s with sync.cfgRefused := true } u) ∧
    (x.state ≠ .armed → Machine.exec (.barrierDisarm b) s = .next s) ∧
    (x.state = .abandoned → Machine.exec (.barrierRearm b) s =
      .next (s.setBarrier b { x with state := .idle, arrivals := 0, arrived := [], cause := 0 })) ∧
    (x.state ≠ .abandoned → Machine.exec (.barrierRearm b) s = .next s))

/-- Wake wires, remote signals, rebars, the watchdog and the deadlock detector. R401, R402, R412, R413, R416, R423 to R427,
R559. -/
def Obligations.WakesRemotesAndWatchdogs : Prop :=
  (∀ (s : State) (w : Nat) (v : DWord), w < 64 → s.released = true →
    (∀ k, WakeKind.ofCode (fld v.toNat 0 3) = some k → k ≠ .tallyGe → Machine.exec (.wakeSrcWrite w v) s =
      .next (s.setWake w { s.wake w with kind := k, object := fld v.toNat 3 12, step := fld v.toNat 16 32 })) ∧
    (fld v.toNat 0 3 = 1 → (s.wake w).thresh.toNat ≤ (s.tally (fld v.toNat 3 12)).value.toNat → Answers (.wakeSrcWrite w v) s fun t =>
      (t.wake w).thresh = (s.wake w).thresh + BitVec.ofNat 64 (fld v.toNat 16 32) ∧ (t.wake w).kind = .tallyGe ∧
      ∀ cl k, bitAt (s.core cl k).wake.toNat w = true → (t.core cl k).wpend = (s.core cl k).wpend ||| (1#64 <<< w)) ∧
    (6 ≤ fld v.toNat 0 3 → Machine.exec (.wakeSrcWrite w v) s = .next s) ∧
    ((s.wake w).kind ≠ .tallyGe → Machine.exec (.wakeThreshWrite w v) s = .next (s.setWake w { s.wake w with thresh := v }))) ∧
  (∀ (s : State) (v : DWord) (w : Nat), s.released = true → s.wiresOfKind .software = [w] →
    (bitAt v.toNat w = true → Machine.exec (.wakeFire v) s = .next (s.fireWire w)) ∧
    (bitAt v.toNat w = false → Machine.exec (.wakeFire v) s = .next s)) ∧
  (∀ (s : State) (c : Cue), (Instr.remoteSignalMsg c).wf = true →
    (c.at 8 1 ≠ s.epoch → Answers (.remoteSignalMsg c) s fun t => Reported Det.remoteEpoch (s.count (Cnt.syn 0)) t) ∧
    (c.at 8 1 = s.epoch → (s.tally (fld (c.at 0 2) 0 12)).remote = true → (s.tally (fld (c.at 0 2) 0 12)).abandoned = false →
      Answers (.remoteSignalMsg c) s fun t =>
        (t.tally (fld (c.at 0 2) 0 12)).value = (s.tally (fld (c.at 0 2) 0 12)).value + BitVec.ofNat 64 (c.at 4 4) ∧
        (∀ k, k ≠ fld (c.at 0 2) 0 12 → t.tally k = s.tally k) ∧ Tab.get 0 t.sync.rxSeq c.src = (c.seq + 1) % 65536)) ∧
  (∀ (s : State) (c : Cue) (i : Nat) (p : Img.Pair), (Instr.rebar c).wf = true → s.rebarPair c = some (i, p) →
    (c.at 4 1 ≠ s.epoch ∨ c.at 16 5 % 2 ^ 38 ≠ s.phrase → Answers (.rebar c) s fun t => Reported Det.rebarStray (s.count (Cnt.syn 7)) t) ∧
    (c.at 4 1 = s.epoch → c.at 16 5 % 2 ^ 38 = s.phrase → (s.tally p.consTally).value = BitVec.ofNat 64 (c.at 8 8) →
      Machine.exec (.rebar c) s = .next { s with sync.rebarSeen := insertAsc i s.sync.rebarSeen }) ∧
    (c.at 4 1 = s.epoch → c.at 16 5 % 2 ^ 38 = s.phrase → (s.tally p.consTally).abandoned = false →
      (s.tally p.consTally).value.toNat < c.at 8 8 → c.at 8 8 < 2 ^ 62 → c.at 8 8 ≤ (s.tally p.consTally).value.toNat + p.tol →
      Answers (.rebar c) s fun t => (t.tally p.consTally).value = BitVec.ofNat 64 (c.at 8 8) ∧
        (∀ k, k ≠ p.consTally → t.tally k = s.tally k) ∧ t.counter (Cnt.syn 5) = risen (s.counter (Cnt.syn 5)) 1)) ∧
  (∀ (s : State) (q : Nat), q < 256 → (s.queue q).state = .running → (s.queue q).watchdog ≠ 0 → (s.queue q).watchdog ≤ (s.queue q).stalled →
    s.headWaits q = none → (s.queue q).inflight = [] → Reacts s Det.watchdog (.queue q) (64 + q) → Answers (.watchdog q) s fun t =>
      ButReports (containedBy (s.setQueue q { s.queue q with stalled := 0 }) Det.watchdog (64 + q)) t ∧
      t.counter (Cnt.syn 9) = risen (s.counter (Cnt.syn 9)) 1) ∧
  (∀ (s : State) (q : Nat), q < 256 → (s.queue q).state ≠ .running ∨ (s.queue q).watchdog = 0 ∨ (s.queue q).stalled < (s.queue q).watchdog →
    Machine.exec (.watchdog q) s = .next s) ∧
  (∀ s : State, s.blocked = true → s.sync.dlDisarmed = false → s.sync.dlWindow * 4096 ≤ s.sync.dlCount → s.sync.dlBreak = false →
    Reacts s Det.deadlock .sync 49 → Answers .deadlock s fun t =>
      ButReports (containedBy { s with
        sync.dlReport := s.sync.dlMask
        sync.dlWaitObj := (s.sync.dlMask.filterMap fun q => (s.headWaits q).map fun o => (q, o)).map fun x => (x.1, waitObj x.2)
        sync.dlCount := 0, sync.dlDisarmed := true } Det.deadlock 49) t) ∧
  (∀ (s : State) (v : Word), s.released = true → fld v.toNat 0 16 ≠ 0 → Machine.exec (.dlCfgWrite none v) s =
    .next { s with sync.dlWindow := fld v.toNat 0 16, sync.dlBreak := bitAt v.toNat 16, sync.dlCount := 0 }) ∧
  (∀ (s : State) (i : Nat) (v : Word), (Instr.dlCfgWrite (some i) v).wf = true → s.released = true → Answers (.dlCfgWrite (some i) v) s fun t =>
    (∀ q, q ∈ t.sync.dlMask ↔ (q / 32 = i ∧ bitAt v.toNat (q % 32) = true) ∨ (q / 32 ≠ i ∧ q ∈ s.sync.dlMask)) ∧ t.sync.dlCount = 0 ∧
    { t with sync := s.sync } = s)

/-- Doorbells, command fetch and completion records. R204, R206, R207, R217 to R219, R221, R222. -/
def Obligations.DoorbellFetchAndRecord : Prop :=
  (∀ (s : State) (q : Nat) (v : Word) (x : Queue), q < 256 → s.live = true → x = s.queue q →
    (x.producer = 0 → x.state ≠ .disabled → x.state ≠ .resetting →
      (v = x.tail → Machine.exec (.doorbell q v) s = .next s) ∧
      (1 ≤ (v - x.tail).toNat → (v - x.tail).toNat ≤ 2 ^ 31 - 1 → (v - x.headIdx).toNat ≤ x.size →
        Machine.exec (.doorbell q v) s = .next (s.setQueue q { x with tail := v })) ∧
      (v ≠ x.tail → x.size < (v - x.headIdx).toNat → x.state = .halted → Reacts s Det.badDoorbell (.queue q) (64 + q) →
        Answers (.doorbell q v) s fun t => ButReports (containedBy s Det.badDoorbell (64 + q)) t)) ∧
    (x.producer ≠ 0 ∨ x.state = .disabled ∨ x.state = .resetting → Answers (.doorbell q v) s fun t =>
      Reported Det.foreignBell (s.setQueue q { x with foreignBell := satAdd 0xFFFF x.foreignBell 1 }) t)) ∧
  (∀ (s : State) (q ph n : Nat) (i : Word) (x : Queue), q < 256 → s.released = true → x = s.queue q → x.state = .running →
    (x.fetched.length < 8 → (∀ f ∈ x.fetched, f.ue = none) → i = x.fetch + BitVec.ofNat 32 x.fetched.length →
      1 ≤ (x.tail - i).toNat → (x.tail - i).toNat ≤ 2 ^ 31 - 1 → n = x.fetchCount i →
      Readable s (x.base.toNat + 64 * (i.toNat % x.size)) (64 * n) ph → Answers (.commandFetch q) s fun t =>
        (t.queue q).fetched = x.fetched ++ commandsIn n i (s.ram.readN ph (64 * n)) ∧ (t.queue q).fetch = x.fetch ∧
        (t.queue q).tail = x.tail ∧ (∀ k, k ≠ q → t.queue k = s.queue k) ∧ t.ram = s.ram) ∧
    (8 ≤ x.fetched.length ∨ (x.fetched = [] ∧ x.fetch = x.tail) → Machine.exec (.commandFetch q) s = .next s)) ∧
  (∀ (s : State) (q r ph : Nat) (idx : Word) (x : Inflight) (d : Done) (g : Ring), q < 256 → s.live = true →
    (s.queue q).inflight = [x] → x.idx = idx → x.done = some d → x.chan = none → (s.queue q).state = .running →
    (s.queue q).fetch ≠ (s.queue q).tail → (s.queue q).pin = [] → ((s.queue q).fetch - (s.queue q).headWritten).toNat < 16 →
    r = s.recordRing q x d → s.earlierRecord r d.order = false → g = s.ring r → g.enabled = true →
    (g.full = true → Machine.exec (.commandComplete q idx) s = .next s) ∧
    (g.full = false → g.irqCount = 0 → opcodeOf x.cmd ≠ 0x61 → s.wiresOf .ring r = [] →
      Writable s (g.base.toNat + 32 * (g.tail.toNat % g.size)) 32 ph → s.ram.wf = true →
      Answers (.commandComplete q idx) s fun t =>
        t.ram.readN ph 32 = recordBytes q x d s.stamp (g.tail.toNat / g.size % 2 == 0) ∧
        (∀ a, a < ph ∨ ph + 32 ≤ a → t.ram.read a = s.ram.read a) ∧
        (t.ring r).tail = g.tail + 1 ∧ (t.ring r).head = g.head ∧ (∀ k, k ≠ r → t.ring k = s.ring k) ∧
        (t.queue q).inflight = [] ∧ (∀ k, k ≠ q → t.queue k = s.queue k) ∧
        (St.success d.status = true → sigInc x.cmd ≠ 0 → (s.tally (sigTally x.cmd)).abandoned = false →
          (t.tally (sigTally x.cmd)).value = (s.tally (sigTally x.cmd)).value + BitVec.ofNat 64 (sigInc x.cmd)) ∧
        (∀ k, k ≠ sigTally x.cmd ∨ sigInc x.cmd = 0 ∨ St.success d.status = false → t.tally k = s.tally k)))

/-- ENABLE, DISABLE, SUSPEND, RESUME, RESET, Q_FETCH and Q_WATCHDOG. R201, R202, R226, R227, R544, R545. -/
def Obligations.QueueControl : Prop :=
  (∀ (s : State) (q : Nat) (v : Word) (x y : Queue), q < 256 → s.released = true → x = s.queue q → v.toNat % 32 = 1 →
    y = { x with producer := fld v.toNat 8 4, errRing := fld v.toNat 16 6, errContinue := bitAt v.toNat 24 } →
    (x.state = .disabled → fld v.toNat 8 4 ≤ 8 → (s.setQueue q y).mayEnable q = true → Machine.exec (.qCtrlEnable q v) s =
      .next (s.setQueue q { y with
        state := .running, tail := x.initIndex, fetch := x.initIndex, headWritten := x.initIndex, haltCause := .none
        stalled := 0, progress := false, pin := [], fetched := [], head := none })) ∧
    (x.state = .disabled → fld v.toNat 8 4 ≤ 8 → (s.setQueue q y).mayEnable q = false → Answers (.qCtrlEnable q v) s fun t =>
      Reported Det.qCfgRefused (s.setQueue q { y with cfgRefused := true }) t) ∧
    (x.state = .disabled → 8 < fld v.toNat 8 4 → Machine.exec (.qCtrlEnable q v) s = .next s) ∧
    (x.state ≠ .disabled → Answers (.qCtrlEnable q v) s fun t =>
      Reported Det.badCtrl (s.setQueue q { x with badCtrl := satAdd 0xFFFF x.badCtrl 1 }) t)) ∧
  (∀ (s : State) (q : Nat) (v : Word) (x : Queue), q < 256 → s.released = true → x = s.queue q → v.toNat % 32 = 2 →
    (x.state = .running → x.empty = true → Machine.exec (.qCtrlDisable q v) s = .next (s.setQueue q { x with state := .disabled })) ∧
    ((x.state = .running ∧ x.empty = false) ∨ x.state = .suspended ∨ x.state = .halted ∨ x.state = .resetting →
      Answers (.qCtrlDisable q v) s fun t =>
        Reported Det.badCtrl (s.setQueue q { x with badCtrl := satAdd 0xFFFF x.badCtrl 1 }) t)) ∧
  (∀ (s : State) (q ph : Nat) (v : Word) (x : Queue), q < 256 → s.released = true → x = s.queue q → v.toNat % 32 = 4 →
    (x.state = .running → Writable s x.headAddr.toNat 8 ph → s.ram.wf = true → Answers (.qCtrlSuspend q v) s fun t =>
      t.queue q = { x with state := .suspended, headWritten := x.headIdx } ∧ (∀ k, k ≠ q → t.queue k = s.queue k) ∧
      t.ram.readN ph 8 = leBytes x.headIdx.toNat 8 ∧ (∀ a, a < ph ∨ ph + 8 ≤ a → t.ram.read a = s.ram.read a)) ∧
    (x.state ≠ .running → x.state ≠ .disabled → Answers (.qCtrlSuspend q v) s fun t =>
      Reported Det.badCtrl (s.setQueue q { x with badCtrl := satAdd 0xFFFF x.badCtrl 1 }) t)) ∧
  (∀ (s : State) (q : Nat) (v : Word) (x : Queue), q < 256 → s.released = true → x = s.queue q → v.toNat % 32 = 8 →
    x.state = .suspended ∨ x.state = .halted →
    (s.held (64 + q) = false → Machine.exec (.qCtrlResume q v) s = .next (s.setQueue q { x with state := .running })) ∧
    (s.held (64 + q) = true → Answers (.qCtrlResume q v) s fun t =>
      Reported Det.qCfgRefused (s.setQueue q { x with cfgRefused := true }) t)) ∧
  (∀ (s : State) (q : Nat) (v : Word) (x : Queue), q < 256 → s.released = true → x = s.queue q → v.toNat % 32 = 16 →
    x.state = .suspended ∨ x.state = .halted →
    (x.hasCollective = true → Answers (.qCtrlReset q v) s fun t =>
      Reported Det.resetRefused (s.setQueue q { x with resetRefused := true }) t) ∧
    (x.inflight = [] → Answers (.qCtrlReset q v) s fun t =>
      (t.queue q).state = .disabled ∧ (t.queue q).sregs = [] ∧ (t.queue q).pin = [] ∧ (t.queue q).fetched = [] ∧
      (t.queue q).inflight = [] ∧ (t.queue q).headWritten = x.fetch ∧
      ∀ k, (s.tally k).owner = .queue q → (t.tally k).abandoned = true)) ∧
  (∀ (s : State) (q : Nat) (v : Word) (x : Queue), q < 256 → s.released = true → x = s.queue q →
    (x.state = .suspended ∨ x.state = .halted → idxAtOrLater x.headIdx v = true → idxAtOrLater v x.tail = true →
      Machine.exec (.qFetchWrite q v) s = .next (s.setQueue q { x with fetch := v, fetched := [], head := none })) ∧
    ((x.state ≠ .suspended ∧ x.state ≠ .halted) ∨ idxAtOrLater x.headIdx v = false ∨ idxAtOrLater v x.tail = false →
      Answers (.qFetchWrite q v) s fun t => Reported Det.qCfgRefused (s.setQueue q { x with cfgRefused := true }) t) ∧
    Machine.exec (.qWatchdogWrite q v) s = .next (s.setQueue q { x with watchdog := fld v.toNat 0 16, stalled := 0 }))

/-- Completion rings: ENABLE, DISABLE, CR_HEAD and the interrupt delay. R220, R222, R224, R547. -/
def Obligations.CompletionRings : Prop :=
  (∀ (s : State) (r : Nat) (g : Ring), r < 64 → s.released = true → g = s.ring r →
    (g.enabled = true → Machine.exec (.crCtrlEnable r) s = .next s) ∧
    (g.enabled = false → pow2Between g.size 64 65536 = true → g.base.toNat % 2048 = 0 → s.oneRmwRegion g.base.toNat (32 * g.size) = true →
      Machine.exec (.crCtrlEnable r) s =
        .next (s.setRing r { g with tail := 0, head := 0, enabled := true, unsignalled := 0, oldest := none })) ∧
    (g.enabled = false → pow2Between g.size 64 65536 = false ∨ g.base.toNat % 2048 ≠ 0 ∨ s.oneRmwRegion g.base.toNat (32 * g.size) = false →
      Machine.exec (.crCtrlEnable r) s = .next (s.setRing r { g with tail := 0, head := 0, cfgRefused := true })) ∧
    (s.ringNamed r = false → Machine.exec (.crCtrlDisable r) s = .next (s.setRing r { g with enabled := false })) ∧
    (s.ringNamed r = true → Machine.exec (.crCtrlDisable r) s = .next (s.setRing r { g with cfgRefused := true })) ∧
    (∀ v : Word, (idxLater v g.head = false → idxLater g.tail v = false →
        Machine.exec (.crHeadWrite r v) s = .next (s.setRing r { g with head := v })) ∧
      (idxLater v g.head = true ∨ idxLater g.tail v = true →
        Machine.exec (.crHeadWrite r v) s = .next (s.setRing r { g with headRefused := true })))) ∧
  (∀ (s : State) (r b : Nat) (g : Ring), r < 64 → s.live = true → g = s.ring r → g.oldest = some b →
    (g.irqCount ≠ 0 → g.irqDelay ≠ 0 → b + 64 * g.irqDelay ≤ s.now → Machine.exec (.crIrqDelay r) s =
      .next ((s.setRing r { g with unsignalled := 0, oldest := none }).fire g.vector)) ∧
    (g.irqCount = 0 ∨ g.irqDelay = 0 ∨ s.now < b + 64 * g.irqDelay → Machine.exec (.crIrqDelay r) s = .next s)) ∧
  (∀ (s : State) (r : Nat), r < 64 → (s.ring r).oldest = none → Machine.exec (.crIrqDelay r) s = .next s)

/-- RESERVE, CONFIRM, RELEASE and SEGMENT_RETRY of collectives. R279 to R281, R310, R312, R324. -/
def Obligations.WindowMessages : Prop :=
  (∀ (s : State) (p g n : Nat) (m : Cue) (c : Coll), p < 16 → okCue m = true → s.live = true → m.neighbour = true → s.gangOf p = some g →
    s.ce.muted.contains (m.at 0 1, fld (m.at 2 2) 0 12) = false → s.coll (m.at 0 1) (fld (m.at 2 2) 0 12) = some c →
    (∀ i, (numbered 0 c.inputs).find? (fun x => sameLeg m g x.2.gang x.2.route x.2.down) = some (n, i) → i.down = false →
      Machine.exec (.windowReserve p m) s = .next (s.putColl { c with inputs := modAt (fun i => { i with heard := true }) n c.inputs })) ∧
    ((numbered 0 c.inputs).find? (fun x => sameLeg m g x.2.gang x.2.route x.2.down) = none →
      Machine.exec (.windowReserve p m) s = .next s) ∧
    (∀ o, c.outputOf g m = some (n, o) →
      (m.at 8 4 = 0 ∨ 64 < m.at 8 4 → Answers (.windowConfirm p m) s fun t => Reported Det.windowProto s t) ∧
      (m.at 8 4 ≠ 0 → m.at 8 4 ≤ 64 → s.sends c o = true → s.cueRoom o.gang false = true → Answers (.windowConfirm p m) s fun t =>
        t.ce = (s.putColl { c with outputs := modAt (fun o => { o with granted := some (m.at 8 4) }) n c.outputs }).ce ∧
        ∃ r, (t.cueQueue o.gang).items = (s.cueQueue o.gang).items ++ [(false, r)] ∧ r.typ = 0x10 ∧ r.neighbour = true ∧
          r.body = windowBody c o.route o.down (s.outTotal c o) 0) ∧
      (m.at 8 4 < o.released ∨ (if s.sends c o then o.seg else s.outTotal c o) < m.at 8 4 →
        Answers (.windowRelease p m) s fun t => Reported Det.windowProto s t) ∧
      (o.released ≤ m.at 8 4 → m.at 8 4 ≤ (if s.sends c o then o.seg else s.outTotal c o) → c.inputs = [] → c.keep = none →
        c.sized = false → Machine.exec (.windowRelease p m) s =
          .next (s.putColl { c with outputs := modAt (fun o => { o with released := m.at 8 4 }) n c.outputs })) ∧
      (o.down = false → m.at 12 1 ≠ 3 → m.at 8 4 ∈ c.segsOn (s.streamsOf c) o.stream → m.at 8 4 / s.streamsOf c < o.seg →
        (o.resend.any fun r => r.1 == m.at 8 4) = false → s.collOf c.queue c.tok = some c → Answers (.segmentRetry p m) s fun t =>
          ButReports (s.putColl { c with outputs := modAt (fun o => { o with resend := o.resend ++ [(m.at 8 4, 0)] }) n c.outputs }) t ∧
          t.counter (Cnt.ce (c.part % 4) 7) = risen (s.counter (Cnt.ce (c.part % 4) 7)) 1)) ∧
    (c.outputOf g m = none → Machine.exec (.windowConfirm p m) s = .next s ∧ Machine.exec (.windowRelease p m) s = .next s ∧
      Machine.exec (.segmentRetry p m) s = .next s)) ∧
  (∀ (s : State) (p g : Nat) (m : Cue), p < 16 → okCue m = true → s.live = true → m.neighbour = true → s.gangOf p = some g →
    s.ce.muted.contains (m.at 0 1, fld (m.at 2 2) 0 12) = true → Machine.exec (.windowReserve p m) s = .next s ∧
      Machine.exec (.windowConfirm p m) s = .next s ∧ Machine.exec (.windowRelease p m) s = .next s ∧
      Machine.exec (.segmentRetry p m) s = .next s) ∧
  (∀ (s : State) (p g : Nat) (m : Cue), p < 16 → okCue m = true → s.live = true → m.neighbour = true → s.gangOf p = some g →
    s.ce.muted.contains (m.at 0 1, fld (m.at 2 2) 0 12) = false → s.coll (m.at 0 1) (fld (m.at 2 2) 0 12) = none →
    s.inPart (m.at 0 1) s.self = true → s.ce.early = [] → m.at 8 4 ≠ 0 → m.at 8 4 ≤ 64 →
    Machine.exec (.windowReserve p m) s = .next s ∧
    Machine.exec (.windowConfirm p m) s = .next { s with ce.early := [{ part := m.at 0 1, optag := fld (m.at 2 2) 0 12, route := m.at 4 2
                                                                        down := bitAt (m.at 1 1) 0, gang := g, window := m.at 8 4 }] })

/-- COMBINE, incomplete segments, retries given up, pitches, kept roots and late operations. R260, R284, R288, R305, R309,
R311, R314, R317. -/
def Obligations.CollectiveEvents : Prop :=
  (∀ (s : State) (part optag k ph : Nat) (c : Coll) (own : List Byte), (Instr.combine part optag k false).wf = true →
    s.coll part optag = some c → s.collOf c.queue c.tok = some c →
    (s.mayCombine c k = false → Machine.exec (.combine part optag k false) s = .next s) ∧
    (s.mayCombine c k = true → Cc.kind c.cmd = .native → Cc.op c.cmd = 0 → c.hostSrc = none →
      (∃ o ∈ c.outputs, o.down = false ∧ o.seg < s.outTotal c o) → c.root ≠ s.self →
      Readable s (Cc.src c.cmd + k * Cc.perSeg c.cmd * Cc.inBytes c.cmd) (c.itemsOf k * Cc.inBytes c.cmd) ph →
      own = Num.packCodes (Num.Fmt.ofCode (Cc.fin c.cmd)) (Num.unpackCodes (Num.Fmt.ofCode (Cc.fin c.cmd)) (c.itemsOf k)
        (s.ram.readN ph (c.itemsOf k * Cc.inBytes c.cmd))) → Answers (.combine part optag k false) s fun t =>
        ∃ c', t.collOf c.queue c.tok = some c' ∧ Tab.find c'.ready k = some (formSeg (c.typeOf k) (c.fallsBack k)
          (c.combineAll k (shuffle s.fresh ((s.upInputs c k).length + 1) (own :: (s.upInputs c k).map (·.payload k)))).1) ∧ t.ram = s.ram) ∧
    (s.mayCombine c k = true → c.adderRetried.contains k = false → Reacts s c.adderDet (.ce c.ceOf) (40 + c.ceOf) →
      Answers (.combine part optag k true) s fun t =>
        ButReports (containedBy (s.putColl { c with adderRetried := k :: c.adderRetried }) c.adderDet (40 + c.ceOf)) t ∧
        t.counter (Cnt.ce c.ceOf 1) = risen (s.counter (Cnt.ce c.ceOf 1)) 1)) ∧
  (∀ (s : State) (part optag k n : Nat) (c : Coll) (i : CInput), (Instr.segmentIncomplete part optag n k).wf = true →
    s.coll part optag = some c → c.input n = some i → c.keep = none → c.sized = true → (i.seg k).passed = false → (i.seg k).gaveUp = false →
    (i.seg k).asked = none →
    (s.isIncomplete i k = true → (i.seg k).retried.contains .slotLost = false → Machine.exec (.segmentIncomplete part optag n k) s =
      .next ((s.putColl (c.setSeg n k { asked := some (.slotLost, 0), retried := .slotLost :: (i.seg k).retried })).sendWindow
        c 0x13 i.gang i.route i.down k 3).1) ∧
    (s.isIncomplete i k = false → s.gangBroken i.gang = false → Machine.exec (.segmentIncomplete part optag n k) s = .next s)) ∧
  (∀ (s : State) (part optag k n d : Nat) (c : Coll) (i : CInput) (cause : RetryCause), (Instr.retryGiveUp part optag n k).wf = true →
    s.coll part optag = some c → s.collOf c.queue c.tok = some c → c.input n = some i → (i.seg k).asked = some (cause, d) →
    (d < 2 ∨ (i.seg k).resent = true → Machine.exec (.retryGiveUp part optag n k) s = .next s) ∧
    (2 ≤ d → (i.seg k).resent = false → i.down = false → c.root ≠ s.self → c.keep = none → c.opcode ≠ 0x40 →
      (∃ o ∈ c.outputs, o.down = false ∧ o.seg < s.outTotal c o) → Answers (.retryGiveUp part optag n k) s fun t =>
        ∃ c' x, t.collOf c.queue c.tok = some c' ∧ c'.failure = c.failure.or (some (cause.status, k)) ∧
          Tab.find c'.ready k = some x ∧ x.poisoned = true ∧ t.fresh = s.fresh + 1)) ∧
  (∀ (s : State) (part optag : Nat) (c : Coll), (Instr.pitchInject part optag).wf = true → s.coll part optag = some c →
    s.collOf c.queue c.tok = some c →
    (c.alg = some .descant ∨ c.groups ≤ c.pitchSent → Machine.exec (.pitchInject part optag) s = .next s) ∧
    (∀ bs, c.alg ≠ some .descant → c.pitchSent < c.groups → Cc.kind c.cmd = .wide → c.keep = none → c.sized = true →
      Cc.srcHost c.cmd = true → c.hostSrc = some bs → s.ctx c.dtree Dop.pitch (dseqOf c.optag c.pitchSent) = none →
      Answers (.pitchInject part optag) s fun t => ∃ c', t.collOf c.queue c.tok = some c' ∧ c'.pitchSent = c.pitchSent + 1 ∧
        t.ram = s.ram)) ∧
  (∀ (s : State) (part optag b : Nat) (c : Coll), (Instr.rootStagingRelease part optag).wf = true → s.coll part optag = some c →
    c.keep = some b →
    (b + 262144 ≤ s.now ∨ (∀ o ∈ c.outputs, o.down = true → s.outTotal c o ≤ o.released) →
      Machine.exec (.rootStagingRelease part optag) s = .next (s.removeColl c)) ∧
    (∀ o ∈ c.outputs, s.now < b + 262144 → o.down = true → o.released < s.outTotal c o →
      Machine.exec (.rootStagingRelease part optag) s = .next s)) ∧
  (∀ (s : State) (dtree optag b part : Nat) (x : DCtx), (Instr.lateDiscard dtree optag).wf = true →
    s.ctx dtree Dop.max (dseqOf optag 15) = some x → x.since = some b → part = ((s.dtree dtree).map (·.part)).getD 0 →
    (b + 262144 ≤ s.now → Answers (.lateDiscard dtree optag) s fun t =>
      ButReports { s.dropCtx dtree Dop.max (dseqOf optag 15) with ce.discarded := (dtree, dseqOf optag 15) :: s.ce.discarded } t ∧
      t.counter (Cnt.ce (part % 4) 4) = risen (s.counter (Cnt.ce (part % 4) 4)) 1) ∧
    (s.now < b + 262144 → Machine.exec (.lateDiscard dtree optag) s = .next s))

/-- Neighbours and members that are lost, and host declarations. R322 to R325, R550. -/
def Obligations.LostMembers : Prop :=
  (∀ (s : State) (x r : Nat), x < 1024 → s.live = true → s.score.member = true → s.beat = 0 → s.ce.lost.contains x = false →
    (s.lostReason x = none → Machine.exec (.neighbourLost x) s = .next s) ∧
    (s.lostReason x = some r → Answers (.neighbourLost x) s fun t => x ∈ t.ce.lost ∧ (∀ y ∈ s.ce.lost, y ∈ t.ce.lost) ∧
      (∀ c ∈ t.ce.colls, s.inPart c.part x = false) ∧ x ∉ t.ce.declared ∧
      ∀ b, (s.barrier b).chorus = true → (s.barrier b).state = .armed → s.inPart (s.barrier b).part x = true →
        (t.barrier b).state = .abandoned ∧ (t.barrier b).cause = 2)) ∧
  (∀ (s : State) (x : Nat), x < 1024 → s.live = false ∨ s.score.member = false ∨ s.beat ≠ 0 ∨ s.ce.lost.contains x = true →
    Machine.exec (.neighbourLost x) s = .next s) ∧
  (∀ (s : State) (p : Nat) (c : Cue), p < 16 → okCue c = true → s.live = true → s.score.member = true →
    (c.at 2 1 ≠ s.epoch → Machine.exec (.memberLost p c) s = .next s) ∧
    (c.at 2 1 = s.epoch → c.at 0 2 % 1024 = s.self → s.tact.state = .locked → Reacts s Det.selfNamedLost .member 48 →
      Answers (.memberLost p c) s fun t => t.tact.state = .steppedOut ∧ t.score.member = false) ∧
    (c.at 2 1 = s.epoch → c.at 0 2 % 1024 ≠ s.self → s.ce.lost.contains (c.at 0 2 % 1024) = true →
      Machine.exec (.memberLost p c) s = .next s) ∧
    (c.at 2 1 = s.epoch → c.at 0 2 % 1024 ≠ s.self → s.ce.lost.contains (c.at 0 2 % 1024) = false →
      Answers (.memberLost p c) s fun t => c.at 0 2 % 1024 ∈ t.ce.lost ∧ (∀ y ∈ s.ce.lost, y ∈ t.ce.lost) ∧
        (∀ k ∈ t.ce.colls, s.inPart k.part (c.at 0 2 % 1024) = false) ∧
        ∀ b, (s.barrier b).chorus = true → (s.barrier b).state = .armed → s.inPart (s.barrier b).part (c.at 0 2 % 1024) = true →
          (t.barrier b).state = .abandoned ∧ (t.barrier b).cause = 2)) ∧
  (∀ (s : State) (v : Word) (x : Nat), s.live = true → x = fld v.toNat 0 10 →
    (bitAt v.toNat 31 = false → Machine.exec (.ceLostDeclare v) s = .next s) ∧
    (bitAt v.toNat 31 = true → s.score.member = false ∨ x = s.self ∨ s.inRoster x = false →
      Machine.exec (.ceLostDeclare v) s = .next { s with ce.declareRefused := true }) ∧
    (bitAt v.toNat 31 = true → s.score.member = true → x ≠ s.self → s.inRoster x = true → s.ce.lost.contains x = false →
      Machine.exec (.ceLostDeclare v) s = .next { s with ce.declared := insertAsc x s.ce.declared }))

/-- Block resets, shadows, recoveries, CLEAR, injection, the mirror and OLS_CTRL. R436, R438 to R442, R444, R451, R527, R561.
-/
def Obligations.FaultCollectorCommands : Prop :=
  (∀ (s : State) (i b : Nat), i < 48 → s.live = true → (s.unit i).state ≠ .out → (s.resetOf i).inReset = some b →
    (s.now < b + 256 → Machine.exec (.blockResetRelease i) s = .next s) ∧
    (b + 256 ≤ s.now → 16 ≤ i → i < 44 → Machine.exec (.blockResetRelease i) s =
      .next (s.setResetOf i { s.resetOf i with inReset := none, shadow := some s.fc.resetShadow })) ∧
    (b + 256 ≤ s.now → i < 16 → (s.port i).state = .down → (s.port i).holdDown = false → Answers (.blockResetRelease i) s fun t =>
      (t.port i).state = .training ∧ (t.port i).since = s.now ∧ (t.resetOf i).inReset = none ∧
      (t.resetOf i).shadow = some s.fc.resetShadow ∧ ∀ k, k ≠ i → t.port k = s.port k ∧ t.resetOf k = s.resetOf k) ∧
    (b + 256 ≤ s.now → 44 ≤ i → Answers (.blockResetRelease i) s fun t => (t.cxl (i - 44)).linkUp = true ∧ (t.resetOf i).inReset = none)) ∧
  (∀ (s : State) (i : Nat), i < 48 → (s.unit i).state = .out ∨ (s.resetOf i).inReset = none →
    Machine.exec (.blockResetRelease i) s = .next s) ∧
  (∀ (s : State) (i : Nat), i < 48 →
    ((s.resetOf i).shadow = some 0 → Machine.exec (.shadowClose i) s = .next (s.setResetOf i { s.resetOf i with shadow := none })) ∧
    ((s.resetOf i).shadow ≠ some 0 → Machine.exec (.shadowClose i) s = .next s)) ∧
  (∀ (s : State) (k : Nat) (g : Target), okTarget k = true → g = s.tgt k →
    (g.state = .contained → g.named = false → s.fc.quietMeasures ≤ g.quiet → Answers (.recovered k) s fun t =>
      ButReports (s.setTgt k { g with state := .serving, recoveries := min 255 (g.recoveries + 1) }) t ∧
      t.counter (Cnt.det Det.recovered) = risen (s.counter (Cnt.det Det.recovered)) 1) ∧
    (g.state ≠ .contained ∨ g.named = true ∨ g.quiet < s.fc.quietMeasures → Machine.exec (.recovered k) s = .next s) ∧
    (s.live = true → k < 48 → g.state = .held → Machine.exec (.fcTgtClear k) s = .next { s with fc.clearRefused := true }) ∧
    (s.live = true → 48 ≤ k ∨ g.state ≠ .held → Machine.exec (.fcTgtClear k) s =
      .next (s.setTgt k { g with recoveries := 0, quiet := 0, state := .serving }))) ∧
  (∀ (s : State) (v : DWord) (u : UnitId) (k : Nat), s.live = true → UnitId.ofCode (fld v.toNat 24 8) (fld v.toNat 16 8) = some u →
    k = fld v.toNat 40 9 →
    (bitAt v.toNat 63 = false → Machine.exec (.fcInject v) s = .next s) ∧
    (bitAt v.toNat 63 = true → fld v.toNat 0 2 = 0 → Answers (.fcInject v) s fun t => ButReports s t ∧
      t.counter (Cnt.det Det.injectC) = risen (s.counter (Cnt.det Det.injectC)) 1) ∧
    (bitAt v.toNat 63 = true → fld v.toNat 0 2 = 1 → okTarget k = true → (s.tgt k).state ≠ .held →
      ((s.tgt k).recoveries < s.fc.recoveryLimit → Answers (.fcInject v) s fun t =>
        ButReports (containedBy s Det.injectU k) t ∧ t.counter (Cnt.det Det.injectU) = risen (s.counter (Cnt.det Det.injectU)) 1) ∧
      (s.fc.recoveryLimit ≤ (s.tgt k).recoveries → Answers (.fcInject v) s fun t =>
        ButReports (s.setTgt k { s.tgt k with state := .held, lastDetector := Det.injectU, named := true }) t)) ∧
    (bitAt v.toNat 63 = true → fld v.toNat 0 2 = 2 → Answers (.fcInject v) s fun t => EntersSafe Det.injectF s t)) ∧
  (∀ (s : State) (v : Word), s.live = true → Machine.exec (.mirrorSelect v) s = .next { s with
    fc.mirrorSel := v, fc.mirrorDone := true, fc.mirrorData := (Tab.find s.fc.mirror (v.toNat % 8192)).filter fun e => e.seq == v }) ∧
  (∀ (s : State) (v : Word), s.live = true →
    (bitAt v.toNat 31 = false → Machine.exec (.olsBlockReset v) s = .next { s with sys.ctrlUnit := fld v.toNat 0 16 }) ∧
    (bitAt v.toNat 31 = true → unitOfId (fld v.toNat 0 16) = none →
      Machine.exec (.olsBlockReset v) s = .next { s with sys.ctrlUnit := fld v.toNat 0 16, sys.blockRefused := true }) ∧
    (∀ i, bitAt v.toNat 31 = true → unitOfId (fld v.toNat 0 16) = some i → i < 48 →
      (s.unit i).state = .in_ ∨ (s.unit i).state = .drain ∨ (s.unit i).state = .quiesced →
      (s.recentResets i < 2 → Answers (.olsBlockReset v) s fun t =>
        (t.resetOf i).inReset = some s.now ∧ (t.resetOf i).shadow = none ∧ s.now ∈ (t.resetOf i).asserted ∧
        (i < 16 → (t.port i).state = .down) ∧ (16 ≤ i → i < 32 → (t.me (i - 16)).topk = none ∧ (t.me (i - 16)).sram = []) ∧
        (44 ≤ i → (t.cxl (i - 44)).linkUp = false ∧ (t.cxl (i - 44)).backed = false) ∧
        ∀ q ∈ queuesOf i, (s.queue q).state = .running → (t.queue q).state = .halted) ∧
      (2 ≤ s.recentResets i → Answers (.olsBlockReset v) s fun t =>
        EntersSafe Det.reactionLoop { s with sys.ctrlUnit := fld v.toNat 0 16 } t)))

/-- Cold reset, release, warm reset, FLR, loss of power and standby power. R448, R449, R453 to R463, R477 to R480, R573, R574.
-/
def Obligations.StartUpAndResets : Prop :=
  (∀ (s : State) (b : Boot), (Instr.coldReset b).wf = true →
    (s.coldDue = false → Machine.exec (.coldReset b) s = .next s) ∧
    (s.coldDue = true → s.stopFlash.selected 1 = none → Answers (.coldReset b) s fun t =>
      t.sys.recovery = true ∧ t.sys.phase = 1 ∧ t.sys.run = false ∧ t.ram = []) ∧
    (s.coldDue = true → s.stopFlash.selected 1 ≠ none → b.fuseOk = false → Answers (.coldReset b) s fun t =>
      t.fc.safe = true ∧ t.sys.unitsOk = false ∧ t.sys.phase = 2 ∧ t.sys.run = false) ∧
    (s.coldDue = true → s.stopFlash.selected 1 ≠ none → s.stopFlash.selected 4 = none → b.fuseOk = true → b.pllOk = true → b.pprOk = true →
      b.phyOk = true → b.fillOk = true → b.sliceFail = [] → b.cxlFail = [] → b.noRoom = [] → Answers (.coldReset b) s fun t =>
        t.sys.phase = 9 ∧ t.sys.run = false ∧ t.sys.safeN = true ∧ t.sys.recovery = false ∧ t.fc.safe = false ∧
        t.mem.fillDone = true ∧ t.ram = [] ∧ t.mem.poison = [] ∧ t.queues = [] ∧ t.tact.pllLocked = true ∧ t.tact.state = .free ∧
        (∀ p, p < 16 → (t.port p).state = .training) ∧ t.pending = s.pending)) ∧
  (∀ s : State,
    (s.live = false ∨ s.sys.phase ≠ 9 ∨ s.mem.fillDone = false ∨ s.sys.unitsOk = false ∨ s.sys.run = true →
      Machine.exec .release s = .next s) ∧
    (s.live = true → s.sys.phase = 9 → s.mem.fillDone = true → s.sys.unitsOk = true → s.sys.run = false → s.selected 4 = none →
      Answers .release s fun t => t.sys.run = true ∧ t.sys.phase = 10 ∧ t.ram = s.ram ∧
        (∀ c k, c < 8 → k < 8 → (s.cl c).imageValid = true → (t.core c k).state = .idle) ∧
        ∀ c k, (s.cl c).imageValid = false → t.core c k = s.core c k)) ∧
  (∀ (s : State) (b : Boot), (Instr.warmReset b).wf = true →
    (s.sys.pwrgd = false ∨ s.sys.recovery = true ∨ s.sys.phase = 0 → Machine.exec (.warmReset b) s = .next s) ∧
    (s.sys.pwrgd = true → s.sys.recovery = false → s.sys.phase ≠ 0 → s.fc.safe = true → Machine.exec (.warmReset b) s =
      .next { s with host := { s.host with linkUp := false, rate := 0, width := 0, flit := false } }) ∧
    (s.live = true → s.sys.recovery = false → s.sys.phase ≠ 0 → s.mem.fillDone = true → s.selected 4 = none → b.fuseOk = true →
      b.pllOk = true → b.phyOk = true → b.sliceFail = [] → b.cxlFail = [] → Answers (.warmReset b) s fun t =>
        t.sys.phase = 9 ∧ t.sys.run = false ∧ t.ram = s.ram ∧ t.mem.poison = s.mem.poison ∧ t.mem.errs = s.mem.errs ∧
        t.mem.t1 = s.mem.t1 ∧ t.mem.fillDone = true ∧ t.queues = [] ∧ t.rings = [] ∧ t.score.member = false ∧ t.tact.state = .free ∧
        t.pending = s.pending)) ∧
  (∀ s : State,
    (s.live = false ∨ s.host.linkUp = false → Machine.exec .flr s = .next s) ∧
    (s.live = true → s.host.linkUp = true → s.sys.run = false → Answers .flr s fun t => Reported Det.flrRx { s with host := s.host.flr } t) ∧
    (s.live = true → s.host.linkUp = true → s.sys.run = true → Answers .flr s fun t =>
      t.queues = [] ∧ t.rings = [] ∧ t.dma.channels = [] ∧ t.dma.windows = [] ∧ t.ce.colls = [] ∧ t.host.linkUp = true ∧
      (∀ k, (s.tally k).owner.hostOrQueue = true → (t.tally k).abandoned = true) ∧
      ∀ k, (s.tally k).owner.hostOrQueue = false → t.tally k = s.tally k)) ∧
  (∀ s : State,
    (s.sys.pwrgd = false → Machine.exec .pwrgdLost s = .next s) ∧
    (s.sys.pwrgd = true → Answers .pwrgdLost s fun t => t.sys.pwrgd = false ∧ t.sys.safeN = false ∧ t.sys.run = false ∧
      t.sys.phase = 0 ∧ t.host.linkUp = false ∧ t.fc.safe = true ∧ t.fc.lastGasp ≠ none ∧ t.ram = s.ram)) ∧
  (∀ s : State,
    (s.sys.vstby = true → Machine.exec .vstbyUp s = .next s) ∧
    (s.sys.vstby = false → Machine.exec .vstbyUp s =
      .next { s with sys.vstby := true, mgmt := { deviceKey := s.mgmt.deviceKey } }) ∧
    (s.sys.vstby = false → Machine.exec .vstbyLoss s = .next s) ∧
    (s.sys.vstby = true → Answers .vstbyLoss s fun t => t.sys.vstby = false ∧ t.fc.lastGasp = none ∧ t.fc.standby = [] ∧
      t.mem.t1Next = 1 ∧ t.mem.t2Next = 1 ∧ t.sys.flashWrite = none ∧ t.mgmt = { deviceKey := s.mgmt.deviceKey } ∧ t.ram = s.ram))

/-- JOIN REQUEST, GO, ADMIT, REFUSE and the expiry of join entries. R469 to R473. -/
def Obligations.Joining : Prop :=
  (∀ (s : State) (p k : Nat) (c : Cue), p < 16 → okCue c = true → s.live = true → k = c.at 2 2 % 1024 →
    (c.dest = s.routeSelf → s.isConvener = false → Machine.exec (.joinRequest p c) s = .next s) ∧
    (∀ e, c.dest = s.routeSelf → s.isConvener = true → Tab.find s.sys.join k = some e → e.eui.toNat ≠ c.at 4 8 →
      Answers (.joinRequest p c) s fun t => Reported Det.joinConflict s t) ∧
    (c.dest = s.routeSelf → s.isConvener = true → (∀ e, Tab.find s.sys.join k = some e → e.eui.toNat = c.at 4 8) →
      (s.refuseReason c = none → s.score.member = true → Machine.exec (.joinRequest p c) s =
        .next { s with sys.join := Tab.put s.sys.join k (joinEntry c none) }) ∧
      (∀ r, s.refuseReason c = some r → Answers (.joinRequest p c) s fun t =>
        Tab.find t.sys.join k = some (joinEntry c (some r)) ∧
        t.counter (Cnt.det Det.rollcallReject) = risen (s.counter (Cnt.det Det.rollcallReject)) 1 ∧ t.score = s.score)) ∧
    (c.dest ≠ s.routeSelf → s.holdsFp (c.at 16 8) = false ∨ s.sys.joinRelayed.contains k = true →
      Machine.exec (.joinRequest p c) s = .next s) ∧
    (c.dest ≠ s.routeSelf → s.holdsFp (c.at 16 8) = true → s.sys.joinRelayed.contains k = false → Machine.exec (.joinRequest p c) s =
      .next ({ s with sys.joinRelayed := insertAsc k s.sys.joinRelayed }.relayCue p c))) ∧
  (∀ s : State, s.live = true →
    (s.score.member = true ∨ s.ready = false ∨ s.sys.admitted = true ∨ Img.convener s.standbyBank ≠ Img.self s.standbyBank →
      Machine.exec .joinGo s = .next s) ∧
    (s.score.member = false → s.ready = true → s.sys.admitted = false → Img.convener s.standbyBank = Img.self s.standbyBank →
      s.score.target = none → Answers .joinGo s fun t => t.sys.admitted = true ∧ t.sys.admitSeen = some s.admitPhrase ∧
        ((s.beatsTo s.admitPhrase).any (fun d => decide (4096 ≤ d)) = true → t.score.target = some s.admitPhrase) ∧
        t.score.member = false ∧ t.ram = s.ram)) ∧
  (∀ (s : State) (p f : Nat) (c : Cue), p < 16 → okCue c = true → s.live = true → bitAt (c.at 1 1) 0 = false → f = fld (c.at 32 8) 0 38 →
    (c.dest = s.routeSelf → s.score.member = true → Machine.exec (.joinAdmit p c) s = .next s) ∧
    (c.dest = s.routeSelf → s.score.member = false → s.score.standby ≠ .ready → Answers (.joinAdmit p c) s fun t =>
      Reported Det.targetRefused { s with score.targetRefused := true } t) ∧
    (c.dest = s.routeSelf → s.score.member = false → s.score.standby = .ready → s.score.target = none →
      (Img.sequence s.standbyBank).toNat = c.at 12 4 → (Img.fingerprint s.standbyBank).toNat = c.at 16 8 →
      c.at 2 2 % 1024 = Img.self s.standbyBank → c.at 4 8 = s.sys.serial.toNat →
      ((s.beatsTo f).any (fun d => decide (4096 ≤ d)) = true → Machine.exec (.joinAdmit p c) s = .next { s with score.target := some f }) ∧
      ((s.beatsTo f).any (fun d => decide (4096 ≤ d)) = false → Answers (.joinAdmit p c) s fun t =>
        Reported Det.targetRefused { s with score.targetPast := true } t)) ∧
    (c.dest ≠ s.routeSelf → s.holdsFp (c.at 16 8) = false → Machine.exec (.joinAdmit p c) s = .next s) ∧
    (c.dest ≠ s.routeSelf → s.holdsFp (c.at 16 8) = true → Machine.exec (.joinAdmit p c) s = .next (s.relayCue p c))) ∧
  (∀ (s : State) (p : Nat) (c : Cue), p < 16 → okCue c = true → s.live = true → bitAt (c.at 1 1) 0 = true →
    s.sys.admitSeen = some (fld (c.at 32 8) 0 38) → Machine.exec (.joinAdmit p c) s = .next s) ∧
  (∀ (s : State) (p : Nat) (c : Cue), p < 16 → okCue c = true → s.live = true →
    (c.dest = s.routeSelf ∨ s.holdsFp (c.at 16 8) = false → Machine.exec (.joinRefuse p c) s = .next s) ∧
    (c.dest ≠ s.routeSelf → s.holdsFp (c.at 16 8) = true → Machine.exec (.joinRefuse p c) s = .next (s.relayCue p c))) ∧
  (∀ (s : State) (m : Nat), m < 1024 →
    (∀ e, Tab.find s.sys.join m = some e → s.live = true → 64 ≤ e.unheard →
      Machine.exec (.joinEntryExpiry m) s = .next { s with sys.join := Tab.del s.sys.join m }) ∧
    (∀ e, Tab.find s.sys.join m = some e → e.unheard < 64 → Machine.exec (.joinEntryExpiry m) s = .next s) ∧
    (Tab.find s.sys.join m = none → Machine.exec (.joinEntryExpiry m) s = .next s))

/-- BAR2 accesses, PTM, completions, timeouts and the host link. R129, R159, R484, R486, R490 to R492, R569. -/
def Obligations.HostPortAccesses : Prop :=
  (∀ (s : State) (off n ph : Nat), n ≤ 4096 →
    (s.host.bar2Size < off + n → Machine.exec (.bar2Read off n) s = .next s) ∧
    (off + n ≤ s.host.bar2Size → s.live = false ∨ s.mem.fillDone = false → Machine.exec (.bar2Read off n) s =
      .next { s with host.barReply := some none, host.barPoison := false }) ∧
    (off + n ≤ s.host.bar2Size → s.live = true → s.mem.fillDone = true → s.backed (s.bar2Addr off) n = true →
      Readable s (s.bar2Addr off) n ph → Answers (.bar2Read off n) s fun t =>
        t.host.barReply = some (some (leNat (s.ram.readN ph n))) ∧ t.host.barPoison = false ∧ t.ram = s.ram ∧ t.queues = s.queues) ∧
    (off + n ≤ s.host.bar2Size → s.live = true → s.mem.fillDone = true → s.backed (s.bar2Addr off) n = false →
      Answers (.bar2Read off n) s fun t => t.host.barReply = some none ∧ t.ram = s.ram ∧
        t.counter Cnt.unbacked = risen (s.counter Cnt.unbacked) 1)) ∧
  (∀ (s : State) (off ph : Nat) (bs : List Byte), bs.length ≤ 4096 →
    (s.host.bar2Size < off + bs.length ∨ s.live = false → ∀ pz, Machine.exec (.bar2Write off bs pz) s = .next s) ∧
    (off + bs.length ≤ s.host.bar2Size → s.live = true → s.mem.fillDone = true → s.backed (s.bar2Addr off) bs.length = true →
      s.strictPart (s.bar2Addr off) bs.length = none → Writable s (s.bar2Addr off) bs.length ph → s.ram.wf = true →
      Answers (.bar2Write off bs false) s fun t => t.ram.readN ph bs.length = bs ∧
        (∀ a, a < ph ∨ ph + bs.length ≤ a → t.ram.read a = s.ram.read a) ∧ t.queues = s.queues) ∧
    (off + bs.length ≤ s.host.bar2Size → s.live = true → Reacts s Det.poisonedTlp .host 50 →
      Answers (.bar2Write off bs true) s fun t => ButReports (containedBy s Det.poisonedTlp 50) t ∧
        t.counter (Cnt.host 2) = risen (s.counter (Cnt.host 2)) 1)) ∧
  (∀ (s : State) (time : DWord),
    (s.live = true → s.host.linkUp = true → Machine.exec (.ptmDialog time) s = .next { s with
      host.ptmMaster := time, host.ptmBeat := s.olsBeat, host.ptmSeq := s.host.ptmSeq + 1 }) ∧
    (s.live = false ∨ s.host.linkUp = false → Machine.exec (.ptmDialog time) s = .next s)) ∧
  (∀ (s : State) (id : Nat) (r : HostRead) (bs : List Byte), s.live = true → s.host.linkUp = true → s.readOf id = some r →
    (bs.length ≠ r.len → Machine.exec (.hostReadCompletion id (.data bs)) s = .next s) ∧
    (∀ ch, bs.length = r.len → r.chan = some ch → (s.chan ch).hostWait = some (r.id, .a) →
      Machine.exec (.hostReadCompletion id (.data bs)) s =
        .next ((s.dropRead r.id).setChan ch { s.chan ch with hostWait := none, hostA := some bs })) ∧
    (∀ c, (c = .unsupported ∨ c = .abort) → r.chan = none → r.cmd = none → Reacts s Det.pcieUncorr .host 50 →
      Answers (.hostReadCompletion id c) s fun t => ButReports (containedBy (s.dropRead r.id) Det.pcieUncorr 50) t ∧
        t.counter (Cnt.host 1) = risen (s.counter (Cnt.host 1)) 1)) ∧
  (∀ (s : State) (id : Nat) (c : HostCpl), s.live = false ∨ s.host.linkUp = false ∨ s.readOf id = none →
    Machine.exec (.hostReadCompletion id c) s = .next s) ∧
  (∀ (s : State) (id : Nat), (∀ r, s.readOf id = some r → s.timedOut r = false) → Machine.exec (.cplTimeout id) s = .next s) ∧
  (∀ (s : State) (id n : Nat) (r : HostRead), s.live = true → s.readOf id = some r → timeoutBeats s.host.cplTimeout = some n →
    r.since + n ≤ s.now → r.chan = none → r.cmd = none → Reacts s Det.cplTimeout .host 50 → Answers (.cplTimeout id) s fun t =>
      ButReports (containedBy (s.dropRead r.id) Det.cplTimeout 50) t ∧ t.counter (Cnt.host 3) = risen (s.counter (Cnt.host 3)) 1) ∧
  (∀ s : State,
    (s.sys.pwrgd = false ∨ s.host.linkUp = false → Machine.exec .hostLinkDown s = .next s) ∧
    (s.sys.pwrgd = true → s.host.linkUp = true → Answers .hostLinkDown s fun t =>
      t.host.linkUp = false ∧ t.host.rate = 0 ∧ t.host.width = 0 ∧ t.host.reads = [] ∧ t.ram = s.ram) ∧
    (s.sys.pwrgd = false → Machine.exec .hostRefclkLoss s = .next s) ∧
    (s.sys.pwrgd = true → s.host.linkUp = true → Answers .hostRefclkLoss s fun t => t.host.linkUp = false ∧ t.host.reads = []) ∧
    (s.sys.pwrgd = true → s.host.linkUp = false → Reacts s Det.hostRefclkLoss .host 50 → Answers .hostRefclkLoss s fun t =>
      ButReports (containedBy s Det.hostRefclkLoss 50) t)) ∧
  (∀ (s : State) (rate width : Nat) (flit : Bool), (Instr.hostLinkUp rate width flit).wf = true →
    (s.sys.pwrgd = true → s.host.linkUp = false → Answers (.hostLinkUp rate width flit) s fun t =>
      ButReports { s with host.linkUp := true, host.rate := rate, host.width := width, host.flit := flit } t) ∧
    (s.sys.pwrgd = false ∨ s.host.linkUp = true → Machine.exec (.hostLinkUp rate width flit) s = .next s)) ∧
  (∀ (s : State) (w : CfgWrite), s.sys.pwrgd = false ∨ s.host.linkUp = false → Machine.exec (.configSpaceWrite w) s = .next s) ∧
  (∀ (s : State) (on : Bool) (n : Nat), s.sys.pwrgd = true → s.host.linkUp = true →
    (Answers (.configSpaceWrite (.bme on)) s fun t => ButReports { s with host.bme := on } t) ∧
    (Answers (.configSpaceWrite (.d3hot on)) s fun t => ButReports { s with host.d3hot := on } t) ∧
    (Answers (.configSpaceWrite (.msixEnable on)) s fun t => ButReports { s with host.msixEnable := on } t) ∧
    (Answers (.configSpaceWrite (.funcMask on)) s fun t => ButReports { s with host.funcMask := on } t) ∧
    (30 ≤ n → n ≤ 39 → Answers (.configSpaceWrite (.bar2Size n)) s fun t => ButReports { s with host.bar2Size := 2 ^ n } t))

/-- BAR0 reads and writes: counters that clear, ranges, split writes, the safe state, MSI-X. R7, R8, R447, R493, R523 to R525,
R549, R560. -/
def Obligations.RegisterAccesses : Prop :=
  (∀ (s : State) (off : Nat), okBar0 off false = true → isCounter off = true → s.sys.pwrgd = true → s.fc.safe = false → s.sys.run = true →
    s.host.latch = none → Machine.exec (.rcRead off false) s = .next { s with
      host.barReply := some (some (s.counter (cntKey off)).toNat), host.barPoison := false
      counters := Tab.put s.counters (cntKey off) 0 }) ∧
  (∀ (s : State) (off : Nat) (wide : Bool), okBar0 off wide = true →
    s.sys.pwrgd = false ∨ (s.fc.safe = true ∧ off ≠ 0 ∧ (off < 0x600000 ∨ 0x640000 ≤ off)) →
    Machine.exec (.rcRead off wide) s = .next { s with host.barReply := some none, host.barPoison := false }) ∧
  (∀ (s : State) (c i : Nat) (member : Bool), c < 4 → s.sys.pwrgd = true → s.fc.safe = false → Tab.get (false, 0) s.ce.lateSel c = (member, i) →
    (Machine.exec (.ceLateRead c false) s = .next { s with
      host.barReply := some (some (s.lateData c).1), host.barPoison := false
      ce.lateLatch := Tab.put s.ce.lateLatch c (BitVec.ofNat 64 (s.lateData c).2) }) ∧
    (member = false → Machine.exec (.ceLateRead c true) s = .next { s with
      host.barReply := some (some (s.lateData1 c)), host.barPoison := false
      ce.lateLatch := Tab.del s.ce.lateLatch c, ce.lateParts := Tab.put s.ce.lateParts i {} }) ∧
    (member = true → Machine.exec (.ceLateRead c true) s = .next { s with
      host.barReply := some (some (s.lateData1 c)), host.barPoison := false
      ce.lateLatch := Tab.del s.ce.lateLatch c, ce.lateMembers := Tab.put s.ce.lateMembers i {} })) ∧
  (∀ (s : State) (off x : Nat) (v : DWord), okBar0 off false = true → s.reg off = some (false, x) → s.live = false →
    off ≠ 0x600008 → off ≠ 0x60000C → off ≠ 0x600024 → Machine.exec (.registerWrite off false v) s = .next s) ∧
  (∀ (s : State) (v : DWord), s.live = true →
    (300 ≤ fld v.toNat 0 10 → fld v.toNat 0 10 ≤ 690 → Machine.exec (.registerWrite 0x20 false v) s =
      .next { s with power.cap := fld v.toNat 0 10 }) ∧
    (fld v.toNat 0 10 < 300 ∨ 690 < fld v.toNat 0 10 → Machine.exec (.registerWrite 0x20 false v) s = .next s) ∧
    (1 ≤ fld v.toNat 0 16 → 1 ≤ fld v.toNat 24 6 → Machine.exec (.registerWrite 0x600010 true v) s = .next { s with
      fc.quietMeasures := fld v.toNat 0 16, fc.recoveryLimit := fld v.toNat 16 8, fc.resetShadow := fld v.toNat 24 6 }) ∧
    (fld v.toNat 0 16 = 0 ∨ fld v.toNat 24 6 = 0 → Machine.exec (.registerWrite 0x600010 true v) s = .next s) ∧
    (∀ p, p < 16 → Machine.exec (.registerWrite (0x20008 + 0x1000 * p) true v) s = .next (s.setPort p { s.port p with eq := v }) ∧
      Machine.exec (.registerWrite (0x20008 + 0x1000 * p) false v) s =
        .next { s with host.lowHalf := some (0x20008 + 0x1000 * p, v.toNat % 2 ^ 32) } ∧
      ∀ lo, s.host.lowHalf = some (0x20008 + 0x1000 * p, lo) → lo < 2 ^ 32 →
        Machine.exec (.registerWrite (0x2000C + 0x1000 * p) false v) s =
          .next { s.setPort p { s.port p with eq := BitVec.ofNat 64 (lo + v.toNat % 2 ^ 32 * 2 ^ 32) } with host.lowHalf := none })) ∧
  (∀ (s : State) (k : Nat) (v : Word) (e : MsixEntry), k < 2048 → s.live = true → e = Tab.get {} s.host.vectors k →
    ∀ (o : Nat) (x : MsixEntry),
      (o = 0 ∧ x = { e with addr := BitVec.ofNat 64 (e.addr.toNat / 2 ^ 32 * 2 ^ 32 + v.toNat) }) ∨
      (o = 4 ∧ x = { e with addr := BitVec.ofNat 64 (e.addr.toNat % 2 ^ 32 + v.toNat * 2 ^ 32) }) ∨
      (o = 8 ∧ x = { e with data := v }) ∨ (o = 12 ∧ x = { e with masked := bitAt v.toNat 0 }) →
      Answers (.msixTableWrite (16 * k + o) v) s fun t => ButReports { s with host.vectors := Tab.put s.host.vectors k x } t)

/-- GET_INFO, last gasp, sensors, rollback, tokens and FLASH_WRITE. R449, R464, R497 to R500, R502 to R505, R508. -/
def Obligations.ManagementCommands : Prop :=
  (∀ (s : State) (r : MReq), (Instr.getInfo r).wf = true → s.pathOpen r.path = true → s.sys.pwrgd = true → s.mgmt.busy = false →
    MgmtEnds (.getInfo r) r s s (0, 0) s.infoBlock ∧ MgmtEnds (.readSensors r) r s s (0, 0) s.sensorBytes ∧
    (∀ g, s.fc.lastGasp = some g → MgmtEnds (.readLastgasp r) r s s (0, 0) (s.gaspBytes g)) ∧
    (s.fc.lastGasp = none → MgmtEnds (.readLastgasp r) r s s (3, 0) []) ∧
    MgmtEnds (.clearLastgasp r) r s { s with fc.lastGasp := none } (0, 0) [] ∧
    (∀ nonce, MgmtEnds (.jtagNonce r nonce) r s { s with mgmt.nonce := some nonce } (0, 0) (leBytes nonce.toNat 32)) ∧
    (s.sys.rollback < s.mgmtArg r 0 → s.mgmtArg r 0 ≤ 128 → s.mgmtArg r 0 ≤ s.sys.fwVersion →
      MgmtEnds (.advanceRollback r) r s { s with sys.rollback := s.mgmtArg r 0 } (0, 0) []) ∧
    (s.mgmtArg r 0 ≤ s.sys.rollback ∨ 128 < s.mgmtArg r 0 ∨ s.sys.fwVersion < s.mgmtArg r 0 →
      MgmtEnds (.advanceRollback r) r s s (2, 0) [])) ∧
  (∀ (s : State) (r : MReq) (k g : Bool) (tok : List Byte), (Instr.jtagUnlock r k g).wf = true → s.pathOpen r.path = true →
    s.sys.pwrgd = true → s.mgmt.busy = false → tok = s.mgmtInput r 256 →
    (8 ≤ s.mgmt.failedTokens → MgmtEnds (.jtagUnlock r k g) r s s (8, 0) [] ∧ MgmtEnds (.revokeKey r k g) r s s (8, 0) []) ∧
    (s.mgmt.failedTokens < 8 → s.tokenFault 1 tok k g = none → MgmtEnds (.jtagUnlock r k g) r s
      { s with mgmt.nonce := none, mgmt.jtag := max s.mgmt.jtag (leAt tok 5 1) } (0, 0) []) ∧
    (∀ n, s.mgmt.failedTokens < 8 → s.tokenFault 1 tok k g = some n → MgmtEnds (.jtagUnlock r k g) r s
      { s with mgmt.nonce := if n ≤ 3 then s.mgmt.nonce else none, mgmt.failedTokens := s.mgmt.failedTokens + 1 } (8, n) []) ∧
    (s.mgmt.failedTokens < 8 → s.tokenFault 2 tok k g = none → leAt tok 6 1 ≠ leAt tok 5 1 →
      s.sys.keyRevoked ||| (1#4 <<< leAt tok 5 1) ≠ 0xF#4 → MgmtEnds (.revokeKey r k g) r s
      { s with mgmt.nonce := none, sys.keyRevoked := s.sys.keyRevoked ||| (1#4 <<< leAt tok 5 1) } (0, 0) []) ∧
    (s.mgmt.failedTokens < 8 → s.tokenFault 2 tok k g = none →
      leAt tok 6 1 = leAt tok 5 1 ∨ s.sys.keyRevoked ||| (1#4 <<< leAt tok 5 1) = 0xF#4 → MgmtEnds (.revokeKey r k g) r s
      { s with mgmt.nonce := none, mgmt.failedTokens := s.mgmt.failedTokens + 1 } (8, 0) [])) ∧
  (∀ (s u : State) (r : MReq) (sigOk : Bool) (failAt : Option Nat) (o a n : Nat) (bs : List Byte), (Instr.flashWrite r sigOk failAt).wf = true →
    s.pathOpen r.path = true → s.sys.pwrgd = true → s.mgmt.busy = false → o = s.mgmtArg r 0 → a = s.mgmtArg r 1 → n = s.mgmtArg r 2 →
    (r.path ≠ .mailbox → MgmtEnds (.flashWrite r sigOk failAt) r s s (4, 3) []) ∧
    (r.path = .mailbox → s.sys.run = false → MgmtEnds (.flashWrite r sigOk failAt) r s s (4, 1) []) ∧
    (r.path = .mailbox → s.sys.run = true → s.mgmt.updating = true → MgmtEnds (.flashWrite r sigOk failAt) r s s (4, 2) []) ∧
    (r.path = .mailbox → s.sys.run = true → s.mgmt.updating = false → 1 ≤ o → o ≤ 4 → a % 2048 = 0 → s.inTier1 a n = true → 4096 ≤ n →
      s.load a n = (u, .data bs) → u.imageFault o n (copyOf bs sigOk) = none → Machine.exec (.flashWrite r sigOk failAt) s = .next { u with
        sys.flash := Tab.del u.sys.flash (flashSlot o (u.inactive o)), mgmt.updating := true, mgmt.busy := true
        sys.flashWrite := some { object := o, copyB := u.inactive o, step := 0, image := copyOf bs sigOk, failAt := failAt, mailbox := true } })) ∧
  (∀ (s : State) (r : MReq), (Instr.getInfo r).wf = true →
    (s.pathOpen r.path = false → Machine.exec (.getInfo r) s = .next s ∧ Machine.exec (.readLastgasp r) s = .next s) ∧
    (s.sys.pwrgd = false → Machine.exec (.getInfo r) s = .next s) ∧
    (s.pathOpen r.path = true → s.sys.pwrgd = true → s.mgmt.busy = true →
      (r.path = .mailbox → Machine.exec (.getInfo r) s = .next s) ∧
      (r.path ≠ .mailbox → Machine.exec (.getInfo r) s = .next { s with mgmt.mctpReply := leBytes 1 1 ++ leBytes 0 4 })) ∧
    (∀ g, s.pathOpen r.path = true → s.sys.pwrgd = false → s.mgmt.busy = false → s.fc.lastGasp = some g →
      MgmtEnds (.readLastgasp r) r s s (0, 0) (s.gaspBytes g)))

/-- PLDM update and sensors, SPDM, MCTP control, the watchdog and the TAP. R430, R497, R500, R501, R506 to R508. -/
def Obligations.ManagementProtocols : Prop :=
  (∀ (s : State) (o : Nat) (im : List Byte) (sigOk : Bool) (failAt : Option Nat), (Instr.pldmFirmwareUpdate o im sigOk failAt).wf = true →
    (s.takesUpdate o = false → Answers (.pldmFirmwareUpdate o im sigOk failAt) s fun t => Reported Det.fwUpdateFail s t) ∧
    (∀ x, s.takesUpdate o = true → s.imageFault o im.length (copyOf im sigOk) = some x →
      Answers (.pldmFirmwareUpdate o im sigOk failAt) s fun t => ButReports s t ∧
        t.counter (Cnt.det Det.fwUpdateFail) = risen (s.counter (Cnt.det Det.fwUpdateFail)) 1) ∧
    (s.takesUpdate o = true → s.imageFault o im.length (copyOf im sigOk) = none →
      Machine.exec (.pldmFirmwareUpdate o im sigOk failAt) s = .next { s with
        sys.flash := Tab.del s.sys.flash (flashSlot o (s.inactive o)), mgmt.updating := true
        sys.flashWrite := some { object := o, copyB := s.inactive o, step := 0, image := copyOf im sigOk, failAt := failAt, mailbox := false } })) ∧
  (∀ (s : State) (code : Nat) (bs : List Byte), s.sys.vstby = true → s.sys.pwrgd = true → s.sys.recovery = false →
    (leAt bs 0 1 = 3 → Machine.exec (.spdmRequest 0xE0 bs) s = .next { s with fresh := s.fresh + 1, mgmt.spdm :=
      0x60#8 :: (leBytes s.sys.rollback 1 ++ leBytes (s.sys.keyRevoked.toNat + 16 * b2n s.sys.signAll) 1 ++ leBytes s.mgmt.jtag 1) }) ∧
    (spdmCodes.contains code = false → (Instr.spdmRequest code bs).wf = true → Answers (.spdmRequest code bs) s fun t =>
      Reported Det.spdmFail { s with mgmt.spdm := [0x7F#8] } t)) ∧
  (∀ (s : State) (v : Nat), s.sys.vstby = true → (Instr.mctpControl 1 v).wf = true →
    (0 < v → v < 255 → Machine.exec (.mctpControl 1 v) s = .next { s with mgmt.eid := v, mgmt.mctpReply := leBytes 0 1 ++ leBytes v 1 }) ∧
    (v = 0 ∨ 255 ≤ v → Machine.exec (.mctpControl 1 v) s = .next { s with mgmt.mctpReply := leBytes 2 1 }) ∧
    Machine.exec (.mctpControl 2 v) s = .next { s with mgmt.mctpReply := leBytes 0 1 ++ leBytes s.mgmt.eid 1 } ∧
    (s.sys.recovery = false → Machine.exec (.pldmPlatformRequest 0x04 v) s =
      .next { s with mgmt.eventReceiver := v, mgmt.mctpReply := leBytes 0 1 }) ∧
    (∀ x, s.sys.recovery = false → Tab.find s.mgmt.sensors v = some x → Machine.exec (.pldmPlatformRequest 0x11 v) s =
      .next { s with mgmt.mctpReply := leBytes 0 1 ++ leBytes x 4 })) ∧
  (∀ (s : State) (code v : Nat), s.sys.vstby = false →
    Machine.exec (.mctpControl code v) s = .next s ∧ Machine.exec (.pldmPlatformRequest code v) s = .next s) ∧
  (∀ (s : State) (id v : Nat), s.sys.vstby = true →
    (s.sys.pwrgd = true → id ∈ analogIds → Answers (.pldmSensorRefresh [(id, v)]) s fun t =>
      Tab.find t.mgmt.sensors id = some v ∧ Tab.find t.mgmt.sensors 20 = some s.tact.state.code ∧
      (id = 1 → t.power.hottest = max s.power.hottest (sext v 16)) ∧ (id ≠ 1 → t.power.hottest = s.power.hottest)) ∧
    (s.sys.pwrgd = false → Machine.exec (.pldmSensorRefresh [(16, v)]) s = .next { s with mgmt.sensors := [(16, v)] }) ∧
    (s.sys.pwrgd = false → id ≠ 16 → Machine.exec (.pldmSensorRefresh [(id, v)]) s = .next { s with mgmt.sensors := [] })) ∧
  (∀ s : State,
    (s.sys.vstby = true → Answers .mcWatchdog s fun t =>
      ButReports { s.stopFlash with mgmt.busy := false, mgmt.restarts := s.mgmt.restarts + 1 } t) ∧
    (s.sys.vstby = false → Machine.exec .mcWatchdog s = .next s)) ∧
  (∀ (s : State) (ir : Nat), ir < 256 → s.sys.pwrgd = true →
    Machine.exec (.tapInstruction 0x01) s = .next { s with mgmt.ir := 0x01, mgmt.dr := s.idcode, mgmt.pinsTaken := false } ∧
    (s.irAllowed ir = false → Machine.exec (.tapInstruction ir) s =
      .next { s with mgmt.ir := 0xFF, mgmt.dr := 0, mgmt.pinsTaken := false }) ∧
    (s.mgmt.jtag = 2 → Machine.exec (.tapInstruction 0x10) s = .next { s with mgmt.ir := 0x10, mgmt.pinsTaken := false })) ∧
  (∀ (s : State) (dr : BitVec 128), s.sys.pwrgd = true →
    (s.mgmt.jtag ≠ 2 ∨ s.mgmt.ir ≠ 0x10 → Machine.exec (.svcAccess dr) s = .next s) ∧
    (s.mgmt.jtag = 2 → s.mgmt.ir = 0x10 → svcBarred (fld dr.toNat 0 24) = true → Machine.exec (.svcAccess dr) s =
      .next { s with mgmt.dr := BitVec.ofNat 128 (fld dr.toNat 0 26 + 2 ^ 27) }) ∧
    (s.mgmt.jtag = 2 → s.mgmt.ir = 0x10 → isCounter (fld dr.toNat 0 24) = true → heldBlock (fld dr.toNat 0 24) = false →
      svcBarred (fld dr.toNat 0 24) = false → bitAt dr.toNat 24 = false → bitAt dr.toNat 25 = false → s.fc.safe = false →
      s.host.latch = none → Machine.exec (.svcAccess dr) s = .next { s with
        counters := Tab.put s.counters (cntKey (fld dr.toNat 0 24)) 0
        mgmt.dr := BitVec.ofNat 128 (fld dr.toNat 0 26 + 2 ^ 26 + (s.counter (cntKey (fld dr.toNat 0 24))).toNat * 2 ^ 64) }))
end

