-- ==== Sys2Proof/Laws/Mem.lean ====
section
/-!
SUPPORT. Laws of the sparse tables and of the byte memory: what a read answers after a write, and that writing keeps the
canonical form.
-/
namespace Sys2Proof.Machine

/-- What reading key `j` gives after `v` was put at key `k`. -/
theorem Tab.get_put {α : Type} (d : α) (t : Tab α) (k j : Nat) (v : α) :
    Tab.get d (Tab.put t k v) j = if k = j then v else Tab.get d t j := by
  induction t with
  | nil => simp [Tab.put, Tab.get]
  | cons x t ih =>
    obtain ⟨k', v'⟩ := x
    simp only [Tab.put]
    split
    · simp [Tab.get]
    · split
      · subst k'; simp [Tab.get]; grind
      · simp only [Tab.get, ih]; grind

@[simp] theorem Tab.get_put_self {α : Type} (d : α) (t : Tab α) (k : Nat) (v : α) : Tab.get d (Tab.put t k v) k = v := by
  simp [Tab.get_put]

theorem Tab.get_put_other {α : Type} (d : α) (t : Tab α) (k j : Nat) (v : α) (h : k ≠ j) :
    Tab.get d (Tab.put t k v) j = Tab.get d t j := by
  simp [Tab.get_put, h]

@[simp] theorem Tab.put_put {α : Type} (t : Tab α) (k : Nat) (v w : α) : Tab.put (Tab.put t k v) k w = Tab.put t k w := by
  induction t with
  | nil => simp [Tab.put]
  | cons x t ih =>
    obtain ⟨k', v'⟩ := x
    simp only [Tab.put]
    split
    · simp [Tab.put]
    · split
      · simp [Tab.put]
      · next h1 h2 => simp [Tab.put, h1, h2, ih]

theorem Tab.sortedFrom_mono {α : Type} (t : Tab α) (a b : Nat) (h : a ≤ b) (hb : Tab.sortedFrom b t = true) :
    Tab.sortedFrom a t = true := by
  cases t with
  | nil => rfl
  | cons x t => simp only [Tab.sortedFrom, Bool.and_eq_true, decide_eq_true_eq] at *; exact ⟨by omega, hb.2⟩

theorem Tab.sortedFrom_put {α : Type} (t : Tab α) (lo k : Nat) (v : α) (h : Tab.sortedFrom lo t = true) (hk : lo ≤ k) :
    Tab.sortedFrom lo (Tab.put t k v) = true := by
  induction t generalizing lo with
  | nil => simp [Tab.put, Tab.sortedFrom, hk]
  | cons x t ih =>
    obtain ⟨k', v'⟩ := x
    simp only [Tab.sortedFrom, Bool.and_eq_true, decide_eq_true_eq] at h
    simp only [Tab.put]
    split
    · simp only [Tab.sortedFrom, Bool.and_eq_true, decide_eq_true_eq]; exact ⟨hk, by omega, h.2⟩
    · split
      · subst k'; simpa [Tab.sortedFrom] using h
      · simp only [Tab.sortedFrom, Bool.and_eq_true, decide_eq_true_eq]; exact ⟨h.1, ih _ h.2 (by omega)⟩

/-- Putting an entry keeps the keys strictly rising. -/
@[simp] theorem Tab.wf_put {α : Type} (t : Tab α) (k : Nat) (v : α) (h : t.wf = true) : (Tab.put t k v).wf = true :=
  Tab.sortedFrom_put t 0 k v h (Nat.zero_le k)

theorem Tab.sortedFrom_del {α : Type} (t : Tab α) (lo k : Nat) (h : Tab.sortedFrom lo t = true) :
    Tab.sortedFrom lo (Tab.del t k) = true := by
  induction t generalizing lo with
  | nil => rfl
  | cons x t ih =>
    obtain ⟨k', v'⟩ := x
    simp only [Tab.sortedFrom, Bool.and_eq_true, decide_eq_true_eq] at h
    simp only [Tab.del]
    split
    · exact Tab.sortedFrom_mono t lo (k' + 1) (by omega) h.2
    · simp only [Tab.sortedFrom, Bool.and_eq_true, decide_eq_true_eq]; exact ⟨h.1, ih _ h.2⟩

theorem Tab.sortedFrom_filter {α : Type} (t : Tab α) (lo : Nat) (f : Nat × α → Bool) (h : Tab.sortedFrom lo t = true) :
    Tab.sortedFrom lo (t.filter f) = true := by
  induction t generalizing lo with
  | nil => rfl
  | cons x t ih =>
    obtain ⟨k', v'⟩ := x
    simp only [Tab.sortedFrom, Bool.and_eq_true, decide_eq_true_eq] at h
    simp only [List.filter_cons]
    split
    · simp only [Tab.sortedFrom, Bool.and_eq_true, decide_eq_true_eq]; exact ⟨h.1, ih _ h.2⟩
    · exact Tab.sortedFrom_mono _ lo (k' + 1) (by omega) (ih _ h.2)

theorem Tab.get_lt {α : Type} (d : α) (t : Tab α) (lo k : Nat) (h : Tab.sortedFrom lo t = true) (hk : k < lo) :
    Tab.get d t k = d := by
  induction t generalizing lo with
  | nil => rfl
  | cons x t ih =>
    obtain ⟨k', v'⟩ := x
    simp only [Tab.sortedFrom, Bool.and_eq_true, decide_eq_true_eq] at h
    simp only [Tab.get, show ¬ k' = k by omega, if_false]
    exact ih _ h.2 (by omega)

theorem Tab.get_del {α : Type} (d : α) (t : Tab α) (lo k j : Nat) (h : Tab.sortedFrom lo t = true) :
    Tab.get d (Tab.del t k) j = if k = j then d else Tab.get d t j := by
  induction t generalizing lo with
  | nil => simp [Tab.del, Tab.get]
  | cons x t ih =>
    obtain ⟨k', v'⟩ := x
    simp only [Tab.sortedFrom, Bool.and_eq_true, decide_eq_true_eq] at h
    simp only [Tab.del]
    split
    · subst k'
      by_cases hj : k = j
      · subst hj; simp [Tab.get_lt d t (k + 1) k h.2 (by omega)]
      · simp [Tab.get, hj]
    · simp only [Tab.get, ih _ h.2]; grind

theorem Tab.mem_put {α : Type} (t : Tab α) (k : Nat) (v : α) (x : Nat × α) (h : x ∈ Tab.put t k v) : x = (k, v) ∨ x ∈ t := by
  induction t with
  | nil => simpa [Tab.put] using h
  | cons y t ih =>
    simp only [Tab.put] at h
    split at h
    · simpa using h
    · split at h <;> simp only [List.mem_cons] at * <;> tauto

theorem Tab.mem_del {α : Type} (t : Tab α) (k : Nat) (x : Nat × α) (h : x ∈ Tab.del t k) : x ∈ t := by
  induction t with
  | nil => exact h
  | cons y t ih =>
    simp only [Tab.del] at h
    split at h <;> simp only [List.mem_cons] at * <;> tauto

/-- The canonical form is kept by a write of one byte. -/
@[simp] theorem Mem.wf_write (m : Mem) (a : Nat) (b : Byte) (h : m.wf = true) : (Mem.write m a b).wf = true := by
  simp only [Mem.wf, Bool.and_eq_true, Mem.noFill, List.all_eq_true, decide_eq_true_eq] at *
  unfold Mem.write
  split
  · exact ⟨Tab.sortedFrom_del m 0 a h.1, fun x hx => h.2 x (Tab.mem_del m a x hx)⟩
  · refine ⟨Tab.wf_put m a b h.1, fun x hx => ?_⟩
    rcases Tab.mem_put m a b x hx with rfl | hm
    · assumption
    · exact h.2 x hm

/-- The canonical form is kept by a write of several bytes. -/
@[simp] theorem Mem.wf_writeN (bs : List Byte) (m : Mem) (a : Nat) (h : m.wf = true) : (Mem.writeN m a bs).wf = true := by
  induction bs generalizing m a with
  | nil => exact h
  | cons b bs ih => exact ih _ _ (Mem.wf_write m a b h)

/-- The canonical form is kept when entries are dropped. -/
@[simp] theorem Mem.wf_filter (m : Mem) (f : Host.Cell → Bool) (h : m.wf = true) : Mem.wf (m.filter f) = true := by
  simp only [Mem.wf, Bool.and_eq_true] at *
  refine ⟨Tab.sortedFrom_filter m 0 f h.1, ?_⟩
  simp only [Mem.noFill, List.all_eq_true] at *
  intro x hx
  exact h.2 x (List.mem_filter.mp hx).1

@[simp] theorem Mem.wf_nil : Mem.wf [] = true := rfl

/-- Read after write: the byte written is read back. -/
@[simp] theorem Mem.read_write_self (m : Mem) (a : Nat) (b : Byte) (h : m.wf = true) : (Mem.write m a b).read a = b := by
  simp only [Mem.wf, Bool.and_eq_true] at h
  unfold Mem.write Mem.read
  split
  · simp [Tab.get_del Mem.fill m 0 a a h.1, *]
  · simp

/-- A write leaves every other address alone. -/
theorem Mem.read_write_other (m : Mem) (a c : Nat) (b : Byte) (h : m.wf = true) (hc : a ≠ c) :
    (Mem.write m a b).read c = m.read c := by
  simp only [Mem.wf, Bool.and_eq_true] at h
  unfold Mem.write Mem.read
  split
  · simp [Tab.get_del Mem.fill m 0 a c h.1, hc]
  · simp [Tab.get_put, hc]

/-- A write of several bytes leaves every address outside them alone. -/
theorem Mem.read_writeN_other (bs : List Byte) (m : Mem) (a c : Nat) (h : m.wf = true)
    (hc : c < a ∨ a + bs.length ≤ c) : (Mem.writeN m a bs).read c = m.read c := by
  induction bs generalizing m a with
  | nil => rfl
  | cons b bs ih =>
    simp only [List.length_cons] at hc
    rw [Mem.writeN, ih _ _ (Mem.wf_write m a b h) (by omega), Mem.read_write_other m a c b h (by omega)]

/-- Reading back the bytes just written gives them. -/
theorem Mem.readN_writeN (bs : List Byte) (m : Mem) (a : Nat) (h : m.wf = true) :
    Mem.readN (Mem.writeN m a bs) a bs.length = bs := by
  induction bs generalizing m a with
  | nil => rfl
  | cons b bs ih =>
    have hw := Mem.wf_write m a b h
    simp only [Mem.writeN, List.length_cons, Mem.readN, ih _ _ hw]
    rw [Mem.read_writeN_other bs _ _ a hw (by omega), Mem.read_write_self m a b h]

/-- A fold of writes keeps the canonical form. -/
theorem Mem.wf_foldl {α : Type} (f : Mem → α → Mem) (hf : ∀ m x, Mem.wf m = true → Mem.wf (f m x) = true) (xs : List α) (m : Mem)
    (h : m.wf = true) : Mem.wf (xs.foldl f m) = true := by
  induction xs generalizing m with
  | nil => exact h
  | cons x xs ih => exact ih _ (hf m x h)

/-- The state a well-formed command answers with. -/
@[simp] theorem within_next (ok : Bool) (s t : State) : within ok s = .next t ↔ ok = true ∧ s = t := by
  unfold within; split <;> simp_all

/-- A fold that keeps a quantity at every element keeps it. -/
theorem foldl_keeps {α β : Type} (g : State → β) (f : State → α → State) (hf : ∀ s x, g (f s x) = g s) (xs : List α) (s : State) :
    g (xs.foldl f s) = g s := by
  induction xs generalizing s with
  | nil => rfl
  | cons x xs ih => simp [ih, hf]

@[simp] theorem foldl_pending {α : Type} (f : State → α → State) (xs : List α) (s : State)
    (hf : ∀ s x, (f s x).pending = s.pending) : (xs.foldl f s).pending = s.pending := foldl_keeps State.pending f hf xs s

@[simp] theorem foldl_ram {α : Type} (f : State → α → State) (xs : List α) (s : State)
    (hf : ∀ s x, (f s x).ram = s.ram) : (xs.foldl f s).ram = s.ram := foldl_keeps State.ram f hf xs s

@[simp] theorem foldl_wf {α : Type} (f : State → α → State) (xs : List α) (s : State)
    (hs : s.ram.wf = true) (hf : ∀ s x, s.ram.wf = true → (f s x).ram.wf = true) : (xs.foldl f s).ram.wf = true := by
  induction xs generalizing s with
  | nil => exact hs
  | cons x xs ih => exact ih _ (hf s x hs)

end Sys2Proof.Machine
end

