-- ==== Sys2Proof/Laws/KeepBase.lean ====
section
/-!
SUPPORT. What the operations leave alone: every one keeps the queue of commands, and the bytes of memory or at least their canonical
form (shared operations: tables, counters, events, memory pages, queues, faults, cues and descant contexts).
-/
namespace Sys2Proof.Machine

/-! ### Machine/Image.lean -/

@[simp] theorem State.setStandby_keeps (s : State) (m : Mem) :
    (State.setStandby s m).pending = s.pending ∧
      (State.setStandby s m).ram = s.ram := by
  simp [State.setStandby, apply_ite State.pending, apply_ite State.ram]

/-! ### Machine/Ops.lean -/

@[simp] theorem State.setPort_keeps (s : State) (p : Nat) (v : Port) :
    (State.setPort s p v).pending = s.pending ∧
      (State.setPort s p v).ram = s.ram := by
  exact ⟨rfl, rfl⟩

@[simp] theorem State.modPort_keeps (s : State) (p : Nat) (f : Port → Port) :
    (State.modPort s p f).pending = s.pending ∧
      (State.modPort s p f).ram = s.ram := by
  exact ⟨rfl, rfl⟩

@[simp] theorem State.setQueue_keeps (s : State) (q : Nat) (v : Queue) :
    (State.setQueue s q v).pending = s.pending ∧
      (State.setQueue s q v).ram = s.ram := by
  exact ⟨rfl, rfl⟩

@[simp] theorem State.modQueue_keeps (s : State) (q : Nat) (f : Queue → Queue) :
    (State.modQueue s q f).pending = s.pending ∧
      (State.modQueue s q f).ram = s.ram := by
  exact ⟨rfl, rfl⟩

@[simp] theorem State.setRing_keeps (s : State) (r : Nat) (v : Ring) :
    (State.setRing s r v).pending = s.pending ∧
      (State.setRing s r v).ram = s.ram := by
  exact ⟨rfl, rfl⟩

@[simp] theorem State.modRing_keeps (s : State) (r : Nat) (f : Ring → Ring) :
    (State.modRing s r f).pending = s.pending ∧
      (State.modRing s r f).ram = s.ram := by
  exact ⟨rfl, rfl⟩

@[simp] theorem State.setCtrl_keeps (s : State) (k : Nat) (v : MemPort) :
    (State.setCtrl s k v).pending = s.pending ∧
      (State.setCtrl s k v).ram = s.ram := by
  exact ⟨rfl, rfl⟩

@[simp] theorem State.modCtrl_keeps (s : State) (k : Nat) (f : MemPort → MemPort) :
    (State.modCtrl s k f).pending = s.pending ∧
      (State.modCtrl s k f).ram = s.ram := by
  exact ⟨rfl, rfl⟩

@[simp] theorem State.setRegion_keeps (s : State) (n : Nat) (v : Region) :
    (State.setRegion s n v).pending = s.pending ∧
      (State.setRegion s n v).ram = s.ram := by
  exact ⟨rfl, rfl⟩

@[simp] theorem State.setCxl_keeps (s : State) (j : Nat) (v : Cxl) :
    (State.setCxl s j v).pending = s.pending ∧
      (State.setCxl s j v).ram = s.ram := by
  exact ⟨rfl, rfl⟩

@[simp] theorem State.modCxl_keeps (s : State) (j : Nat) (f : Cxl → Cxl) :
    (State.modCxl s j f).pending = s.pending ∧
      (State.modCxl s j f).ram = s.ram := by
  exact ⟨rfl, rfl⟩

@[simp] theorem State.setLease_keeps (s : State) (l : Nat) (v : LeaseAcct) :
    (State.setLease s l v).pending = s.pending ∧
      (State.setLease s l v).ram = s.ram := by
  exact ⟨rfl, rfl⟩

@[simp] theorem State.setChan_keeps (s : State) (c : Nat) (v : Channel) :
    (State.setChan s c v).pending = s.pending ∧
      (State.setChan s c v).ram = s.ram := by
  exact ⟨rfl, rfl⟩

@[simp] theorem State.modChan_keeps (s : State) (c : Nat) (f : Channel → Channel) :
    (State.modChan s c f).pending = s.pending ∧
      (State.modChan s c f).ram = s.ram := by
  exact ⟨rfl, rfl⟩

@[simp] theorem State.setLandWin_keeps (s : State) (w : Nat) (v : LandWin) :
    (State.setLandWin s w v).pending = s.pending ∧
      (State.setLandWin s w v).ram = s.ram := by
  exact ⟨rfl, rfl⟩

@[simp] theorem State.setMe_keeps (s : State) (m : Nat) (v : MatrixEngine) :
    (State.setMe s m v).pending = s.pending ∧
      (State.setMe s m v).ram = s.ram := by
  exact ⟨rfl, rfl⟩

@[simp] theorem State.setCl_keeps (s : State) (c : Nat) (v : Cluster) :
    (State.setCl s c v).pending = s.pending ∧
      (State.setCl s c v).ram = s.ram := by
  exact ⟨rfl, rfl⟩

@[simp] theorem State.setCore_keeps (s : State) (c : Nat) (k : Nat) (v : Core) :
    (State.setCore s c k v).pending = s.pending ∧
      (State.setCore s c k v).ram = s.ram := by
  exact ⟨rfl, rfl⟩

@[simp] theorem State.modCore_keeps (s : State) (c : Nat) (k : Nat) (f : Core → Core) :
    (State.modCore s c k f).pending = s.pending ∧
      (State.modCore s c k f).ram = s.ram := by
  exact ⟨rfl, rfl⟩

@[simp] theorem State.setTally_keeps (s : State) (t : Nat) (v : Tally) :
    (State.setTally s t v).pending = s.pending ∧
      (State.setTally s t v).ram = s.ram := by
  exact ⟨rfl, rfl⟩

@[simp] theorem State.setBarrier_keeps (s : State) (b : Nat) (v : Barrier) :
    (State.setBarrier s b v).pending = s.pending ∧
      (State.setBarrier s b v).ram = s.ram := by
  exact ⟨rfl, rfl⟩

@[simp] theorem State.setWake_keeps (s : State) (w : Nat) (v : Wake) :
    (State.setWake s w v).pending = s.pending ∧
      (State.setWake s w v).ram = s.ram := by
  exact ⟨rfl, rfl⟩

@[simp] theorem State.setTgt_keeps (s : State) (t : Nat) (v : Target) :
    (State.setTgt s t v).pending = s.pending ∧
      (State.setTgt s t v).ram = s.ram := by
  exact ⟨rfl, rfl⟩

@[simp] theorem State.setResetOf_keeps (s : State) (i : Nat) (v : ResetState) :
    (State.setResetOf s i v).pending = s.pending ∧
      (State.setResetOf s i v).ram = s.ram := by
  exact ⟨rfl, rfl⟩

@[simp] theorem State.setUnit_keeps (s : State) (i : Nat) (v : UnitReg) :
    (State.setUnit s i v).pending = s.pending ∧
      (State.setUnit s i v).ram = s.ram := by
  exact ⟨rfl, rfl⟩

@[simp] theorem State.modUnit_keeps (s : State) (i : Nat) (f : UnitReg → UnitReg) :
    (State.modUnit s i f).pending = s.pending ∧
      (State.modUnit s i f).ram = s.ram := by
  exact ⟨rfl, rfl⟩

@[simp] theorem State.setCueQueue_keeps (s : State) (g : Nat) (v : CueQueue) :
    (State.setCueQueue s g v).pending = s.pending ∧
      (State.setCueQueue s g v).ram = s.ram := by
  exact ⟨rfl, rfl⟩

@[simp] theorem forEach_pending {α : Type} (xs : List α) (f : α → State → State) (s : State)
    (hf : ∀ x s, (f x s).pending = s.pending) : (forEach xs f s).pending = s.pending := foldl_pending _ xs s fun s x => hf x s

@[simp] theorem forEach_ram {α : Type} (xs : List α) (f : α → State → State) (s : State)
    (hf : ∀ x s, (f x s).ram = s.ram) : (forEach xs f s).ram = s.ram := foldl_ram _ xs s fun s x => hf x s

@[simp] theorem forEach_wf {α : Type} (xs : List α) (f : α → State → State) (s : State) (hs : s.ram.wf = true)
    (hf : ∀ x s, s.ram.wf = true → (f x s).ram.wf = true) : (forEach xs f s).ram.wf = true :=
  foldl_wf _ xs s hs fun s x => hf x s

@[simp] theorem State.onlyIf_pending (s : State) (c : Bool) (f : State → State) :
    (s.onlyIf c f).pending = if c then (f s).pending else s.pending := by unfold State.onlyIf; split <;> rfl

@[simp] theorem State.onlyIf_ram (s : State) (c : Bool) (f : State → State) :
    (s.onlyIf c f).ram = if c then (f s).ram else s.ram := by unfold State.onlyIf; split <;> rfl

@[simp] theorem State.countN_keeps (s : State) (a : Nat) (n : Nat) :
    (State.countN s a n).pending = s.pending ∧
      (State.countN s a n).ram = s.ram := by
  exact ⟨rfl, rfl⟩

@[simp] theorem State.count_keeps (s : State) (a : Nat) :
    (State.count s a).pending = s.pending ∧
      (State.count s a).ram = s.ram := by
  exact ⟨rfl, rfl⟩

@[simp] theorem State.drawn_keeps (s : State) :
    (State.drawn s).pending = s.pending ∧
      (State.drawn s).ram = s.ram := by
  exact ⟨rfl, rfl⟩

@[simp] theorem State.pendVector_keeps (s : State) (v : Nat) :
    (State.pendVector s v).pending = s.pending ∧
      (State.pendVector s v).ram = s.ram := by
  exact ⟨rfl, rfl⟩

@[simp] theorem State.sendVector_keeps (s : State) (v : Nat) :
    (State.sendVector s v).pending = s.pending ∧
      (State.sendVector s v).ram = s.ram := by
  exact ⟨rfl, rfl⟩

@[simp] theorem State.log_keeps (s : State) (e : LogEntry) :
    (State.log s e).pending = s.pending ∧
      (State.log s e).ram = s.ram := by
  exact ⟨rfl, rfl⟩

@[simp] theorem State.countDet_keeps (s : State) (det : Nat) :
    (State.countDet s det).pending = s.pending ∧
      (State.countDet s det).ram = s.ram := by
  exact ⟨rfl, rfl⟩

@[simp] theorem State.eventC'_keeps (s : State) (det : Nat) (unit : UnitId) (tgt : Option Nat) (detail : Nat) (conseq : Bool) (injected : Bool) :
    (State.eventC' s det unit tgt detail conseq injected).pending = s.pending ∧
      (State.eventC' s det unit tgt detail conseq injected).ram = s.ram := by
  simp [State.eventC', apply_ite State.pending, apply_ite State.ram]

@[simp] theorem State.threshSend_pending (b s : State) (d : Nat) (f : State → State) (hf : ∀ s, (f s).pending = s.pending) :
    (State.threshSend b s d f).pending = s.pending := by
  unfold State.threshSend; (repeat' split) <;> simp [hf]

@[simp] theorem State.threshSend_ram (b s : State) (d : Nat) (f : State → State) (hf : ∀ s, (f s).ram = s.ram) :
    (State.threshSend b s d f).ram = s.ram := by
  unfold State.threshSend; (repeat' split) <;> simp [hf]

@[simp] theorem State.eventCN_keeps (a0 : Nat) (a1 : State) (a2 : Nat) (a3 : UnitId) (a4 : Option Nat) (a5 : Nat) (a6 : Bool) (a7 : Bool) :
    (State.eventCN a0 a1 a2 a3 a4 a5 a6 a7).pending = a1.pending ∧
      (State.eventCN a0 a1 a2 a3 a4 a5 a6 a7).ram = a1.ram := by
  induction a0 generalizing a1 a2 a3 a4 a5 a6 a7 with
  | zero => simp [State.eventCN]
  | succ n ih => simp [State.eventCN, ih]

@[simp] theorem State.fire_keeps (s : State) (v : Nat) :
    (State.fire s v).pending = s.pending ∧
      (State.fire s v).ram = s.ram := by
  simp [State.fire, apply_ite State.pending, apply_ite State.ram]

@[simp] theorem State.irqSet_keeps (s : State) (bits : BitVec 6) :
    (State.irqSet s bits).pending = s.pending ∧
      (State.irqSet s bits).ram = s.ram := by
  simp [State.irqSet, apply_ite State.pending, apply_ite State.ram]

@[simp] theorem State.logIrq_keeps (before : State) (s : State) :
    (State.logIrq before s).pending = s.pending ∧
      (State.logIrq before s).ram = s.ram := by
  simp [State.logIrq, apply_ite State.pending, apply_ite State.ram]

@[simp] theorem State.eventC_keeps (s : State) (det : Nat) (unit : UnitId) (detail : Nat) (via : List Nat) :
    (State.eventC s det unit detail via).pending = s.pending ∧
      (State.eventC s det unit detail via).ram = s.ram := by
  simp [State.eventC]

@[simp] theorem State.logU_keeps (s : State) (det : Nat) (unit : UnitId) (tgt : Option Nat) (detail : Nat) (injected : Bool) (bits : BitVec 6) :
    (State.logU s det unit tgt detail injected bits).pending = s.pending ∧
      (State.logU s det unit tgt detail injected bits).ram = s.ram := by
  simp [State.logU]

@[simp] theorem State.contain_keeps (s : State) (det : Nat) (unit : UnitId) (t : Nat) (detail : Nat) (injected : Bool) :
    (State.contain s det unit t detail injected).1.pending = s.pending ∧
      (State.contain s det unit t detail injected).1.ram = s.ram := by
  unfold State.contain; dsimp only
  repeat' (split <;> try (rename_i h; obtain ⟨rfl, -⟩ := Prod.ext_iff.mp h))
  all_goals simp

@[simp] theorem State.eventU_keeps (s : State) (det : Nat) (unit : UnitId) (tgt : Option Nat) (detail : Nat) (via : List Nat) :
    (State.eventU s det unit tgt detail via).1.pending = s.pending ∧
      (State.eventU s det unit tgt detail via).1.ram = s.ram := by
  unfold State.eventU
  (repeat' split) <;> simp

/-! ### Machine/MemOps.lean -/

@[simp] theorem State.unbackedEvent_keeps (s : State) (a : Nat) :
    (State.unbackedEvent s a).pending = s.pending ∧
      (State.unbackedEvent s a).ram = s.ram := by
  simp [State.unbackedEvent]

@[simp] theorem State.repairCand_keeps (s : State) (k : Nat) (pg : Nat) :
    (State.repairCand s k pg).pending = s.pending ∧
      (State.repairCand s k pg).ram = s.ram := by
  simp [State.repairCand, apply_ite State.pending, apply_ite State.ram]

@[simp] theorem State.correct_keeps (s : State) (k : Nat) (a : Nat) (pg : Nat) (n : Nat) (left : List (Nat × Nat)) (errs : List (Nat × Nat)) :
    (State.correct s k a pg n left errs).pending = s.pending ∧
      (s.ram.wf = true → (State.correct s k a pg n left errs).ram.wf = true) := by
  have hf : ∀ (m : Mem) pg fs, m.wf = true → (flipBytes m pg fs).wf = true := fun m pg fs h =>
    Mem.wf_foldl _ (fun m x hm => Mem.wf_write _ _ _ hm) fs m h
  exact ⟨by simp [State.correct, apply_ite State.pending], fun hw => by simp [State.correct, apply_ite State.ram, apply_ite Mem.wf, hf, hw]⟩

@[simp] theorem State.fetchPage_keeps (s : State) (a : Nat) (k : Nat) (pg : Nat) :
    (State.fetchPage s a k pg).1.pending = s.pending ∧
      (s.ram.wf = true → (State.fetchPage s a k pg).1.ram.wf = true) := by
  unfold State.fetchPage
  (repeat' split) <;> (refine ⟨?_, ?_⟩; simp; intro hw; simp [hw])

@[simp] theorem State.loadParts_keeps (s : State) (a1 : List (Nat × Nat)) (a2 : List Byte) :
    (State.loadParts s a1 a2).1.pending = s.pending ∧
      (s.ram.wf = true → (State.loadParts s a1 a2).1.ram.wf = true) := by
  induction a1 generalizing s a2 with
  | nil => exact ⟨rfl, id⟩
  | cons x ps ih =>
    obtain ⟨a, n⟩ := x
    simp only [State.loadParts]
    split
    · exact ⟨rfl, id⟩
    · split <;> (rename_i h; obtain ⟨rfl, -⟩ := Prod.ext_iff.mp h) <;> exact ⟨by simp [ih], fun hw => by simp [ih, hw]⟩

@[simp] theorem State.load_keeps (s : State) (a : Nat) (n : Nat) :
    (State.load s a n).1.pending = s.pending ∧
      (s.ram.wf = true → (State.load s a n).1.ram.wf = true) := by
  refine ⟨?_, ?_⟩; simp [State.load]; intro hw; simp [State.load, hw]

@[simp] theorem State.injectOn_keeps (s : State) (a : Nat) (k : Nat) (pg : Nat) :
    (State.injectOn s a k pg).pending = s.pending ∧
      (State.injectOn s a k pg).ram = s.ram := by
  simp [State.injectOn, apply_ite State.pending, apply_ite State.ram]

@[simp] theorem State.storePage_keeps (s : State) (a : Nat) (k : Nat) (ph : Nat) (bs : List Byte) :
    (State.storePage s a k ph bs).pending = s.pending ∧
      (s.ram.wf = true → (State.storePage s a k ph bs).ram.wf = true) := by
  refine ⟨?_, ?_⟩; simp [State.storePage]; intro hw; simp [State.storePage, hw]

@[simp] theorem State.storeNarrow_keeps (s : State) (a : Nat) (k : Nat) (ph : Nat) (bs : List Byte) :
    (State.storeNarrow s a k ph bs).1.pending = s.pending ∧
      (s.ram.wf = true → (State.storeNarrow s a k ph bs).1.ram.wf = true) := by
  unfold State.storeNarrow; dsimp only
  repeat' (split <;> try (rename_i h; obtain ⟨rfl, -⟩ := Prod.ext_iff.mp h))
  all_goals (refine ⟨?_, ?_⟩; simp [apply_ite State.pending]; intro hw; simp +contextual (maxDischargeDepth := 9) [apply_ite State.ram, apply_ite Mem.wf, hw])

@[simp] theorem State.storePart_keeps (s : State) (a : Nat) (bs : List Byte) :
    (State.storePart s a bs).1.pending = s.pending ∧
      (s.ram.wf = true → (State.storePart s a bs).1.ram.wf = true) := by
  unfold State.storePart
  (repeat' split) <;> (refine ⟨?_, ?_⟩; simp; intro hw; simp [hw])

@[simp] theorem State.storeParts_keeps (s : State) (a1 : List (Nat × Nat)) (a2 : List Byte) :
    (State.storeParts s a1 a2).1.pending = s.pending ∧
      (s.ram.wf = true → (State.storeParts s a1 a2).1.ram.wf = true) := by
  induction a1 generalizing s a2 with
  | nil => exact ⟨rfl, id⟩
  | cons x ps ih =>
    obtain ⟨a, n⟩ := x
    simp only [State.storeParts]
    split <;> (rename_i h; obtain ⟨rfl, -⟩ := Prod.ext_iff.mp h) <;> exact ⟨by simp [ih], fun hw => by simp [ih, hw]⟩

@[simp] theorem State.store_keeps (s : State) (a : Nat) (bs : List Byte) :
    (State.store s a bs).1.pending = s.pending ∧
      (s.ram.wf = true → (State.store s a bs).1.ram.wf = true) := by
  refine ⟨?_, ?_⟩; simp [State.store]; intro hw; simp [State.store, hw]

/-! ### Machine/DmaRegs.lean -/

@[simp] theorem State.scribble_keeps (s : State) (f : Nat → Byte) (xs : List (Nat × Nat)) :
    (State.scribble s f xs).pending = s.pending ∧
      (s.ram.wf = true → (State.scribble s f xs).ram.wf = true) := by
  refine ⟨rfl, fun hw => ?_⟩
  refine Mem.wf_foldl _ (fun m x hm => Mem.wf_foldl _ (fun m i hm => ?_) _ m hm) xs _ hw
  split
  · exact Mem.wf_write _ _ _ hm
  · exact hm

/-! ### Machine/QueueOps.lean -/

@[simp] theorem State.writeHead_keeps (s : State) (q : Nat) :
    (State.writeHead s q).pending = s.pending ∧
      (s.ram.wf = true → (State.writeHead s q).ram.wf = true) := by
  unfold State.writeHead; dsimp only
  repeat' (split <;> try (rename_i h; obtain ⟨rfl, -⟩ := Prod.ext_iff.mp h))
  all_goals (refine ⟨?_, ?_⟩; simp [apply_ite State.pending]; intro hw; simp +contextual (maxDischargeDepth := 9) [apply_ite State.ram, apply_ite Mem.wf, hw])

@[simp] theorem State.headDue_keeps (s : State) (q : Nat) :
    (State.headDue s q).pending = s.pending ∧
      (s.ram.wf = true → (State.headDue s q).ram.wf = true) := by
  refine ⟨?_, ?_⟩; simp [State.headDue, apply_ite State.pending]; intro hw; simp [State.headDue, apply_ite State.ram, apply_ite Mem.wf, hw]

@[simp] theorem State.haltQueue_keeps (s : State) (q : Nat) (cause : HaltCause) (idx : Word) (force : Bool) :
    (State.haltQueue s q cause idx force).pending = s.pending ∧
      (s.ram.wf = true → (State.haltQueue s q cause idx force).ram.wf = true) := by
  refine ⟨?_, ?_⟩; simp [State.haltQueue, apply_ite State.pending]; intro hw; simp [State.haltQueue, apply_ite State.ram, apply_ite Mem.wf, hw]

@[simp] theorem State.failPolicy_keeps (s : State) (q : Nat) (idx : Word) (status : Nat) :
    (State.failPolicy s q idx status).pending = s.pending ∧
      (s.ram.wf = true → (State.failPolicy s q idx status).ram.wf = true) := by
  refine ⟨?_, ?_⟩; simp [State.failPolicy, apply_ite State.pending]; intro hw; simp [State.failPolicy, apply_ite State.ram, apply_ite Mem.wf, hw]

@[simp] theorem State.fireWire_keeps (s : State) (w : Nat) :
    (State.fireWire s w).pending = s.pending ∧
      (State.fireWire s w).ram = s.ram := by
  exact ⟨rfl, rfl⟩

@[simp] theorem State.fireGe_keeps (s : State) (w : Nat) :
    (State.fireGe s w).pending = s.pending ∧
      (State.fireGe s w).ram = s.ram := by
  exact ⟨rfl, rfl⟩

@[simp] theorem State.wakeTally_keeps (s : State) (t : Nat) :
    (State.wakeTally s t).pending = s.pending ∧
      (State.wakeTally s t).ram = s.ram := by
  simp [State.wakeTally, apply_ite State.pending, apply_ite State.ram]

@[simp] theorem State.wakeAbandoned_keeps (s : State) (k : WakeKind) (obj : Nat) :
    (State.wakeAbandoned s k obj).pending = s.pending ∧
      (State.wakeAbandoned s k obj).ram = s.ram := by
  simp [State.wakeAbandoned]

@[simp] theorem State.dlTouch_keeps (s : State) (obj : Nat) :
    (State.dlTouch s obj).pending = s.pending ∧
      (State.dlTouch s obj).ram = s.ram := by
  simp [State.dlTouch, apply_ite State.pending, apply_ite State.ram]

@[simp] theorem State.sigDropped_keeps (s : State) (t : Nat) :
    (State.sigDropped s t).pending = s.pending ∧
      (State.sigDropped s t).ram = s.ram := by
  simp [State.sigDropped]

@[simp] theorem State.putTally_keeps (s : State) (t : Nat) (v : DWord) :
    (State.putTally s t v).pending = s.pending ∧
      (State.putTally s t v).ram = s.ram := by
  simp [State.putTally, apply_ite State.pending, apply_ite State.ram]

@[simp] theorem State.addTally_keeps (s : State) (t : Nat) (n : Nat) :
    (State.addTally s t n).pending = s.pending ∧
      (State.addTally s t n).ram = s.ram := by
  simp [State.addTally]

@[simp] theorem State.advance_keeps (s : State) (q : Nat) :
    (State.advance s q).pending = s.pending ∧
      (State.advance s q).ram = s.ram := by
  exact ⟨rfl, rfl⟩

@[simp] theorem State.branchTo_keeps (s : State) (q : Nat) (target : Word) :
    (State.branchTo s q target).pending = s.pending ∧
      (State.branchTo s q target).ram = s.ram := by
  exact ⟨rfl, rfl⟩

@[simp] theorem State.issue_keeps (s : State) (q : Nat) (idx : Word) (cmd : BitVec 512) (chan : Option Nat) :
    (State.issue s q idx cmd chan).pending = s.pending ∧
      (State.issue s q idx cmd chan).ram = s.ram := by
  unfold State.issue
  (repeat' split) <;> simp

@[simp] theorem State.seeDone_keeps (s : State) (ch : Nat) (status : Nat) :
    (State.seeDone s ch status).pending = s.pending ∧
      (State.seeDone s ch status).ram = s.ram := by
  exact ⟨rfl, rfl⟩

@[simp] theorem State.freeChan_keeps (s : State) (q : Nat) (x : Inflight) (status : Nat) :
    (State.freeChan s q x status).pending = s.pending ∧
      (State.freeChan s q x status).ram = s.ram := by
  unfold State.freeChan; dsimp only
  repeat' (split <;> try (rename_i h; obtain ⟨rfl, -⟩ := Prod.ext_iff.mp h))
  all_goals simp

@[simp] theorem State.retire_keeps (s : State) (q : Nat) (x : Inflight) (d : Done) :
    (State.retire s q x d).pending = s.pending ∧
      (s.ram.wf = true → (State.retire s q x d).ram.wf = true) := by
  refine ⟨?_, ?_⟩; simp [State.retire, apply_ite State.pending]; intro hw; simp [State.retire, apply_ite State.ram, apply_ite Mem.wf, hw]

@[simp] theorem State.finish_keeps (s : State) (q : Nat) (tok : Nat) (d : Done) :
    (State.finish s q tok d).pending = s.pending ∧
      (s.ram.wf = true → (State.finish s q tok d).ram.wf = true) := by
  unfold State.finish; dsimp only
  repeat' (split <;> try (rename_i h; obtain ⟨rfl, -⟩ := Prod.ext_iff.mp h))
  all_goals (refine ⟨?_, ?_⟩; simp [apply_ite State.pending]; intro hw; simp +contextual (maxDischargeDepth := 9) [apply_ite State.ram, apply_ite Mem.wf, hw])

@[simp] theorem State.completeHead_keeps (s : State) (q : Nat) (idx : Word) (cmd : BitVec 512) (d : Done) :
    (State.completeHead s q idx cmd d).pending = s.pending ∧
      (s.ram.wf = true → (State.completeHead s q idx cmd d).ram.wf = true) := by
  refine ⟨?_, ?_⟩; simp [State.completeHead]; intro hw; simp [State.completeHead, hw]

@[simp] theorem State.badCommand_keeps (s : State) (q : Nat) (idx : Word) (cmd : BitVec 512) (cause : Nat) (detail : Nat) :
    (State.badCommand s q idx cmd cause detail).pending = s.pending ∧
      (s.ram.wf = true → (State.badCommand s q idx cmd cause detail).ram.wf = true) := by
  refine ⟨?_, ?_⟩; simp [State.badCommand]; intro hw; simp [State.badCommand, hw]

@[simp] theorem State.endHead_keeps (s : State) (q : Nat) (status : Nat) (detail : Nat) :
    (State.endHead s q status detail).pending = s.pending ∧
      (s.ram.wf = true → (State.endHead s q status detail).ram.wf = true) := by
  unfold State.endHead; dsimp only
  repeat' (split <;> try (rename_i h; obtain ⟨rfl, -⟩ := Prod.ext_iff.mp h))
  all_goals (refine ⟨?_, ?_⟩; simp [apply_ite State.pending]; intro hw; simp +contextual (maxDischargeDepth := 9) [apply_ite State.ram, apply_ite Mem.wf, hw])

@[simp] theorem State.abandonTally_keeps (s : State) (t : Nat) :
    (State.abandonTally s t).pending = s.pending ∧
      (s.ram.wf = true → (State.abandonTally s t).ram.wf = true) := by
  refine ⟨?_, ?_⟩; simp [State.abandonTally, apply_ite State.pending]; intro hw; simp +contextual (maxDischargeDepth := 9) [State.abandonTally, apply_ite State.ram, apply_ite Mem.wf, hw]

@[simp] theorem State.abandonBarrier_keeps (s : State) (b : Nat) (cause : Nat) :
    (State.abandonBarrier s b cause).pending = s.pending ∧
      (s.ram.wf = true → (State.abandonBarrier s b cause).ram.wf = true) := by
  refine ⟨?_, ?_⟩; simp [State.abandonBarrier, apply_ite State.pending]; intro hw; simp +contextual (maxDischargeDepth := 9) [State.abandonBarrier, apply_ite State.ram, apply_ite Mem.wf, hw]

@[simp] theorem State.abandonChorus_keeps (s : State) (cause : Nat) (sel : Barrier → Bool) :
    (State.abandonChorus s cause sel).pending = s.pending ∧
      (s.ram.wf = true → (State.abandonChorus s cause sel).ram.wf = true) := by
  refine ⟨?_, ?_⟩; simp [State.abandonChorus, apply_ite State.pending]; intro hw; simp +contextual (maxDischargeDepth := 9) [State.abandonChorus, apply_ite State.ram, apply_ite Mem.wf, hw]

@[simp] theorem State.releaseBarrier_keeps (s : State) (b : Nat) :
    (State.releaseBarrier s b).pending = s.pending ∧
      (State.releaseBarrier s b).ram = s.ram := by
  simp [State.releaseBarrier]

@[simp] theorem State.abandonOwned_keeps (s : State) (o : Owner → Bool) :
    (State.abandonOwned s o).pending = s.pending ∧
      (s.ram.wf = true → (State.abandonOwned s o).ram.wf = true) := by
  refine ⟨?_, fun hw => ?_⟩
  · simp [State.abandonOwned]
  · exact forEach_wf _ _ _ (forEach_wf _ _ _ hw fun t st h => (st.abandonTally_keeps t).2 h) fun b st h =>
      (st.abandonBarrier_keeps b 1).2 h

/-! ### Machine/FaultOps.lean -/

@[simp] theorem State.whenLive_pending (s : State) (f : State → State) :
    (s.whenLive f).pending = if s.live then (f s).pending else s.pending := by unfold State.whenLive; split <;> rfl

@[simp] theorem State.whenLive_ram (s : State) (f : State → State) :
    (s.whenLive f).ram = if s.live then (f s).ram else s.ram := by unfold State.whenLive; split <;> rfl

@[simp] theorem State.whenReleased_pending (s : State) (f : State → State) :
    (s.whenReleased f).pending = if s.released then (f s).pending else s.pending := by unfold State.whenReleased; split <;> rfl

@[simp] theorem State.whenReleased_ram (s : State) (f : State → State) :
    (s.whenReleased f).ram = if s.released then (f s).ram else s.ram := by unfold State.whenReleased; split <;> rfl

@[simp] theorem State.graftMsg_keeps (s : State) :
    (State.graftMsg s).pending = s.pending ∧
      (State.graftMsg s).ram = s.ram := by
  simp [State.graftMsg, apply_ite State.pending, apply_ite State.ram]

@[simp] theorem State.setUnitState_keeps (s : State) (i : Nat) (st : UnitState) :
    (State.setUnitState s i st).pending = s.pending ∧
      (State.setUnitState s i st).ram = s.ram := by
  simp [State.setUnitState]

@[simp] theorem State.stopChan_keeps (s : State) (ch : Nat) :
    (State.stopChan s ch).pending = s.pending ∧
      (State.stopChan s ch).ram = s.ram := by
  simp [State.stopChan, apply_ite State.pending, apply_ite State.ram]

@[simp] theorem State.killCores_keeps (s : State) (c : Nat) (sel : Nat → Bool) :
    (State.killCores s c sel).pending = s.pending ∧
      (State.killCores s c sel).ram = s.ram := by
  simp [State.killCores, apply_ite State.pending, apply_ite State.ram]

@[simp] theorem State.resetCores_keeps (s : State) (c : Nat) :
    (State.resetCores s c).pending = s.pending ∧
      (State.resetCores s c).ram = s.ram := by
  simp [State.resetCores]

@[simp] theorem State.stripCommand_keeps (s : State) (q : Nat) (x : Inflight) :
    (State.stripCommand s q x).pending = s.pending ∧
      (State.stripCommand s q x).ram = s.ram := by
  unfold State.stripCommand; dsimp only
  repeat' (split <;> try (rename_i h; obtain ⟨rfl, -⟩ := Prod.ext_iff.mp h))
  all_goals simp

@[simp] theorem State.cancelQueue_keeps (s : State) (q : Nat) :
    (State.cancelQueue s q).pending = s.pending ∧
      (s.ram.wf = true → (State.cancelQueue s q).ram.wf = true) := by
  refine ⟨?_, ?_⟩; simp [State.cancelQueue, apply_ite State.pending]; intro hw; simp +contextual (maxDischargeDepth := 9) [State.cancelQueue, apply_ite State.ram, apply_ite Mem.wf, hw]

@[simp] theorem State.suspendQueue_keeps (s : State) (q : Nat) :
    (State.suspendQueue s q).pending = s.pending ∧
      (s.ram.wf = true → (State.suspendQueue s q).ram.wf = true) := by
  refine ⟨?_, ?_⟩; simp [State.suspendQueue, apply_ite State.pending]; intro hw; simp [State.suspendQueue, apply_ite State.ram, apply_ite Mem.wf, hw]

@[simp] theorem State.unbackCxl_keeps (s : State) (j : Nat) :
    (State.unbackCxl s j).pending = s.pending ∧
      (State.unbackCxl s j).ram = s.ram := by
  exact ⟨rfl, rfl⟩

@[simp] theorem State.drainWork_keeps (s : State) (i : Nat) :
    (State.drainWork s i).pending = s.pending ∧
      (s.ram.wf = true → (State.drainWork s i).ram.wf = true) := by
  refine ⟨?_, fun hw => ?_⟩
  · simp [State.drainWork, apply_ite State.pending]
  · have h1 := forEach_wf (queuesOf i) (fun q st => (st.suspendQueue q).cancelQueue q) s hw fun q st h =>
      (State.cancelQueue_keeps _ q).2 ((State.suspendQueue_keeps st q).2 h)
    have h2 := forEach_wf (queuesUnder 48) (fun q st => st.suspendQueue q) s hw fun q st h => (State.suspendQueue_keeps st q).2 h
    simp only [State.drainWork]
    (repeat' split) <;> simp_all

@[simp] theorem State.enterDrain_keeps (s : State) (i : Nat) :
    (State.enterDrain s i).pending = s.pending ∧
      (s.ram.wf = true → (State.enterDrain s i).ram.wf = true) := by
  refine ⟨?_, ?_⟩; simp [State.enterDrain, apply_ite State.pending]; intro hw; simp [State.enterDrain, apply_ite State.ram, apply_ite Mem.wf, hw]

@[simp] theorem State.gasp_keeps (s : State) (det : Nat) (unit : UnitId) (safe : Bool) (powerLoss : Bool) :
    (State.gasp s det unit safe powerLoss).pending = s.pending ∧
      (State.gasp s det unit safe powerLoss).ram = s.ram := by
  exact ⟨rfl, rfl⟩

@[simp] theorem State.enterSafe_keeps (s : State) (det : Nat) (unit : UnitId) :
    (State.enterSafe s det unit).pending = s.pending ∧
      (State.enterSafe s det unit).ram = s.ram := by
  simp [State.enterSafe, apply_ite State.pending, apply_ite State.ram]

@[simp] theorem State.raiseF_keeps (s : State) (det : Nat) (unit : UnitId) (detail : Nat) :
    (State.raiseF s det unit detail).pending = s.pending ∧
      (State.raiseF s det unit detail).ram = s.ram := by
  simp [State.raiseF, apply_ite State.pending, apply_ite State.ram]

@[simp] theorem State.resetQueues_keeps (s : State) (i : Nat) :
    (State.resetQueues s i).pending = s.pending ∧
      (s.ram.wf = true → (State.resetQueues s i).ram.wf = true) := by
  refine ⟨by simp [State.resetQueues], fun hw => ?_⟩
  exact forEach_wf _ _ s hw fun q st h => (State.abandonOwned_keeps _ _).2 ((State.cancelQueue_keeps _ q).2
    ((State.haltQueue_keeps st q _ _ true).2 h))

@[simp] theorem State.resetBlock_keeps (s : State) (i : Nat) :
    (State.resetBlock s i).pending = s.pending ∧
      (s.ram.wf = true → (State.resetBlock s i).ram.wf = true) := by
  refine ⟨?_, ?_⟩; simp [State.resetBlock, apply_ite State.pending]; intro hw; simp [State.resetBlock, apply_ite State.ram, apply_ite Mem.wf, hw]

@[simp] theorem State.markReset_keeps (s : State) (i : Nat) :
    (State.markReset s i).pending = s.pending ∧
      (State.markReset s i).ram = s.ram := by
  exact ⟨rfl, rfl⟩

@[simp] theorem State.blockReset_keeps (s : State) (i : Nat) :
    (State.blockReset s i).pending = s.pending ∧
      (s.ram.wf = true → (State.blockReset s i).ram.wf = true) := by
  refine ⟨?_, ?_⟩; simp [State.blockReset, apply_ite State.pending]; intro hw; simp [State.blockReset, apply_ite State.ram, apply_ite Mem.wf, hw]

@[simp] theorem State.holdEffect_keeps (s : State) (t : Nat) :
    (State.holdEffect s t).pending = s.pending ∧
      (s.ram.wf = true → (State.holdEffect s t).ram.wf = true) := by
  refine ⟨?_, ?_⟩; simp [State.holdEffect, apply_ite State.pending]; intro hw; simp [State.holdEffect, apply_ite State.ram, apply_ite Mem.wf, hw]

@[simp] theorem State.raise_pending (s : State) (det : Nat) (unit : UnitId) (tgt : Option Nat) (detail : Nat) (via : List Nat)
    (reset : Option Nat) (rest : State → State) (hr : ∀ s, (rest s).pending = s.pending) :
    (State.raise s det unit tgt detail via reset rest).pending = s.pending := by
  unfold State.raise
  split <;> (rename_i h; obtain ⟨rfl, -⟩ := Prod.ext_iff.mp h) <;> (try simp only [hr]) <;> (try split) <;> simp

@[simp] theorem State.raise_wf (s : State) (det : Nat) (unit : UnitId) (tgt : Option Nat) (detail : Nat) (via : List Nat)
    (reset : Option Nat) (rest : State → State) (hw : s.ram.wf = true) (hr : ∀ s, s.ram.wf = true → (rest s).ram.wf = true) :
    (State.raise s det unit tgt detail via reset rest).ram.wf = true := by
  have hk := (s.eventU_keeps det unit tgt detail via).2
  unfold State.raise
  split <;> (rename_i h; obtain ⟨rfl, -⟩ := Prod.ext_iff.mp h) <;> (try apply hr) <;> (try split) <;> simp [hk, hw]

@[simp] theorem State.raiseOn_keeps (s : State) (det : Nat) (unit : UnitId) (detail : Nat) :
    (State.raiseOn s det unit detail).pending = s.pending ∧
      (s.ram.wf = true → (State.raiseOn s det unit detail).ram.wf = true) := by
  refine ⟨?_, ?_⟩; simp [State.raiseOn]; intro hw; simp [State.raiseOn, hw]

@[simp] theorem State.report_keeps (s : State) (det : Nat) :
    (State.report s det).pending = s.pending ∧
      (State.report s det).ram = s.ram := by
  exact ⟨rfl, rfl⟩

/-! ### Machine/SeqOps.lean -/

@[simp] theorem State.memFault_keeps (s : State) (unit : UnitId) (det : Nat) (page : Nat) :
    (State.memFault s unit det page).pending = s.pending ∧
      (s.ram.wf = true → (State.memFault s unit det page).ram.wf = true) := by
  refine ⟨?_, ?_⟩; simp [State.memFault]; intro hw; simp [State.memFault, hw]

@[simp] theorem State.fetchFail_keeps (s : State) (q : Nat) (idx : Word) (page : Nat) :
    (State.fetchFail s q idx page).pending = s.pending ∧
      (s.ram.wf = true → (State.fetchFail s q idx page).ram.wf = true) := by
  refine ⟨by simp [State.fetchFail], fun hw => ?_⟩
  exact (State.memFault_keeps _ _ _ _).2 ((State.completeHead_keeps _ _ _ _ _).2 ((State.haltQueue_keeps _ _ _ _ _).2 hw))

@[simp] theorem State.runHead_pending (s : State) (q op : Nat) (check : State → BitVec 512 → Option (Nat × Nat))
    (run : State → Word → BitVec 512 → State) (hr : ∀ s i c, (run s i c).pending = s.pending) :
    (State.runHead s q op check run).pending = s.pending := by
  unfold State.runHead; (repeat' split) <;> simp [hr]

@[simp] theorem State.runHead_wf (s : State) (q op : Nat) (check : State → BitVec 512 → Option (Nat × Nat))
    (run : State → Word → BitVec 512 → State) (hw : s.ram.wf = true) (hr : ∀ s i c, s.ram.wf = true → (run s i c).ram.wf = true) :
    (State.runHead s q op check run).ram.wf = true := by
  unfold State.runHead; (repeat' split) <;> simp [hr, hw]

@[simp] theorem State.completeOk_keeps (s : State) (q : Nat) (idx : Word) (c : BitVec 512) :
    (State.completeOk s q idx c).pending = s.pending ∧
      (s.ram.wf = true → (State.completeOk s q idx c).ram.wf = true) := by
  refine ⟨?_, ?_⟩; simp [State.completeOk]; intro hw; simp [State.completeOk, hw]

@[simp] theorem State.ringMessage_keeps (s : State) (r : Nat) :
    (State.ringMessage s r).pending = s.pending ∧
      (State.ringMessage s r).ram = s.ram := by
  simp [State.ringMessage]

@[simp] theorem State.recordAccepted_keeps (s : State) (r : Nat) (force : Bool) :
    (State.recordAccepted s r force).pending = s.pending ∧
      (State.recordAccepted s r force).ram = s.ram := by
  simp [State.recordAccepted, apply_ite State.pending, apply_ite State.ram]

@[simp] theorem State.writeRecord_keeps (s : State) (q : Nat) (x : Inflight) (d : Done) (r : Nat) :
    (State.writeRecord s q x d r).pending = s.pending ∧
      (s.ram.wf = true → (State.writeRecord s q x d r).ram.wf = true) := by
  unfold State.writeRecord; dsimp only
  repeat' (split <;> try (rename_i h; obtain ⟨rfl, -⟩ := Prod.ext_iff.mp h))
  all_goals (refine ⟨?_, ?_⟩; simp [apply_ite State.pending]; intro hw; simp +contextual (maxDischargeDepth := 9) [apply_ite State.ram, apply_ite Mem.wf, hw])

@[simp] theorem State.resetDone_keeps (s : State) (q : Nat) :
    (State.resetDone s q).pending = s.pending ∧
      (s.ram.wf = true → (State.resetDone s q).ram.wf = true) := by
  refine ⟨?_, ?_⟩; simp [State.resetDone, apply_ite State.pending]; intro hw; simp [State.resetDone, apply_ite State.ram, apply_ite Mem.wf, hw]

@[simp] theorem State.completeOne_keeps (s : State) (q : Nat) (x : Inflight) (d : Done) :
    (State.completeOne s q x d).pending = s.pending ∧
      (s.ram.wf = true → (State.completeOne s q x d).ram.wf = true) := by
  refine ⟨by simp [State.completeOne, apply_ite State.pending], fun hw => ?_⟩
  have h := (State.resetDone_keeps _ q).2 ((State.retire_keeps _ q x d).2 ((State.writeRecord_keeps s q x d (s.recordRing q x d)).2 hw))
  simp only [State.completeOne]
  (repeat' split) <;> simp [h, hw]

@[simp] theorem State.foreignBell_keeps (s : State) (q : Nat) :
    (State.foreignBell s q).pending = s.pending ∧
      (State.foreignBell s q).ram = s.ram := by
  simp [State.foreignBell]

@[simp] theorem State.bell_keeps (s : State) (q : Nat) (v : Word) (agent : Nat) :
    (State.bell s q v agent).pending = s.pending ∧
      (s.ram.wf = true → (State.bell s q v agent).ram.wf = true) := by
  refine ⟨?_, ?_⟩; simp [State.bell, apply_ite State.pending]; intro hw; simp [State.bell, apply_ite State.ram, apply_ite Mem.wf, hw]

@[simp] theorem State.refuseQueue_keeps (s : State) (q : Nat) :
    (State.refuseQueue s q).pending = s.pending ∧
      (State.refuseQueue s q).ram = s.ram := by
  simp [State.refuseQueue]

@[simp] theorem State.badCtrl_keeps (s : State) (q : Nat) :
    (State.badCtrl s q).pending = s.pending ∧
      (State.badCtrl s q).ram = s.ram := by
  simp [State.badCtrl]

@[simp] theorem State.spoilQueue_keeps (s : State) (q : Nat) :
    (State.spoilQueue s q).pending = s.pending ∧
      (s.ram.wf = true → (State.spoilQueue s q).ram.wf = true) := by
  refine ⟨?_, ?_⟩; simp [State.spoilQueue, apply_ite State.pending]; intro hw; simp +contextual (maxDischargeDepth := 9) [State.spoilQueue, apply_ite State.ram, apply_ite Mem.wf, hw]

@[simp] theorem State.resetQueue_keeps (s : State) (q : Nat) :
    (State.resetQueue s q).pending = s.pending ∧
      (s.ram.wf = true → (State.resetQueue s q).ram.wf = true) := by
  refine ⟨by simp [State.resetQueue], fun hw => ?_⟩
  refine (State.resetDone_keeps _ q).2 ?_
  simp only [State.modQueue_keeps]
  exact (State.abandonOwned_keeps _ _).2 ((State.cancelQueue_keeps _ q).2 ((State.spoilQueue_keeps _ q).2 (by simp [hw])))

@[simp] theorem State.enableQueue_keeps (s : State) (q : Nat) :
    (State.enableQueue s q).pending = s.pending ∧
      (State.enableQueue s q).ram = s.ram := by
  simp [State.enableQueue, apply_ite State.pending, apply_ite State.ram]

@[simp] theorem State.queueCtrl_keeps (s : State) (q : Nat) (bit : Nat) :
    (State.queueCtrl s q bit).pending = s.pending ∧
      (s.ram.wf = true → (State.queueCtrl s q bit).ram.wf = true) := by
  unfold State.queueCtrl; dsimp only
  repeat' (split <;> try (rename_i h; obtain ⟨rfl, -⟩ := Prod.ext_iff.mp h))
  all_goals (refine ⟨?_, ?_⟩; simp [apply_ite State.pending]; intro hw; simp +contextual (maxDischargeDepth := 9) [apply_ite State.ram, apply_ite Mem.wf, hw])

@[simp] theorem State.writeQCtrl_keeps (s : State) (q : Nat) (v : Nat) :
    (State.writeQCtrl s q v).pending = s.pending ∧
      (s.ram.wf = true → (State.writeQCtrl s q v).ram.wf = true) := by
  unfold State.writeQCtrl; dsimp only
  repeat' (split <;> try (rename_i h; obtain ⟨rfl, -⟩ := Prod.ext_iff.mp h))
  all_goals (refine ⟨?_, ?_⟩; simp [apply_ite State.pending]; intro hw; simp +contextual (maxDischargeDepth := 9) [apply_ite State.ram, apply_ite Mem.wf, hw])

/-! ### Machine/TactOps.lean -/

@[simp] theorem State.endTimeHead_keeps (s : State) (q : Nat) :
    (State.endTimeHead s q).pending = s.pending ∧
      (s.ram.wf = true → (State.endTimeHead s q).ram.wf = true) := by
  unfold State.endTimeHead; dsimp only
  repeat' (split <;> try (rename_i h; obtain ⟨rfl, -⟩ := Prod.ext_iff.mp h))
  all_goals (refine ⟨?_, ?_⟩; simp [apply_ite State.pending]; intro hw; simp +contextual (maxDischargeDepth := 9) [apply_ite State.ram, apply_ite Mem.wf, hw])

@[simp] theorem State.leaveChorus_keeps (s : State) :
    (State.leaveChorus s).pending = s.pending ∧
      (s.ram.wf = true → (State.leaveChorus s).ram.wf = true) := by
  have hf : ∀ u : State, u.ram.wf = true → ((forEach s.queueIds (fun q st => st.endTimeHead q) u).abandonChorus 4 fun _ => true).ram.wf = true :=
    fun u hu => (State.abandonChorus_keeps _ 4 _).2 (forEach_wf _ _ _ hu fun q st h => (State.endTimeHead_keeps st q).2 h)
  refine ⟨?_, fun hw => ?_⟩
  · unfold State.leaveChorus; split <;> simp
  · unfold State.leaveChorus
    split <;> first | exact hw | (simp only [State.eventC_keeps]; exact hf _ (by simp [hw]))

@[simp] theorem State.stepOut_keeps (s : State) (det : Nat) (detail : Nat) :
    (State.stepOut s det detail).pending = s.pending ∧
      (s.ram.wf = true → (State.stepOut s det detail).ram.wf = true) := by
  simp only [State.stepOut]
  repeat' (split <;> try (rename_i h; obtain ⟨rfl, -⟩ := Prod.ext_iff.mp h))
  all_goals (refine ⟨?_, ?_⟩; simp [apply_ite State.pending]; intro hw; simp +contextual (maxDischargeDepth := 9) [apply_ite State.ram, apply_ite Mem.wf, hw])

@[simp] theorem State.enterHoldover_keeps (s : State) :
    (State.enterHoldover s).pending = s.pending ∧
      (State.enterHoldover s).ram = s.ram := by
  unfold State.enterHoldover
  (repeat' split) <;> simp

@[simp] theorem State.lockAt_keeps (s : State) (st : Stamp) (depth : Nat) (srcHoldover : Bool) :
    (State.lockAt s st depth srcHoldover).pending = s.pending ∧
      (State.lockAt s st depth srcHoldover).ram = s.ram := by
  simp [State.lockAt]

@[simp] theorem State.backToLock_keeps (s : State) (diff : Int) (depth : Nat) (srcHoldover : Bool) :
    (State.backToLock s diff depth srcHoldover).pending = s.pending ∧
      (State.backToLock s diff depth srcHoldover).ram = s.ram := by
  simp [State.backToLock]

@[simp] theorem State.acquire_keeps (s : State) :
    (State.acquire s).pending = s.pending ∧
      (State.acquire s).ram = s.ram := by
  simp [State.acquire]

@[simp] theorem State.useBackup_keeps (s : State) :
    (State.useBackup s).pending = s.pending ∧
      (State.useBackup s).ram = s.ram := by
  simp [State.useBackup]

@[simp] theorem State.returnCheck_keeps (s : State) :
    (State.returnCheck s).1.pending = s.pending ∧
      (State.returnCheck s).1.ram = s.ram := by
  unfold State.returnCheck; dsimp only
  repeat' (split <;> try (rename_i h; obtain ⟨rfl, -⟩ := Prod.ext_iff.mp h))
  all_goals simp

@[simp] theorem State.returnLock_keeps (s : State) :
    (State.returnLock s).pending = s.pending ∧
      (State.returnLock s).ram = s.ram := by
  unfold State.returnLock
  (repeat' split) <;> simp

@[simp] theorem State.holdoverDownbeat_keeps (s : State) :
    (State.holdoverDownbeat s).pending = s.pending ∧
      (s.ram.wf = true → (State.holdoverDownbeat s).ram.wf = true) := by
  unfold State.holdoverDownbeat; dsimp only
  repeat' (split <;> try (rename_i h; obtain ⟨rfl, -⟩ := Prod.ext_iff.mp h))
  all_goals (refine ⟨?_, ?_⟩; simp [apply_ite State.pending]; intro hw; simp +contextual (maxDischargeDepth := 9) [apply_ite State.ram, apply_ite Mem.wf, hw])

@[simp] theorem State.acquiringDownbeat_keeps (s : State) :
    (State.acquiringDownbeat s).pending = s.pending ∧
      (State.acquiringDownbeat s).ram = s.ram := by
  unfold State.acquiringDownbeat
  (repeat' split) <;> simp

@[simp] theorem State.lockedDownbeat_keeps (s : State) :
    (State.lockedDownbeat s).pending = s.pending ∧
      (s.ram.wf = true → (State.lockedDownbeat s).ram.wf = true) := by
  refine ⟨?_, ?_⟩; simp [State.lockedDownbeat, apply_ite State.pending]; intro hw; simp [State.lockedDownbeat, apply_ite State.ram, apply_ite Mem.wf, hw]

@[simp] theorem State.missingFrame_keeps (s : State) :
    (State.missingFrame s).pending = s.pending ∧
      (State.missingFrame s).ram = s.ram := by
  simp [State.missingFrame, apply_ite State.pending, apply_ite State.ram]

@[simp] theorem State.refDownbeat_keeps (s : State) :
    (State.refDownbeat s).pending = s.pending ∧
      (State.refDownbeat s).ram = s.ram := by
  simp [State.refDownbeat]

@[simp] theorem State.tactDownbeat_keeps (s : State) :
    (State.tactDownbeat s).pending = s.pending ∧
      (s.ram.wf = true → (State.tactDownbeat s).ram.wf = true) := by
  unfold State.tactDownbeat; dsimp only
  repeat' (split <;> try (rename_i h; obtain ⟨rfl, -⟩ := Prod.ext_iff.mp h))
  all_goals (refine ⟨?_, ?_⟩; simp [apply_ite State.pending]; intro hw; simp +contextual (maxDischargeDepth := 9) [apply_ite State.ram, apply_ite Mem.wf, hw])

/-! ### Machine/CueOps.lean -/

@[simp] theorem State.enqueueCue_keeps (s : State) (key : Nat) (relayed : Bool) (c : Cue) :
    (State.enqueueCue s key relayed c).pending = s.pending ∧
      (State.enqueueCue s key relayed c).ram = s.ram := by
  simp [State.enqueueCue]

@[simp] theorem State.useSeq_keeps (s : State) (remote : Bool) (dest : Nat) :
    (State.useSeq s remote dest).pending = s.pending ∧
      (State.useSeq s remote dest).ram = s.ram := by
  simp [State.useSeq, apply_ite State.pending, apply_ite State.ram]

@[simp] theorem State.numberCue_keeps (s : State) (key : Nat) (c : Cue) :
    (State.numberCue s key c).1.pending = s.pending ∧
      (State.numberCue s key c).1.ram = s.ram := by
  simp [State.numberCue]

@[simp] theorem State.originate_keeps (s : State) (key : Nat) (c : Cue) :
    (State.originate s key c).1.pending = s.pending ∧
      (State.originate s key c).1.ram = s.ram := by
  unfold State.originate
  (repeat' split) <;> simp

@[simp] theorem State.tellNeighbour_keeps (s : State) (p : Nat) (typ : Nat) (body : List Byte) :
    (State.tellNeighbour s p typ body).pending = s.pending ∧
      (State.tellNeighbour s p typ body).ram = s.ram := by
  simp [State.tellNeighbour]

@[simp] theorem State.sendCue_keeps (s : State) (typ : Nat) (dest : Nat) (body : List Byte) :
    (State.sendCue s typ dest body).1.pending = s.pending ∧
      (State.sendCue s typ dest body).1.ram = s.ram := by
  unfold State.sendCue
  (repeat' split) <;> simp

@[simp] theorem State.badCue_keeps (s : State) (p : Nat) (typ : Nat) :
    (State.badCue s p typ).pending = s.pending ∧
      (State.badCue s p typ).ram = s.ram := by
  simp [State.badCue]

@[simp] theorem State.relayCue_keeps (s : State) (p : Nat) (c : Cue) :
    (State.relayCue s p c).pending = s.pending ∧
      (State.relayCue s p c).ram = s.ram := by
  unfold State.relayCue; dsimp only
  repeat' (split <;> try (rename_i h; obtain ⟨rfl, -⟩ := Prod.ext_iff.mp h))
  all_goals simp

@[simp] theorem State.flood_keeps (s : State) (relayed : Bool) (except : Option Nat) (avoid : Option Nat) (c : Cue) :
    (State.flood s relayed except avoid c).pending = s.pending ∧
      (State.flood s relayed except avoid c).ram = s.ram := by
  unfold State.flood
  constructor
  · apply forEach_pending; intro x st; (repeat' split) <;> simp
  · apply forEach_ram; intro x st; (repeat' split) <;> simp

@[simp] theorem State.answerRollCall_keeps (s : State) (p : Nat) :
    (State.answerRollCall s p).pending = s.pending ∧
      (State.answerRollCall s p).ram = s.ram := by
  simp [State.answerRollCall, apply_ite State.pending, apply_ite State.ram]

@[simp] theorem State.noteHere_keeps (s : State) (p : Nat) (c : Cue) :
    (State.noteHere s p c).pending = s.pending ∧
      (State.noteHere s p c).ram = s.ram := by
  simp [State.noteHere]

/-! ### Machine/HostOps.lean -/

@[simp] theorem State.postHost_keeps (s : State) (a : Nat) (bs : List Byte) :
    (State.postHost s a bs).pending = s.pending ∧
      (State.postHost s a bs).ram = s.ram := by
  simp [State.postHost]

@[simp] theorem State.readHost_keeps (s : State) (a : Nat) (len : Nat) (chan : Option Nat) (cmd : Option (Nat × Nat)) (flush : Bool) :
    (State.readHost s a len chan cmd flush).pending = s.pending ∧
      (State.readHost s a len chan cmd flush).ram = s.ram := by
  simp [State.readHost]

/-! ### Machine/DescantOps.lean -/

@[simp] theorem State.dropCtx_keeps (s : State) (dtree : Nat) (dop : Nat) (dseq : Nat) :
    (State.dropCtx s dtree dop dseq).pending = s.pending ∧
      (State.dropCtx s dtree dop dseq).ram = s.ram := by
  simp [State.dropCtx]

@[simp] theorem State.putCtx_keeps (s : State) (c : DCtx) :
    (State.putCtx s c).pending = s.pending ∧
      (State.putCtx s c).ram = s.ram := by
  simp [State.putCtx, apply_ite State.pending, apply_ite State.ram]

@[simp] theorem State.readyOn_keeps (s : State) (gs : List Nat) (op : Descant) :
    (State.readyOn s gs op).pending = s.pending ∧
      (State.readyOn s gs op).ram = s.ram := by
  simp [State.readyOn]

@[simp] theorem State.foldCtx_keeps (s : State) (e : Img.DTree) (c : DCtx) :
    (State.foldCtx s e c).1.pending = s.pending ∧
      (State.foldCtx s e c).1.ram = s.ram := by
  unfold State.foldCtx; dsimp only
  repeat' (split <;> try (rename_i h; obtain ⟨rfl, -⟩ := Prod.ext_iff.mp h))
  all_goals simp

@[simp] theorem State.tryFold_keeps (s : State) (dtree : Nat) (dop : Nat) (dseq : Nat) :
    (State.tryFold s dtree dop dseq).1.pending = s.pending ∧
      (State.tryFold s dtree dop dseq).1.ram = s.ram := by
  unfold State.tryFold
  (repeat' split) <;> simp

@[simp] theorem State.contribute_keeps (s : State) (c : DCtx) :
    (State.contribute s c).1.pending = s.pending ∧
      (State.contribute s c).1.ram = s.ram := by
  simp [State.contribute]

@[simp] theorem State.openCtx_keeps (s : State) (op : Descant) :
    (State.openCtx s op).1.pending = s.pending ∧
      (State.openCtx s op).1.ram = s.ram := by
  unfold State.openCtx
  (repeat' split) <;> simp

@[simp] theorem State.descantUp_keeps (s : State) (g : Nat) (op : Descant) :
    (State.descantUp s g op).1.pending = s.pending ∧
      (State.descantUp s g op).1.ram = s.ram := by
  simp only [State.descantUp]
  repeat' (split <;> try (rename_i h; obtain ⟨rfl, -⟩ := Prod.ext_iff.mp h))
  all_goals simp [apply_ite State.pending, apply_ite State.ram]

@[simp] theorem State.descantDown_keeps (s : State) (e : Img.DTree) (op : Descant) :
    (State.descantDown s e op).1.pending = s.pending ∧
      (State.descantDown s e op).1.ram = s.ram := by
  unfold State.descantDown; dsimp only
  repeat' (split <;> try (rename_i h; obtain ⟨rfl, -⟩ := Prod.ext_iff.mp h))
  all_goals simp

@[simp] theorem State.descantIn_keeps (s : State) (g : Nat) (op : Descant) :
    (State.descantIn s g op).1.pending = s.pending ∧
      (State.descantIn s g op).1.ram = s.ram := by
  unfold State.descantIn
  (repeat' split) <;> simp

end Sys2Proof.Machine
end

