-- ==== Sys2Proof/Laws/State.lean ====
section
/-!
SUPPORT. Laws of the named updates of the state: what each leaves alone, true by `rfl`, and what its own reader gives after it.
-/
namespace Sys2Proof.Machine

@[simp] theorem State.setPort_frame (s : State) (p : Nat) (v : Port) :
    (s.setPort p v).now = s.now ∧ (s.setPort p v).fresh = s.fresh ∧ (s.setPort p v).issued = s.issued ∧
      (s.setPort p v).finished = s.finished ∧ (s.setPort p v).counters = s.counters ∧ (s.setPort p v).cueQ = s.cueQ ∧
      (s.setPort p v).tact = s.tact ∧ (s.setPort p v).score = s.score ∧ (s.setPort p v).esp = s.esp ∧
      (s.setPort p v).mem = s.mem ∧ (s.setPort p v).queues = s.queues ∧ (s.setPort p v).rings = s.rings ∧
      (s.setPort p v).lastIssued = s.lastIssued ∧ (s.setPort p v).ce = s.ce ∧ (s.setPort p v).mes = s.mes ∧
      (s.setPort p v).clusters = s.clusters ∧ (s.setPort p v).dma = s.dma ∧ (s.setPort p v).sync = s.sync ∧
      (s.setPort p v).fc = s.fc ∧ (s.setPort p v).graft = s.graft ∧ (s.setPort p v).sys = s.sys ∧
      (s.setPort p v).host = s.host ∧ (s.setPort p v).mgmt = s.mgmt ∧ (s.setPort p v).power = s.power :=
  ⟨rfl, rfl, rfl, rfl, rfl, rfl, rfl, rfl, rfl, rfl, rfl, rfl, rfl, rfl, rfl, rfl, rfl, rfl, rfl, rfl, rfl, rfl, rfl, rfl⟩

theorem State.port_setPort (s : State) (p j' : Nat) (v : Port) :
    (s.setPort p v).port j' = if p = j' then v else s.port j' := Tab.get_put _ _ _ _ _

@[simp] theorem State.port_setPort_self (s : State) (p : Nat) (v : Port) : (s.setPort p v).port p = v := Tab.get_put_self _ _ _ _

@[simp] theorem State.setQueue_frame (s : State) (q : Nat) (v : Queue) :
    (s.setQueue q v).now = s.now ∧ (s.setQueue q v).fresh = s.fresh ∧ (s.setQueue q v).issued = s.issued ∧
      (s.setQueue q v).finished = s.finished ∧ (s.setQueue q v).counters = s.counters ∧ (s.setQueue q v).cueQ = s.cueQ ∧
      (s.setQueue q v).ports = s.ports ∧ (s.setQueue q v).tact = s.tact ∧ (s.setQueue q v).score = s.score ∧
      (s.setQueue q v).esp = s.esp ∧ (s.setQueue q v).mem = s.mem ∧ (s.setQueue q v).rings = s.rings ∧
      (s.setQueue q v).lastIssued = s.lastIssued ∧ (s.setQueue q v).ce = s.ce ∧ (s.setQueue q v).mes = s.mes ∧
      (s.setQueue q v).clusters = s.clusters ∧ (s.setQueue q v).dma = s.dma ∧ (s.setQueue q v).sync = s.sync ∧
      (s.setQueue q v).fc = s.fc ∧ (s.setQueue q v).graft = s.graft ∧ (s.setQueue q v).sys = s.sys ∧
      (s.setQueue q v).host = s.host ∧ (s.setQueue q v).mgmt = s.mgmt ∧ (s.setQueue q v).power = s.power :=
  ⟨rfl, rfl, rfl, rfl, rfl, rfl, rfl, rfl, rfl, rfl, rfl, rfl, rfl, rfl, rfl, rfl, rfl, rfl, rfl, rfl, rfl, rfl, rfl, rfl⟩

theorem State.queue_setQueue (s : State) (q j' : Nat) (v : Queue) :
    (s.setQueue q v).queue j' = if q = j' then v else s.queue j' := Tab.get_put _ _ _ _ _

@[simp] theorem State.queue_setQueue_self (s : State) (q : Nat) (v : Queue) : (s.setQueue q v).queue q = v := Tab.get_put_self _ _ _ _

@[simp] theorem State.setRing_frame (s : State) (r : Nat) (v : Ring) :
    (s.setRing r v).now = s.now ∧ (s.setRing r v).fresh = s.fresh ∧ (s.setRing r v).issued = s.issued ∧
      (s.setRing r v).finished = s.finished ∧ (s.setRing r v).counters = s.counters ∧ (s.setRing r v).cueQ = s.cueQ ∧
      (s.setRing r v).ports = s.ports ∧ (s.setRing r v).tact = s.tact ∧ (s.setRing r v).score = s.score ∧
      (s.setRing r v).esp = s.esp ∧ (s.setRing r v).mem = s.mem ∧ (s.setRing r v).queues = s.queues ∧
      (s.setRing r v).lastIssued = s.lastIssued ∧ (s.setRing r v).ce = s.ce ∧ (s.setRing r v).mes = s.mes ∧
      (s.setRing r v).clusters = s.clusters ∧ (s.setRing r v).dma = s.dma ∧ (s.setRing r v).sync = s.sync ∧
      (s.setRing r v).fc = s.fc ∧ (s.setRing r v).graft = s.graft ∧ (s.setRing r v).sys = s.sys ∧
      (s.setRing r v).host = s.host ∧ (s.setRing r v).mgmt = s.mgmt ∧ (s.setRing r v).power = s.power :=
  ⟨rfl, rfl, rfl, rfl, rfl, rfl, rfl, rfl, rfl, rfl, rfl, rfl, rfl, rfl, rfl, rfl, rfl, rfl, rfl, rfl, rfl, rfl, rfl, rfl⟩

theorem State.ring_setRing (s : State) (r j' : Nat) (v : Ring) :
    (s.setRing r v).ring j' = if r = j' then v else s.ring j' := Tab.get_put _ _ _ _ _

@[simp] theorem State.ring_setRing_self (s : State) (r : Nat) (v : Ring) : (s.setRing r v).ring r = v := Tab.get_put_self _ _ _ _

@[simp] theorem State.setCtrl_frame (s : State) (k : Nat) (v : MemPort) :
    (s.setCtrl k v).now = s.now ∧ (s.setCtrl k v).fresh = s.fresh ∧ (s.setCtrl k v).issued = s.issued ∧
      (s.setCtrl k v).finished = s.finished ∧ (s.setCtrl k v).counters = s.counters ∧ (s.setCtrl k v).cueQ = s.cueQ ∧
      (s.setCtrl k v).ports = s.ports ∧ (s.setCtrl k v).tact = s.tact ∧ (s.setCtrl k v).score = s.score ∧
      (s.setCtrl k v).esp = s.esp ∧ (s.setCtrl k v).queues = s.queues ∧ (s.setCtrl k v).rings = s.rings ∧
      (s.setCtrl k v).lastIssued = s.lastIssued ∧ (s.setCtrl k v).ce = s.ce ∧ (s.setCtrl k v).mes = s.mes ∧
      (s.setCtrl k v).clusters = s.clusters ∧ (s.setCtrl k v).dma = s.dma ∧ (s.setCtrl k v).sync = s.sync ∧
      (s.setCtrl k v).fc = s.fc ∧ (s.setCtrl k v).graft = s.graft ∧ (s.setCtrl k v).sys = s.sys ∧
      (s.setCtrl k v).host = s.host ∧ (s.setCtrl k v).mgmt = s.mgmt ∧ (s.setCtrl k v).power = s.power :=
  ⟨rfl, rfl, rfl, rfl, rfl, rfl, rfl, rfl, rfl, rfl, rfl, rfl, rfl, rfl, rfl, rfl, rfl, rfl, rfl, rfl, rfl, rfl, rfl, rfl⟩

theorem State.ctrl_setCtrl (s : State) (k j' : Nat) (v : MemPort) :
    (s.setCtrl k v).ctrl j' = if k = j' then v else s.ctrl j' := Tab.get_put _ _ _ _ _

@[simp] theorem State.ctrl_setCtrl_self (s : State) (k : Nat) (v : MemPort) : (s.setCtrl k v).ctrl k = v := Tab.get_put_self _ _ _ _

@[simp] theorem State.setRegion_frame (s : State) (n : Nat) (v : Region) :
    (s.setRegion n v).now = s.now ∧ (s.setRegion n v).fresh = s.fresh ∧ (s.setRegion n v).issued = s.issued ∧
      (s.setRegion n v).finished = s.finished ∧ (s.setRegion n v).counters = s.counters ∧ (s.setRegion n v).cueQ = s.cueQ ∧
      (s.setRegion n v).ports = s.ports ∧ (s.setRegion n v).tact = s.tact ∧ (s.setRegion n v).score = s.score ∧
      (s.setRegion n v).esp = s.esp ∧ (s.setRegion n v).queues = s.queues ∧ (s.setRegion n v).rings = s.rings ∧
      (s.setRegion n v).lastIssued = s.lastIssued ∧ (s.setRegion n v).ce = s.ce ∧ (s.setRegion n v).mes = s.mes ∧
      (s.setRegion n v).clusters = s.clusters ∧ (s.setRegion n v).dma = s.dma ∧ (s.setRegion n v).sync = s.sync ∧
      (s.setRegion n v).fc = s.fc ∧ (s.setRegion n v).graft = s.graft ∧ (s.setRegion n v).sys = s.sys ∧
      (s.setRegion n v).host = s.host ∧ (s.setRegion n v).mgmt = s.mgmt ∧ (s.setRegion n v).power = s.power :=
  ⟨rfl, rfl, rfl, rfl, rfl, rfl, rfl, rfl, rfl, rfl, rfl, rfl, rfl, rfl, rfl, rfl, rfl, rfl, rfl, rfl, rfl, rfl, rfl, rfl⟩

theorem State.region_setRegion (s : State) (n j' : Nat) (v : Region) :
    (s.setRegion n v).region j' = if n = j' then v else s.region j' := Tab.get_put _ _ _ _ _

@[simp] theorem State.region_setRegion_self (s : State) (n : Nat) (v : Region) : (s.setRegion n v).region n = v := Tab.get_put_self _ _ _ _

@[simp] theorem State.setCxl_frame (s : State) (j : Nat) (v : Cxl) :
    (s.setCxl j v).now = s.now ∧ (s.setCxl j v).fresh = s.fresh ∧ (s.setCxl j v).issued = s.issued ∧
      (s.setCxl j v).finished = s.finished ∧ (s.setCxl j v).counters = s.counters ∧ (s.setCxl j v).cueQ = s.cueQ ∧
      (s.setCxl j v).ports = s.ports ∧ (s.setCxl j v).tact = s.tact ∧ (s.setCxl j v).score = s.score ∧
      (s.setCxl j v).esp = s.esp ∧ (s.setCxl j v).queues = s.queues ∧ (s.setCxl j v).rings = s.rings ∧
      (s.setCxl j v).lastIssued = s.lastIssued ∧ (s.setCxl j v).ce = s.ce ∧ (s.setCxl j v).mes = s.mes ∧
      (s.setCxl j v).clusters = s.clusters ∧ (s.setCxl j v).dma = s.dma ∧ (s.setCxl j v).sync = s.sync ∧
      (s.setCxl j v).fc = s.fc ∧ (s.setCxl j v).graft = s.graft ∧ (s.setCxl j v).sys = s.sys ∧
      (s.setCxl j v).host = s.host ∧ (s.setCxl j v).mgmt = s.mgmt ∧ (s.setCxl j v).power = s.power :=
  ⟨rfl, rfl, rfl, rfl, rfl, rfl, rfl, rfl, rfl, rfl, rfl, rfl, rfl, rfl, rfl, rfl, rfl, rfl, rfl, rfl, rfl, rfl, rfl, rfl⟩

theorem State.cxl_setCxl (s : State) (j j' : Nat) (v : Cxl) :
    (s.setCxl j v).cxl j' = if j = j' then v else s.cxl j' := Tab.get_put _ _ _ _ _

@[simp] theorem State.cxl_setCxl_self (s : State) (j : Nat) (v : Cxl) : (s.setCxl j v).cxl j = v := Tab.get_put_self _ _ _ _

@[simp] theorem State.setLease_frame (s : State) (l : Nat) (v : LeaseAcct) :
    (s.setLease l v).now = s.now ∧ (s.setLease l v).fresh = s.fresh ∧ (s.setLease l v).issued = s.issued ∧
      (s.setLease l v).finished = s.finished ∧ (s.setLease l v).counters = s.counters ∧ (s.setLease l v).cueQ = s.cueQ ∧
      (s.setLease l v).ports = s.ports ∧ (s.setLease l v).tact = s.tact ∧ (s.setLease l v).score = s.score ∧
      (s.setLease l v).esp = s.esp ∧ (s.setLease l v).queues = s.queues ∧ (s.setLease l v).rings = s.rings ∧
      (s.setLease l v).lastIssued = s.lastIssued ∧ (s.setLease l v).ce = s.ce ∧ (s.setLease l v).mes = s.mes ∧
      (s.setLease l v).clusters = s.clusters ∧ (s.setLease l v).dma = s.dma ∧ (s.setLease l v).sync = s.sync ∧
      (s.setLease l v).fc = s.fc ∧ (s.setLease l v).graft = s.graft ∧ (s.setLease l v).sys = s.sys ∧
      (s.setLease l v).host = s.host ∧ (s.setLease l v).mgmt = s.mgmt ∧ (s.setLease l v).power = s.power :=
  ⟨rfl, rfl, rfl, rfl, rfl, rfl, rfl, rfl, rfl, rfl, rfl, rfl, rfl, rfl, rfl, rfl, rfl, rfl, rfl, rfl, rfl, rfl, rfl, rfl⟩

theorem State.lease_setLease (s : State) (l j' : Nat) (v : LeaseAcct) :
    (s.setLease l v).lease j' = if l = j' then v else s.lease j' := Tab.get_put _ _ _ _ _

@[simp] theorem State.lease_setLease_self (s : State) (l : Nat) (v : LeaseAcct) : (s.setLease l v).lease l = v := Tab.get_put_self _ _ _ _

@[simp] theorem State.setChan_frame (s : State) (c : Nat) (v : Channel) :
    (s.setChan c v).now = s.now ∧ (s.setChan c v).fresh = s.fresh ∧ (s.setChan c v).issued = s.issued ∧
      (s.setChan c v).finished = s.finished ∧ (s.setChan c v).counters = s.counters ∧ (s.setChan c v).cueQ = s.cueQ ∧
      (s.setChan c v).ports = s.ports ∧ (s.setChan c v).tact = s.tact ∧ (s.setChan c v).score = s.score ∧
      (s.setChan c v).esp = s.esp ∧ (s.setChan c v).mem = s.mem ∧ (s.setChan c v).queues = s.queues ∧
      (s.setChan c v).rings = s.rings ∧ (s.setChan c v).lastIssued = s.lastIssued ∧ (s.setChan c v).ce = s.ce ∧
      (s.setChan c v).mes = s.mes ∧ (s.setChan c v).clusters = s.clusters ∧ (s.setChan c v).sync = s.sync ∧
      (s.setChan c v).fc = s.fc ∧ (s.setChan c v).graft = s.graft ∧ (s.setChan c v).sys = s.sys ∧
      (s.setChan c v).host = s.host ∧ (s.setChan c v).mgmt = s.mgmt ∧ (s.setChan c v).power = s.power :=
  ⟨rfl, rfl, rfl, rfl, rfl, rfl, rfl, rfl, rfl, rfl, rfl, rfl, rfl, rfl, rfl, rfl, rfl, rfl, rfl, rfl, rfl, rfl, rfl, rfl⟩

theorem State.chan_setChan (s : State) (c j' : Nat) (v : Channel) :
    (s.setChan c v).chan j' = if c = j' then v else s.chan j' := Tab.get_put _ _ _ _ _

@[simp] theorem State.chan_setChan_self (s : State) (c : Nat) (v : Channel) : (s.setChan c v).chan c = v := Tab.get_put_self _ _ _ _

@[simp] theorem State.setLandWin_frame (s : State) (w : Nat) (v : LandWin) :
    (s.setLandWin w v).now = s.now ∧ (s.setLandWin w v).fresh = s.fresh ∧ (s.setLandWin w v).issued = s.issued ∧
      (s.setLandWin w v).finished = s.finished ∧ (s.setLandWin w v).counters = s.counters ∧ (s.setLandWin w v).cueQ = s.cueQ ∧
      (s.setLandWin w v).ports = s.ports ∧ (s.setLandWin w v).tact = s.tact ∧ (s.setLandWin w v).score = s.score ∧
      (s.setLandWin w v).esp = s.esp ∧ (s.setLandWin w v).mem = s.mem ∧ (s.setLandWin w v).queues = s.queues ∧
      (s.setLandWin w v).rings = s.rings ∧ (s.setLandWin w v).lastIssued = s.lastIssued ∧ (s.setLandWin w v).ce = s.ce ∧
      (s.setLandWin w v).mes = s.mes ∧ (s.setLandWin w v).clusters = s.clusters ∧ (s.setLandWin w v).sync = s.sync ∧
      (s.setLandWin w v).fc = s.fc ∧ (s.setLandWin w v).graft = s.graft ∧ (s.setLandWin w v).sys = s.sys ∧
      (s.setLandWin w v).host = s.host ∧ (s.setLandWin w v).mgmt = s.mgmt ∧ (s.setLandWin w v).power = s.power :=
  ⟨rfl, rfl, rfl, rfl, rfl, rfl, rfl, rfl, rfl, rfl, rfl, rfl, rfl, rfl, rfl, rfl, rfl, rfl, rfl, rfl, rfl, rfl, rfl, rfl⟩

theorem State.landWin_setLandWin (s : State) (w j' : Nat) (v : LandWin) :
    (s.setLandWin w v).landWin j' = if w = j' then v else s.landWin j' := Tab.get_put _ _ _ _ _

@[simp] theorem State.landWin_setLandWin_self (s : State) (w : Nat) (v : LandWin) : (s.setLandWin w v).landWin w = v := Tab.get_put_self _ _ _ _

@[simp] theorem State.setMe_frame (s : State) (m : Nat) (v : MatrixEngine) :
    (s.setMe m v).now = s.now ∧ (s.setMe m v).fresh = s.fresh ∧ (s.setMe m v).issued = s.issued ∧
      (s.setMe m v).finished = s.finished ∧ (s.setMe m v).counters = s.counters ∧ (s.setMe m v).cueQ = s.cueQ ∧
      (s.setMe m v).ports = s.ports ∧ (s.setMe m v).tact = s.tact ∧ (s.setMe m v).score = s.score ∧
      (s.setMe m v).esp = s.esp ∧ (s.setMe m v).mem = s.mem ∧ (s.setMe m v).queues = s.queues ∧
      (s.setMe m v).rings = s.rings ∧ (s.setMe m v).lastIssued = s.lastIssued ∧ (s.setMe m v).ce = s.ce ∧
      (s.setMe m v).clusters = s.clusters ∧ (s.setMe m v).dma = s.dma ∧ (s.setMe m v).sync = s.sync ∧
      (s.setMe m v).fc = s.fc ∧ (s.setMe m v).graft = s.graft ∧ (s.setMe m v).sys = s.sys ∧
      (s.setMe m v).host = s.host ∧ (s.setMe m v).mgmt = s.mgmt ∧ (s.setMe m v).power = s.power :=
  ⟨rfl, rfl, rfl, rfl, rfl, rfl, rfl, rfl, rfl, rfl, rfl, rfl, rfl, rfl, rfl, rfl, rfl, rfl, rfl, rfl, rfl, rfl, rfl, rfl⟩

theorem State.me_setMe (s : State) (m j' : Nat) (v : MatrixEngine) :
    (s.setMe m v).me j' = if m = j' then v else s.me j' := Tab.get_put _ _ _ _ _

@[simp] theorem State.me_setMe_self (s : State) (m : Nat) (v : MatrixEngine) : (s.setMe m v).me m = v := Tab.get_put_self _ _ _ _

@[simp] theorem State.setCl_frame (s : State) (c : Nat) (v : Cluster) :
    (s.setCl c v).now = s.now ∧ (s.setCl c v).fresh = s.fresh ∧ (s.setCl c v).issued = s.issued ∧
      (s.setCl c v).finished = s.finished ∧ (s.setCl c v).counters = s.counters ∧ (s.setCl c v).cueQ = s.cueQ ∧
      (s.setCl c v).ports = s.ports ∧ (s.setCl c v).tact = s.tact ∧ (s.setCl c v).score = s.score ∧
      (s.setCl c v).esp = s.esp ∧ (s.setCl c v).mem = s.mem ∧ (s.setCl c v).queues = s.queues ∧
      (s.setCl c v).rings = s.rings ∧ (s.setCl c v).lastIssued = s.lastIssued ∧ (s.setCl c v).ce = s.ce ∧
      (s.setCl c v).mes = s.mes ∧ (s.setCl c v).dma = s.dma ∧ (s.setCl c v).sync = s.sync ∧
      (s.setCl c v).fc = s.fc ∧ (s.setCl c v).graft = s.graft ∧ (s.setCl c v).sys = s.sys ∧
      (s.setCl c v).host = s.host ∧ (s.setCl c v).mgmt = s.mgmt ∧ (s.setCl c v).power = s.power :=
  ⟨rfl, rfl, rfl, rfl, rfl, rfl, rfl, rfl, rfl, rfl, rfl, rfl, rfl, rfl, rfl, rfl, rfl, rfl, rfl, rfl, rfl, rfl, rfl, rfl⟩

theorem State.cl_setCl (s : State) (c j' : Nat) (v : Cluster) :
    (s.setCl c v).cl j' = if c = j' then v else s.cl j' := Tab.get_put _ _ _ _ _

@[simp] theorem State.cl_setCl_self (s : State) (c : Nat) (v : Cluster) : (s.setCl c v).cl c = v := Tab.get_put_self _ _ _ _

@[simp] theorem State.setTally_frame (s : State) (t : Nat) (v : Tally) :
    (s.setTally t v).now = s.now ∧ (s.setTally t v).fresh = s.fresh ∧ (s.setTally t v).issued = s.issued ∧
      (s.setTally t v).finished = s.finished ∧ (s.setTally t v).counters = s.counters ∧ (s.setTally t v).cueQ = s.cueQ ∧
      (s.setTally t v).ports = s.ports ∧ (s.setTally t v).tact = s.tact ∧ (s.setTally t v).score = s.score ∧
      (s.setTally t v).esp = s.esp ∧ (s.setTally t v).mem = s.mem ∧ (s.setTally t v).queues = s.queues ∧
      (s.setTally t v).rings = s.rings ∧ (s.setTally t v).lastIssued = s.lastIssued ∧ (s.setTally t v).ce = s.ce ∧
      (s.setTally t v).mes = s.mes ∧ (s.setTally t v).clusters = s.clusters ∧ (s.setTally t v).dma = s.dma ∧
      (s.setTally t v).fc = s.fc ∧ (s.setTally t v).graft = s.graft ∧ (s.setTally t v).sys = s.sys ∧
      (s.setTally t v).host = s.host ∧ (s.setTally t v).mgmt = s.mgmt ∧ (s.setTally t v).power = s.power :=
  ⟨rfl, rfl, rfl, rfl, rfl, rfl, rfl, rfl, rfl, rfl, rfl, rfl, rfl, rfl, rfl, rfl, rfl, rfl, rfl, rfl, rfl, rfl, rfl, rfl⟩

theorem State.tally_setTally (s : State) (t j' : Nat) (v : Tally) :
    (s.setTally t v).tally j' = if t = j' then v else s.tally j' := Tab.get_put _ _ _ _ _

@[simp] theorem State.tally_setTally_self (s : State) (t : Nat) (v : Tally) : (s.setTally t v).tally t = v := Tab.get_put_self _ _ _ _

@[simp] theorem State.setBarrier_frame (s : State) (b : Nat) (v : Barrier) :
    (s.setBarrier b v).now = s.now ∧ (s.setBarrier b v).fresh = s.fresh ∧ (s.setBarrier b v).issued = s.issued ∧
      (s.setBarrier b v).finished = s.finished ∧ (s.setBarrier b v).counters = s.counters ∧ (s.setBarrier b v).cueQ = s.cueQ ∧
      (s.setBarrier b v).ports = s.ports ∧ (s.setBarrier b v).tact = s.tact ∧ (s.setBarrier b v).score = s.score ∧
      (s.setBarrier b v).esp = s.esp ∧ (s.setBarrier b v).mem = s.mem ∧ (s.setBarrier b v).queues = s.queues ∧
      (s.setBarrier b v).rings = s.rings ∧ (s.setBarrier b v).lastIssued = s.lastIssued ∧ (s.setBarrier b v).ce = s.ce ∧
      (s.setBarrier b v).mes = s.mes ∧ (s.setBarrier b v).clusters = s.clusters ∧ (s.setBarrier b v).dma = s.dma ∧
      (s.setBarrier b v).fc = s.fc ∧ (s.setBarrier b v).graft = s.graft ∧ (s.setBarrier b v).sys = s.sys ∧
      (s.setBarrier b v).host = s.host ∧ (s.setBarrier b v).mgmt = s.mgmt ∧ (s.setBarrier b v).power = s.power :=
  ⟨rfl, rfl, rfl, rfl, rfl, rfl, rfl, rfl, rfl, rfl, rfl, rfl, rfl, rfl, rfl, rfl, rfl, rfl, rfl, rfl, rfl, rfl, rfl, rfl⟩

theorem State.barrier_setBarrier (s : State) (b j' : Nat) (v : Barrier) :
    (s.setBarrier b v).barrier j' = if b = j' then v else s.barrier j' := Tab.get_put _ _ _ _ _

@[simp] theorem State.barrier_setBarrier_self (s : State) (b : Nat) (v : Barrier) : (s.setBarrier b v).barrier b = v := Tab.get_put_self _ _ _ _

@[simp] theorem State.setWake_frame (s : State) (w : Nat) (v : Wake) :
    (s.setWake w v).now = s.now ∧ (s.setWake w v).fresh = s.fresh ∧ (s.setWake w v).issued = s.issued ∧
      (s.setWake w v).finished = s.finished ∧ (s.setWake w v).counters = s.counters ∧ (s.setWake w v).cueQ = s.cueQ ∧
      (s.setWake w v).ports = s.ports ∧ (s.setWake w v).tact = s.tact ∧ (s.setWake w v).score = s.score ∧
      (s.setWake w v).esp = s.esp ∧ (s.setWake w v).mem = s.mem ∧ (s.setWake w v).queues = s.queues ∧
      (s.setWake w v).rings = s.rings ∧ (s.setWake w v).lastIssued = s.lastIssued ∧ (s.setWake w v).ce = s.ce ∧
      (s.setWake w v).mes = s.mes ∧ (s.setWake w v).clusters = s.clusters ∧ (s.setWake w v).dma = s.dma ∧
      (s.setWake w v).fc = s.fc ∧ (s.setWake w v).graft = s.graft ∧ (s.setWake w v).sys = s.sys ∧
      (s.setWake w v).host = s.host ∧ (s.setWake w v).mgmt = s.mgmt ∧ (s.setWake w v).power = s.power :=
  ⟨rfl, rfl, rfl, rfl, rfl, rfl, rfl, rfl, rfl, rfl, rfl, rfl, rfl, rfl, rfl, rfl, rfl, rfl, rfl, rfl, rfl, rfl, rfl, rfl⟩

theorem State.wake_setWake (s : State) (w j' : Nat) (v : Wake) :
    (s.setWake w v).wake j' = if w = j' then v else s.wake j' := Tab.get_put _ _ _ _ _

@[simp] theorem State.wake_setWake_self (s : State) (w : Nat) (v : Wake) : (s.setWake w v).wake w = v := Tab.get_put_self _ _ _ _

@[simp] theorem State.setTgt_frame (s : State) (t : Nat) (v : Target) :
    (s.setTgt t v).now = s.now ∧ (s.setTgt t v).fresh = s.fresh ∧ (s.setTgt t v).issued = s.issued ∧
      (s.setTgt t v).finished = s.finished ∧ (s.setTgt t v).counters = s.counters ∧ (s.setTgt t v).cueQ = s.cueQ ∧
      (s.setTgt t v).ports = s.ports ∧ (s.setTgt t v).tact = s.tact ∧ (s.setTgt t v).score = s.score ∧
      (s.setTgt t v).esp = s.esp ∧ (s.setTgt t v).mem = s.mem ∧ (s.setTgt t v).queues = s.queues ∧
      (s.setTgt t v).rings = s.rings ∧ (s.setTgt t v).lastIssued = s.lastIssued ∧ (s.setTgt t v).ce = s.ce ∧
      (s.setTgt t v).mes = s.mes ∧ (s.setTgt t v).clusters = s.clusters ∧ (s.setTgt t v).dma = s.dma ∧
      (s.setTgt t v).sync = s.sync ∧ (s.setTgt t v).graft = s.graft ∧ (s.setTgt t v).sys = s.sys ∧
      (s.setTgt t v).host = s.host ∧ (s.setTgt t v).mgmt = s.mgmt ∧ (s.setTgt t v).power = s.power :=
  ⟨rfl, rfl, rfl, rfl, rfl, rfl, rfl, rfl, rfl, rfl, rfl, rfl, rfl, rfl, rfl, rfl, rfl, rfl, rfl, rfl, rfl, rfl, rfl, rfl⟩

theorem State.tgt_setTgt (s : State) (t j' : Nat) (v : Target) :
    (s.setTgt t v).tgt j' = if t = j' then v else s.tgt j' := Tab.get_put _ _ _ _ _

@[simp] theorem State.tgt_setTgt_self (s : State) (t : Nat) (v : Target) : (s.setTgt t v).tgt t = v := Tab.get_put_self _ _ _ _

@[simp] theorem State.setResetOf_frame (s : State) (i : Nat) (v : ResetState) :
    (s.setResetOf i v).now = s.now ∧ (s.setResetOf i v).fresh = s.fresh ∧ (s.setResetOf i v).issued = s.issued ∧
      (s.setResetOf i v).finished = s.finished ∧ (s.setResetOf i v).counters = s.counters ∧ (s.setResetOf i v).cueQ = s.cueQ ∧
      (s.setResetOf i v).ports = s.ports ∧ (s.setResetOf i v).tact = s.tact ∧ (s.setResetOf i v).score = s.score ∧
      (s.setResetOf i v).esp = s.esp ∧ (s.setResetOf i v).mem = s.mem ∧ (s.setResetOf i v).queues = s.queues ∧
      (s.setResetOf i v).rings = s.rings ∧ (s.setResetOf i v).lastIssued = s.lastIssued ∧ (s.setResetOf i v).ce = s.ce ∧
      (s.setResetOf i v).mes = s.mes ∧ (s.setResetOf i v).clusters = s.clusters ∧ (s.setResetOf i v).dma = s.dma ∧
      (s.setResetOf i v).sync = s.sync ∧ (s.setResetOf i v).graft = s.graft ∧ (s.setResetOf i v).sys = s.sys ∧
      (s.setResetOf i v).host = s.host ∧ (s.setResetOf i v).mgmt = s.mgmt ∧ (s.setResetOf i v).power = s.power :=
  ⟨rfl, rfl, rfl, rfl, rfl, rfl, rfl, rfl, rfl, rfl, rfl, rfl, rfl, rfl, rfl, rfl, rfl, rfl, rfl, rfl, rfl, rfl, rfl, rfl⟩

theorem State.resetOf_setResetOf (s : State) (i j' : Nat) (v : ResetState) :
    (s.setResetOf i v).resetOf j' = if i = j' then v else s.resetOf j' := Tab.get_put _ _ _ _ _

@[simp] theorem State.resetOf_setResetOf_self (s : State) (i : Nat) (v : ResetState) : (s.setResetOf i v).resetOf i = v := Tab.get_put_self _ _ _ _

@[simp] theorem State.setUnit_frame (s : State) (i : Nat) (v : UnitReg) :
    (s.setUnit i v).now = s.now ∧ (s.setUnit i v).fresh = s.fresh ∧ (s.setUnit i v).issued = s.issued ∧
      (s.setUnit i v).finished = s.finished ∧ (s.setUnit i v).counters = s.counters ∧ (s.setUnit i v).cueQ = s.cueQ ∧
      (s.setUnit i v).ports = s.ports ∧ (s.setUnit i v).tact = s.tact ∧ (s.setUnit i v).score = s.score ∧
      (s.setUnit i v).esp = s.esp ∧ (s.setUnit i v).mem = s.mem ∧ (s.setUnit i v).queues = s.queues ∧
      (s.setUnit i v).rings = s.rings ∧ (s.setUnit i v).lastIssued = s.lastIssued ∧ (s.setUnit i v).ce = s.ce ∧
      (s.setUnit i v).mes = s.mes ∧ (s.setUnit i v).clusters = s.clusters ∧ (s.setUnit i v).dma = s.dma ∧
      (s.setUnit i v).sync = s.sync ∧ (s.setUnit i v).fc = s.fc ∧ (s.setUnit i v).sys = s.sys ∧
      (s.setUnit i v).host = s.host ∧ (s.setUnit i v).mgmt = s.mgmt ∧ (s.setUnit i v).power = s.power :=
  ⟨rfl, rfl, rfl, rfl, rfl, rfl, rfl, rfl, rfl, rfl, rfl, rfl, rfl, rfl, rfl, rfl, rfl, rfl, rfl, rfl, rfl, rfl, rfl, rfl⟩

theorem State.unit_setUnit (s : State) (i j' : Nat) (v : UnitReg) :
    (s.setUnit i v).unit j' = if i = j' then v else s.unit j' := Tab.get_put _ _ _ _ _

@[simp] theorem State.unit_setUnit_self (s : State) (i : Nat) (v : UnitReg) : (s.setUnit i v).unit i = v := Tab.get_put_self _ _ _ _

@[simp] theorem State.setCueQueue_frame (s : State) (g : Nat) (v : CueQueue) :
    (s.setCueQueue g v).now = s.now ∧ (s.setCueQueue g v).fresh = s.fresh ∧ (s.setCueQueue g v).issued = s.issued ∧
      (s.setCueQueue g v).finished = s.finished ∧ (s.setCueQueue g v).counters = s.counters ∧ (s.setCueQueue g v).ports = s.ports ∧
      (s.setCueQueue g v).tact = s.tact ∧ (s.setCueQueue g v).score = s.score ∧ (s.setCueQueue g v).esp = s.esp ∧
      (s.setCueQueue g v).mem = s.mem ∧ (s.setCueQueue g v).queues = s.queues ∧ (s.setCueQueue g v).rings = s.rings ∧
      (s.setCueQueue g v).lastIssued = s.lastIssued ∧ (s.setCueQueue g v).ce = s.ce ∧ (s.setCueQueue g v).mes = s.mes ∧
      (s.setCueQueue g v).clusters = s.clusters ∧ (s.setCueQueue g v).dma = s.dma ∧ (s.setCueQueue g v).sync = s.sync ∧
      (s.setCueQueue g v).fc = s.fc ∧ (s.setCueQueue g v).graft = s.graft ∧ (s.setCueQueue g v).sys = s.sys ∧
      (s.setCueQueue g v).host = s.host ∧ (s.setCueQueue g v).mgmt = s.mgmt ∧ (s.setCueQueue g v).power = s.power :=
  ⟨rfl, rfl, rfl, rfl, rfl, rfl, rfl, rfl, rfl, rfl, rfl, rfl, rfl, rfl, rfl, rfl, rfl, rfl, rfl, rfl, rfl, rfl, rfl, rfl⟩

theorem State.cueQueue_setCueQueue (s : State) (g j' : Nat) (v : CueQueue) :
    (s.setCueQueue g v).cueQueue j' = if g = j' then v else s.cueQueue j' := Tab.get_put _ _ _ _ _

@[simp] theorem State.cueQueue_setCueQueue_self (s : State) (g : Nat) (v : CueQueue) : (s.setCueQueue g v).cueQueue g = v := Tab.get_put_self _ _ _ _

@[simp] theorem State.modPort_frame (s : State) (p : Nat) (g : Port → Port) :
    (s.modPort p g).now = s.now ∧ (s.modPort p g).fresh = s.fresh ∧ (s.modPort p g).issued = s.issued ∧
      (s.modPort p g).finished = s.finished ∧ (s.modPort p g).counters = s.counters ∧ (s.modPort p g).cueQ = s.cueQ ∧
      (s.modPort p g).tact = s.tact ∧ (s.modPort p g).score = s.score ∧ (s.modPort p g).esp = s.esp ∧
      (s.modPort p g).mem = s.mem ∧ (s.modPort p g).queues = s.queues ∧ (s.modPort p g).rings = s.rings ∧
      (s.modPort p g).lastIssued = s.lastIssued ∧ (s.modPort p g).ce = s.ce ∧ (s.modPort p g).mes = s.mes ∧
      (s.modPort p g).clusters = s.clusters ∧ (s.modPort p g).dma = s.dma ∧ (s.modPort p g).sync = s.sync ∧
      (s.modPort p g).fc = s.fc ∧ (s.modPort p g).graft = s.graft ∧ (s.modPort p g).sys = s.sys ∧
      (s.modPort p g).host = s.host ∧ (s.modPort p g).mgmt = s.mgmt ∧ (s.modPort p g).power = s.power :=
  ⟨rfl, rfl, rfl, rfl, rfl, rfl, rfl, rfl, rfl, rfl, rfl, rfl, rfl, rfl, rfl, rfl, rfl, rfl, rfl, rfl, rfl, rfl, rfl, rfl⟩

@[simp] theorem State.port_modPort_self (s : State) (p : Nat) (g : Port → Port) : (s.modPort p g).port p = g (s.port p) := Tab.get_put_self _ _ _ _

@[simp] theorem State.modQueue_frame (s : State) (q : Nat) (g : Queue → Queue) :
    (s.modQueue q g).now = s.now ∧ (s.modQueue q g).fresh = s.fresh ∧ (s.modQueue q g).issued = s.issued ∧
      (s.modQueue q g).finished = s.finished ∧ (s.modQueue q g).counters = s.counters ∧ (s.modQueue q g).cueQ = s.cueQ ∧
      (s.modQueue q g).ports = s.ports ∧ (s.modQueue q g).tact = s.tact ∧ (s.modQueue q g).score = s.score ∧
      (s.modQueue q g).esp = s.esp ∧ (s.modQueue q g).mem = s.mem ∧ (s.modQueue q g).rings = s.rings ∧
      (s.modQueue q g).lastIssued = s.lastIssued ∧ (s.modQueue q g).ce = s.ce ∧ (s.modQueue q g).mes = s.mes ∧
      (s.modQueue q g).clusters = s.clusters ∧ (s.modQueue q g).dma = s.dma ∧ (s.modQueue q g).sync = s.sync ∧
      (s.modQueue q g).fc = s.fc ∧ (s.modQueue q g).graft = s.graft ∧ (s.modQueue q g).sys = s.sys ∧
      (s.modQueue q g).host = s.host ∧ (s.modQueue q g).mgmt = s.mgmt ∧ (s.modQueue q g).power = s.power :=
  ⟨rfl, rfl, rfl, rfl, rfl, rfl, rfl, rfl, rfl, rfl, rfl, rfl, rfl, rfl, rfl, rfl, rfl, rfl, rfl, rfl, rfl, rfl, rfl, rfl⟩

@[simp] theorem State.queue_modQueue_self (s : State) (q : Nat) (g : Queue → Queue) : (s.modQueue q g).queue q = g (s.queue q) := Tab.get_put_self _ _ _ _

@[simp] theorem State.modRing_frame (s : State) (r : Nat) (g : Ring → Ring) :
    (s.modRing r g).now = s.now ∧ (s.modRing r g).fresh = s.fresh ∧ (s.modRing r g).issued = s.issued ∧
      (s.modRing r g).finished = s.finished ∧ (s.modRing r g).counters = s.counters ∧ (s.modRing r g).cueQ = s.cueQ ∧
      (s.modRing r g).ports = s.ports ∧ (s.modRing r g).tact = s.tact ∧ (s.modRing r g).score = s.score ∧
      (s.modRing r g).esp = s.esp ∧ (s.modRing r g).mem = s.mem ∧ (s.modRing r g).queues = s.queues ∧
      (s.modRing r g).lastIssued = s.lastIssued ∧ (s.modRing r g).ce = s.ce ∧ (s.modRing r g).mes = s.mes ∧
      (s.modRing r g).clusters = s.clusters ∧ (s.modRing r g).dma = s.dma ∧ (s.modRing r g).sync = s.sync ∧
      (s.modRing r g).fc = s.fc ∧ (s.modRing r g).graft = s.graft ∧ (s.modRing r g).sys = s.sys ∧
      (s.modRing r g).host = s.host ∧ (s.modRing r g).mgmt = s.mgmt ∧ (s.modRing r g).power = s.power :=
  ⟨rfl, rfl, rfl, rfl, rfl, rfl, rfl, rfl, rfl, rfl, rfl, rfl, rfl, rfl, rfl, rfl, rfl, rfl, rfl, rfl, rfl, rfl, rfl, rfl⟩

@[simp] theorem State.ring_modRing_self (s : State) (r : Nat) (g : Ring → Ring) : (s.modRing r g).ring r = g (s.ring r) := Tab.get_put_self _ _ _ _

@[simp] theorem State.modCtrl_frame (s : State) (k : Nat) (g : MemPort → MemPort) :
    (s.modCtrl k g).now = s.now ∧ (s.modCtrl k g).fresh = s.fresh ∧ (s.modCtrl k g).issued = s.issued ∧
      (s.modCtrl k g).finished = s.finished ∧ (s.modCtrl k g).counters = s.counters ∧ (s.modCtrl k g).cueQ = s.cueQ ∧
      (s.modCtrl k g).ports = s.ports ∧ (s.modCtrl k g).tact = s.tact ∧ (s.modCtrl k g).score = s.score ∧
      (s.modCtrl k g).esp = s.esp ∧ (s.modCtrl k g).queues = s.queues ∧ (s.modCtrl k g).rings = s.rings ∧
      (s.modCtrl k g).lastIssued = s.lastIssued ∧ (s.modCtrl k g).ce = s.ce ∧ (s.modCtrl k g).mes = s.mes ∧
      (s.modCtrl k g).clusters = s.clusters ∧ (s.modCtrl k g).dma = s.dma ∧ (s.modCtrl k g).sync = s.sync ∧
      (s.modCtrl k g).fc = s.fc ∧ (s.modCtrl k g).graft = s.graft ∧ (s.modCtrl k g).sys = s.sys ∧
      (s.modCtrl k g).host = s.host ∧ (s.modCtrl k g).mgmt = s.mgmt ∧ (s.modCtrl k g).power = s.power :=
  ⟨rfl, rfl, rfl, rfl, rfl, rfl, rfl, rfl, rfl, rfl, rfl, rfl, rfl, rfl, rfl, rfl, rfl, rfl, rfl, rfl, rfl, rfl, rfl, rfl⟩

@[simp] theorem State.ctrl_modCtrl_self (s : State) (k : Nat) (g : MemPort → MemPort) : (s.modCtrl k g).ctrl k = g (s.ctrl k) := Tab.get_put_self _ _ _ _

@[simp] theorem State.modCxl_frame (s : State) (j : Nat) (g : Cxl → Cxl) :
    (s.modCxl j g).now = s.now ∧ (s.modCxl j g).fresh = s.fresh ∧ (s.modCxl j g).issued = s.issued ∧
      (s.modCxl j g).finished = s.finished ∧ (s.modCxl j g).counters = s.counters ∧ (s.modCxl j g).cueQ = s.cueQ ∧
      (s.modCxl j g).ports = s.ports ∧ (s.modCxl j g).tact = s.tact ∧ (s.modCxl j g).score = s.score ∧
      (s.modCxl j g).esp = s.esp ∧ (s.modCxl j g).queues = s.queues ∧ (s.modCxl j g).rings = s.rings ∧
      (s.modCxl j g).lastIssued = s.lastIssued ∧ (s.modCxl j g).ce = s.ce ∧ (s.modCxl j g).mes = s.mes ∧
      (s.modCxl j g).clusters = s.clusters ∧ (s.modCxl j g).dma = s.dma ∧ (s.modCxl j g).sync = s.sync ∧
      (s.modCxl j g).fc = s.fc ∧ (s.modCxl j g).graft = s.graft ∧ (s.modCxl j g).sys = s.sys ∧
      (s.modCxl j g).host = s.host ∧ (s.modCxl j g).mgmt = s.mgmt ∧ (s.modCxl j g).power = s.power :=
  ⟨rfl, rfl, rfl, rfl, rfl, rfl, rfl, rfl, rfl, rfl, rfl, rfl, rfl, rfl, rfl, rfl, rfl, rfl, rfl, rfl, rfl, rfl, rfl, rfl⟩

@[simp] theorem State.cxl_modCxl_self (s : State) (j : Nat) (g : Cxl → Cxl) : (s.modCxl j g).cxl j = g (s.cxl j) := Tab.get_put_self _ _ _ _

@[simp] theorem State.modChan_frame (s : State) (c : Nat) (g : Channel → Channel) :
    (s.modChan c g).now = s.now ∧ (s.modChan c g).fresh = s.fresh ∧ (s.modChan c g).issued = s.issued ∧
      (s.modChan c g).finished = s.finished ∧ (s.modChan c g).counters = s.counters ∧ (s.modChan c g).cueQ = s.cueQ ∧
      (s.modChan c g).ports = s.ports ∧ (s.modChan c g).tact = s.tact ∧ (s.modChan c g).score = s.score ∧
      (s.modChan c g).esp = s.esp ∧ (s.modChan c g).mem = s.mem ∧ (s.modChan c g).queues = s.queues ∧
      (s.modChan c g).rings = s.rings ∧ (s.modChan c g).lastIssued = s.lastIssued ∧ (s.modChan c g).ce = s.ce ∧
      (s.modChan c g).mes = s.mes ∧ (s.modChan c g).clusters = s.clusters ∧ (s.modChan c g).sync = s.sync ∧
      (s.modChan c g).fc = s.fc ∧ (s.modChan c g).graft = s.graft ∧ (s.modChan c g).sys = s.sys ∧
      (s.modChan c g).host = s.host ∧ (s.modChan c g).mgmt = s.mgmt ∧ (s.modChan c g).power = s.power :=
  ⟨rfl, rfl, rfl, rfl, rfl, rfl, rfl, rfl, rfl, rfl, rfl, rfl, rfl, rfl, rfl, rfl, rfl, rfl, rfl, rfl, rfl, rfl, rfl, rfl⟩

@[simp] theorem State.chan_modChan_self (s : State) (c : Nat) (g : Channel → Channel) : (s.modChan c g).chan c = g (s.chan c) := Tab.get_put_self _ _ _ _

@[simp] theorem State.modUnit_frame (s : State) (i : Nat) (g : UnitReg → UnitReg) :
    (s.modUnit i g).now = s.now ∧ (s.modUnit i g).fresh = s.fresh ∧ (s.modUnit i g).issued = s.issued ∧
      (s.modUnit i g).finished = s.finished ∧ (s.modUnit i g).counters = s.counters ∧ (s.modUnit i g).cueQ = s.cueQ ∧
      (s.modUnit i g).ports = s.ports ∧ (s.modUnit i g).tact = s.tact ∧ (s.modUnit i g).score = s.score ∧
      (s.modUnit i g).esp = s.esp ∧ (s.modUnit i g).mem = s.mem ∧ (s.modUnit i g).queues = s.queues ∧
      (s.modUnit i g).rings = s.rings ∧ (s.modUnit i g).lastIssued = s.lastIssued ∧ (s.modUnit i g).ce = s.ce ∧
      (s.modUnit i g).mes = s.mes ∧ (s.modUnit i g).clusters = s.clusters ∧ (s.modUnit i g).dma = s.dma ∧
      (s.modUnit i g).sync = s.sync ∧ (s.modUnit i g).fc = s.fc ∧ (s.modUnit i g).sys = s.sys ∧
      (s.modUnit i g).host = s.host ∧ (s.modUnit i g).mgmt = s.mgmt ∧ (s.modUnit i g).power = s.power :=
  ⟨rfl, rfl, rfl, rfl, rfl, rfl, rfl, rfl, rfl, rfl, rfl, rfl, rfl, rfl, rfl, rfl, rfl, rfl, rfl, rfl, rfl, rfl, rfl, rfl⟩

@[simp] theorem State.unit_modUnit_self (s : State) (i : Nat) (g : UnitReg → UnitReg) : (s.modUnit i g).unit i = g (s.unit i) := Tab.get_put_self _ _ _ _

@[simp] theorem State.countN_frame (s : State) (a n : Nat) :
    (s.countN a n).now = s.now ∧ (s.countN a n).fresh = s.fresh ∧ (s.countN a n).issued = s.issued ∧
      (s.countN a n).finished = s.finished ∧ (s.countN a n).cueQ = s.cueQ ∧ (s.countN a n).ports = s.ports ∧
      (s.countN a n).tact = s.tact ∧ (s.countN a n).score = s.score ∧ (s.countN a n).esp = s.esp ∧
      (s.countN a n).mem = s.mem ∧ (s.countN a n).queues = s.queues ∧ (s.countN a n).rings = s.rings ∧
      (s.countN a n).lastIssued = s.lastIssued ∧ (s.countN a n).ce = s.ce ∧ (s.countN a n).mes = s.mes ∧
      (s.countN a n).clusters = s.clusters ∧ (s.countN a n).dma = s.dma ∧ (s.countN a n).sync = s.sync ∧
      (s.countN a n).fc = s.fc ∧ (s.countN a n).graft = s.graft ∧ (s.countN a n).sys = s.sys ∧
      (s.countN a n).host = s.host ∧ (s.countN a n).mgmt = s.mgmt ∧ (s.countN a n).power = s.power :=
  ⟨rfl, rfl, rfl, rfl, rfl, rfl, rfl, rfl, rfl, rfl, rfl, rfl, rfl, rfl, rfl, rfl, rfl, rfl, rfl, rfl, rfl, rfl, rfl, rfl⟩

@[simp] theorem State.count_frame (s : State) (a : Nat) :
    (s.count a).now = s.now ∧ (s.count a).fresh = s.fresh ∧ (s.count a).issued = s.issued ∧
      (s.count a).finished = s.finished ∧ (s.count a).cueQ = s.cueQ ∧ (s.count a).ports = s.ports ∧
      (s.count a).tact = s.tact ∧ (s.count a).score = s.score ∧ (s.count a).esp = s.esp ∧
      (s.count a).mem = s.mem ∧ (s.count a).queues = s.queues ∧ (s.count a).rings = s.rings ∧
      (s.count a).lastIssued = s.lastIssued ∧ (s.count a).ce = s.ce ∧ (s.count a).mes = s.mes ∧
      (s.count a).clusters = s.clusters ∧ (s.count a).dma = s.dma ∧ (s.count a).sync = s.sync ∧
      (s.count a).fc = s.fc ∧ (s.count a).graft = s.graft ∧ (s.count a).sys = s.sys ∧
      (s.count a).host = s.host ∧ (s.count a).mgmt = s.mgmt ∧ (s.count a).power = s.power :=
  ⟨rfl, rfl, rfl, rfl, rfl, rfl, rfl, rfl, rfl, rfl, rfl, rfl, rfl, rfl, rfl, rfl, rfl, rfl, rfl, rfl, rfl, rfl, rfl, rfl⟩

@[simp] theorem State.pendVector_frame (s : State) (v : Nat) :
    (s.pendVector v).now = s.now ∧ (s.pendVector v).fresh = s.fresh ∧ (s.pendVector v).issued = s.issued ∧
      (s.pendVector v).finished = s.finished ∧ (s.pendVector v).counters = s.counters ∧ (s.pendVector v).cueQ = s.cueQ ∧
      (s.pendVector v).ports = s.ports ∧ (s.pendVector v).tact = s.tact ∧ (s.pendVector v).score = s.score ∧
      (s.pendVector v).esp = s.esp ∧ (s.pendVector v).mem = s.mem ∧ (s.pendVector v).queues = s.queues ∧
      (s.pendVector v).rings = s.rings ∧ (s.pendVector v).lastIssued = s.lastIssued ∧ (s.pendVector v).ce = s.ce ∧
      (s.pendVector v).mes = s.mes ∧ (s.pendVector v).clusters = s.clusters ∧ (s.pendVector v).dma = s.dma ∧
      (s.pendVector v).sync = s.sync ∧ (s.pendVector v).fc = s.fc ∧ (s.pendVector v).graft = s.graft ∧
      (s.pendVector v).sys = s.sys ∧ (s.pendVector v).mgmt = s.mgmt ∧ (s.pendVector v).power = s.power :=
  ⟨rfl, rfl, rfl, rfl, rfl, rfl, rfl, rfl, rfl, rfl, rfl, rfl, rfl, rfl, rfl, rfl, rfl, rfl, rfl, rfl, rfl, rfl, rfl, rfl⟩

@[simp] theorem State.sendVector_frame (s : State) (v : Nat) :
    (s.sendVector v).now = s.now ∧ (s.sendVector v).fresh = s.fresh ∧ (s.sendVector v).issued = s.issued ∧
      (s.sendVector v).finished = s.finished ∧ (s.sendVector v).counters = s.counters ∧ (s.sendVector v).cueQ = s.cueQ ∧
      (s.sendVector v).ports = s.ports ∧ (s.sendVector v).tact = s.tact ∧ (s.sendVector v).score = s.score ∧
      (s.sendVector v).esp = s.esp ∧ (s.sendVector v).mem = s.mem ∧ (s.sendVector v).queues = s.queues ∧
      (s.sendVector v).rings = s.rings ∧ (s.sendVector v).lastIssued = s.lastIssued ∧ (s.sendVector v).ce = s.ce ∧
      (s.sendVector v).mes = s.mes ∧ (s.sendVector v).clusters = s.clusters ∧ (s.sendVector v).dma = s.dma ∧
      (s.sendVector v).sync = s.sync ∧ (s.sendVector v).fc = s.fc ∧ (s.sendVector v).graft = s.graft ∧
      (s.sendVector v).sys = s.sys ∧ (s.sendVector v).mgmt = s.mgmt ∧ (s.sendVector v).power = s.power :=
  ⟨rfl, rfl, rfl, rfl, rfl, rfl, rfl, rfl, rfl, rfl, rfl, rfl, rfl, rfl, rfl, rfl, rfl, rfl, rfl, rfl, rfl, rfl, rfl, rfl⟩

/-! ### Two updates of one entry -/

@[simp] theorem State.setPort_setPort (s : State) (p : Nat) (v w : Port) : (s.setPort p v).setPort p w = s.setPort p w := by
  simp [State.setPort]
@[simp] theorem State.setQueue_setQueue (s : State) (q : Nat) (v w : Queue) : (s.setQueue q v).setQueue q w = s.setQueue q w := by
  simp [State.setQueue]
@[simp] theorem State.setRing_setRing (s : State) (r : Nat) (v w : Ring) : (s.setRing r v).setRing r w = s.setRing r w := by
  simp [State.setRing]
@[simp] theorem State.setCtrl_setCtrl (s : State) (k : Nat) (v w : MemPort) : (s.setCtrl k v).setCtrl k w = s.setCtrl k w := by
  simp [State.setCtrl]
@[simp] theorem State.setRegion_setRegion (s : State) (n : Nat) (v w : Region) : (s.setRegion n v).setRegion n w = s.setRegion n w := by
  simp [State.setRegion]
@[simp] theorem State.setCxl_setCxl (s : State) (j : Nat) (v w : Cxl) : (s.setCxl j v).setCxl j w = s.setCxl j w := by
  simp [State.setCxl]
@[simp] theorem State.setLease_setLease (s : State) (l : Nat) (v w : LeaseAcct) : (s.setLease l v).setLease l w = s.setLease l w := by
  simp [State.setLease]
@[simp] theorem State.setChan_setChan (s : State) (c : Nat) (v w : Channel) : (s.setChan c v).setChan c w = s.setChan c w := by
  simp [State.setChan]
@[simp] theorem State.setLandWin_setLandWin (s : State) (j : Nat) (v w : LandWin) : (s.setLandWin j v).setLandWin j w = s.setLandWin j w := by
  simp [State.setLandWin]
@[simp] theorem State.setMe_setMe (s : State) (m : Nat) (v w : MatrixEngine) : (s.setMe m v).setMe m w = s.setMe m w := by
  simp [State.setMe]
@[simp] theorem State.setCl_setCl (s : State) (c : Nat) (v w : Cluster) : (s.setCl c v).setCl c w = s.setCl c w := by
  simp [State.setCl]
@[simp] theorem State.setTally_setTally (s : State) (t : Nat) (v w : Tally) : (s.setTally t v).setTally t w = s.setTally t w := by
  simp [State.setTally]
@[simp] theorem State.setBarrier_setBarrier (s : State) (b : Nat) (v w : Barrier) : (s.setBarrier b v).setBarrier b w = s.setBarrier b w := by
  simp [State.setBarrier]
@[simp] theorem State.setWake_setWake (s : State) (j : Nat) (v w : Wake) : (s.setWake j v).setWake j w = s.setWake j w := by
  simp [State.setWake]
@[simp] theorem State.setTgt_setTgt (s : State) (t : Nat) (v w : Target) : (s.setTgt t v).setTgt t w = s.setTgt t w := by
  simp [State.setTgt]
@[simp] theorem State.setResetOf_setResetOf (s : State) (i : Nat) (v w : ResetState) : (s.setResetOf i v).setResetOf i w = s.setResetOf i w := by
  simp [State.setResetOf]
@[simp] theorem State.setUnit_setUnit (s : State) (i : Nat) (v w : UnitReg) : (s.setUnit i v).setUnit i w = s.setUnit i w := by
  simp [State.setUnit]
@[simp] theorem State.setCueQueue_setCueQueue (s : State) (g : Nat) (v w : CueQueue) : (s.setCueQueue g v).setCueQueue g w = s.setCueQueue g w := by
  simp [State.setCueQueue]

/-- R525: what a counter holds after it was counted. -/
theorem State.counter_countN (s : State) (a b n : Nat) :
    (s.countN a n).counter b = if a = b then BitVec.ofNat 32 (satAdd 0xFFFFFFFF (s.counter a).toNat n) else s.counter b :=
  Tab.get_put _ _ _ _ _

end Sys2Proof.Machine
end

