-- ==== Sys2Proof/Laws/Frames.lean ====
section
/-!
SUPPORT. What the shared operations leave alone: for each of them, every block of the state that it does not touch.
-/
namespace Sys2Proof.Machine

@[simp] theorem forEach_now {α : Type} (xs : List α) (f : α → State → State) (s : State)
    (hf : ∀ x s, (f x s).now = s.now) : (forEach xs f s).now = s.now := foldl_keeps State.now _ (fun s x => hf x s) xs s

@[simp] theorem forEach_fresh {α : Type} (xs : List α) (f : α → State → State) (s : State)
    (hf : ∀ x s, (f x s).fresh = s.fresh) : (forEach xs f s).fresh = s.fresh := foldl_keeps State.fresh _ (fun s x => hf x s) xs s

@[simp] theorem forEach_issued {α : Type} (xs : List α) (f : α → State → State) (s : State)
    (hf : ∀ x s, (f x s).issued = s.issued) : (forEach xs f s).issued = s.issued := foldl_keeps State.issued _ (fun s x => hf x s) xs s

@[simp] theorem forEach_finished {α : Type} (xs : List α) (f : α → State → State) (s : State)
    (hf : ∀ x s, (f x s).finished = s.finished) : (forEach xs f s).finished = s.finished := foldl_keeps State.finished _ (fun s x => hf x s) xs s

@[simp] theorem forEach_counters {α : Type} (xs : List α) (f : α → State → State) (s : State)
    (hf : ∀ x s, (f x s).counters = s.counters) : (forEach xs f s).counters = s.counters := foldl_keeps State.counters _ (fun s x => hf x s) xs s

@[simp] theorem forEach_cueQ {α : Type} (xs : List α) (f : α → State → State) (s : State)
    (hf : ∀ x s, (f x s).cueQ = s.cueQ) : (forEach xs f s).cueQ = s.cueQ := foldl_keeps State.cueQ _ (fun s x => hf x s) xs s

@[simp] theorem forEach_ports {α : Type} (xs : List α) (f : α → State → State) (s : State)
    (hf : ∀ x s, (f x s).ports = s.ports) : (forEach xs f s).ports = s.ports := foldl_keeps State.ports _ (fun s x => hf x s) xs s

@[simp] theorem forEach_tact {α : Type} (xs : List α) (f : α → State → State) (s : State)
    (hf : ∀ x s, (f x s).tact = s.tact) : (forEach xs f s).tact = s.tact := foldl_keeps State.tact _ (fun s x => hf x s) xs s

@[simp] theorem forEach_score {α : Type} (xs : List α) (f : α → State → State) (s : State)
    (hf : ∀ x s, (f x s).score = s.score) : (forEach xs f s).score = s.score := foldl_keeps State.score _ (fun s x => hf x s) xs s

@[simp] theorem forEach_esp {α : Type} (xs : List α) (f : α → State → State) (s : State)
    (hf : ∀ x s, (f x s).esp = s.esp) : (forEach xs f s).esp = s.esp := foldl_keeps State.esp _ (fun s x => hf x s) xs s

@[simp] theorem forEach_mem {α : Type} (xs : List α) (f : α → State → State) (s : State)
    (hf : ∀ x s, (f x s).mem = s.mem) : (forEach xs f s).mem = s.mem := foldl_keeps State.mem _ (fun s x => hf x s) xs s

@[simp] theorem forEach_queues {α : Type} (xs : List α) (f : α → State → State) (s : State)
    (hf : ∀ x s, (f x s).queues = s.queues) : (forEach xs f s).queues = s.queues := foldl_keeps State.queues _ (fun s x => hf x s) xs s

@[simp] theorem forEach_rings {α : Type} (xs : List α) (f : α → State → State) (s : State)
    (hf : ∀ x s, (f x s).rings = s.rings) : (forEach xs f s).rings = s.rings := foldl_keeps State.rings _ (fun s x => hf x s) xs s

@[simp] theorem forEach_lastIssued {α : Type} (xs : List α) (f : α → State → State) (s : State)
    (hf : ∀ x s, (f x s).lastIssued = s.lastIssued) : (forEach xs f s).lastIssued = s.lastIssued := foldl_keeps State.lastIssued _ (fun s x => hf x s) xs s

@[simp] theorem forEach_ce {α : Type} (xs : List α) (f : α → State → State) (s : State)
    (hf : ∀ x s, (f x s).ce = s.ce) : (forEach xs f s).ce = s.ce := foldl_keeps State.ce _ (fun s x => hf x s) xs s

@[simp] theorem forEach_mes {α : Type} (xs : List α) (f : α → State → State) (s : State)
    (hf : ∀ x s, (f x s).mes = s.mes) : (forEach xs f s).mes = s.mes := foldl_keeps State.mes _ (fun s x => hf x s) xs s

@[simp] theorem forEach_clusters {α : Type} (xs : List α) (f : α → State → State) (s : State)
    (hf : ∀ x s, (f x s).clusters = s.clusters) : (forEach xs f s).clusters = s.clusters := foldl_keeps State.clusters _ (fun s x => hf x s) xs s

@[simp] theorem forEach_dma {α : Type} (xs : List α) (f : α → State → State) (s : State)
    (hf : ∀ x s, (f x s).dma = s.dma) : (forEach xs f s).dma = s.dma := foldl_keeps State.dma _ (fun s x => hf x s) xs s

@[simp] theorem forEach_sync {α : Type} (xs : List α) (f : α → State → State) (s : State)
    (hf : ∀ x s, (f x s).sync = s.sync) : (forEach xs f s).sync = s.sync := foldl_keeps State.sync _ (fun s x => hf x s) xs s

@[simp] theorem forEach_fc {α : Type} (xs : List α) (f : α → State → State) (s : State)
    (hf : ∀ x s, (f x s).fc = s.fc) : (forEach xs f s).fc = s.fc := foldl_keeps State.fc _ (fun s x => hf x s) xs s

@[simp] theorem forEach_graft {α : Type} (xs : List α) (f : α → State → State) (s : State)
    (hf : ∀ x s, (f x s).graft = s.graft) : (forEach xs f s).graft = s.graft := foldl_keeps State.graft _ (fun s x => hf x s) xs s

@[simp] theorem forEach_sys {α : Type} (xs : List α) (f : α → State → State) (s : State)
    (hf : ∀ x s, (f x s).sys = s.sys) : (forEach xs f s).sys = s.sys := foldl_keeps State.sys _ (fun s x => hf x s) xs s

@[simp] theorem forEach_host {α : Type} (xs : List α) (f : α → State → State) (s : State)
    (hf : ∀ x s, (f x s).host = s.host) : (forEach xs f s).host = s.host := foldl_keeps State.host _ (fun s x => hf x s) xs s

@[simp] theorem forEach_mgmt {α : Type} (xs : List α) (f : α → State → State) (s : State)
    (hf : ∀ x s, (f x s).mgmt = s.mgmt) : (forEach xs f s).mgmt = s.mgmt := foldl_keeps State.mgmt _ (fun s x => hf x s) xs s

@[simp] theorem forEach_power {α : Type} (xs : List α) (f : α → State → State) (s : State)
    (hf : ∀ x s, (f x s).power = s.power) : (forEach xs f s).power = s.power := foldl_keeps State.power _ (fun s x => hf x s) xs s

@[simp] theorem State.setCore_frame (s : State) (c : Nat) (k : Nat) (v : Core) :
    (State.setCore s c k v).now = s.now ∧ (State.setCore s c k v).fresh = s.fresh ∧
      (State.setCore s c k v).issued = s.issued ∧ (State.setCore s c k v).finished = s.finished ∧
      (State.setCore s c k v).counters = s.counters ∧ (State.setCore s c k v).cueQ = s.cueQ ∧
      (State.setCore s c k v).ports = s.ports ∧ (State.setCore s c k v).tact = s.tact ∧
      (State.setCore s c k v).score = s.score ∧ (State.setCore s c k v).esp = s.esp ∧
      (State.setCore s c k v).mem = s.mem ∧ (State.setCore s c k v).queues = s.queues ∧
      (State.setCore s c k v).rings = s.rings ∧ (State.setCore s c k v).lastIssued = s.lastIssued ∧
      (State.setCore s c k v).ce = s.ce ∧ (State.setCore s c k v).mes = s.mes ∧
      (State.setCore s c k v).dma = s.dma ∧ (State.setCore s c k v).sync = s.sync ∧
      (State.setCore s c k v).fc = s.fc ∧ (State.setCore s c k v).graft = s.graft ∧
      (State.setCore s c k v).sys = s.sys ∧ (State.setCore s c k v).host = s.host ∧
      (State.setCore s c k v).mgmt = s.mgmt ∧ (State.setCore s c k v).power = s.power := by
  simp [State.setCore]

@[simp] theorem State.modCore_frame (s : State) (c : Nat) (k : Nat) (f : Core → Core) :
    (State.modCore s c k f).now = s.now ∧ (State.modCore s c k f).fresh = s.fresh ∧
      (State.modCore s c k f).issued = s.issued ∧ (State.modCore s c k f).finished = s.finished ∧
      (State.modCore s c k f).counters = s.counters ∧ (State.modCore s c k f).cueQ = s.cueQ ∧
      (State.modCore s c k f).ports = s.ports ∧ (State.modCore s c k f).tact = s.tact ∧
      (State.modCore s c k f).score = s.score ∧ (State.modCore s c k f).esp = s.esp ∧
      (State.modCore s c k f).mem = s.mem ∧ (State.modCore s c k f).queues = s.queues ∧
      (State.modCore s c k f).rings = s.rings ∧ (State.modCore s c k f).lastIssued = s.lastIssued ∧
      (State.modCore s c k f).ce = s.ce ∧ (State.modCore s c k f).mes = s.mes ∧
      (State.modCore s c k f).dma = s.dma ∧ (State.modCore s c k f).sync = s.sync ∧
      (State.modCore s c k f).fc = s.fc ∧ (State.modCore s c k f).graft = s.graft ∧
      (State.modCore s c k f).sys = s.sys ∧ (State.modCore s c k f).host = s.host ∧
      (State.modCore s c k f).mgmt = s.mgmt ∧ (State.modCore s c k f).power = s.power := by
  simp [State.modCore]

@[simp] theorem State.onlyIf_now (s : State) (c : Bool) (f : State → State) :
    (s.onlyIf c f).now = if c then (f s).now else s.now := apply_ite State.now _ _ _

@[simp] theorem State.onlyIf_fresh (s : State) (c : Bool) (f : State → State) :
    (s.onlyIf c f).fresh = if c then (f s).fresh else s.fresh := apply_ite State.fresh _ _ _

@[simp] theorem State.onlyIf_issued (s : State) (c : Bool) (f : State → State) :
    (s.onlyIf c f).issued = if c then (f s).issued else s.issued := apply_ite State.issued _ _ _

@[simp] theorem State.onlyIf_finished (s : State) (c : Bool) (f : State → State) :
    (s.onlyIf c f).finished = if c then (f s).finished else s.finished := apply_ite State.finished _ _ _

@[simp] theorem State.onlyIf_counters (s : State) (c : Bool) (f : State → State) :
    (s.onlyIf c f).counters = if c then (f s).counters else s.counters := apply_ite State.counters _ _ _

@[simp] theorem State.onlyIf_cueQ (s : State) (c : Bool) (f : State → State) :
    (s.onlyIf c f).cueQ = if c then (f s).cueQ else s.cueQ := apply_ite State.cueQ _ _ _

@[simp] theorem State.onlyIf_ports (s : State) (c : Bool) (f : State → State) :
    (s.onlyIf c f).ports = if c then (f s).ports else s.ports := apply_ite State.ports _ _ _

@[simp] theorem State.onlyIf_tact (s : State) (c : Bool) (f : State → State) :
    (s.onlyIf c f).tact = if c then (f s).tact else s.tact := apply_ite State.tact _ _ _

@[simp] theorem State.onlyIf_score (s : State) (c : Bool) (f : State → State) :
    (s.onlyIf c f).score = if c then (f s).score else s.score := apply_ite State.score _ _ _

@[simp] theorem State.onlyIf_esp (s : State) (c : Bool) (f : State → State) :
    (s.onlyIf c f).esp = if c then (f s).esp else s.esp := apply_ite State.esp _ _ _

@[simp] theorem State.onlyIf_mem (s : State) (c : Bool) (f : State → State) :
    (s.onlyIf c f).mem = if c then (f s).mem else s.mem := apply_ite State.mem _ _ _

@[simp] theorem State.onlyIf_queues (s : State) (c : Bool) (f : State → State) :
    (s.onlyIf c f).queues = if c then (f s).queues else s.queues := apply_ite State.queues _ _ _

@[simp] theorem State.onlyIf_rings (s : State) (c : Bool) (f : State → State) :
    (s.onlyIf c f).rings = if c then (f s).rings else s.rings := apply_ite State.rings _ _ _

@[simp] theorem State.onlyIf_lastIssued (s : State) (c : Bool) (f : State → State) :
    (s.onlyIf c f).lastIssued = if c then (f s).lastIssued else s.lastIssued := apply_ite State.lastIssued _ _ _

@[simp] theorem State.onlyIf_ce (s : State) (c : Bool) (f : State → State) :
    (s.onlyIf c f).ce = if c then (f s).ce else s.ce := apply_ite State.ce _ _ _

@[simp] theorem State.onlyIf_mes (s : State) (c : Bool) (f : State → State) :
    (s.onlyIf c f).mes = if c then (f s).mes else s.mes := apply_ite State.mes _ _ _

@[simp] theorem State.onlyIf_clusters (s : State) (c : Bool) (f : State → State) :
    (s.onlyIf c f).clusters = if c then (f s).clusters else s.clusters := apply_ite State.clusters _ _ _

@[simp] theorem State.onlyIf_dma (s : State) (c : Bool) (f : State → State) :
    (s.onlyIf c f).dma = if c then (f s).dma else s.dma := apply_ite State.dma _ _ _

@[simp] theorem State.onlyIf_sync (s : State) (c : Bool) (f : State → State) :
    (s.onlyIf c f).sync = if c then (f s).sync else s.sync := apply_ite State.sync _ _ _

@[simp] theorem State.onlyIf_fc (s : State) (c : Bool) (f : State → State) :
    (s.onlyIf c f).fc = if c then (f s).fc else s.fc := apply_ite State.fc _ _ _

@[simp] theorem State.onlyIf_graft (s : State) (c : Bool) (f : State → State) :
    (s.onlyIf c f).graft = if c then (f s).graft else s.graft := apply_ite State.graft _ _ _

@[simp] theorem State.onlyIf_sys (s : State) (c : Bool) (f : State → State) :
    (s.onlyIf c f).sys = if c then (f s).sys else s.sys := apply_ite State.sys _ _ _

@[simp] theorem State.onlyIf_host (s : State) (c : Bool) (f : State → State) :
    (s.onlyIf c f).host = if c then (f s).host else s.host := apply_ite State.host _ _ _

@[simp] theorem State.onlyIf_mgmt (s : State) (c : Bool) (f : State → State) :
    (s.onlyIf c f).mgmt = if c then (f s).mgmt else s.mgmt := apply_ite State.mgmt _ _ _

@[simp] theorem State.onlyIf_power (s : State) (c : Bool) (f : State → State) :
    (s.onlyIf c f).power = if c then (f s).power else s.power := apply_ite State.power _ _ _

@[simp] theorem State.drawn_frame (s : State) :
    (State.drawn s).now = s.now ∧ (State.drawn s).issued = s.issued ∧
      (State.drawn s).finished = s.finished ∧ (State.drawn s).counters = s.counters ∧
      (State.drawn s).cueQ = s.cueQ ∧ (State.drawn s).ports = s.ports ∧
      (State.drawn s).tact = s.tact ∧ (State.drawn s).score = s.score ∧
      (State.drawn s).esp = s.esp ∧ (State.drawn s).mem = s.mem ∧
      (State.drawn s).queues = s.queues ∧ (State.drawn s).rings = s.rings ∧
      (State.drawn s).lastIssued = s.lastIssued ∧ (State.drawn s).ce = s.ce ∧
      (State.drawn s).mes = s.mes ∧ (State.drawn s).clusters = s.clusters ∧
      (State.drawn s).dma = s.dma ∧ (State.drawn s).sync = s.sync ∧
      (State.drawn s).fc = s.fc ∧ (State.drawn s).graft = s.graft ∧
      (State.drawn s).sys = s.sys ∧ (State.drawn s).host = s.host ∧
      (State.drawn s).mgmt = s.mgmt ∧ (State.drawn s).power = s.power := by
  simp [State.drawn]

@[simp] theorem State.log_frame (s : State) (e : LogEntry) :
    (State.log s e).now = s.now ∧ (State.log s e).fresh = s.fresh ∧
      (State.log s e).issued = s.issued ∧ (State.log s e).finished = s.finished ∧
      (State.log s e).counters = s.counters ∧ (State.log s e).cueQ = s.cueQ ∧
      (State.log s e).ports = s.ports ∧ (State.log s e).tact = s.tact ∧
      (State.log s e).score = s.score ∧ (State.log s e).esp = s.esp ∧
      (State.log s e).mem = s.mem ∧ (State.log s e).queues = s.queues ∧
      (State.log s e).rings = s.rings ∧ (State.log s e).lastIssued = s.lastIssued ∧
      (State.log s e).ce = s.ce ∧ (State.log s e).mes = s.mes ∧
      (State.log s e).clusters = s.clusters ∧ (State.log s e).dma = s.dma ∧
      (State.log s e).sync = s.sync ∧ (State.log s e).graft = s.graft ∧
      (State.log s e).sys = s.sys ∧ (State.log s e).host = s.host ∧
      (State.log s e).mgmt = s.mgmt ∧ (State.log s e).power = s.power := by
  simp [State.log]

@[simp] theorem State.countDet_frame (s : State) (det : Nat) :
    (State.countDet s det).now = s.now ∧ (State.countDet s det).fresh = s.fresh ∧
      (State.countDet s det).issued = s.issued ∧ (State.countDet s det).finished = s.finished ∧
      (State.countDet s det).cueQ = s.cueQ ∧ (State.countDet s det).ports = s.ports ∧
      (State.countDet s det).tact = s.tact ∧ (State.countDet s det).score = s.score ∧
      (State.countDet s det).esp = s.esp ∧ (State.countDet s det).mem = s.mem ∧
      (State.countDet s det).queues = s.queues ∧ (State.countDet s det).rings = s.rings ∧
      (State.countDet s det).lastIssued = s.lastIssued ∧ (State.countDet s det).ce = s.ce ∧
      (State.countDet s det).mes = s.mes ∧ (State.countDet s det).clusters = s.clusters ∧
      (State.countDet s det).dma = s.dma ∧ (State.countDet s det).sync = s.sync ∧
      (State.countDet s det).fc = s.fc ∧ (State.countDet s det).graft = s.graft ∧
      (State.countDet s det).sys = s.sys ∧ (State.countDet s det).host = s.host ∧
      (State.countDet s det).mgmt = s.mgmt ∧ (State.countDet s det).power = s.power := by
  simp [State.countDet]

@[simp] theorem State.eventC'_frame (s : State) (det : Nat) (unit : UnitId) (tgt : Option Nat) (detail : Nat) (conseq : Bool) (injected : Bool) :
    (State.eventC' s det unit tgt detail conseq injected).now = s.now ∧ (State.eventC' s det unit tgt detail conseq injected).fresh = s.fresh ∧
      (State.eventC' s det unit tgt detail conseq injected).issued = s.issued ∧ (State.eventC' s det unit tgt detail conseq injected).finished = s.finished ∧
      (State.eventC' s det unit tgt detail conseq injected).cueQ = s.cueQ ∧ (State.eventC' s det unit tgt detail conseq injected).ports = s.ports ∧
      (State.eventC' s det unit tgt detail conseq injected).tact = s.tact ∧ (State.eventC' s det unit tgt detail conseq injected).score = s.score ∧
      (State.eventC' s det unit tgt detail conseq injected).esp = s.esp ∧ (State.eventC' s det unit tgt detail conseq injected).mem = s.mem ∧
      (State.eventC' s det unit tgt detail conseq injected).queues = s.queues ∧ (State.eventC' s det unit tgt detail conseq injected).rings = s.rings ∧
      (State.eventC' s det unit tgt detail conseq injected).lastIssued = s.lastIssued ∧ (State.eventC' s det unit tgt detail conseq injected).ce = s.ce ∧
      (State.eventC' s det unit tgt detail conseq injected).mes = s.mes ∧ (State.eventC' s det unit tgt detail conseq injected).clusters = s.clusters ∧
      (State.eventC' s det unit tgt detail conseq injected).dma = s.dma ∧ (State.eventC' s det unit tgt detail conseq injected).sync = s.sync ∧
      (State.eventC' s det unit tgt detail conseq injected).graft = s.graft ∧ (State.eventC' s det unit tgt detail conseq injected).sys = s.sys ∧
      (State.eventC' s det unit tgt detail conseq injected).host = s.host ∧ (State.eventC' s det unit tgt detail conseq injected).power = s.power := by
  simp [State.eventC', apply_ite State.now, apply_ite State.fresh, apply_ite State.issued, apply_ite State.finished, apply_ite State.cueQ, apply_ite State.ports, apply_ite State.tact, apply_ite State.score, apply_ite State.esp, apply_ite State.mem, apply_ite State.queues, apply_ite State.rings, apply_ite State.lastIssued, apply_ite State.ce, apply_ite State.mes, apply_ite State.clusters, apply_ite State.dma, apply_ite State.sync, apply_ite State.graft, apply_ite State.sys, apply_ite State.host, apply_ite State.power]

@[simp] theorem State.threshSend_now (b s : State) (d : Nat) (f : State → State)
    (hf : ∀ s, (f s).now = s.now) :
    (State.threshSend b s d f).now = s.now := by
  unfold State.threshSend; (repeat' split) <;> simp [hf]

@[simp] theorem State.threshSend_fresh (b s : State) (d : Nat) (f : State → State)
    (hf : ∀ s, (f s).fresh = s.fresh) :
    (State.threshSend b s d f).fresh = s.fresh := by
  unfold State.threshSend; (repeat' split) <;> simp [hf]

@[simp] theorem State.threshSend_issued (b s : State) (d : Nat) (f : State → State)
    (hf : ∀ s, (f s).issued = s.issued) :
    (State.threshSend b s d f).issued = s.issued := by
  unfold State.threshSend; (repeat' split) <;> simp [hf]

@[simp] theorem State.threshSend_finished (b s : State) (d : Nat) (f : State → State)
    (hf : ∀ s, (f s).finished = s.finished) :
    (State.threshSend b s d f).finished = s.finished := by
  unfold State.threshSend; (repeat' split) <;> simp [hf]

@[simp] theorem State.threshSend_counters (b s : State) (d : Nat) (f : State → State)
    (hf : ∀ s, (f s).counters = s.counters) :
    (State.threshSend b s d f).counters = s.counters := by
  unfold State.threshSend; (repeat' split) <;> simp [hf]

@[simp] theorem State.threshSend_cueQ (b s : State) (d : Nat) (f : State → State)
    (hf : ∀ s, (f s).cueQ = s.cueQ) :
    (State.threshSend b s d f).cueQ = s.cueQ := by
  unfold State.threshSend; (repeat' split) <;> simp [hf]

@[simp] theorem State.threshSend_ports (b s : State) (d : Nat) (f : State → State)
    (hf : ∀ s, (f s).ports = s.ports) :
    (State.threshSend b s d f).ports = s.ports := by
  unfold State.threshSend; (repeat' split) <;> simp [hf]

@[simp] theorem State.threshSend_tact (b s : State) (d : Nat) (f : State → State)
    (hf : ∀ s, (f s).tact = s.tact) :
    (State.threshSend b s d f).tact = s.tact := by
  unfold State.threshSend; (repeat' split) <;> simp [hf]

@[simp] theorem State.threshSend_score (b s : State) (d : Nat) (f : State → State)
    (hf : ∀ s, (f s).score = s.score) :
    (State.threshSend b s d f).score = s.score := by
  unfold State.threshSend; (repeat' split) <;> simp [hf]

@[simp] theorem State.threshSend_esp (b s : State) (d : Nat) (f : State → State)
    (hf : ∀ s, (f s).esp = s.esp) :
    (State.threshSend b s d f).esp = s.esp := by
  unfold State.threshSend; (repeat' split) <;> simp [hf]

@[simp] theorem State.threshSend_mem (b s : State) (d : Nat) (f : State → State)
    (hf : ∀ s, (f s).mem = s.mem) :
    (State.threshSend b s d f).mem = s.mem := by
  unfold State.threshSend; (repeat' split) <;> simp [hf]

@[simp] theorem State.threshSend_queues (b s : State) (d : Nat) (f : State → State)
    (hf : ∀ s, (f s).queues = s.queues) :
    (State.threshSend b s d f).queues = s.queues := by
  unfold State.threshSend; (repeat' split) <;> simp [hf]

@[simp] theorem State.threshSend_rings (b s : State) (d : Nat) (f : State → State)
    (hf : ∀ s, (f s).rings = s.rings) :
    (State.threshSend b s d f).rings = s.rings := by
  unfold State.threshSend; (repeat' split) <;> simp [hf]

@[simp] theorem State.threshSend_lastIssued (b s : State) (d : Nat) (f : State → State)
    (hf : ∀ s, (f s).lastIssued = s.lastIssued) :
    (State.threshSend b s d f).lastIssued = s.lastIssued := by
  unfold State.threshSend; (repeat' split) <;> simp [hf]

@[simp] theorem State.threshSend_ce (b s : State) (d : Nat) (f : State → State)
    (hf : ∀ s, (f s).ce = s.ce) :
    (State.threshSend b s d f).ce = s.ce := by
  unfold State.threshSend; (repeat' split) <;> simp [hf]

@[simp] theorem State.threshSend_mes (b s : State) (d : Nat) (f : State → State)
    (hf : ∀ s, (f s).mes = s.mes) :
    (State.threshSend b s d f).mes = s.mes := by
  unfold State.threshSend; (repeat' split) <;> simp [hf]

@[simp] theorem State.threshSend_clusters (b s : State) (d : Nat) (f : State → State)
    (hf : ∀ s, (f s).clusters = s.clusters) :
    (State.threshSend b s d f).clusters = s.clusters := by
  unfold State.threshSend; (repeat' split) <;> simp [hf]

@[simp] theorem State.threshSend_dma (b s : State) (d : Nat) (f : State → State)
    (hf : ∀ s, (f s).dma = s.dma) :
    (State.threshSend b s d f).dma = s.dma := by
  unfold State.threshSend; (repeat' split) <;> simp [hf]

@[simp] theorem State.threshSend_sync (b s : State) (d : Nat) (f : State → State)
    (hf : ∀ s, (f s).sync = s.sync) :
    (State.threshSend b s d f).sync = s.sync := by
  unfold State.threshSend; (repeat' split) <;> simp [hf]

@[simp] theorem State.threshSend_fc (b s : State) (d : Nat) (f : State → State)
    (hf : ∀ s, (f s).fc = s.fc) :
    (State.threshSend b s d f).fc = s.fc := by
  unfold State.threshSend; (repeat' split) <;> simp [hf]

@[simp] theorem State.threshSend_graft (b s : State) (d : Nat) (f : State → State)
    (hf : ∀ s, (f s).graft = s.graft) :
    (State.threshSend b s d f).graft = s.graft := by
  unfold State.threshSend; (repeat' split) <;> simp [hf]

@[simp] theorem State.threshSend_sys (b s : State) (d : Nat) (f : State → State)
    (hf : ∀ s, (f s).sys = s.sys) :
    (State.threshSend b s d f).sys = s.sys := by
  unfold State.threshSend; (repeat' split) <;> simp [hf]

@[simp] theorem State.threshSend_mgmt (b s : State) (d : Nat) (f : State → State)
    (hf : ∀ s, (f s).mgmt = s.mgmt) :
    (State.threshSend b s d f).mgmt = s.mgmt := by
  unfold State.threshSend; (repeat' split) <;> simp [hf]

@[simp] theorem State.threshSend_power (b s : State) (d : Nat) (f : State → State)
    (hf : ∀ s, (f s).power = s.power) :
    (State.threshSend b s d f).power = s.power := by
  unfold State.threshSend; (repeat' split) <;> simp [hf]

@[simp] theorem State.eventCN_frame (a0 : Nat) (a1 : State) (a2 : Nat) (a3 : UnitId) (a4 : Option Nat) (a5 : Nat) (a6 : Bool) (a7 : Bool) :
    (State.eventCN a0 a1 a2 a3 a4 a5 a6 a7).now = a1.now ∧ (State.eventCN a0 a1 a2 a3 a4 a5 a6 a7).fresh = a1.fresh ∧
      (State.eventCN a0 a1 a2 a3 a4 a5 a6 a7).issued = a1.issued ∧ (State.eventCN a0 a1 a2 a3 a4 a5 a6 a7).finished = a1.finished ∧
      (State.eventCN a0 a1 a2 a3 a4 a5 a6 a7).cueQ = a1.cueQ ∧ (State.eventCN a0 a1 a2 a3 a4 a5 a6 a7).ports = a1.ports ∧
      (State.eventCN a0 a1 a2 a3 a4 a5 a6 a7).tact = a1.tact ∧ (State.eventCN a0 a1 a2 a3 a4 a5 a6 a7).score = a1.score ∧
      (State.eventCN a0 a1 a2 a3 a4 a5 a6 a7).esp = a1.esp ∧ (State.eventCN a0 a1 a2 a3 a4 a5 a6 a7).mem = a1.mem ∧
      (State.eventCN a0 a1 a2 a3 a4 a5 a6 a7).queues = a1.queues ∧ (State.eventCN a0 a1 a2 a3 a4 a5 a6 a7).rings = a1.rings ∧
      (State.eventCN a0 a1 a2 a3 a4 a5 a6 a7).lastIssued = a1.lastIssued ∧ (State.eventCN a0 a1 a2 a3 a4 a5 a6 a7).ce = a1.ce ∧
      (State.eventCN a0 a1 a2 a3 a4 a5 a6 a7).mes = a1.mes ∧ (State.eventCN a0 a1 a2 a3 a4 a5 a6 a7).clusters = a1.clusters ∧
      (State.eventCN a0 a1 a2 a3 a4 a5 a6 a7).dma = a1.dma ∧ (State.eventCN a0 a1 a2 a3 a4 a5 a6 a7).sync = a1.sync ∧
      (State.eventCN a0 a1 a2 a3 a4 a5 a6 a7).graft = a1.graft ∧ (State.eventCN a0 a1 a2 a3 a4 a5 a6 a7).sys = a1.sys ∧
      (State.eventCN a0 a1 a2 a3 a4 a5 a6 a7).power = a1.power := by
  induction a0 generalizing a1 a2 a3 a4 a5 a6 a7 with
  | zero => simp [State.eventCN]
  | succ n ih => simp [State.eventCN, ih]

@[simp] theorem State.fire_frame (s : State) (v : Nat) :
    (State.fire s v).now = s.now ∧ (State.fire s v).fresh = s.fresh ∧
      (State.fire s v).issued = s.issued ∧ (State.fire s v).finished = s.finished ∧
      (State.fire s v).cueQ = s.cueQ ∧ (State.fire s v).ports = s.ports ∧
      (State.fire s v).tact = s.tact ∧ (State.fire s v).score = s.score ∧
      (State.fire s v).esp = s.esp ∧ (State.fire s v).mem = s.mem ∧
      (State.fire s v).queues = s.queues ∧ (State.fire s v).rings = s.rings ∧
      (State.fire s v).lastIssued = s.lastIssued ∧ (State.fire s v).ce = s.ce ∧
      (State.fire s v).mes = s.mes ∧ (State.fire s v).clusters = s.clusters ∧
      (State.fire s v).dma = s.dma ∧ (State.fire s v).sync = s.sync ∧
      (State.fire s v).graft = s.graft ∧ (State.fire s v).sys = s.sys ∧
      (State.fire s v).power = s.power := by
  simp [State.fire, apply_ite State.now, apply_ite State.fresh, apply_ite State.issued, apply_ite State.finished, apply_ite State.cueQ, apply_ite State.ports, apply_ite State.tact, apply_ite State.score, apply_ite State.esp, apply_ite State.mem, apply_ite State.queues, apply_ite State.rings, apply_ite State.lastIssued, apply_ite State.ce, apply_ite State.mes, apply_ite State.clusters, apply_ite State.dma, apply_ite State.sync, apply_ite State.graft, apply_ite State.sys, apply_ite State.power]

@[simp] theorem State.irqSet_frame (s : State) (bits : BitVec 6) :
    (State.irqSet s bits).now = s.now ∧ (State.irqSet s bits).fresh = s.fresh ∧
      (State.irqSet s bits).issued = s.issued ∧ (State.irqSet s bits).finished = s.finished ∧
      (State.irqSet s bits).cueQ = s.cueQ ∧ (State.irqSet s bits).ports = s.ports ∧
      (State.irqSet s bits).tact = s.tact ∧ (State.irqSet s bits).score = s.score ∧
      (State.irqSet s bits).esp = s.esp ∧ (State.irqSet s bits).mem = s.mem ∧
      (State.irqSet s bits).queues = s.queues ∧ (State.irqSet s bits).rings = s.rings ∧
      (State.irqSet s bits).lastIssued = s.lastIssued ∧ (State.irqSet s bits).ce = s.ce ∧
      (State.irqSet s bits).mes = s.mes ∧ (State.irqSet s bits).clusters = s.clusters ∧
      (State.irqSet s bits).dma = s.dma ∧ (State.irqSet s bits).sync = s.sync ∧
      (State.irqSet s bits).graft = s.graft ∧ (State.irqSet s bits).sys = s.sys ∧
      (State.irqSet s bits).power = s.power := by
  simp [State.irqSet, apply_ite State.now, apply_ite State.fresh, apply_ite State.issued, apply_ite State.finished, apply_ite State.cueQ, apply_ite State.ports, apply_ite State.tact, apply_ite State.score, apply_ite State.esp, apply_ite State.mem, apply_ite State.queues, apply_ite State.rings, apply_ite State.lastIssued, apply_ite State.ce, apply_ite State.mes, apply_ite State.clusters, apply_ite State.dma, apply_ite State.sync, apply_ite State.graft, apply_ite State.sys, apply_ite State.power]

@[simp] theorem State.logIrq_frame (before : State) (s : State) :
    (State.logIrq before s).now = s.now ∧ (State.logIrq before s).fresh = s.fresh ∧
      (State.logIrq before s).issued = s.issued ∧ (State.logIrq before s).finished = s.finished ∧
      (State.logIrq before s).cueQ = s.cueQ ∧ (State.logIrq before s).ports = s.ports ∧
      (State.logIrq before s).tact = s.tact ∧ (State.logIrq before s).score = s.score ∧
      (State.logIrq before s).esp = s.esp ∧ (State.logIrq before s).mem = s.mem ∧
      (State.logIrq before s).queues = s.queues ∧ (State.logIrq before s).rings = s.rings ∧
      (State.logIrq before s).lastIssued = s.lastIssued ∧ (State.logIrq before s).ce = s.ce ∧
      (State.logIrq before s).mes = s.mes ∧ (State.logIrq before s).clusters = s.clusters ∧
      (State.logIrq before s).dma = s.dma ∧ (State.logIrq before s).sync = s.sync ∧
      (State.logIrq before s).graft = s.graft ∧ (State.logIrq before s).sys = s.sys ∧
      (State.logIrq before s).power = s.power := by
  simp [State.logIrq, apply_ite State.now, apply_ite State.fresh, apply_ite State.issued, apply_ite State.finished, apply_ite State.cueQ, apply_ite State.ports, apply_ite State.tact, apply_ite State.score, apply_ite State.esp, apply_ite State.mem, apply_ite State.queues, apply_ite State.rings, apply_ite State.lastIssued, apply_ite State.ce, apply_ite State.mes, apply_ite State.clusters, apply_ite State.dma, apply_ite State.sync, apply_ite State.graft, apply_ite State.sys, apply_ite State.power]

@[simp] theorem State.eventC_frame (s : State) (det : Nat) (unit : UnitId) (detail : Nat) (via : List Nat) :
    (State.eventC s det unit detail via).now = s.now ∧ (State.eventC s det unit detail via).fresh = s.fresh ∧
      (State.eventC s det unit detail via).issued = s.issued ∧ (State.eventC s det unit detail via).finished = s.finished ∧
      (State.eventC s det unit detail via).cueQ = s.cueQ ∧ (State.eventC s det unit detail via).ports = s.ports ∧
      (State.eventC s det unit detail via).tact = s.tact ∧ (State.eventC s det unit detail via).score = s.score ∧
      (State.eventC s det unit detail via).esp = s.esp ∧ (State.eventC s det unit detail via).mem = s.mem ∧
      (State.eventC s det unit detail via).queues = s.queues ∧ (State.eventC s det unit detail via).rings = s.rings ∧
      (State.eventC s det unit detail via).lastIssued = s.lastIssued ∧ (State.eventC s det unit detail via).ce = s.ce ∧
      (State.eventC s det unit detail via).mes = s.mes ∧ (State.eventC s det unit detail via).clusters = s.clusters ∧
      (State.eventC s det unit detail via).dma = s.dma ∧ (State.eventC s det unit detail via).sync = s.sync ∧
      (State.eventC s det unit detail via).graft = s.graft ∧ (State.eventC s det unit detail via).sys = s.sys ∧
      (State.eventC s det unit detail via).power = s.power := by
  simp [State.eventC]

@[simp] theorem State.logU_frame (s : State) (det : Nat) (unit : UnitId) (tgt : Option Nat) (detail : Nat) (injected : Bool) (bits : BitVec 6) :
    (State.logU s det unit tgt detail injected bits).now = s.now ∧ (State.logU s det unit tgt detail injected bits).fresh = s.fresh ∧
      (State.logU s det unit tgt detail injected bits).issued = s.issued ∧ (State.logU s det unit tgt detail injected bits).finished = s.finished ∧
      (State.logU s det unit tgt detail injected bits).cueQ = s.cueQ ∧ (State.logU s det unit tgt detail injected bits).ports = s.ports ∧
      (State.logU s det unit tgt detail injected bits).tact = s.tact ∧ (State.logU s det unit tgt detail injected bits).score = s.score ∧
      (State.logU s det unit tgt detail injected bits).esp = s.esp ∧ (State.logU s det unit tgt detail injected bits).mem = s.mem ∧
      (State.logU s det unit tgt detail injected bits).queues = s.queues ∧ (State.logU s det unit tgt detail injected bits).rings = s.rings ∧
      (State.logU s det unit tgt detail injected bits).lastIssued = s.lastIssued ∧ (State.logU s det unit tgt detail injected bits).ce = s.ce ∧
      (State.logU s det unit tgt detail injected bits).mes = s.mes ∧ (State.logU s det unit tgt detail injected bits).clusters = s.clusters ∧
      (State.logU s det unit tgt detail injected bits).dma = s.dma ∧ (State.logU s det unit tgt detail injected bits).sync = s.sync ∧
      (State.logU s det unit tgt detail injected bits).graft = s.graft ∧ (State.logU s det unit tgt detail injected bits).sys = s.sys ∧
      (State.logU s det unit tgt detail injected bits).power = s.power := by
  simp [State.logU]

@[simp] theorem State.contain_frame (s : State) (det : Nat) (unit : UnitId) (t : Nat) (detail : Nat) (injected : Bool) :
    (State.contain s det unit t detail injected).1.now = s.now ∧ (State.contain s det unit t detail injected).1.fresh = s.fresh ∧
      (State.contain s det unit t detail injected).1.issued = s.issued ∧ (State.contain s det unit t detail injected).1.finished = s.finished ∧
      (State.contain s det unit t detail injected).1.cueQ = s.cueQ ∧ (State.contain s det unit t detail injected).1.ports = s.ports ∧
      (State.contain s det unit t detail injected).1.tact = s.tact ∧ (State.contain s det unit t detail injected).1.score = s.score ∧
      (State.contain s det unit t detail injected).1.esp = s.esp ∧ (State.contain s det unit t detail injected).1.mem = s.mem ∧
      (State.contain s det unit t detail injected).1.queues = s.queues ∧ (State.contain s det unit t detail injected).1.rings = s.rings ∧
      (State.contain s det unit t detail injected).1.lastIssued = s.lastIssued ∧ (State.contain s det unit t detail injected).1.ce = s.ce ∧
      (State.contain s det unit t detail injected).1.mes = s.mes ∧ (State.contain s det unit t detail injected).1.clusters = s.clusters ∧
      (State.contain s det unit t detail injected).1.dma = s.dma ∧ (State.contain s det unit t detail injected).1.sync = s.sync ∧
      (State.contain s det unit t detail injected).1.graft = s.graft ∧ (State.contain s det unit t detail injected).1.sys = s.sys ∧
      (State.contain s det unit t detail injected).1.power = s.power := by
  unfold State.contain; dsimp only
  repeat' (split <;> try (rename_i h; obtain ⟨rfl, -⟩ := Prod.ext_iff.mp h))
  all_goals simp

@[simp] theorem State.eventU_frame (s : State) (det : Nat) (unit : UnitId) (tgt : Option Nat) (detail : Nat) (via : List Nat) :
    (State.eventU s det unit tgt detail via).1.now = s.now ∧ (State.eventU s det unit tgt detail via).1.fresh = s.fresh ∧
      (State.eventU s det unit tgt detail via).1.issued = s.issued ∧ (State.eventU s det unit tgt detail via).1.finished = s.finished ∧
      (State.eventU s det unit tgt detail via).1.cueQ = s.cueQ ∧ (State.eventU s det unit tgt detail via).1.ports = s.ports ∧
      (State.eventU s det unit tgt detail via).1.tact = s.tact ∧ (State.eventU s det unit tgt detail via).1.score = s.score ∧
      (State.eventU s det unit tgt detail via).1.esp = s.esp ∧ (State.eventU s det unit tgt detail via).1.mem = s.mem ∧
      (State.eventU s det unit tgt detail via).1.queues = s.queues ∧ (State.eventU s det unit tgt detail via).1.rings = s.rings ∧
      (State.eventU s det unit tgt detail via).1.lastIssued = s.lastIssued ∧ (State.eventU s det unit tgt detail via).1.ce = s.ce ∧
      (State.eventU s det unit tgt detail via).1.mes = s.mes ∧ (State.eventU s det unit tgt detail via).1.clusters = s.clusters ∧
      (State.eventU s det unit tgt detail via).1.dma = s.dma ∧ (State.eventU s det unit tgt detail via).1.sync = s.sync ∧
      (State.eventU s det unit tgt detail via).1.graft = s.graft ∧ (State.eventU s det unit tgt detail via).1.sys = s.sys ∧
      (State.eventU s det unit tgt detail via).1.power = s.power := by
  unfold State.eventU
  (repeat' split) <;> simp

@[simp] theorem State.unbackedEvent_frame (s : State) (a : Nat) :
    (State.unbackedEvent s a).now = s.now ∧ (State.unbackedEvent s a).fresh = s.fresh ∧
      (State.unbackedEvent s a).issued = s.issued ∧ (State.unbackedEvent s a).finished = s.finished ∧
      (State.unbackedEvent s a).cueQ = s.cueQ ∧ (State.unbackedEvent s a).ports = s.ports ∧
      (State.unbackedEvent s a).tact = s.tact ∧ (State.unbackedEvent s a).score = s.score ∧
      (State.unbackedEvent s a).esp = s.esp ∧ (State.unbackedEvent s a).mem = s.mem ∧
      (State.unbackedEvent s a).queues = s.queues ∧ (State.unbackedEvent s a).rings = s.rings ∧
      (State.unbackedEvent s a).lastIssued = s.lastIssued ∧ (State.unbackedEvent s a).ce = s.ce ∧
      (State.unbackedEvent s a).mes = s.mes ∧ (State.unbackedEvent s a).clusters = s.clusters ∧
      (State.unbackedEvent s a).dma = s.dma ∧ (State.unbackedEvent s a).sync = s.sync ∧
      (State.unbackedEvent s a).graft = s.graft ∧ (State.unbackedEvent s a).sys = s.sys ∧
      (State.unbackedEvent s a).power = s.power := by
  simp [State.unbackedEvent]

@[simp] theorem State.repairCand_frame (s : State) (k : Nat) (pg : Nat) :
    (State.repairCand s k pg).now = s.now ∧ (State.repairCand s k pg).fresh = s.fresh ∧
      (State.repairCand s k pg).issued = s.issued ∧ (State.repairCand s k pg).finished = s.finished ∧
      (State.repairCand s k pg).cueQ = s.cueQ ∧ (State.repairCand s k pg).ports = s.ports ∧
      (State.repairCand s k pg).tact = s.tact ∧ (State.repairCand s k pg).score = s.score ∧
      (State.repairCand s k pg).esp = s.esp ∧ (State.repairCand s k pg).queues = s.queues ∧
      (State.repairCand s k pg).rings = s.rings ∧ (State.repairCand s k pg).lastIssued = s.lastIssued ∧
      (State.repairCand s k pg).ce = s.ce ∧ (State.repairCand s k pg).mes = s.mes ∧
      (State.repairCand s k pg).clusters = s.clusters ∧ (State.repairCand s k pg).dma = s.dma ∧
      (State.repairCand s k pg).sync = s.sync ∧ (State.repairCand s k pg).graft = s.graft ∧
      (State.repairCand s k pg).sys = s.sys ∧ (State.repairCand s k pg).power = s.power := by
  simp [State.repairCand, apply_ite State.now, apply_ite State.fresh, apply_ite State.issued, apply_ite State.finished, apply_ite State.cueQ, apply_ite State.ports, apply_ite State.tact, apply_ite State.score, apply_ite State.esp, apply_ite State.queues, apply_ite State.rings, apply_ite State.lastIssued, apply_ite State.ce, apply_ite State.mes, apply_ite State.clusters, apply_ite State.dma, apply_ite State.sync, apply_ite State.graft, apply_ite State.sys, apply_ite State.power]

@[simp] theorem State.correct_frame (s : State) (k : Nat) (a : Nat) (pg : Nat) (n : Nat) (left : List (Nat × Nat)) (errs : List (Nat × Nat)) :
    (State.correct s k a pg n left errs).now = s.now ∧ (State.correct s k a pg n left errs).fresh = s.fresh ∧
      (State.correct s k a pg n left errs).issued = s.issued ∧ (State.correct s k a pg n left errs).finished = s.finished ∧
      (State.correct s k a pg n left errs).cueQ = s.cueQ ∧ (State.correct s k a pg n left errs).ports = s.ports ∧
      (State.correct s k a pg n left errs).tact = s.tact ∧ (State.correct s k a pg n left errs).score = s.score ∧
      (State.correct s k a pg n left errs).esp = s.esp ∧ (State.correct s k a pg n left errs).queues = s.queues ∧
      (State.correct s k a pg n left errs).rings = s.rings ∧ (State.correct s k a pg n left errs).lastIssued = s.lastIssued ∧
      (State.correct s k a pg n left errs).ce = s.ce ∧ (State.correct s k a pg n left errs).mes = s.mes ∧
      (State.correct s k a pg n left errs).clusters = s.clusters ∧ (State.correct s k a pg n left errs).dma = s.dma ∧
      (State.correct s k a pg n left errs).sync = s.sync ∧ (State.correct s k a pg n left errs).graft = s.graft ∧
      (State.correct s k a pg n left errs).sys = s.sys ∧ (State.correct s k a pg n left errs).power = s.power := by
  simp [State.correct, apply_ite State.now, apply_ite State.fresh, apply_ite State.issued, apply_ite State.finished, apply_ite State.cueQ, apply_ite State.ports, apply_ite State.tact, apply_ite State.score, apply_ite State.esp, apply_ite State.queues, apply_ite State.rings, apply_ite State.lastIssued, apply_ite State.ce, apply_ite State.mes, apply_ite State.clusters, apply_ite State.dma, apply_ite State.sync, apply_ite State.graft, apply_ite State.sys, apply_ite State.power]

@[simp] theorem State.fetchPage_frame (s : State) (a : Nat) (k : Nat) (pg : Nat) :
    (State.fetchPage s a k pg).1.now = s.now ∧ (State.fetchPage s a k pg).1.fresh = s.fresh ∧
      (State.fetchPage s a k pg).1.issued = s.issued ∧ (State.fetchPage s a k pg).1.finished = s.finished ∧
      (State.fetchPage s a k pg).1.cueQ = s.cueQ ∧ (State.fetchPage s a k pg).1.ports = s.ports ∧
      (State.fetchPage s a k pg).1.tact = s.tact ∧ (State.fetchPage s a k pg).1.score = s.score ∧
      (State.fetchPage s a k pg).1.esp = s.esp ∧ (State.fetchPage s a k pg).1.queues = s.queues ∧
      (State.fetchPage s a k pg).1.rings = s.rings ∧ (State.fetchPage s a k pg).1.lastIssued = s.lastIssued ∧
      (State.fetchPage s a k pg).1.ce = s.ce ∧ (State.fetchPage s a k pg).1.mes = s.mes ∧
      (State.fetchPage s a k pg).1.clusters = s.clusters ∧ (State.fetchPage s a k pg).1.dma = s.dma ∧
      (State.fetchPage s a k pg).1.sync = s.sync ∧ (State.fetchPage s a k pg).1.graft = s.graft ∧
      (State.fetchPage s a k pg).1.sys = s.sys ∧ (State.fetchPage s a k pg).1.power = s.power := by
  unfold State.fetchPage
  (repeat' split) <;> simp

@[simp] theorem State.loadParts_frame (s : State) (a1 : List (Nat × Nat)) (a2 : List Byte) :
    (State.loadParts s a1 a2).1.now = s.now ∧ (State.loadParts s a1 a2).1.fresh = s.fresh ∧
      (State.loadParts s a1 a2).1.issued = s.issued ∧ (State.loadParts s a1 a2).1.finished = s.finished ∧
      (State.loadParts s a1 a2).1.cueQ = s.cueQ ∧ (State.loadParts s a1 a2).1.ports = s.ports ∧
      (State.loadParts s a1 a2).1.tact = s.tact ∧ (State.loadParts s a1 a2).1.score = s.score ∧
      (State.loadParts s a1 a2).1.esp = s.esp ∧ (State.loadParts s a1 a2).1.queues = s.queues ∧
      (State.loadParts s a1 a2).1.rings = s.rings ∧ (State.loadParts s a1 a2).1.lastIssued = s.lastIssued ∧
      (State.loadParts s a1 a2).1.ce = s.ce ∧ (State.loadParts s a1 a2).1.mes = s.mes ∧
      (State.loadParts s a1 a2).1.clusters = s.clusters ∧ (State.loadParts s a1 a2).1.dma = s.dma ∧
      (State.loadParts s a1 a2).1.sync = s.sync ∧ (State.loadParts s a1 a2).1.graft = s.graft ∧
      (State.loadParts s a1 a2).1.sys = s.sys ∧ (State.loadParts s a1 a2).1.power = s.power := by
  induction a1 generalizing s a2 with
  | nil => simp [State.loadParts]
  | cons x ps ih =>
    obtain ⟨a, n⟩ := x
    simp only [State.loadParts]
    split
    · simp
    · split <;> (rename_i h; obtain ⟨rfl, -⟩ := Prod.ext_iff.mp h) <;> simp [ih]

@[simp] theorem State.load_frame (s : State) (a : Nat) (n : Nat) :
    (State.load s a n).1.now = s.now ∧ (State.load s a n).1.fresh = s.fresh ∧
      (State.load s a n).1.issued = s.issued ∧ (State.load s a n).1.finished = s.finished ∧
      (State.load s a n).1.cueQ = s.cueQ ∧ (State.load s a n).1.ports = s.ports ∧
      (State.load s a n).1.tact = s.tact ∧ (State.load s a n).1.score = s.score ∧
      (State.load s a n).1.esp = s.esp ∧ (State.load s a n).1.queues = s.queues ∧
      (State.load s a n).1.rings = s.rings ∧ (State.load s a n).1.lastIssued = s.lastIssued ∧
      (State.load s a n).1.ce = s.ce ∧ (State.load s a n).1.mes = s.mes ∧
      (State.load s a n).1.clusters = s.clusters ∧ (State.load s a n).1.dma = s.dma ∧
      (State.load s a n).1.sync = s.sync ∧ (State.load s a n).1.graft = s.graft ∧
      (State.load s a n).1.sys = s.sys ∧ (State.load s a n).1.power = s.power := by
  simp [State.load]

@[simp] theorem State.injectOn_frame (s : State) (a : Nat) (k : Nat) (pg : Nat) :
    (State.injectOn s a k pg).now = s.now ∧ (State.injectOn s a k pg).fresh = s.fresh ∧
      (State.injectOn s a k pg).issued = s.issued ∧ (State.injectOn s a k pg).finished = s.finished ∧
      (State.injectOn s a k pg).cueQ = s.cueQ ∧ (State.injectOn s a k pg).ports = s.ports ∧
      (State.injectOn s a k pg).tact = s.tact ∧ (State.injectOn s a k pg).score = s.score ∧
      (State.injectOn s a k pg).esp = s.esp ∧ (State.injectOn s a k pg).queues = s.queues ∧
      (State.injectOn s a k pg).rings = s.rings ∧ (State.injectOn s a k pg).lastIssued = s.lastIssued ∧
      (State.injectOn s a k pg).ce = s.ce ∧ (State.injectOn s a k pg).mes = s.mes ∧
      (State.injectOn s a k pg).clusters = s.clusters ∧ (State.injectOn s a k pg).dma = s.dma ∧
      (State.injectOn s a k pg).sync = s.sync ∧ (State.injectOn s a k pg).graft = s.graft ∧
      (State.injectOn s a k pg).sys = s.sys ∧ (State.injectOn s a k pg).power = s.power := by
  simp [State.injectOn, apply_ite State.now, apply_ite State.fresh, apply_ite State.issued, apply_ite State.finished, apply_ite State.cueQ, apply_ite State.ports, apply_ite State.tact, apply_ite State.score, apply_ite State.esp, apply_ite State.queues, apply_ite State.rings, apply_ite State.lastIssued, apply_ite State.ce, apply_ite State.mes, apply_ite State.clusters, apply_ite State.dma, apply_ite State.sync, apply_ite State.graft, apply_ite State.sys, apply_ite State.power]

@[simp] theorem State.storePage_frame (s : State) (a : Nat) (k : Nat) (ph : Nat) (bs : List Byte) :
    (State.storePage s a k ph bs).now = s.now ∧ (State.storePage s a k ph bs).fresh = s.fresh ∧
      (State.storePage s a k ph bs).issued = s.issued ∧ (State.storePage s a k ph bs).finished = s.finished ∧
      (State.storePage s a k ph bs).cueQ = s.cueQ ∧ (State.storePage s a k ph bs).ports = s.ports ∧
      (State.storePage s a k ph bs).tact = s.tact ∧ (State.storePage s a k ph bs).score = s.score ∧
      (State.storePage s a k ph bs).esp = s.esp ∧ (State.storePage s a k ph bs).queues = s.queues ∧
      (State.storePage s a k ph bs).rings = s.rings ∧ (State.storePage s a k ph bs).lastIssued = s.lastIssued ∧
      (State.storePage s a k ph bs).ce = s.ce ∧ (State.storePage s a k ph bs).mes = s.mes ∧
      (State.storePage s a k ph bs).clusters = s.clusters ∧ (State.storePage s a k ph bs).dma = s.dma ∧
      (State.storePage s a k ph bs).sync = s.sync ∧ (State.storePage s a k ph bs).graft = s.graft ∧
      (State.storePage s a k ph bs).sys = s.sys ∧ (State.storePage s a k ph bs).power = s.power := by
  simp [State.storePage]

@[simp] theorem State.storeNarrow_frame (s : State) (a : Nat) (k : Nat) (ph : Nat) (bs : List Byte) :
    (State.storeNarrow s a k ph bs).1.now = s.now ∧ (State.storeNarrow s a k ph bs).1.fresh = s.fresh ∧
      (State.storeNarrow s a k ph bs).1.issued = s.issued ∧ (State.storeNarrow s a k ph bs).1.finished = s.finished ∧
      (State.storeNarrow s a k ph bs).1.cueQ = s.cueQ ∧ (State.storeNarrow s a k ph bs).1.ports = s.ports ∧
      (State.storeNarrow s a k ph bs).1.tact = s.tact ∧ (State.storeNarrow s a k ph bs).1.score = s.score ∧
      (State.storeNarrow s a k ph bs).1.esp = s.esp ∧ (State.storeNarrow s a k ph bs).1.queues = s.queues ∧
      (State.storeNarrow s a k ph bs).1.rings = s.rings ∧ (State.storeNarrow s a k ph bs).1.lastIssued = s.lastIssued ∧
      (State.storeNarrow s a k ph bs).1.ce = s.ce ∧ (State.storeNarrow s a k ph bs).1.mes = s.mes ∧
      (State.storeNarrow s a k ph bs).1.clusters = s.clusters ∧ (State.storeNarrow s a k ph bs).1.dma = s.dma ∧
      (State.storeNarrow s a k ph bs).1.sync = s.sync ∧ (State.storeNarrow s a k ph bs).1.graft = s.graft ∧
      (State.storeNarrow s a k ph bs).1.sys = s.sys ∧ (State.storeNarrow s a k ph bs).1.power = s.power := by
  unfold State.storeNarrow; dsimp only
  repeat' (split <;> try (rename_i h; obtain ⟨rfl, -⟩ := Prod.ext_iff.mp h))
  all_goals simp

@[simp] theorem State.storePart_frame (s : State) (a : Nat) (bs : List Byte) :
    (State.storePart s a bs).1.now = s.now ∧ (State.storePart s a bs).1.fresh = s.fresh ∧
      (State.storePart s a bs).1.issued = s.issued ∧ (State.storePart s a bs).1.finished = s.finished ∧
      (State.storePart s a bs).1.cueQ = s.cueQ ∧ (State.storePart s a bs).1.ports = s.ports ∧
      (State.storePart s a bs).1.tact = s.tact ∧ (State.storePart s a bs).1.score = s.score ∧
      (State.storePart s a bs).1.esp = s.esp ∧ (State.storePart s a bs).1.queues = s.queues ∧
      (State.storePart s a bs).1.rings = s.rings ∧ (State.storePart s a bs).1.lastIssued = s.lastIssued ∧
      (State.storePart s a bs).1.ce = s.ce ∧ (State.storePart s a bs).1.mes = s.mes ∧
      (State.storePart s a bs).1.clusters = s.clusters ∧ (State.storePart s a bs).1.dma = s.dma ∧
      (State.storePart s a bs).1.sync = s.sync ∧ (State.storePart s a bs).1.graft = s.graft ∧
      (State.storePart s a bs).1.sys = s.sys ∧ (State.storePart s a bs).1.power = s.power := by
  unfold State.storePart
  (repeat' split) <;> simp

@[simp] theorem State.storeParts_frame (s : State) (a1 : List (Nat × Nat)) (a2 : List Byte) :
    (State.storeParts s a1 a2).1.now = s.now ∧ (State.storeParts s a1 a2).1.fresh = s.fresh ∧
      (State.storeParts s a1 a2).1.issued = s.issued ∧ (State.storeParts s a1 a2).1.finished = s.finished ∧
      (State.storeParts s a1 a2).1.cueQ = s.cueQ ∧ (State.storeParts s a1 a2).1.ports = s.ports ∧
      (State.storeParts s a1 a2).1.tact = s.tact ∧ (State.storeParts s a1 a2).1.score = s.score ∧
      (State.storeParts s a1 a2).1.esp = s.esp ∧ (State.storeParts s a1 a2).1.queues = s.queues ∧
      (State.storeParts s a1 a2).1.rings = s.rings ∧ (State.storeParts s a1 a2).1.lastIssued = s.lastIssued ∧
      (State.storeParts s a1 a2).1.ce = s.ce ∧ (State.storeParts s a1 a2).1.mes = s.mes ∧
      (State.storeParts s a1 a2).1.clusters = s.clusters ∧ (State.storeParts s a1 a2).1.dma = s.dma ∧
      (State.storeParts s a1 a2).1.sync = s.sync ∧ (State.storeParts s a1 a2).1.graft = s.graft ∧
      (State.storeParts s a1 a2).1.sys = s.sys ∧ (State.storeParts s a1 a2).1.power = s.power := by
  induction a1 generalizing s a2 with
  | nil => simp [State.storeParts]
  | cons x ps ih =>
    obtain ⟨a, n⟩ := x
    simp only [State.storeParts]
    split <;> (rename_i h; obtain ⟨rfl, -⟩ := Prod.ext_iff.mp h) <;> simp [ih]

@[simp] theorem State.store_frame (s : State) (a : Nat) (bs : List Byte) :
    (State.store s a bs).1.now = s.now ∧ (State.store s a bs).1.fresh = s.fresh ∧
      (State.store s a bs).1.issued = s.issued ∧ (State.store s a bs).1.finished = s.finished ∧
      (State.store s a bs).1.cueQ = s.cueQ ∧ (State.store s a bs).1.ports = s.ports ∧
      (State.store s a bs).1.tact = s.tact ∧ (State.store s a bs).1.score = s.score ∧
      (State.store s a bs).1.esp = s.esp ∧ (State.store s a bs).1.queues = s.queues ∧
      (State.store s a bs).1.rings = s.rings ∧ (State.store s a bs).1.lastIssued = s.lastIssued ∧
      (State.store s a bs).1.ce = s.ce ∧ (State.store s a bs).1.mes = s.mes ∧
      (State.store s a bs).1.clusters = s.clusters ∧ (State.store s a bs).1.dma = s.dma ∧
      (State.store s a bs).1.sync = s.sync ∧ (State.store s a bs).1.graft = s.graft ∧
      (State.store s a bs).1.sys = s.sys ∧ (State.store s a bs).1.power = s.power := by
  simp [State.store]

@[simp] theorem State.scribble_frame (s : State) (f : Nat → Byte) (xs : List (Nat × Nat)) :
    (State.scribble s f xs).now = s.now ∧ (State.scribble s f xs).fresh = s.fresh ∧
      (State.scribble s f xs).issued = s.issued ∧ (State.scribble s f xs).finished = s.finished ∧
      (State.scribble s f xs).counters = s.counters ∧ (State.scribble s f xs).cueQ = s.cueQ ∧
      (State.scribble s f xs).ports = s.ports ∧ (State.scribble s f xs).tact = s.tact ∧
      (State.scribble s f xs).score = s.score ∧ (State.scribble s f xs).esp = s.esp ∧
      (State.scribble s f xs).mem = s.mem ∧ (State.scribble s f xs).queues = s.queues ∧
      (State.scribble s f xs).rings = s.rings ∧ (State.scribble s f xs).lastIssued = s.lastIssued ∧
      (State.scribble s f xs).ce = s.ce ∧ (State.scribble s f xs).mes = s.mes ∧
      (State.scribble s f xs).clusters = s.clusters ∧ (State.scribble s f xs).dma = s.dma ∧
      (State.scribble s f xs).sync = s.sync ∧ (State.scribble s f xs).fc = s.fc ∧
      (State.scribble s f xs).graft = s.graft ∧ (State.scribble s f xs).sys = s.sys ∧
      (State.scribble s f xs).host = s.host ∧ (State.scribble s f xs).mgmt = s.mgmt ∧
      (State.scribble s f xs).power = s.power := by
  simp [State.scribble]

@[simp] theorem State.writeHead_frame (s : State) (q : Nat) :
    (State.writeHead s q).now = s.now ∧ (State.writeHead s q).fresh = s.fresh ∧
      (State.writeHead s q).issued = s.issued ∧ (State.writeHead s q).finished = s.finished ∧
      (State.writeHead s q).cueQ = s.cueQ ∧ (State.writeHead s q).ports = s.ports ∧
      (State.writeHead s q).tact = s.tact ∧ (State.writeHead s q).score = s.score ∧
      (State.writeHead s q).esp = s.esp ∧ (State.writeHead s q).rings = s.rings ∧
      (State.writeHead s q).lastIssued = s.lastIssued ∧ (State.writeHead s q).ce = s.ce ∧
      (State.writeHead s q).mes = s.mes ∧ (State.writeHead s q).clusters = s.clusters ∧
      (State.writeHead s q).dma = s.dma ∧ (State.writeHead s q).sync = s.sync ∧
      (State.writeHead s q).graft = s.graft ∧ (State.writeHead s q).sys = s.sys ∧
      (State.writeHead s q).power = s.power := by
  unfold State.writeHead; dsimp only
  repeat' (split <;> try (rename_i h; obtain ⟨rfl, -⟩ := Prod.ext_iff.mp h))
  all_goals simp

@[simp] theorem State.headDue_frame (s : State) (q : Nat) :
    (State.headDue s q).now = s.now ∧ (State.headDue s q).fresh = s.fresh ∧
      (State.headDue s q).issued = s.issued ∧ (State.headDue s q).finished = s.finished ∧
      (State.headDue s q).cueQ = s.cueQ ∧ (State.headDue s q).ports = s.ports ∧
      (State.headDue s q).tact = s.tact ∧ (State.headDue s q).score = s.score ∧
      (State.headDue s q).esp = s.esp ∧ (State.headDue s q).rings = s.rings ∧
      (State.headDue s q).lastIssued = s.lastIssued ∧ (State.headDue s q).ce = s.ce ∧
      (State.headDue s q).mes = s.mes ∧ (State.headDue s q).clusters = s.clusters ∧
      (State.headDue s q).dma = s.dma ∧ (State.headDue s q).sync = s.sync ∧
      (State.headDue s q).graft = s.graft ∧ (State.headDue s q).sys = s.sys ∧
      (State.headDue s q).power = s.power := by
  simp [State.headDue, apply_ite State.now, apply_ite State.fresh, apply_ite State.issued, apply_ite State.finished, apply_ite State.cueQ, apply_ite State.ports, apply_ite State.tact, apply_ite State.score, apply_ite State.esp, apply_ite State.rings, apply_ite State.lastIssued, apply_ite State.ce, apply_ite State.mes, apply_ite State.clusters, apply_ite State.dma, apply_ite State.sync, apply_ite State.graft, apply_ite State.sys, apply_ite State.power]

@[simp] theorem State.haltQueue_frame (s : State) (q : Nat) (cause : HaltCause) (idx : Word) (force : Bool) :
    (State.haltQueue s q cause idx force).now = s.now ∧ (State.haltQueue s q cause idx force).fresh = s.fresh ∧
      (State.haltQueue s q cause idx force).issued = s.issued ∧ (State.haltQueue s q cause idx force).finished = s.finished ∧
      (State.haltQueue s q cause idx force).cueQ = s.cueQ ∧ (State.haltQueue s q cause idx force).ports = s.ports ∧
      (State.haltQueue s q cause idx force).tact = s.tact ∧ (State.haltQueue s q cause idx force).score = s.score ∧
      (State.haltQueue s q cause idx force).esp = s.esp ∧ (State.haltQueue s q cause idx force).rings = s.rings ∧
      (State.haltQueue s q cause idx force).lastIssued = s.lastIssued ∧ (State.haltQueue s q cause idx force).ce = s.ce ∧
      (State.haltQueue s q cause idx force).mes = s.mes ∧ (State.haltQueue s q cause idx force).clusters = s.clusters ∧
      (State.haltQueue s q cause idx force).dma = s.dma ∧ (State.haltQueue s q cause idx force).sync = s.sync ∧
      (State.haltQueue s q cause idx force).graft = s.graft ∧ (State.haltQueue s q cause idx force).sys = s.sys ∧
      (State.haltQueue s q cause idx force).power = s.power := by
  simp [State.haltQueue, apply_ite State.now, apply_ite State.fresh, apply_ite State.issued, apply_ite State.finished, apply_ite State.cueQ, apply_ite State.ports, apply_ite State.tact, apply_ite State.score, apply_ite State.esp, apply_ite State.rings, apply_ite State.lastIssued, apply_ite State.ce, apply_ite State.mes, apply_ite State.clusters, apply_ite State.dma, apply_ite State.sync, apply_ite State.graft, apply_ite State.sys, apply_ite State.power]

@[simp] theorem State.failPolicy_frame (s : State) (q : Nat) (idx : Word) (status : Nat) :
    (State.failPolicy s q idx status).now = s.now ∧ (State.failPolicy s q idx status).fresh = s.fresh ∧
      (State.failPolicy s q idx status).issued = s.issued ∧ (State.failPolicy s q idx status).finished = s.finished ∧
      (State.failPolicy s q idx status).cueQ = s.cueQ ∧ (State.failPolicy s q idx status).ports = s.ports ∧
      (State.failPolicy s q idx status).tact = s.tact ∧ (State.failPolicy s q idx status).score = s.score ∧
      (State.failPolicy s q idx status).esp = s.esp ∧ (State.failPolicy s q idx status).rings = s.rings ∧
      (State.failPolicy s q idx status).lastIssued = s.lastIssued ∧ (State.failPolicy s q idx status).ce = s.ce ∧
      (State.failPolicy s q idx status).mes = s.mes ∧ (State.failPolicy s q idx status).clusters = s.clusters ∧
      (State.failPolicy s q idx status).dma = s.dma ∧ (State.failPolicy s q idx status).sync = s.sync ∧
      (State.failPolicy s q idx status).graft = s.graft ∧ (State.failPolicy s q idx status).sys = s.sys ∧
      (State.failPolicy s q idx status).power = s.power := by
  simp [State.failPolicy, apply_ite State.now, apply_ite State.fresh, apply_ite State.issued, apply_ite State.finished, apply_ite State.cueQ, apply_ite State.ports, apply_ite State.tact, apply_ite State.score, apply_ite State.esp, apply_ite State.rings, apply_ite State.lastIssued, apply_ite State.ce, apply_ite State.mes, apply_ite State.clusters, apply_ite State.dma, apply_ite State.sync, apply_ite State.graft, apply_ite State.sys, apply_ite State.power]

@[simp] theorem State.fireWire_frame (s : State) (w : Nat) :
    (State.fireWire s w).now = s.now ∧ (State.fireWire s w).fresh = s.fresh ∧
      (State.fireWire s w).issued = s.issued ∧ (State.fireWire s w).finished = s.finished ∧
      (State.fireWire s w).counters = s.counters ∧ (State.fireWire s w).cueQ = s.cueQ ∧
      (State.fireWire s w).ports = s.ports ∧ (State.fireWire s w).tact = s.tact ∧
      (State.fireWire s w).score = s.score ∧ (State.fireWire s w).esp = s.esp ∧
      (State.fireWire s w).mem = s.mem ∧ (State.fireWire s w).queues = s.queues ∧
      (State.fireWire s w).rings = s.rings ∧ (State.fireWire s w).lastIssued = s.lastIssued ∧
      (State.fireWire s w).ce = s.ce ∧ (State.fireWire s w).mes = s.mes ∧
      (State.fireWire s w).dma = s.dma ∧ (State.fireWire s w).sync = s.sync ∧
      (State.fireWire s w).fc = s.fc ∧ (State.fireWire s w).graft = s.graft ∧
      (State.fireWire s w).sys = s.sys ∧ (State.fireWire s w).host = s.host ∧
      (State.fireWire s w).mgmt = s.mgmt ∧ (State.fireWire s w).power = s.power := by
  simp [State.fireWire]

@[simp] theorem State.fireGe_frame (s : State) (w : Nat) :
    (State.fireGe s w).now = s.now ∧ (State.fireGe s w).fresh = s.fresh ∧
      (State.fireGe s w).issued = s.issued ∧ (State.fireGe s w).finished = s.finished ∧
      (State.fireGe s w).counters = s.counters ∧ (State.fireGe s w).cueQ = s.cueQ ∧
      (State.fireGe s w).ports = s.ports ∧ (State.fireGe s w).tact = s.tact ∧
      (State.fireGe s w).score = s.score ∧ (State.fireGe s w).esp = s.esp ∧
      (State.fireGe s w).mem = s.mem ∧ (State.fireGe s w).queues = s.queues ∧
      (State.fireGe s w).rings = s.rings ∧ (State.fireGe s w).lastIssued = s.lastIssued ∧
      (State.fireGe s w).ce = s.ce ∧ (State.fireGe s w).mes = s.mes ∧
      (State.fireGe s w).dma = s.dma ∧ (State.fireGe s w).fc = s.fc ∧
      (State.fireGe s w).graft = s.graft ∧ (State.fireGe s w).sys = s.sys ∧
      (State.fireGe s w).host = s.host ∧ (State.fireGe s w).mgmt = s.mgmt ∧
      (State.fireGe s w).power = s.power := by
  simp [State.fireGe]

@[simp] theorem State.wakeTally_frame (s : State) (t : Nat) :
    (State.wakeTally s t).now = s.now ∧ (State.wakeTally s t).fresh = s.fresh ∧
      (State.wakeTally s t).issued = s.issued ∧ (State.wakeTally s t).finished = s.finished ∧
      (State.wakeTally s t).counters = s.counters ∧ (State.wakeTally s t).cueQ = s.cueQ ∧
      (State.wakeTally s t).ports = s.ports ∧ (State.wakeTally s t).tact = s.tact ∧
      (State.wakeTally s t).score = s.score ∧ (State.wakeTally s t).esp = s.esp ∧
      (State.wakeTally s t).mem = s.mem ∧ (State.wakeTally s t).queues = s.queues ∧
      (State.wakeTally s t).rings = s.rings ∧ (State.wakeTally s t).lastIssued = s.lastIssued ∧
      (State.wakeTally s t).ce = s.ce ∧ (State.wakeTally s t).mes = s.mes ∧
      (State.wakeTally s t).dma = s.dma ∧ (State.wakeTally s t).fc = s.fc ∧
      (State.wakeTally s t).graft = s.graft ∧ (State.wakeTally s t).sys = s.sys ∧
      (State.wakeTally s t).host = s.host ∧ (State.wakeTally s t).mgmt = s.mgmt ∧
      (State.wakeTally s t).power = s.power := by
  simp [State.wakeTally, apply_ite State.now, apply_ite State.fresh, apply_ite State.issued, apply_ite State.finished, apply_ite State.counters, apply_ite State.cueQ, apply_ite State.ports, apply_ite State.tact, apply_ite State.score, apply_ite State.esp, apply_ite State.mem, apply_ite State.queues, apply_ite State.rings, apply_ite State.lastIssued, apply_ite State.ce, apply_ite State.mes, apply_ite State.dma, apply_ite State.fc, apply_ite State.graft, apply_ite State.sys, apply_ite State.host, apply_ite State.mgmt, apply_ite State.power]

@[simp] theorem State.wakeAbandoned_frame (s : State) (k : WakeKind) (obj : Nat) :
    (State.wakeAbandoned s k obj).now = s.now ∧ (State.wakeAbandoned s k obj).fresh = s.fresh ∧
      (State.wakeAbandoned s k obj).issued = s.issued ∧ (State.wakeAbandoned s k obj).finished = s.finished ∧
      (State.wakeAbandoned s k obj).cueQ = s.cueQ ∧ (State.wakeAbandoned s k obj).ports = s.ports ∧
      (State.wakeAbandoned s k obj).tact = s.tact ∧ (State.wakeAbandoned s k obj).score = s.score ∧
      (State.wakeAbandoned s k obj).esp = s.esp ∧ (State.wakeAbandoned s k obj).mem = s.mem ∧
      (State.wakeAbandoned s k obj).queues = s.queues ∧ (State.wakeAbandoned s k obj).rings = s.rings ∧
      (State.wakeAbandoned s k obj).lastIssued = s.lastIssued ∧ (State.wakeAbandoned s k obj).ce = s.ce ∧
      (State.wakeAbandoned s k obj).mes = s.mes ∧ (State.wakeAbandoned s k obj).dma = s.dma ∧
      (State.wakeAbandoned s k obj).graft = s.graft ∧ (State.wakeAbandoned s k obj).sys = s.sys ∧
      (State.wakeAbandoned s k obj).power = s.power := by
  simp [State.wakeAbandoned]

@[simp] theorem State.dlTouch_frame (s : State) (obj : Nat) :
    (State.dlTouch s obj).now = s.now ∧ (State.dlTouch s obj).fresh = s.fresh ∧
      (State.dlTouch s obj).issued = s.issued ∧ (State.dlTouch s obj).finished = s.finished ∧
      (State.dlTouch s obj).counters = s.counters ∧ (State.dlTouch s obj).cueQ = s.cueQ ∧
      (State.dlTouch s obj).ports = s.ports ∧ (State.dlTouch s obj).tact = s.tact ∧
      (State.dlTouch s obj).score = s.score ∧ (State.dlTouch s obj).esp = s.esp ∧
      (State.dlTouch s obj).mem = s.mem ∧ (State.dlTouch s obj).queues = s.queues ∧
      (State.dlTouch s obj).rings = s.rings ∧ (State.dlTouch s obj).lastIssued = s.lastIssued ∧
      (State.dlTouch s obj).ce = s.ce ∧ (State.dlTouch s obj).mes = s.mes ∧
      (State.dlTouch s obj).clusters = s.clusters ∧ (State.dlTouch s obj).dma = s.dma ∧
      (State.dlTouch s obj).fc = s.fc ∧ (State.dlTouch s obj).graft = s.graft ∧
      (State.dlTouch s obj).sys = s.sys ∧ (State.dlTouch s obj).host = s.host ∧
      (State.dlTouch s obj).mgmt = s.mgmt ∧ (State.dlTouch s obj).power = s.power := by
  simp [State.dlTouch, apply_ite State.now, apply_ite State.fresh, apply_ite State.issued, apply_ite State.finished, apply_ite State.counters, apply_ite State.cueQ, apply_ite State.ports, apply_ite State.tact, apply_ite State.score, apply_ite State.esp, apply_ite State.mem, apply_ite State.queues, apply_ite State.rings, apply_ite State.lastIssued, apply_ite State.ce, apply_ite State.mes, apply_ite State.clusters, apply_ite State.dma, apply_ite State.fc, apply_ite State.graft, apply_ite State.sys, apply_ite State.host, apply_ite State.mgmt, apply_ite State.power]

@[simp] theorem State.sigDropped_frame (s : State) (t : Nat) :
    (State.sigDropped s t).now = s.now ∧ (State.sigDropped s t).fresh = s.fresh ∧
      (State.sigDropped s t).issued = s.issued ∧ (State.sigDropped s t).finished = s.finished ∧
      (State.sigDropped s t).cueQ = s.cueQ ∧ (State.sigDropped s t).ports = s.ports ∧
      (State.sigDropped s t).tact = s.tact ∧ (State.sigDropped s t).score = s.score ∧
      (State.sigDropped s t).esp = s.esp ∧ (State.sigDropped s t).mem = s.mem ∧
      (State.sigDropped s t).queues = s.queues ∧ (State.sigDropped s t).rings = s.rings ∧
      (State.sigDropped s t).lastIssued = s.lastIssued ∧ (State.sigDropped s t).ce = s.ce ∧
      (State.sigDropped s t).mes = s.mes ∧ (State.sigDropped s t).clusters = s.clusters ∧
      (State.sigDropped s t).dma = s.dma ∧ (State.sigDropped s t).sync = s.sync ∧
      (State.sigDropped s t).graft = s.graft ∧ (State.sigDropped s t).sys = s.sys ∧
      (State.sigDropped s t).power = s.power := by
  simp [State.sigDropped]

@[simp] theorem State.putTally_frame (s : State) (t : Nat) (v : DWord) :
    (State.putTally s t v).now = s.now ∧ (State.putTally s t v).fresh = s.fresh ∧
      (State.putTally s t v).issued = s.issued ∧ (State.putTally s t v).finished = s.finished ∧
      (State.putTally s t v).cueQ = s.cueQ ∧ (State.putTally s t v).ports = s.ports ∧
      (State.putTally s t v).tact = s.tact ∧ (State.putTally s t v).score = s.score ∧
      (State.putTally s t v).esp = s.esp ∧ (State.putTally s t v).mem = s.mem ∧
      (State.putTally s t v).queues = s.queues ∧ (State.putTally s t v).rings = s.rings ∧
      (State.putTally s t v).lastIssued = s.lastIssued ∧ (State.putTally s t v).ce = s.ce ∧
      (State.putTally s t v).mes = s.mes ∧ (State.putTally s t v).graft = s.graft ∧
      (State.putTally s t v).sys = s.sys ∧ (State.putTally s t v).power = s.power := by
  simp [State.putTally, apply_ite State.now, apply_ite State.fresh, apply_ite State.issued, apply_ite State.finished, apply_ite State.cueQ, apply_ite State.ports, apply_ite State.tact, apply_ite State.score, apply_ite State.esp, apply_ite State.mem, apply_ite State.queues, apply_ite State.rings, apply_ite State.lastIssued, apply_ite State.ce, apply_ite State.mes, apply_ite State.graft, apply_ite State.sys, apply_ite State.power]

@[simp] theorem State.addTally_frame (s : State) (t : Nat) (n : Nat) :
    (State.addTally s t n).now = s.now ∧ (State.addTally s t n).fresh = s.fresh ∧
      (State.addTally s t n).issued = s.issued ∧ (State.addTally s t n).finished = s.finished ∧
      (State.addTally s t n).cueQ = s.cueQ ∧ (State.addTally s t n).ports = s.ports ∧
      (State.addTally s t n).tact = s.tact ∧ (State.addTally s t n).score = s.score ∧
      (State.addTally s t n).esp = s.esp ∧ (State.addTally s t n).mem = s.mem ∧
      (State.addTally s t n).queues = s.queues ∧ (State.addTally s t n).rings = s.rings ∧
      (State.addTally s t n).lastIssued = s.lastIssued ∧ (State.addTally s t n).ce = s.ce ∧
      (State.addTally s t n).mes = s.mes ∧ (State.addTally s t n).graft = s.graft ∧
      (State.addTally s t n).sys = s.sys ∧ (State.addTally s t n).power = s.power := by
  simp [State.addTally]

@[simp] theorem State.advance_frame (s : State) (q : Nat) :
    (State.advance s q).now = s.now ∧ (State.advance s q).fresh = s.fresh ∧
      (State.advance s q).issued = s.issued ∧ (State.advance s q).finished = s.finished ∧
      (State.advance s q).counters = s.counters ∧ (State.advance s q).cueQ = s.cueQ ∧
      (State.advance s q).ports = s.ports ∧ (State.advance s q).tact = s.tact ∧
      (State.advance s q).score = s.score ∧ (State.advance s q).esp = s.esp ∧
      (State.advance s q).mem = s.mem ∧ (State.advance s q).rings = s.rings ∧
      (State.advance s q).lastIssued = s.lastIssued ∧ (State.advance s q).ce = s.ce ∧
      (State.advance s q).mes = s.mes ∧ (State.advance s q).clusters = s.clusters ∧
      (State.advance s q).dma = s.dma ∧ (State.advance s q).sync = s.sync ∧
      (State.advance s q).fc = s.fc ∧ (State.advance s q).graft = s.graft ∧
      (State.advance s q).sys = s.sys ∧ (State.advance s q).host = s.host ∧
      (State.advance s q).mgmt = s.mgmt ∧ (State.advance s q).power = s.power := by
  simp [State.advance]

@[simp] theorem State.branchTo_frame (s : State) (q : Nat) (target : Word) :
    (State.branchTo s q target).now = s.now ∧ (State.branchTo s q target).fresh = s.fresh ∧
      (State.branchTo s q target).issued = s.issued ∧ (State.branchTo s q target).finished = s.finished ∧
      (State.branchTo s q target).counters = s.counters ∧ (State.branchTo s q target).cueQ = s.cueQ ∧
      (State.branchTo s q target).ports = s.ports ∧ (State.branchTo s q target).tact = s.tact ∧
      (State.branchTo s q target).score = s.score ∧ (State.branchTo s q target).esp = s.esp ∧
      (State.branchTo s q target).mem = s.mem ∧ (State.branchTo s q target).rings = s.rings ∧
      (State.branchTo s q target).lastIssued = s.lastIssued ∧ (State.branchTo s q target).ce = s.ce ∧
      (State.branchTo s q target).mes = s.mes ∧ (State.branchTo s q target).clusters = s.clusters ∧
      (State.branchTo s q target).dma = s.dma ∧ (State.branchTo s q target).sync = s.sync ∧
      (State.branchTo s q target).fc = s.fc ∧ (State.branchTo s q target).graft = s.graft ∧
      (State.branchTo s q target).sys = s.sys ∧ (State.branchTo s q target).host = s.host ∧
      (State.branchTo s q target).mgmt = s.mgmt ∧ (State.branchTo s q target).power = s.power := by
  simp [State.branchTo]

@[simp] theorem State.issue_frame (s : State) (q : Nat) (idx : Word) (cmd : BitVec 512) (chan : Option Nat) :
    (State.issue s q idx cmd chan).now = s.now ∧ (State.issue s q idx cmd chan).fresh = s.fresh ∧
      (State.issue s q idx cmd chan).finished = s.finished ∧ (State.issue s q idx cmd chan).counters = s.counters ∧
      (State.issue s q idx cmd chan).cueQ = s.cueQ ∧ (State.issue s q idx cmd chan).ports = s.ports ∧
      (State.issue s q idx cmd chan).tact = s.tact ∧ (State.issue s q idx cmd chan).score = s.score ∧
      (State.issue s q idx cmd chan).esp = s.esp ∧ (State.issue s q idx cmd chan).mem = s.mem ∧
      (State.issue s q idx cmd chan).rings = s.rings ∧ (State.issue s q idx cmd chan).ce = s.ce ∧
      (State.issue s q idx cmd chan).mes = s.mes ∧ (State.issue s q idx cmd chan).clusters = s.clusters ∧
      (State.issue s q idx cmd chan).dma = s.dma ∧ (State.issue s q idx cmd chan).sync = s.sync ∧
      (State.issue s q idx cmd chan).fc = s.fc ∧ (State.issue s q idx cmd chan).graft = s.graft ∧
      (State.issue s q idx cmd chan).sys = s.sys ∧ (State.issue s q idx cmd chan).host = s.host ∧
      (State.issue s q idx cmd chan).mgmt = s.mgmt ∧ (State.issue s q idx cmd chan).power = s.power := by
  unfold State.issue
  (repeat' split) <;> simp

@[simp] theorem State.seeDone_frame (s : State) (ch : Nat) (status : Nat) :
    (State.seeDone s ch status).now = s.now ∧ (State.seeDone s ch status).fresh = s.fresh ∧
      (State.seeDone s ch status).issued = s.issued ∧ (State.seeDone s ch status).finished = s.finished ∧
      (State.seeDone s ch status).counters = s.counters ∧ (State.seeDone s ch status).cueQ = s.cueQ ∧
      (State.seeDone s ch status).ports = s.ports ∧ (State.seeDone s ch status).tact = s.tact ∧
      (State.seeDone s ch status).score = s.score ∧ (State.seeDone s ch status).esp = s.esp ∧
      (State.seeDone s ch status).mem = s.mem ∧ (State.seeDone s ch status).queues = s.queues ∧
      (State.seeDone s ch status).rings = s.rings ∧ (State.seeDone s ch status).lastIssued = s.lastIssued ∧
      (State.seeDone s ch status).ce = s.ce ∧ (State.seeDone s ch status).mes = s.mes ∧
      (State.seeDone s ch status).clusters = s.clusters ∧ (State.seeDone s ch status).sync = s.sync ∧
      (State.seeDone s ch status).fc = s.fc ∧ (State.seeDone s ch status).graft = s.graft ∧
      (State.seeDone s ch status).sys = s.sys ∧ (State.seeDone s ch status).host = s.host ∧
      (State.seeDone s ch status).mgmt = s.mgmt ∧ (State.seeDone s ch status).power = s.power := by
  simp [State.seeDone]

@[simp] theorem State.freeChan_frame (s : State) (q : Nat) (x : Inflight) (status : Nat) :
    (State.freeChan s q x status).now = s.now ∧ (State.freeChan s q x status).fresh = s.fresh ∧
      (State.freeChan s q x status).issued = s.issued ∧ (State.freeChan s q x status).finished = s.finished ∧
      (State.freeChan s q x status).counters = s.counters ∧ (State.freeChan s q x status).cueQ = s.cueQ ∧
      (State.freeChan s q x status).ports = s.ports ∧ (State.freeChan s q x status).tact = s.tact ∧
      (State.freeChan s q x status).score = s.score ∧ (State.freeChan s q x status).esp = s.esp ∧
      (State.freeChan s q x status).mem = s.mem ∧ (State.freeChan s q x status).queues = s.queues ∧
      (State.freeChan s q x status).rings = s.rings ∧ (State.freeChan s q x status).lastIssued = s.lastIssued ∧
      (State.freeChan s q x status).ce = s.ce ∧ (State.freeChan s q x status).mes = s.mes ∧
      (State.freeChan s q x status).clusters = s.clusters ∧ (State.freeChan s q x status).sync = s.sync ∧
      (State.freeChan s q x status).fc = s.fc ∧ (State.freeChan s q x status).graft = s.graft ∧
      (State.freeChan s q x status).sys = s.sys ∧ (State.freeChan s q x status).host = s.host ∧
      (State.freeChan s q x status).mgmt = s.mgmt ∧ (State.freeChan s q x status).power = s.power := by
  unfold State.freeChan; dsimp only
  repeat' (split <;> try (rename_i h; obtain ⟨rfl, -⟩ := Prod.ext_iff.mp h))
  all_goals simp

@[simp] theorem State.retire_frame (s : State) (q : Nat) (x : Inflight) (d : Done) :
    (State.retire s q x d).now = s.now ∧ (State.retire s q x d).fresh = s.fresh ∧
      (State.retire s q x d).issued = s.issued ∧ (State.retire s q x d).finished = s.finished ∧
      (State.retire s q x d).cueQ = s.cueQ ∧ (State.retire s q x d).ports = s.ports ∧
      (State.retire s q x d).tact = s.tact ∧ (State.retire s q x d).score = s.score ∧
      (State.retire s q x d).esp = s.esp ∧ (State.retire s q x d).rings = s.rings ∧
      (State.retire s q x d).lastIssued = s.lastIssued ∧ (State.retire s q x d).ce = s.ce ∧
      (State.retire s q x d).mes = s.mes ∧ (State.retire s q x d).graft = s.graft ∧
      (State.retire s q x d).sys = s.sys ∧ (State.retire s q x d).power = s.power := by
  simp [State.retire, apply_ite State.now, apply_ite State.fresh, apply_ite State.issued, apply_ite State.finished, apply_ite State.cueQ, apply_ite State.ports, apply_ite State.tact, apply_ite State.score, apply_ite State.esp, apply_ite State.rings, apply_ite State.lastIssued, apply_ite State.ce, apply_ite State.mes, apply_ite State.graft, apply_ite State.sys, apply_ite State.power]

@[simp] theorem State.finish_frame (s : State) (q : Nat) (tok : Nat) (d : Done) :
    (State.finish s q tok d).now = s.now ∧ (State.finish s q tok d).fresh = s.fresh ∧
      (State.finish s q tok d).issued = s.issued ∧ (State.finish s q tok d).cueQ = s.cueQ ∧
      (State.finish s q tok d).ports = s.ports ∧ (State.finish s q tok d).tact = s.tact ∧
      (State.finish s q tok d).score = s.score ∧ (State.finish s q tok d).esp = s.esp ∧
      (State.finish s q tok d).rings = s.rings ∧ (State.finish s q tok d).lastIssued = s.lastIssued ∧
      (State.finish s q tok d).ce = s.ce ∧ (State.finish s q tok d).mes = s.mes ∧
      (State.finish s q tok d).graft = s.graft ∧ (State.finish s q tok d).sys = s.sys ∧
      (State.finish s q tok d).power = s.power := by
  unfold State.finish; dsimp only
  repeat' (split <;> try (rename_i h; obtain ⟨rfl, -⟩ := Prod.ext_iff.mp h))
  all_goals simp

@[simp] theorem State.completeHead_frame (s : State) (q : Nat) (idx : Word) (cmd : BitVec 512) (d : Done) :
    (State.completeHead s q idx cmd d).now = s.now ∧ (State.completeHead s q idx cmd d).fresh = s.fresh ∧
      (State.completeHead s q idx cmd d).cueQ = s.cueQ ∧ (State.completeHead s q idx cmd d).ports = s.ports ∧
      (State.completeHead s q idx cmd d).tact = s.tact ∧ (State.completeHead s q idx cmd d).score = s.score ∧
      (State.completeHead s q idx cmd d).esp = s.esp ∧ (State.completeHead s q idx cmd d).rings = s.rings ∧
      (State.completeHead s q idx cmd d).ce = s.ce ∧ (State.completeHead s q idx cmd d).mes = s.mes ∧
      (State.completeHead s q idx cmd d).graft = s.graft ∧ (State.completeHead s q idx cmd d).sys = s.sys ∧
      (State.completeHead s q idx cmd d).power = s.power := by
  simp [State.completeHead]

@[simp] theorem State.badCommand_frame (s : State) (q : Nat) (idx : Word) (cmd : BitVec 512) (cause : Nat) (detail : Nat) :
    (State.badCommand s q idx cmd cause detail).now = s.now ∧ (State.badCommand s q idx cmd cause detail).fresh = s.fresh ∧
      (State.badCommand s q idx cmd cause detail).cueQ = s.cueQ ∧ (State.badCommand s q idx cmd cause detail).ports = s.ports ∧
      (State.badCommand s q idx cmd cause detail).tact = s.tact ∧ (State.badCommand s q idx cmd cause detail).score = s.score ∧
      (State.badCommand s q idx cmd cause detail).esp = s.esp ∧ (State.badCommand s q idx cmd cause detail).rings = s.rings ∧
      (State.badCommand s q idx cmd cause detail).ce = s.ce ∧ (State.badCommand s q idx cmd cause detail).mes = s.mes ∧
      (State.badCommand s q idx cmd cause detail).graft = s.graft ∧ (State.badCommand s q idx cmd cause detail).sys = s.sys ∧
      (State.badCommand s q idx cmd cause detail).power = s.power := by
  simp [State.badCommand]

@[simp] theorem State.endHead_frame (s : State) (q : Nat) (status : Nat) (detail : Nat) :
    (State.endHead s q status detail).now = s.now ∧ (State.endHead s q status detail).fresh = s.fresh ∧
      (State.endHead s q status detail).cueQ = s.cueQ ∧ (State.endHead s q status detail).ports = s.ports ∧
      (State.endHead s q status detail).tact = s.tact ∧ (State.endHead s q status detail).score = s.score ∧
      (State.endHead s q status detail).esp = s.esp ∧ (State.endHead s q status detail).rings = s.rings ∧
      (State.endHead s q status detail).ce = s.ce ∧ (State.endHead s q status detail).mes = s.mes ∧
      (State.endHead s q status detail).graft = s.graft ∧ (State.endHead s q status detail).sys = s.sys ∧
      (State.endHead s q status detail).power = s.power := by
  unfold State.endHead; dsimp only
  repeat' (split <;> try (rename_i h; obtain ⟨rfl, -⟩ := Prod.ext_iff.mp h))
  all_goals simp

@[simp] theorem State.abandonTally_frame (s : State) (t : Nat) :
    (State.abandonTally s t).now = s.now ∧ (State.abandonTally s t).fresh = s.fresh ∧
      (State.abandonTally s t).cueQ = s.cueQ ∧ (State.abandonTally s t).ports = s.ports ∧
      (State.abandonTally s t).tact = s.tact ∧ (State.abandonTally s t).score = s.score ∧
      (State.abandonTally s t).esp = s.esp ∧ (State.abandonTally s t).rings = s.rings ∧
      (State.abandonTally s t).ce = s.ce ∧ (State.abandonTally s t).mes = s.mes ∧
      (State.abandonTally s t).graft = s.graft ∧ (State.abandonTally s t).sys = s.sys ∧
      (State.abandonTally s t).power = s.power := by
  simp [State.abandonTally, apply_ite State.now, apply_ite State.fresh, apply_ite State.cueQ, apply_ite State.ports, apply_ite State.tact, apply_ite State.score, apply_ite State.esp, apply_ite State.rings, apply_ite State.ce, apply_ite State.mes, apply_ite State.graft, apply_ite State.sys, apply_ite State.power]

@[simp] theorem State.abandonBarrier_frame (s : State) (b : Nat) (cause : Nat) :
    (State.abandonBarrier s b cause).now = s.now ∧ (State.abandonBarrier s b cause).fresh = s.fresh ∧
      (State.abandonBarrier s b cause).cueQ = s.cueQ ∧ (State.abandonBarrier s b cause).ports = s.ports ∧
      (State.abandonBarrier s b cause).tact = s.tact ∧ (State.abandonBarrier s b cause).score = s.score ∧
      (State.abandonBarrier s b cause).esp = s.esp ∧ (State.abandonBarrier s b cause).rings = s.rings ∧
      (State.abandonBarrier s b cause).ce = s.ce ∧ (State.abandonBarrier s b cause).mes = s.mes ∧
      (State.abandonBarrier s b cause).graft = s.graft ∧ (State.abandonBarrier s b cause).sys = s.sys ∧
      (State.abandonBarrier s b cause).power = s.power := by
  simp [State.abandonBarrier, apply_ite State.now, apply_ite State.fresh, apply_ite State.cueQ, apply_ite State.ports, apply_ite State.tact, apply_ite State.score, apply_ite State.esp, apply_ite State.rings, apply_ite State.ce, apply_ite State.mes, apply_ite State.graft, apply_ite State.sys, apply_ite State.power]

@[simp] theorem State.abandonChorus_frame (s : State) (cause : Nat) (sel : Barrier → Bool) :
    (State.abandonChorus s cause sel).now = s.now ∧ (State.abandonChorus s cause sel).fresh = s.fresh ∧
      (State.abandonChorus s cause sel).cueQ = s.cueQ ∧ (State.abandonChorus s cause sel).ports = s.ports ∧
      (State.abandonChorus s cause sel).tact = s.tact ∧ (State.abandonChorus s cause sel).score = s.score ∧
      (State.abandonChorus s cause sel).esp = s.esp ∧ (State.abandonChorus s cause sel).rings = s.rings ∧
      (State.abandonChorus s cause sel).ce = s.ce ∧ (State.abandonChorus s cause sel).mes = s.mes ∧
      (State.abandonChorus s cause sel).graft = s.graft ∧ (State.abandonChorus s cause sel).sys = s.sys ∧
      (State.abandonChorus s cause sel).power = s.power := by
  simp [State.abandonChorus]

@[simp] theorem State.releaseBarrier_frame (s : State) (b : Nat) :
    (State.releaseBarrier s b).now = s.now ∧ (State.releaseBarrier s b).fresh = s.fresh ∧
      (State.releaseBarrier s b).issued = s.issued ∧ (State.releaseBarrier s b).finished = s.finished ∧
      (State.releaseBarrier s b).counters = s.counters ∧ (State.releaseBarrier s b).cueQ = s.cueQ ∧
      (State.releaseBarrier s b).ports = s.ports ∧ (State.releaseBarrier s b).tact = s.tact ∧
      (State.releaseBarrier s b).score = s.score ∧ (State.releaseBarrier s b).esp = s.esp ∧
      (State.releaseBarrier s b).mem = s.mem ∧ (State.releaseBarrier s b).rings = s.rings ∧
      (State.releaseBarrier s b).lastIssued = s.lastIssued ∧ (State.releaseBarrier s b).ce = s.ce ∧
      (State.releaseBarrier s b).mes = s.mes ∧ (State.releaseBarrier s b).dma = s.dma ∧
      (State.releaseBarrier s b).fc = s.fc ∧ (State.releaseBarrier s b).graft = s.graft ∧
      (State.releaseBarrier s b).sys = s.sys ∧ (State.releaseBarrier s b).host = s.host ∧
      (State.releaseBarrier s b).mgmt = s.mgmt ∧ (State.releaseBarrier s b).power = s.power := by
  simp [State.releaseBarrier]

@[simp] theorem State.abandonOwned_frame (s : State) (o : Owner → Bool) :
    (State.abandonOwned s o).now = s.now ∧ (State.abandonOwned s o).fresh = s.fresh ∧
      (State.abandonOwned s o).cueQ = s.cueQ ∧ (State.abandonOwned s o).ports = s.ports ∧
      (State.abandonOwned s o).tact = s.tact ∧ (State.abandonOwned s o).score = s.score ∧
      (State.abandonOwned s o).esp = s.esp ∧ (State.abandonOwned s o).rings = s.rings ∧
      (State.abandonOwned s o).ce = s.ce ∧ (State.abandonOwned s o).mes = s.mes ∧
      (State.abandonOwned s o).graft = s.graft ∧ (State.abandonOwned s o).sys = s.sys ∧
      (State.abandonOwned s o).power = s.power := by
  simp [State.abandonOwned]

@[simp] theorem State.whenLive_now (s : State) (f : State → State) :
    (s.whenLive f).now = if s.live then (f s).now else s.now := apply_ite State.now _ _ _

@[simp] theorem State.whenLive_fresh (s : State) (f : State → State) :
    (s.whenLive f).fresh = if s.live then (f s).fresh else s.fresh := apply_ite State.fresh _ _ _

@[simp] theorem State.whenLive_issued (s : State) (f : State → State) :
    (s.whenLive f).issued = if s.live then (f s).issued else s.issued := apply_ite State.issued _ _ _

@[simp] theorem State.whenLive_finished (s : State) (f : State → State) :
    (s.whenLive f).finished = if s.live then (f s).finished else s.finished := apply_ite State.finished _ _ _

@[simp] theorem State.whenLive_counters (s : State) (f : State → State) :
    (s.whenLive f).counters = if s.live then (f s).counters else s.counters := apply_ite State.counters _ _ _

@[simp] theorem State.whenLive_cueQ (s : State) (f : State → State) :
    (s.whenLive f).cueQ = if s.live then (f s).cueQ else s.cueQ := apply_ite State.cueQ _ _ _

@[simp] theorem State.whenLive_ports (s : State) (f : State → State) :
    (s.whenLive f).ports = if s.live then (f s).ports else s.ports := apply_ite State.ports _ _ _

@[simp] theorem State.whenLive_tact (s : State) (f : State → State) :
    (s.whenLive f).tact = if s.live then (f s).tact else s.tact := apply_ite State.tact _ _ _

@[simp] theorem State.whenLive_score (s : State) (f : State → State) :
    (s.whenLive f).score = if s.live then (f s).score else s.score := apply_ite State.score _ _ _

@[simp] theorem State.whenLive_esp (s : State) (f : State → State) :
    (s.whenLive f).esp = if s.live then (f s).esp else s.esp := apply_ite State.esp _ _ _

@[simp] theorem State.whenLive_mem (s : State) (f : State → State) :
    (s.whenLive f).mem = if s.live then (f s).mem else s.mem := apply_ite State.mem _ _ _

@[simp] theorem State.whenLive_queues (s : State) (f : State → State) :
    (s.whenLive f).queues = if s.live then (f s).queues else s.queues := apply_ite State.queues _ _ _

@[simp] theorem State.whenLive_rings (s : State) (f : State → State) :
    (s.whenLive f).rings = if s.live then (f s).rings else s.rings := apply_ite State.rings _ _ _

@[simp] theorem State.whenLive_lastIssued (s : State) (f : State → State) :
    (s.whenLive f).lastIssued = if s.live then (f s).lastIssued else s.lastIssued := apply_ite State.lastIssued _ _ _

@[simp] theorem State.whenLive_ce (s : State) (f : State → State) :
    (s.whenLive f).ce = if s.live then (f s).ce else s.ce := apply_ite State.ce _ _ _

@[simp] theorem State.whenLive_mes (s : State) (f : State → State) :
    (s.whenLive f).mes = if s.live then (f s).mes else s.mes := apply_ite State.mes _ _ _

@[simp] theorem State.whenLive_clusters (s : State) (f : State → State) :
    (s.whenLive f).clusters = if s.live then (f s).clusters else s.clusters := apply_ite State.clusters _ _ _

@[simp] theorem State.whenLive_dma (s : State) (f : State → State) :
    (s.whenLive f).dma = if s.live then (f s).dma else s.dma := apply_ite State.dma _ _ _

@[simp] theorem State.whenLive_sync (s : State) (f : State → State) :
    (s.whenLive f).sync = if s.live then (f s).sync else s.sync := apply_ite State.sync _ _ _

@[simp] theorem State.whenLive_fc (s : State) (f : State → State) :
    (s.whenLive f).fc = if s.live then (f s).fc else s.fc := apply_ite State.fc _ _ _

@[simp] theorem State.whenLive_graft (s : State) (f : State → State) :
    (s.whenLive f).graft = if s.live then (f s).graft else s.graft := apply_ite State.graft _ _ _

@[simp] theorem State.whenLive_sys (s : State) (f : State → State) :
    (s.whenLive f).sys = if s.live then (f s).sys else s.sys := apply_ite State.sys _ _ _

@[simp] theorem State.whenLive_host (s : State) (f : State → State) :
    (s.whenLive f).host = if s.live then (f s).host else s.host := apply_ite State.host _ _ _

@[simp] theorem State.whenLive_mgmt (s : State) (f : State → State) :
    (s.whenLive f).mgmt = if s.live then (f s).mgmt else s.mgmt := apply_ite State.mgmt _ _ _

@[simp] theorem State.whenLive_power (s : State) (f : State → State) :
    (s.whenLive f).power = if s.live then (f s).power else s.power := apply_ite State.power _ _ _

@[simp] theorem State.whenReleased_now (s : State) (f : State → State) :
    (s.whenReleased f).now = if s.released then (f s).now else s.now := apply_ite State.now _ _ _

@[simp] theorem State.whenReleased_fresh (s : State) (f : State → State) :
    (s.whenReleased f).fresh = if s.released then (f s).fresh else s.fresh := apply_ite State.fresh _ _ _

@[simp] theorem State.whenReleased_issued (s : State) (f : State → State) :
    (s.whenReleased f).issued = if s.released then (f s).issued else s.issued := apply_ite State.issued _ _ _

@[simp] theorem State.whenReleased_finished (s : State) (f : State → State) :
    (s.whenReleased f).finished = if s.released then (f s).finished else s.finished := apply_ite State.finished _ _ _

@[simp] theorem State.whenReleased_counters (s : State) (f : State → State) :
    (s.whenReleased f).counters = if s.released then (f s).counters else s.counters := apply_ite State.counters _ _ _

@[simp] theorem State.whenReleased_cueQ (s : State) (f : State → State) :
    (s.whenReleased f).cueQ = if s.released then (f s).cueQ else s.cueQ := apply_ite State.cueQ _ _ _

@[simp] theorem State.whenReleased_ports (s : State) (f : State → State) :
    (s.whenReleased f).ports = if s.released then (f s).ports else s.ports := apply_ite State.ports _ _ _

@[simp] theorem State.whenReleased_tact (s : State) (f : State → State) :
    (s.whenReleased f).tact = if s.released then (f s).tact else s.tact := apply_ite State.tact _ _ _

@[simp] theorem State.whenReleased_score (s : State) (f : State → State) :
    (s.whenReleased f).score = if s.released then (f s).score else s.score := apply_ite State.score _ _ _

@[simp] theorem State.whenReleased_esp (s : State) (f : State → State) :
    (s.whenReleased f).esp = if s.released then (f s).esp else s.esp := apply_ite State.esp _ _ _

@[simp] theorem State.whenReleased_mem (s : State) (f : State → State) :
    (s.whenReleased f).mem = if s.released then (f s).mem else s.mem := apply_ite State.mem _ _ _

@[simp] theorem State.whenReleased_queues (s : State) (f : State → State) :
    (s.whenReleased f).queues = if s.released then (f s).queues else s.queues := apply_ite State.queues _ _ _

@[simp] theorem State.whenReleased_rings (s : State) (f : State → State) :
    (s.whenReleased f).rings = if s.released then (f s).rings else s.rings := apply_ite State.rings _ _ _

@[simp] theorem State.whenReleased_lastIssued (s : State) (f : State → State) :
    (s.whenReleased f).lastIssued = if s.released then (f s).lastIssued else s.lastIssued := apply_ite State.lastIssued _ _ _

@[simp] theorem State.whenReleased_ce (s : State) (f : State → State) :
    (s.whenReleased f).ce = if s.released then (f s).ce else s.ce := apply_ite State.ce _ _ _

@[simp] theorem State.whenReleased_mes (s : State) (f : State → State) :
    (s.whenReleased f).mes = if s.released then (f s).mes else s.mes := apply_ite State.mes _ _ _

@[simp] theorem State.whenReleased_clusters (s : State) (f : State → State) :
    (s.whenReleased f).clusters = if s.released then (f s).clusters else s.clusters := apply_ite State.clusters _ _ _

@[simp] theorem State.whenReleased_dma (s : State) (f : State → State) :
    (s.whenReleased f).dma = if s.released then (f s).dma else s.dma := apply_ite State.dma _ _ _

@[simp] theorem State.whenReleased_sync (s : State) (f : State → State) :
    (s.whenReleased f).sync = if s.released then (f s).sync else s.sync := apply_ite State.sync _ _ _

@[simp] theorem State.whenReleased_fc (s : State) (f : State → State) :
    (s.whenReleased f).fc = if s.released then (f s).fc else s.fc := apply_ite State.fc _ _ _

@[simp] theorem State.whenReleased_graft (s : State) (f : State → State) :
    (s.whenReleased f).graft = if s.released then (f s).graft else s.graft := apply_ite State.graft _ _ _

@[simp] theorem State.whenReleased_sys (s : State) (f : State → State) :
    (s.whenReleased f).sys = if s.released then (f s).sys else s.sys := apply_ite State.sys _ _ _

@[simp] theorem State.whenReleased_host (s : State) (f : State → State) :
    (s.whenReleased f).host = if s.released then (f s).host else s.host := apply_ite State.host _ _ _

@[simp] theorem State.whenReleased_mgmt (s : State) (f : State → State) :
    (s.whenReleased f).mgmt = if s.released then (f s).mgmt else s.mgmt := apply_ite State.mgmt _ _ _

@[simp] theorem State.whenReleased_power (s : State) (f : State → State) :
    (s.whenReleased f).power = if s.released then (f s).power else s.power := apply_ite State.power _ _ _

@[simp] theorem State.graftMsg_frame (s : State) :
    (State.graftMsg s).now = s.now ∧ (State.graftMsg s).fresh = s.fresh ∧
      (State.graftMsg s).issued = s.issued ∧ (State.graftMsg s).finished = s.finished ∧
      (State.graftMsg s).cueQ = s.cueQ ∧ (State.graftMsg s).ports = s.ports ∧
      (State.graftMsg s).tact = s.tact ∧ (State.graftMsg s).score = s.score ∧
      (State.graftMsg s).esp = s.esp ∧ (State.graftMsg s).mem = s.mem ∧
      (State.graftMsg s).queues = s.queues ∧ (State.graftMsg s).rings = s.rings ∧
      (State.graftMsg s).lastIssued = s.lastIssued ∧ (State.graftMsg s).ce = s.ce ∧
      (State.graftMsg s).mes = s.mes ∧ (State.graftMsg s).clusters = s.clusters ∧
      (State.graftMsg s).dma = s.dma ∧ (State.graftMsg s).sync = s.sync ∧
      (State.graftMsg s).graft = s.graft ∧ (State.graftMsg s).sys = s.sys ∧
      (State.graftMsg s).power = s.power := by
  simp [State.graftMsg, apply_ite State.now, apply_ite State.fresh, apply_ite State.issued, apply_ite State.finished, apply_ite State.cueQ, apply_ite State.ports, apply_ite State.tact, apply_ite State.score, apply_ite State.esp, apply_ite State.mem, apply_ite State.queues, apply_ite State.rings, apply_ite State.lastIssued, apply_ite State.ce, apply_ite State.mes, apply_ite State.clusters, apply_ite State.dma, apply_ite State.sync, apply_ite State.graft, apply_ite State.sys, apply_ite State.power]

@[simp] theorem State.setUnitState_frame (s : State) (i : Nat) (st : UnitState) :
    (State.setUnitState s i st).now = s.now ∧ (State.setUnitState s i st).fresh = s.fresh ∧
      (State.setUnitState s i st).issued = s.issued ∧ (State.setUnitState s i st).finished = s.finished ∧
      (State.setUnitState s i st).cueQ = s.cueQ ∧ (State.setUnitState s i st).ports = s.ports ∧
      (State.setUnitState s i st).tact = s.tact ∧ (State.setUnitState s i st).score = s.score ∧
      (State.setUnitState s i st).esp = s.esp ∧ (State.setUnitState s i st).mem = s.mem ∧
      (State.setUnitState s i st).queues = s.queues ∧ (State.setUnitState s i st).rings = s.rings ∧
      (State.setUnitState s i st).lastIssued = s.lastIssued ∧ (State.setUnitState s i st).ce = s.ce ∧
      (State.setUnitState s i st).mes = s.mes ∧ (State.setUnitState s i st).clusters = s.clusters ∧
      (State.setUnitState s i st).dma = s.dma ∧ (State.setUnitState s i st).sync = s.sync ∧
      (State.setUnitState s i st).sys = s.sys ∧ (State.setUnitState s i st).power = s.power := by
  simp [State.setUnitState]

@[simp] theorem State.stopChan_frame (s : State) (ch : Nat) :
    (State.stopChan s ch).now = s.now ∧ (State.stopChan s ch).fresh = s.fresh ∧
      (State.stopChan s ch).issued = s.issued ∧ (State.stopChan s ch).finished = s.finished ∧
      (State.stopChan s ch).counters = s.counters ∧ (State.stopChan s ch).cueQ = s.cueQ ∧
      (State.stopChan s ch).ports = s.ports ∧ (State.stopChan s ch).tact = s.tact ∧
      (State.stopChan s ch).score = s.score ∧ (State.stopChan s ch).esp = s.esp ∧
      (State.stopChan s ch).mem = s.mem ∧ (State.stopChan s ch).queues = s.queues ∧
      (State.stopChan s ch).rings = s.rings ∧ (State.stopChan s ch).lastIssued = s.lastIssued ∧
      (State.stopChan s ch).ce = s.ce ∧ (State.stopChan s ch).mes = s.mes ∧
      (State.stopChan s ch).clusters = s.clusters ∧ (State.stopChan s ch).sync = s.sync ∧
      (State.stopChan s ch).fc = s.fc ∧ (State.stopChan s ch).graft = s.graft ∧
      (State.stopChan s ch).sys = s.sys ∧ (State.stopChan s ch).host = s.host ∧
      (State.stopChan s ch).mgmt = s.mgmt ∧ (State.stopChan s ch).power = s.power := by
  simp [State.stopChan, apply_ite State.now, apply_ite State.fresh, apply_ite State.issued, apply_ite State.finished, apply_ite State.counters, apply_ite State.cueQ, apply_ite State.ports, apply_ite State.tact, apply_ite State.score, apply_ite State.esp, apply_ite State.mem, apply_ite State.queues, apply_ite State.rings, apply_ite State.lastIssued, apply_ite State.ce, apply_ite State.mes, apply_ite State.clusters, apply_ite State.sync, apply_ite State.fc, apply_ite State.graft, apply_ite State.sys, apply_ite State.host, apply_ite State.mgmt, apply_ite State.power]

@[simp] theorem State.killCores_frame (s : State) (c : Nat) (sel : Nat → Bool) :
    (State.killCores s c sel).now = s.now ∧ (State.killCores s c sel).fresh = s.fresh ∧
      (State.killCores s c sel).issued = s.issued ∧ (State.killCores s c sel).finished = s.finished ∧
      (State.killCores s c sel).cueQ = s.cueQ ∧ (State.killCores s c sel).ports = s.ports ∧
      (State.killCores s c sel).tact = s.tact ∧ (State.killCores s c sel).score = s.score ∧
      (State.killCores s c sel).esp = s.esp ∧ (State.killCores s c sel).mem = s.mem ∧
      (State.killCores s c sel).queues = s.queues ∧ (State.killCores s c sel).rings = s.rings ∧
      (State.killCores s c sel).lastIssued = s.lastIssued ∧ (State.killCores s c sel).ce = s.ce ∧
      (State.killCores s c sel).mes = s.mes ∧ (State.killCores s c sel).dma = s.dma ∧
      (State.killCores s c sel).sync = s.sync ∧ (State.killCores s c sel).graft = s.graft ∧
      (State.killCores s c sel).sys = s.sys ∧ (State.killCores s c sel).power = s.power := by
  simp [State.killCores, apply_ite State.now, apply_ite State.fresh, apply_ite State.issued, apply_ite State.finished, apply_ite State.cueQ, apply_ite State.ports, apply_ite State.tact, apply_ite State.score, apply_ite State.esp, apply_ite State.mem, apply_ite State.queues, apply_ite State.rings, apply_ite State.lastIssued, apply_ite State.ce, apply_ite State.mes, apply_ite State.dma, apply_ite State.sync, apply_ite State.graft, apply_ite State.sys, apply_ite State.power]

@[simp] theorem State.resetCores_frame (s : State) (c : Nat) :
    (State.resetCores s c).now = s.now ∧ (State.resetCores s c).fresh = s.fresh ∧
      (State.resetCores s c).issued = s.issued ∧ (State.resetCores s c).finished = s.finished ∧
      (State.resetCores s c).cueQ = s.cueQ ∧ (State.resetCores s c).ports = s.ports ∧
      (State.resetCores s c).tact = s.tact ∧ (State.resetCores s c).score = s.score ∧
      (State.resetCores s c).esp = s.esp ∧ (State.resetCores s c).mem = s.mem ∧
      (State.resetCores s c).queues = s.queues ∧ (State.resetCores s c).rings = s.rings ∧
      (State.resetCores s c).lastIssued = s.lastIssued ∧ (State.resetCores s c).ce = s.ce ∧
      (State.resetCores s c).mes = s.mes ∧ (State.resetCores s c).dma = s.dma ∧
      (State.resetCores s c).sync = s.sync ∧ (State.resetCores s c).graft = s.graft ∧
      (State.resetCores s c).sys = s.sys ∧ (State.resetCores s c).power = s.power := by
  simp [State.resetCores]

@[simp] theorem State.stripCommand_frame (s : State) (q : Nat) (x : Inflight) :
    (State.stripCommand s q x).now = s.now ∧ (State.stripCommand s q x).fresh = s.fresh ∧
      (State.stripCommand s q x).issued = s.issued ∧ (State.stripCommand s q x).finished = s.finished ∧
      (State.stripCommand s q x).cueQ = s.cueQ ∧ (State.stripCommand s q x).ports = s.ports ∧
      (State.stripCommand s q x).tact = s.tact ∧ (State.stripCommand s q x).score = s.score ∧
      (State.stripCommand s q x).esp = s.esp ∧ (State.stripCommand s q x).mem = s.mem ∧
      (State.stripCommand s q x).queues = s.queues ∧ (State.stripCommand s q x).rings = s.rings ∧
      (State.stripCommand s q x).lastIssued = s.lastIssued ∧ (State.stripCommand s q x).mes = s.mes ∧
      (State.stripCommand s q x).sync = s.sync ∧ (State.stripCommand s q x).graft = s.graft ∧
      (State.stripCommand s q x).sys = s.sys ∧ (State.stripCommand s q x).power = s.power := by
  unfold State.stripCommand; dsimp only
  repeat' (split <;> try (rename_i h; obtain ⟨rfl, -⟩ := Prod.ext_iff.mp h))
  all_goals simp

@[simp] theorem State.cancelQueue_frame (s : State) (q : Nat) :
    (State.cancelQueue s q).now = s.now ∧ (State.cancelQueue s q).fresh = s.fresh ∧
      (State.cancelQueue s q).issued = s.issued ∧ (State.cancelQueue s q).cueQ = s.cueQ ∧
      (State.cancelQueue s q).ports = s.ports ∧ (State.cancelQueue s q).tact = s.tact ∧
      (State.cancelQueue s q).score = s.score ∧ (State.cancelQueue s q).esp = s.esp ∧
      (State.cancelQueue s q).rings = s.rings ∧ (State.cancelQueue s q).lastIssued = s.lastIssued ∧
      (State.cancelQueue s q).mes = s.mes ∧ (State.cancelQueue s q).graft = s.graft ∧
      (State.cancelQueue s q).sys = s.sys ∧ (State.cancelQueue s q).power = s.power := by
  simp [State.cancelQueue]

@[simp] theorem State.suspendQueue_frame (s : State) (q : Nat) :
    (State.suspendQueue s q).now = s.now ∧ (State.suspendQueue s q).fresh = s.fresh ∧
      (State.suspendQueue s q).issued = s.issued ∧ (State.suspendQueue s q).finished = s.finished ∧
      (State.suspendQueue s q).cueQ = s.cueQ ∧ (State.suspendQueue s q).ports = s.ports ∧
      (State.suspendQueue s q).tact = s.tact ∧ (State.suspendQueue s q).score = s.score ∧
      (State.suspendQueue s q).esp = s.esp ∧ (State.suspendQueue s q).rings = s.rings ∧
      (State.suspendQueue s q).lastIssued = s.lastIssued ∧ (State.suspendQueue s q).ce = s.ce ∧
      (State.suspendQueue s q).mes = s.mes ∧ (State.suspendQueue s q).clusters = s.clusters ∧
      (State.suspendQueue s q).dma = s.dma ∧ (State.suspendQueue s q).sync = s.sync ∧
      (State.suspendQueue s q).graft = s.graft ∧ (State.suspendQueue s q).sys = s.sys ∧
      (State.suspendQueue s q).power = s.power := by
  simp [State.suspendQueue, apply_ite State.now, apply_ite State.fresh, apply_ite State.issued, apply_ite State.finished, apply_ite State.cueQ, apply_ite State.ports, apply_ite State.tact, apply_ite State.score, apply_ite State.esp, apply_ite State.rings, apply_ite State.lastIssued, apply_ite State.ce, apply_ite State.mes, apply_ite State.clusters, apply_ite State.dma, apply_ite State.sync, apply_ite State.graft, apply_ite State.sys, apply_ite State.power]

@[simp] theorem State.unbackCxl_frame (s : State) (j : Nat) :
    (State.unbackCxl s j).now = s.now ∧ (State.unbackCxl s j).fresh = s.fresh ∧
      (State.unbackCxl s j).issued = s.issued ∧ (State.unbackCxl s j).finished = s.finished ∧
      (State.unbackCxl s j).counters = s.counters ∧ (State.unbackCxl s j).cueQ = s.cueQ ∧
      (State.unbackCxl s j).ports = s.ports ∧ (State.unbackCxl s j).tact = s.tact ∧
      (State.unbackCxl s j).score = s.score ∧ (State.unbackCxl s j).esp = s.esp ∧
      (State.unbackCxl s j).queues = s.queues ∧ (State.unbackCxl s j).rings = s.rings ∧
      (State.unbackCxl s j).lastIssued = s.lastIssued ∧ (State.unbackCxl s j).ce = s.ce ∧
      (State.unbackCxl s j).mes = s.mes ∧ (State.unbackCxl s j).clusters = s.clusters ∧
      (State.unbackCxl s j).dma = s.dma ∧ (State.unbackCxl s j).sync = s.sync ∧
      (State.unbackCxl s j).fc = s.fc ∧ (State.unbackCxl s j).graft = s.graft ∧
      (State.unbackCxl s j).sys = s.sys ∧ (State.unbackCxl s j).host = s.host ∧
      (State.unbackCxl s j).mgmt = s.mgmt ∧ (State.unbackCxl s j).power = s.power := by
  simp [State.unbackCxl]

@[simp] theorem State.drainWork_frame (s : State) (i : Nat) :
    (State.drainWork s i).now = s.now ∧ (State.drainWork s i).fresh = s.fresh ∧
      (State.drainWork s i).issued = s.issued ∧ (State.drainWork s i).cueQ = s.cueQ ∧
      (State.drainWork s i).ports = s.ports ∧ (State.drainWork s i).tact = s.tact ∧
      (State.drainWork s i).score = s.score ∧ (State.drainWork s i).esp = s.esp ∧
      (State.drainWork s i).rings = s.rings ∧ (State.drainWork s i).lastIssued = s.lastIssued ∧
      (State.drainWork s i).graft = s.graft ∧ (State.drainWork s i).sys = s.sys ∧
      (State.drainWork s i).power = s.power := by
  simp [State.drainWork, apply_ite State.now, apply_ite State.fresh, apply_ite State.issued, apply_ite State.cueQ, apply_ite State.ports, apply_ite State.tact, apply_ite State.score, apply_ite State.esp, apply_ite State.rings, apply_ite State.lastIssued, apply_ite State.graft, apply_ite State.sys, apply_ite State.power]

@[simp] theorem State.enterDrain_frame (s : State) (i : Nat) :
    (State.enterDrain s i).now = s.now ∧ (State.enterDrain s i).fresh = s.fresh ∧
      (State.enterDrain s i).issued = s.issued ∧ (State.enterDrain s i).cueQ = s.cueQ ∧
      (State.enterDrain s i).ports = s.ports ∧ (State.enterDrain s i).tact = s.tact ∧
      (State.enterDrain s i).score = s.score ∧ (State.enterDrain s i).esp = s.esp ∧
      (State.enterDrain s i).rings = s.rings ∧ (State.enterDrain s i).lastIssued = s.lastIssued ∧
      (State.enterDrain s i).sys = s.sys ∧ (State.enterDrain s i).power = s.power := by
  simp [State.enterDrain, apply_ite State.now, apply_ite State.fresh, apply_ite State.issued, apply_ite State.cueQ, apply_ite State.ports, apply_ite State.tact, apply_ite State.score, apply_ite State.esp, apply_ite State.rings, apply_ite State.lastIssued, apply_ite State.sys, apply_ite State.power]

@[simp] theorem State.gasp_frame (s : State) (det : Nat) (unit : UnitId) (safe : Bool) (powerLoss : Bool) :
    (State.gasp s det unit safe powerLoss).now = s.now ∧ (State.gasp s det unit safe powerLoss).fresh = s.fresh ∧
      (State.gasp s det unit safe powerLoss).issued = s.issued ∧ (State.gasp s det unit safe powerLoss).finished = s.finished ∧
      (State.gasp s det unit safe powerLoss).counters = s.counters ∧ (State.gasp s det unit safe powerLoss).cueQ = s.cueQ ∧
      (State.gasp s det unit safe powerLoss).ports = s.ports ∧ (State.gasp s det unit safe powerLoss).tact = s.tact ∧
      (State.gasp s det unit safe powerLoss).score = s.score ∧ (State.gasp s det unit safe powerLoss).esp = s.esp ∧
      (State.gasp s det unit safe powerLoss).mem = s.mem ∧ (State.gasp s det unit safe powerLoss).queues = s.queues ∧
      (State.gasp s det unit safe powerLoss).rings = s.rings ∧ (State.gasp s det unit safe powerLoss).lastIssued = s.lastIssued ∧
      (State.gasp s det unit safe powerLoss).ce = s.ce ∧ (State.gasp s det unit safe powerLoss).mes = s.mes ∧
      (State.gasp s det unit safe powerLoss).clusters = s.clusters ∧ (State.gasp s det unit safe powerLoss).dma = s.dma ∧
      (State.gasp s det unit safe powerLoss).sync = s.sync ∧ (State.gasp s det unit safe powerLoss).graft = s.graft ∧
      (State.gasp s det unit safe powerLoss).sys = s.sys ∧ (State.gasp s det unit safe powerLoss).host = s.host ∧
      (State.gasp s det unit safe powerLoss).mgmt = s.mgmt := by
  simp [State.gasp]

@[simp] theorem State.enterSafe_frame (s : State) (det : Nat) (unit : UnitId) :
    (State.enterSafe s det unit).now = s.now ∧ (State.enterSafe s det unit).fresh = s.fresh ∧
      (State.enterSafe s det unit).issued = s.issued ∧ (State.enterSafe s det unit).finished = s.finished ∧
      (State.enterSafe s det unit).cueQ = s.cueQ ∧ (State.enterSafe s det unit).score = s.score ∧
      (State.enterSafe s det unit).esp = s.esp ∧ (State.enterSafe s det unit).mem = s.mem ∧
      (State.enterSafe s det unit).queues = s.queues ∧ (State.enterSafe s det unit).rings = s.rings ∧
      (State.enterSafe s det unit).lastIssued = s.lastIssued ∧ (State.enterSafe s det unit).ce = s.ce ∧
      (State.enterSafe s det unit).mes = s.mes ∧ (State.enterSafe s det unit).clusters = s.clusters ∧
      (State.enterSafe s det unit).dma = s.dma ∧ (State.enterSafe s det unit).sync = s.sync ∧
      (State.enterSafe s det unit).graft = s.graft := by
  simp [State.enterSafe, apply_ite State.now, apply_ite State.fresh, apply_ite State.issued, apply_ite State.finished, apply_ite State.cueQ, apply_ite State.score, apply_ite State.esp, apply_ite State.mem, apply_ite State.queues, apply_ite State.rings, apply_ite State.lastIssued, apply_ite State.ce, apply_ite State.mes, apply_ite State.clusters, apply_ite State.dma, apply_ite State.sync, apply_ite State.graft]

@[simp] theorem State.raiseF_frame (s : State) (det : Nat) (unit : UnitId) (detail : Nat) :
    (State.raiseF s det unit detail).now = s.now ∧ (State.raiseF s det unit detail).fresh = s.fresh ∧
      (State.raiseF s det unit detail).issued = s.issued ∧ (State.raiseF s det unit detail).finished = s.finished ∧
      (State.raiseF s det unit detail).cueQ = s.cueQ ∧ (State.raiseF s det unit detail).score = s.score ∧
      (State.raiseF s det unit detail).esp = s.esp ∧ (State.raiseF s det unit detail).mem = s.mem ∧
      (State.raiseF s det unit detail).queues = s.queues ∧ (State.raiseF s det unit detail).rings = s.rings ∧
      (State.raiseF s det unit detail).lastIssued = s.lastIssued ∧ (State.raiseF s det unit detail).ce = s.ce ∧
      (State.raiseF s det unit detail).mes = s.mes ∧ (State.raiseF s det unit detail).clusters = s.clusters ∧
      (State.raiseF s det unit detail).dma = s.dma ∧ (State.raiseF s det unit detail).sync = s.sync ∧
      (State.raiseF s det unit detail).graft = s.graft := by
  simp [State.raiseF, apply_ite State.now, apply_ite State.fresh, apply_ite State.issued, apply_ite State.finished, apply_ite State.cueQ, apply_ite State.score, apply_ite State.esp, apply_ite State.mem, apply_ite State.queues, apply_ite State.rings, apply_ite State.lastIssued, apply_ite State.ce, apply_ite State.mes, apply_ite State.clusters, apply_ite State.dma, apply_ite State.sync, apply_ite State.graft]

@[simp] theorem State.resetQueues_frame (s : State) (i : Nat) :
    (State.resetQueues s i).now = s.now ∧ (State.resetQueues s i).fresh = s.fresh ∧
      (State.resetQueues s i).cueQ = s.cueQ ∧ (State.resetQueues s i).ports = s.ports ∧
      (State.resetQueues s i).tact = s.tact ∧ (State.resetQueues s i).score = s.score ∧
      (State.resetQueues s i).esp = s.esp ∧ (State.resetQueues s i).rings = s.rings ∧
      (State.resetQueues s i).mes = s.mes ∧ (State.resetQueues s i).graft = s.graft ∧
      (State.resetQueues s i).sys = s.sys ∧ (State.resetQueues s i).power = s.power := by
  simp [State.resetQueues]

@[simp] theorem State.resetBlock_frame (s : State) (i : Nat) :
    (State.resetBlock s i).now = s.now ∧ (State.resetBlock s i).cueQ = s.cueQ ∧
      (State.resetBlock s i).tact = s.tact ∧ (State.resetBlock s i).score = s.score ∧
      (State.resetBlock s i).esp = s.esp ∧ (State.resetBlock s i).rings = s.rings ∧
      (State.resetBlock s i).graft = s.graft ∧ (State.resetBlock s i).sys = s.sys ∧
      (State.resetBlock s i).power = s.power := by
  simp [State.resetBlock, apply_ite State.now, apply_ite State.cueQ, apply_ite State.tact, apply_ite State.score, apply_ite State.esp, apply_ite State.rings, apply_ite State.graft, apply_ite State.sys, apply_ite State.power]

@[simp] theorem State.markReset_frame (s : State) (i : Nat) :
    (State.markReset s i).now = s.now ∧ (State.markReset s i).fresh = s.fresh ∧
      (State.markReset s i).issued = s.issued ∧ (State.markReset s i).finished = s.finished ∧
      (State.markReset s i).counters = s.counters ∧ (State.markReset s i).cueQ = s.cueQ ∧
      (State.markReset s i).ports = s.ports ∧ (State.markReset s i).tact = s.tact ∧
      (State.markReset s i).score = s.score ∧ (State.markReset s i).esp = s.esp ∧
      (State.markReset s i).mem = s.mem ∧ (State.markReset s i).queues = s.queues ∧
      (State.markReset s i).rings = s.rings ∧ (State.markReset s i).lastIssued = s.lastIssued ∧
      (State.markReset s i).ce = s.ce ∧ (State.markReset s i).mes = s.mes ∧
      (State.markReset s i).clusters = s.clusters ∧ (State.markReset s i).dma = s.dma ∧
      (State.markReset s i).sync = s.sync ∧ (State.markReset s i).graft = s.graft ∧
      (State.markReset s i).sys = s.sys ∧ (State.markReset s i).host = s.host ∧
      (State.markReset s i).mgmt = s.mgmt ∧ (State.markReset s i).power = s.power := by
  simp [State.markReset]

@[simp] theorem State.blockReset_frame (s : State) (i : Nat) :
    (State.blockReset s i).now = s.now ∧ (State.blockReset s i).cueQ = s.cueQ ∧
      (State.blockReset s i).score = s.score ∧ (State.blockReset s i).esp = s.esp ∧
      (State.blockReset s i).rings = s.rings ∧ (State.blockReset s i).graft = s.graft := by
  simp [State.blockReset, apply_ite State.now, apply_ite State.cueQ, apply_ite State.score, apply_ite State.esp, apply_ite State.rings, apply_ite State.graft]

@[simp] theorem State.holdEffect_frame (s : State) (t : Nat) :
    (State.holdEffect s t).now = s.now ∧ (State.holdEffect s t).fresh = s.fresh ∧
      (State.holdEffect s t).issued = s.issued ∧ (State.holdEffect s t).cueQ = s.cueQ ∧
      (State.holdEffect s t).ports = s.ports ∧ (State.holdEffect s t).tact = s.tact ∧
      (State.holdEffect s t).score = s.score ∧ (State.holdEffect s t).esp = s.esp ∧
      (State.holdEffect s t).rings = s.rings ∧ (State.holdEffect s t).lastIssued = s.lastIssued ∧
      (State.holdEffect s t).sys = s.sys ∧ (State.holdEffect s t).power = s.power := by
  simp [State.holdEffect, apply_ite State.now, apply_ite State.fresh, apply_ite State.issued, apply_ite State.cueQ, apply_ite State.ports, apply_ite State.tact, apply_ite State.score, apply_ite State.esp, apply_ite State.rings, apply_ite State.lastIssued, apply_ite State.sys, apply_ite State.power]

@[simp] theorem State.raise_now (s : State) (det : Nat) (unit : UnitId) (tgt : Option Nat) (detail : Nat) (via : List Nat)
    (reset : Option Nat) (rest : State → State)
    (hr : ∀ s, (rest s).now = s.now) :
    (State.raise s det unit tgt detail via reset rest).now = s.now := by
  unfold State.raise
  split <;> (rename_i h; obtain ⟨rfl, -⟩ := Prod.ext_iff.mp h) <;> (try simp only [hr]) <;> (try split) <;> simp

@[simp] theorem State.raise_cueQ (s : State) (det : Nat) (unit : UnitId) (tgt : Option Nat) (detail : Nat) (via : List Nat)
    (reset : Option Nat) (rest : State → State)
    (hr : ∀ s, (rest s).cueQ = s.cueQ) :
    (State.raise s det unit tgt detail via reset rest).cueQ = s.cueQ := by
  unfold State.raise
  split <;> (rename_i h; obtain ⟨rfl, -⟩ := Prod.ext_iff.mp h) <;> (try simp only [hr]) <;> (try split) <;> simp

@[simp] theorem State.raise_score (s : State) (det : Nat) (unit : UnitId) (tgt : Option Nat) (detail : Nat) (via : List Nat)
    (reset : Option Nat) (rest : State → State)
    (hr : ∀ s, (rest s).score = s.score) :
    (State.raise s det unit tgt detail via reset rest).score = s.score := by
  unfold State.raise
  split <;> (rename_i h; obtain ⟨rfl, -⟩ := Prod.ext_iff.mp h) <;> (try simp only [hr]) <;> (try split) <;> simp

@[simp] theorem State.raise_esp (s : State) (det : Nat) (unit : UnitId) (tgt : Option Nat) (detail : Nat) (via : List Nat)
    (reset : Option Nat) (rest : State → State)
    (hr : ∀ s, (rest s).esp = s.esp) :
    (State.raise s det unit tgt detail via reset rest).esp = s.esp := by
  unfold State.raise
  split <;> (rename_i h; obtain ⟨rfl, -⟩ := Prod.ext_iff.mp h) <;> (try simp only [hr]) <;> (try split) <;> simp

@[simp] theorem State.raise_rings (s : State) (det : Nat) (unit : UnitId) (tgt : Option Nat) (detail : Nat) (via : List Nat)
    (reset : Option Nat) (rest : State → State)
    (hr : ∀ s, (rest s).rings = s.rings) :
    (State.raise s det unit tgt detail via reset rest).rings = s.rings := by
  unfold State.raise
  split <;> (rename_i h; obtain ⟨rfl, -⟩ := Prod.ext_iff.mp h) <;> (try simp only [hr]) <;> (try split) <;> simp

@[simp] theorem State.raiseOn_frame (s : State) (det : Nat) (unit : UnitId) (detail : Nat) :
    (State.raiseOn s det unit detail).now = s.now ∧ (State.raiseOn s det unit detail).cueQ = s.cueQ ∧
      (State.raiseOn s det unit detail).score = s.score ∧ (State.raiseOn s det unit detail).esp = s.esp ∧
      (State.raiseOn s det unit detail).rings = s.rings := by
  simp [State.raiseOn]

@[simp] theorem State.report_frame (s : State) (det : Nat) :
    (State.report s det).now = s.now ∧ (State.report s det).fresh = s.fresh ∧
      (State.report s det).issued = s.issued ∧ (State.report s det).finished = s.finished ∧
      (State.report s det).counters = s.counters ∧ (State.report s det).cueQ = s.cueQ ∧
      (State.report s det).ports = s.ports ∧ (State.report s det).tact = s.tact ∧
      (State.report s det).score = s.score ∧ (State.report s det).esp = s.esp ∧
      (State.report s det).mem = s.mem ∧ (State.report s det).queues = s.queues ∧
      (State.report s det).rings = s.rings ∧ (State.report s det).lastIssued = s.lastIssued ∧
      (State.report s det).ce = s.ce ∧ (State.report s det).mes = s.mes ∧
      (State.report s det).clusters = s.clusters ∧ (State.report s det).dma = s.dma ∧
      (State.report s det).sync = s.sync ∧ (State.report s det).fc = s.fc ∧
      (State.report s det).graft = s.graft ∧ (State.report s det).sys = s.sys ∧
      (State.report s det).host = s.host ∧ (State.report s det).power = s.power := by
  simp [State.report]

@[simp] theorem State.memFault_frame (s : State) (unit : UnitId) (det : Nat) (page : Nat) :
    (State.memFault s unit det page).now = s.now ∧ (State.memFault s unit det page).cueQ = s.cueQ ∧
      (State.memFault s unit det page).score = s.score ∧ (State.memFault s unit det page).esp = s.esp ∧
      (State.memFault s unit det page).rings = s.rings := by
  simp [State.memFault]

@[simp] theorem State.fetchFail_frame (s : State) (q : Nat) (idx : Word) (page : Nat) :
    (State.fetchFail s q idx page).now = s.now ∧ (State.fetchFail s q idx page).cueQ = s.cueQ ∧
      (State.fetchFail s q idx page).score = s.score ∧ (State.fetchFail s q idx page).esp = s.esp ∧
      (State.fetchFail s q idx page).rings = s.rings := by
  simp [State.fetchFail]

@[simp] theorem State.runHead_now (s : State) (q op : Nat) (check : State → BitVec 512 → Option (Nat × Nat))
    (run : State → Word → BitVec 512 → State)
    (hr : ∀ s i c, (run s i c).now = s.now) :
    (State.runHead s q op check run).now = s.now := by
  unfold State.runHead; (repeat' split) <;> simp [hr]

@[simp] theorem State.runHead_cueQ (s : State) (q op : Nat) (check : State → BitVec 512 → Option (Nat × Nat))
    (run : State → Word → BitVec 512 → State)
    (hr : ∀ s i c, (run s i c).cueQ = s.cueQ) :
    (State.runHead s q op check run).cueQ = s.cueQ := by
  unfold State.runHead; (repeat' split) <;> simp [hr]

@[simp] theorem State.runHead_score (s : State) (q op : Nat) (check : State → BitVec 512 → Option (Nat × Nat))
    (run : State → Word → BitVec 512 → State)
    (hr : ∀ s i c, (run s i c).score = s.score) :
    (State.runHead s q op check run).score = s.score := by
  unfold State.runHead; (repeat' split) <;> simp [hr]

@[simp] theorem State.runHead_esp (s : State) (q op : Nat) (check : State → BitVec 512 → Option (Nat × Nat))
    (run : State → Word → BitVec 512 → State)
    (hr : ∀ s i c, (run s i c).esp = s.esp) :
    (State.runHead s q op check run).esp = s.esp := by
  unfold State.runHead; (repeat' split) <;> simp [hr]

@[simp] theorem State.runHead_rings (s : State) (q op : Nat) (check : State → BitVec 512 → Option (Nat × Nat))
    (run : State → Word → BitVec 512 → State)
    (hr : ∀ s i c, (run s i c).rings = s.rings) :
    (State.runHead s q op check run).rings = s.rings := by
  unfold State.runHead; (repeat' split) <;> simp [hr]

@[simp] theorem State.completeOk_frame (s : State) (q : Nat) (idx : Word) (c : BitVec 512) :
    (State.completeOk s q idx c).now = s.now ∧ (State.completeOk s q idx c).fresh = s.fresh ∧
      (State.completeOk s q idx c).cueQ = s.cueQ ∧ (State.completeOk s q idx c).ports = s.ports ∧
      (State.completeOk s q idx c).tact = s.tact ∧ (State.completeOk s q idx c).score = s.score ∧
      (State.completeOk s q idx c).esp = s.esp ∧ (State.completeOk s q idx c).rings = s.rings ∧
      (State.completeOk s q idx c).ce = s.ce ∧ (State.completeOk s q idx c).mes = s.mes ∧
      (State.completeOk s q idx c).graft = s.graft ∧ (State.completeOk s q idx c).sys = s.sys ∧
      (State.completeOk s q idx c).power = s.power := by
  simp [State.completeOk]

@[simp] theorem State.ringMessage_frame (s : State) (r : Nat) :
    (State.ringMessage s r).now = s.now ∧ (State.ringMessage s r).fresh = s.fresh ∧
      (State.ringMessage s r).issued = s.issued ∧ (State.ringMessage s r).finished = s.finished ∧
      (State.ringMessage s r).cueQ = s.cueQ ∧ (State.ringMessage s r).ports = s.ports ∧
      (State.ringMessage s r).tact = s.tact ∧ (State.ringMessage s r).score = s.score ∧
      (State.ringMessage s r).esp = s.esp ∧ (State.ringMessage s r).mem = s.mem ∧
      (State.ringMessage s r).queues = s.queues ∧ (State.ringMessage s r).lastIssued = s.lastIssued ∧
      (State.ringMessage s r).ce = s.ce ∧ (State.ringMessage s r).mes = s.mes ∧
      (State.ringMessage s r).clusters = s.clusters ∧ (State.ringMessage s r).dma = s.dma ∧
      (State.ringMessage s r).sync = s.sync ∧ (State.ringMessage s r).graft = s.graft ∧
      (State.ringMessage s r).sys = s.sys ∧ (State.ringMessage s r).power = s.power := by
  simp [State.ringMessage]

@[simp] theorem State.recordAccepted_frame (s : State) (r : Nat) (force : Bool) :
    (State.recordAccepted s r force).now = s.now ∧ (State.recordAccepted s r force).fresh = s.fresh ∧
      (State.recordAccepted s r force).issued = s.issued ∧ (State.recordAccepted s r force).finished = s.finished ∧
      (State.recordAccepted s r force).cueQ = s.cueQ ∧ (State.recordAccepted s r force).ports = s.ports ∧
      (State.recordAccepted s r force).tact = s.tact ∧ (State.recordAccepted s r force).score = s.score ∧
      (State.recordAccepted s r force).esp = s.esp ∧ (State.recordAccepted s r force).mem = s.mem ∧
      (State.recordAccepted s r force).queues = s.queues ∧ (State.recordAccepted s r force).lastIssued = s.lastIssued ∧
      (State.recordAccepted s r force).ce = s.ce ∧ (State.recordAccepted s r force).mes = s.mes ∧
      (State.recordAccepted s r force).dma = s.dma ∧ (State.recordAccepted s r force).sync = s.sync ∧
      (State.recordAccepted s r force).graft = s.graft ∧ (State.recordAccepted s r force).sys = s.sys ∧
      (State.recordAccepted s r force).power = s.power := by
  simp [State.recordAccepted, apply_ite State.now, apply_ite State.fresh, apply_ite State.issued, apply_ite State.finished, apply_ite State.cueQ, apply_ite State.ports, apply_ite State.tact, apply_ite State.score, apply_ite State.esp, apply_ite State.mem, apply_ite State.queues, apply_ite State.lastIssued, apply_ite State.ce, apply_ite State.mes, apply_ite State.dma, apply_ite State.sync, apply_ite State.graft, apply_ite State.sys, apply_ite State.power]

@[simp] theorem State.writeRecord_frame (s : State) (q : Nat) (x : Inflight) (d : Done) (r : Nat) :
    (State.writeRecord s q x d r).now = s.now ∧ (State.writeRecord s q x d r).cueQ = s.cueQ ∧
      (State.writeRecord s q x d r).score = s.score ∧ (State.writeRecord s q x d r).esp = s.esp := by
  unfold State.writeRecord; dsimp only
  repeat' (split <;> try (rename_i h; obtain ⟨rfl, -⟩ := Prod.ext_iff.mp h))
  all_goals simp

@[simp] theorem State.resetDone_frame (s : State) (q : Nat) :
    (State.resetDone s q).now = s.now ∧ (State.resetDone s q).fresh = s.fresh ∧
      (State.resetDone s q).issued = s.issued ∧ (State.resetDone s q).finished = s.finished ∧
      (State.resetDone s q).cueQ = s.cueQ ∧ (State.resetDone s q).ports = s.ports ∧
      (State.resetDone s q).tact = s.tact ∧ (State.resetDone s q).score = s.score ∧
      (State.resetDone s q).esp = s.esp ∧ (State.resetDone s q).rings = s.rings ∧
      (State.resetDone s q).lastIssued = s.lastIssued ∧ (State.resetDone s q).ce = s.ce ∧
      (State.resetDone s q).mes = s.mes ∧ (State.resetDone s q).clusters = s.clusters ∧
      (State.resetDone s q).dma = s.dma ∧ (State.resetDone s q).sync = s.sync ∧
      (State.resetDone s q).graft = s.graft ∧ (State.resetDone s q).sys = s.sys ∧
      (State.resetDone s q).power = s.power := by
  simp [State.resetDone, apply_ite State.now, apply_ite State.fresh, apply_ite State.issued, apply_ite State.finished, apply_ite State.cueQ, apply_ite State.ports, apply_ite State.tact, apply_ite State.score, apply_ite State.esp, apply_ite State.rings, apply_ite State.lastIssued, apply_ite State.ce, apply_ite State.mes, apply_ite State.clusters, apply_ite State.dma, apply_ite State.sync, apply_ite State.graft, apply_ite State.sys, apply_ite State.power]

@[simp] theorem State.completeOne_frame (s : State) (q : Nat) (x : Inflight) (d : Done) :
    (State.completeOne s q x d).now = s.now ∧ (State.completeOne s q x d).cueQ = s.cueQ ∧
      (State.completeOne s q x d).score = s.score ∧ (State.completeOne s q x d).esp = s.esp := by
  simp [State.completeOne, apply_ite State.now, apply_ite State.cueQ, apply_ite State.score, apply_ite State.esp]

@[simp] theorem State.foreignBell_frame (s : State) (q : Nat) :
    (State.foreignBell s q).now = s.now ∧ (State.foreignBell s q).fresh = s.fresh ∧
      (State.foreignBell s q).issued = s.issued ∧ (State.foreignBell s q).finished = s.finished ∧
      (State.foreignBell s q).cueQ = s.cueQ ∧ (State.foreignBell s q).ports = s.ports ∧
      (State.foreignBell s q).tact = s.tact ∧ (State.foreignBell s q).score = s.score ∧
      (State.foreignBell s q).esp = s.esp ∧ (State.foreignBell s q).mem = s.mem ∧
      (State.foreignBell s q).rings = s.rings ∧ (State.foreignBell s q).lastIssued = s.lastIssued ∧
      (State.foreignBell s q).ce = s.ce ∧ (State.foreignBell s q).mes = s.mes ∧
      (State.foreignBell s q).clusters = s.clusters ∧ (State.foreignBell s q).dma = s.dma ∧
      (State.foreignBell s q).sync = s.sync ∧ (State.foreignBell s q).graft = s.graft ∧
      (State.foreignBell s q).sys = s.sys ∧ (State.foreignBell s q).power = s.power := by
  simp [State.foreignBell]

@[simp] theorem State.bell_frame (s : State) (q : Nat) (v : Word) (agent : Nat) :
    (State.bell s q v agent).now = s.now ∧ (State.bell s q v agent).cueQ = s.cueQ ∧
      (State.bell s q v agent).score = s.score ∧ (State.bell s q v agent).esp = s.esp ∧
      (State.bell s q v agent).rings = s.rings := by
  simp [State.bell, apply_ite State.now, apply_ite State.cueQ, apply_ite State.score, apply_ite State.esp, apply_ite State.rings]

@[simp] theorem State.refuseQueue_frame (s : State) (q : Nat) :
    (State.refuseQueue s q).now = s.now ∧ (State.refuseQueue s q).fresh = s.fresh ∧
      (State.refuseQueue s q).issued = s.issued ∧ (State.refuseQueue s q).finished = s.finished ∧
      (State.refuseQueue s q).cueQ = s.cueQ ∧ (State.refuseQueue s q).ports = s.ports ∧
      (State.refuseQueue s q).tact = s.tact ∧ (State.refuseQueue s q).score = s.score ∧
      (State.refuseQueue s q).esp = s.esp ∧ (State.refuseQueue s q).mem = s.mem ∧
      (State.refuseQueue s q).rings = s.rings ∧ (State.refuseQueue s q).lastIssued = s.lastIssued ∧
      (State.refuseQueue s q).ce = s.ce ∧ (State.refuseQueue s q).mes = s.mes ∧
      (State.refuseQueue s q).clusters = s.clusters ∧ (State.refuseQueue s q).dma = s.dma ∧
      (State.refuseQueue s q).sync = s.sync ∧ (State.refuseQueue s q).graft = s.graft ∧
      (State.refuseQueue s q).sys = s.sys ∧ (State.refuseQueue s q).power = s.power := by
  simp [State.refuseQueue]

@[simp] theorem State.badCtrl_frame (s : State) (q : Nat) :
    (State.badCtrl s q).now = s.now ∧ (State.badCtrl s q).fresh = s.fresh ∧
      (State.badCtrl s q).issued = s.issued ∧ (State.badCtrl s q).finished = s.finished ∧
      (State.badCtrl s q).cueQ = s.cueQ ∧ (State.badCtrl s q).ports = s.ports ∧
      (State.badCtrl s q).tact = s.tact ∧ (State.badCtrl s q).score = s.score ∧
      (State.badCtrl s q).esp = s.esp ∧ (State.badCtrl s q).mem = s.mem ∧
      (State.badCtrl s q).rings = s.rings ∧ (State.badCtrl s q).lastIssued = s.lastIssued ∧
      (State.badCtrl s q).ce = s.ce ∧ (State.badCtrl s q).mes = s.mes ∧
      (State.badCtrl s q).clusters = s.clusters ∧ (State.badCtrl s q).dma = s.dma ∧
      (State.badCtrl s q).sync = s.sync ∧ (State.badCtrl s q).graft = s.graft ∧
      (State.badCtrl s q).sys = s.sys ∧ (State.badCtrl s q).power = s.power := by
  simp [State.badCtrl]

@[simp] theorem State.spoilQueue_frame (s : State) (q : Nat) :
    (State.spoilQueue s q).now = s.now ∧ (State.spoilQueue s q).issued = s.issued ∧
      (State.spoilQueue s q).finished = s.finished ∧ (State.spoilQueue s q).counters = s.counters ∧
      (State.spoilQueue s q).cueQ = s.cueQ ∧ (State.spoilQueue s q).ports = s.ports ∧
      (State.spoilQueue s q).tact = s.tact ∧ (State.spoilQueue s q).score = s.score ∧
      (State.spoilQueue s q).esp = s.esp ∧ (State.spoilQueue s q).mem = s.mem ∧
      (State.spoilQueue s q).queues = s.queues ∧ (State.spoilQueue s q).rings = s.rings ∧
      (State.spoilQueue s q).lastIssued = s.lastIssued ∧ (State.spoilQueue s q).ce = s.ce ∧
      (State.spoilQueue s q).mes = s.mes ∧ (State.spoilQueue s q).clusters = s.clusters ∧
      (State.spoilQueue s q).dma = s.dma ∧ (State.spoilQueue s q).sync = s.sync ∧
      (State.spoilQueue s q).fc = s.fc ∧ (State.spoilQueue s q).graft = s.graft ∧
      (State.spoilQueue s q).sys = s.sys ∧ (State.spoilQueue s q).mgmt = s.mgmt ∧
      (State.spoilQueue s q).power = s.power := by
  simp [State.spoilQueue]

@[simp] theorem State.resetQueue_frame (s : State) (q : Nat) :
    (State.resetQueue s q).now = s.now ∧ (State.resetQueue s q).cueQ = s.cueQ ∧
      (State.resetQueue s q).ports = s.ports ∧ (State.resetQueue s q).tact = s.tact ∧
      (State.resetQueue s q).score = s.score ∧ (State.resetQueue s q).esp = s.esp ∧
      (State.resetQueue s q).rings = s.rings ∧ (State.resetQueue s q).mes = s.mes ∧
      (State.resetQueue s q).graft = s.graft ∧ (State.resetQueue s q).sys = s.sys ∧
      (State.resetQueue s q).power = s.power := by
  simp [State.resetQueue]

@[simp] theorem State.enableQueue_frame (s : State) (q : Nat) :
    (State.enableQueue s q).now = s.now ∧ (State.enableQueue s q).fresh = s.fresh ∧
      (State.enableQueue s q).issued = s.issued ∧ (State.enableQueue s q).finished = s.finished ∧
      (State.enableQueue s q).cueQ = s.cueQ ∧ (State.enableQueue s q).ports = s.ports ∧
      (State.enableQueue s q).tact = s.tact ∧ (State.enableQueue s q).score = s.score ∧
      (State.enableQueue s q).esp = s.esp ∧ (State.enableQueue s q).mem = s.mem ∧
      (State.enableQueue s q).rings = s.rings ∧ (State.enableQueue s q).lastIssued = s.lastIssued ∧
      (State.enableQueue s q).ce = s.ce ∧ (State.enableQueue s q).mes = s.mes ∧
      (State.enableQueue s q).clusters = s.clusters ∧ (State.enableQueue s q).dma = s.dma ∧
      (State.enableQueue s q).sync = s.sync ∧ (State.enableQueue s q).graft = s.graft ∧
      (State.enableQueue s q).sys = s.sys ∧ (State.enableQueue s q).power = s.power := by
  simp [State.enableQueue, apply_ite State.now, apply_ite State.fresh, apply_ite State.issued, apply_ite State.finished, apply_ite State.cueQ, apply_ite State.ports, apply_ite State.tact, apply_ite State.score, apply_ite State.esp, apply_ite State.mem, apply_ite State.rings, apply_ite State.lastIssued, apply_ite State.ce, apply_ite State.mes, apply_ite State.clusters, apply_ite State.dma, apply_ite State.sync, apply_ite State.graft, apply_ite State.sys, apply_ite State.power]

@[simp] theorem State.queueCtrl_frame (s : State) (q : Nat) (bit : Nat) :
    (State.queueCtrl s q bit).now = s.now ∧ (State.queueCtrl s q bit).cueQ = s.cueQ ∧
      (State.queueCtrl s q bit).ports = s.ports ∧ (State.queueCtrl s q bit).tact = s.tact ∧
      (State.queueCtrl s q bit).score = s.score ∧ (State.queueCtrl s q bit).esp = s.esp ∧
      (State.queueCtrl s q bit).rings = s.rings ∧ (State.queueCtrl s q bit).mes = s.mes ∧
      (State.queueCtrl s q bit).graft = s.graft ∧ (State.queueCtrl s q bit).sys = s.sys ∧
      (State.queueCtrl s q bit).power = s.power := by
  unfold State.queueCtrl; dsimp only
  repeat' (split <;> try (rename_i h; obtain ⟨rfl, -⟩ := Prod.ext_iff.mp h))
  all_goals simp

@[simp] theorem State.writeQCtrl_frame (s : State) (q : Nat) (v : Nat) :
    (State.writeQCtrl s q v).now = s.now ∧ (State.writeQCtrl s q v).cueQ = s.cueQ ∧
      (State.writeQCtrl s q v).ports = s.ports ∧ (State.writeQCtrl s q v).tact = s.tact ∧
      (State.writeQCtrl s q v).score = s.score ∧ (State.writeQCtrl s q v).esp = s.esp ∧
      (State.writeQCtrl s q v).rings = s.rings ∧ (State.writeQCtrl s q v).mes = s.mes ∧
      (State.writeQCtrl s q v).graft = s.graft ∧ (State.writeQCtrl s q v).sys = s.sys ∧
      (State.writeQCtrl s q v).power = s.power := by
  unfold State.writeQCtrl; dsimp only
  repeat' (split <;> try (rename_i h; obtain ⟨rfl, -⟩ := Prod.ext_iff.mp h))
  all_goals simp

@[simp] theorem State.endTimeHead_frame (s : State) (q : Nat) :
    (State.endTimeHead s q).now = s.now ∧ (State.endTimeHead s q).fresh = s.fresh ∧
      (State.endTimeHead s q).cueQ = s.cueQ ∧ (State.endTimeHead s q).ports = s.ports ∧
      (State.endTimeHead s q).tact = s.tact ∧ (State.endTimeHead s q).score = s.score ∧
      (State.endTimeHead s q).esp = s.esp ∧ (State.endTimeHead s q).rings = s.rings ∧
      (State.endTimeHead s q).ce = s.ce ∧ (State.endTimeHead s q).mes = s.mes ∧
      (State.endTimeHead s q).graft = s.graft ∧ (State.endTimeHead s q).sys = s.sys ∧
      (State.endTimeHead s q).power = s.power := by
  unfold State.endTimeHead; dsimp only
  repeat' (split <;> try (rename_i h; obtain ⟨rfl, -⟩ := Prod.ext_iff.mp h))
  all_goals simp

@[simp] theorem State.leaveChorus_frame (s : State) :
    (State.leaveChorus s).now = s.now ∧ (State.leaveChorus s).fresh = s.fresh ∧
      (State.leaveChorus s).cueQ = s.cueQ ∧ (State.leaveChorus s).esp = s.esp ∧
      (State.leaveChorus s).rings = s.rings ∧ (State.leaveChorus s).ce = s.ce ∧
      (State.leaveChorus s).mes = s.mes ∧ (State.leaveChorus s).power = s.power := by
  unfold State.leaveChorus
  (repeat' split) <;> simp

@[simp] theorem State.stepOut_frame (s : State) (det : Nat) (detail : Nat) :
    (State.stepOut s det detail).now = s.now ∧ (State.stepOut s det detail).cueQ = s.cueQ ∧
      (State.stepOut s det detail).esp = s.esp ∧ (State.stepOut s det detail).rings = s.rings := by
  unfold State.stepOut
  (repeat' split) <;> simp

@[simp] theorem State.enterHoldover_frame (s : State) :
    (State.enterHoldover s).now = s.now ∧ (State.enterHoldover s).fresh = s.fresh ∧
      (State.enterHoldover s).issued = s.issued ∧ (State.enterHoldover s).finished = s.finished ∧
      (State.enterHoldover s).cueQ = s.cueQ ∧ (State.enterHoldover s).ports = s.ports ∧
      (State.enterHoldover s).score = s.score ∧ (State.enterHoldover s).esp = s.esp ∧
      (State.enterHoldover s).mem = s.mem ∧ (State.enterHoldover s).queues = s.queues ∧
      (State.enterHoldover s).rings = s.rings ∧ (State.enterHoldover s).lastIssued = s.lastIssued ∧
      (State.enterHoldover s).ce = s.ce ∧ (State.enterHoldover s).mes = s.mes ∧
      (State.enterHoldover s).clusters = s.clusters ∧ (State.enterHoldover s).dma = s.dma ∧
      (State.enterHoldover s).sync = s.sync ∧ (State.enterHoldover s).graft = s.graft ∧
      (State.enterHoldover s).sys = s.sys ∧ (State.enterHoldover s).power = s.power := by
  unfold State.enterHoldover
  (repeat' split) <;> simp

@[simp] theorem State.lockAt_frame (s : State) (st : Stamp) (depth : Nat) (srcHoldover : Bool) :
    (State.lockAt s st depth srcHoldover).now = s.now ∧ (State.lockAt s st depth srcHoldover).fresh = s.fresh ∧
      (State.lockAt s st depth srcHoldover).issued = s.issued ∧ (State.lockAt s st depth srcHoldover).finished = s.finished ∧
      (State.lockAt s st depth srcHoldover).counters = s.counters ∧ (State.lockAt s st depth srcHoldover).cueQ = s.cueQ ∧
      (State.lockAt s st depth srcHoldover).ports = s.ports ∧ (State.lockAt s st depth srcHoldover).score = s.score ∧
      (State.lockAt s st depth srcHoldover).esp = s.esp ∧ (State.lockAt s st depth srcHoldover).mem = s.mem ∧
      (State.lockAt s st depth srcHoldover).queues = s.queues ∧ (State.lockAt s st depth srcHoldover).rings = s.rings ∧
      (State.lockAt s st depth srcHoldover).lastIssued = s.lastIssued ∧ (State.lockAt s st depth srcHoldover).ce = s.ce ∧
      (State.lockAt s st depth srcHoldover).mes = s.mes ∧ (State.lockAt s st depth srcHoldover).clusters = s.clusters ∧
      (State.lockAt s st depth srcHoldover).dma = s.dma ∧ (State.lockAt s st depth srcHoldover).sync = s.sync ∧
      (State.lockAt s st depth srcHoldover).fc = s.fc ∧ (State.lockAt s st depth srcHoldover).graft = s.graft ∧
      (State.lockAt s st depth srcHoldover).sys = s.sys ∧ (State.lockAt s st depth srcHoldover).host = s.host ∧
      (State.lockAt s st depth srcHoldover).mgmt = s.mgmt ∧ (State.lockAt s st depth srcHoldover).power = s.power := by
  simp [State.lockAt]

@[simp] theorem State.backToLock_frame (s : State) (diff : Int) (depth : Nat) (srcHoldover : Bool) :
    (State.backToLock s diff depth srcHoldover).now = s.now ∧ (State.backToLock s diff depth srcHoldover).fresh = s.fresh ∧
      (State.backToLock s diff depth srcHoldover).issued = s.issued ∧ (State.backToLock s diff depth srcHoldover).finished = s.finished ∧
      (State.backToLock s diff depth srcHoldover).counters = s.counters ∧ (State.backToLock s diff depth srcHoldover).cueQ = s.cueQ ∧
      (State.backToLock s diff depth srcHoldover).ports = s.ports ∧ (State.backToLock s diff depth srcHoldover).score = s.score ∧
      (State.backToLock s diff depth srcHoldover).esp = s.esp ∧ (State.backToLock s diff depth srcHoldover).mem = s.mem ∧
      (State.backToLock s diff depth srcHoldover).queues = s.queues ∧ (State.backToLock s diff depth srcHoldover).rings = s.rings ∧
      (State.backToLock s diff depth srcHoldover).lastIssued = s.lastIssued ∧ (State.backToLock s diff depth srcHoldover).ce = s.ce ∧
      (State.backToLock s diff depth srcHoldover).mes = s.mes ∧ (State.backToLock s diff depth srcHoldover).clusters = s.clusters ∧
      (State.backToLock s diff depth srcHoldover).dma = s.dma ∧ (State.backToLock s diff depth srcHoldover).sync = s.sync ∧
      (State.backToLock s diff depth srcHoldover).fc = s.fc ∧ (State.backToLock s diff depth srcHoldover).graft = s.graft ∧
      (State.backToLock s diff depth srcHoldover).sys = s.sys ∧ (State.backToLock s diff depth srcHoldover).host = s.host ∧
      (State.backToLock s diff depth srcHoldover).mgmt = s.mgmt ∧ (State.backToLock s diff depth srcHoldover).power = s.power := by
  simp [State.backToLock]

@[simp] theorem State.acquire_frame (s : State) :
    (State.acquire s).now = s.now ∧ (State.acquire s).fresh = s.fresh ∧
      (State.acquire s).issued = s.issued ∧ (State.acquire s).finished = s.finished ∧
      (State.acquire s).counters = s.counters ∧ (State.acquire s).cueQ = s.cueQ ∧
      (State.acquire s).ports = s.ports ∧ (State.acquire s).score = s.score ∧
      (State.acquire s).esp = s.esp ∧ (State.acquire s).mem = s.mem ∧
      (State.acquire s).queues = s.queues ∧ (State.acquire s).rings = s.rings ∧
      (State.acquire s).lastIssued = s.lastIssued ∧ (State.acquire s).ce = s.ce ∧
      (State.acquire s).mes = s.mes ∧ (State.acquire s).clusters = s.clusters ∧
      (State.acquire s).dma = s.dma ∧ (State.acquire s).sync = s.sync ∧
      (State.acquire s).fc = s.fc ∧ (State.acquire s).graft = s.graft ∧
      (State.acquire s).sys = s.sys ∧ (State.acquire s).host = s.host ∧
      (State.acquire s).mgmt = s.mgmt ∧ (State.acquire s).power = s.power := by
  simp [State.acquire]

@[simp] theorem State.useBackup_frame (s : State) :
    (State.useBackup s).now = s.now ∧ (State.useBackup s).fresh = s.fresh ∧
      (State.useBackup s).issued = s.issued ∧ (State.useBackup s).finished = s.finished ∧
      (State.useBackup s).counters = s.counters ∧ (State.useBackup s).cueQ = s.cueQ ∧
      (State.useBackup s).ports = s.ports ∧ (State.useBackup s).score = s.score ∧
      (State.useBackup s).esp = s.esp ∧ (State.useBackup s).mem = s.mem ∧
      (State.useBackup s).queues = s.queues ∧ (State.useBackup s).rings = s.rings ∧
      (State.useBackup s).lastIssued = s.lastIssued ∧ (State.useBackup s).ce = s.ce ∧
      (State.useBackup s).mes = s.mes ∧ (State.useBackup s).clusters = s.clusters ∧
      (State.useBackup s).dma = s.dma ∧ (State.useBackup s).sync = s.sync ∧
      (State.useBackup s).fc = s.fc ∧ (State.useBackup s).graft = s.graft ∧
      (State.useBackup s).sys = s.sys ∧ (State.useBackup s).host = s.host ∧
      (State.useBackup s).mgmt = s.mgmt ∧ (State.useBackup s).power = s.power := by
  simp [State.useBackup]

@[simp] theorem State.returnCheck_frame (s : State) :
    (State.returnCheck s).1.now = s.now ∧ (State.returnCheck s).1.fresh = s.fresh ∧
      (State.returnCheck s).1.issued = s.issued ∧ (State.returnCheck s).1.finished = s.finished ∧
      (State.returnCheck s).1.counters = s.counters ∧ (State.returnCheck s).1.cueQ = s.cueQ ∧
      (State.returnCheck s).1.ports = s.ports ∧ (State.returnCheck s).1.score = s.score ∧
      (State.returnCheck s).1.esp = s.esp ∧ (State.returnCheck s).1.mem = s.mem ∧
      (State.returnCheck s).1.queues = s.queues ∧ (State.returnCheck s).1.rings = s.rings ∧
      (State.returnCheck s).1.lastIssued = s.lastIssued ∧ (State.returnCheck s).1.ce = s.ce ∧
      (State.returnCheck s).1.mes = s.mes ∧ (State.returnCheck s).1.clusters = s.clusters ∧
      (State.returnCheck s).1.dma = s.dma ∧ (State.returnCheck s).1.sync = s.sync ∧
      (State.returnCheck s).1.fc = s.fc ∧ (State.returnCheck s).1.graft = s.graft ∧
      (State.returnCheck s).1.sys = s.sys ∧ (State.returnCheck s).1.host = s.host ∧
      (State.returnCheck s).1.mgmt = s.mgmt ∧ (State.returnCheck s).1.power = s.power := by
  unfold State.returnCheck; dsimp only
  repeat' (split <;> try (rename_i h; obtain ⟨rfl, -⟩ := Prod.ext_iff.mp h))
  all_goals simp

@[simp] theorem State.returnLock_frame (s : State) :
    (State.returnLock s).now = s.now ∧ (State.returnLock s).fresh = s.fresh ∧
      (State.returnLock s).issued = s.issued ∧ (State.returnLock s).finished = s.finished ∧
      (State.returnLock s).counters = s.counters ∧ (State.returnLock s).cueQ = s.cueQ ∧
      (State.returnLock s).ports = s.ports ∧ (State.returnLock s).score = s.score ∧
      (State.returnLock s).esp = s.esp ∧ (State.returnLock s).mem = s.mem ∧
      (State.returnLock s).queues = s.queues ∧ (State.returnLock s).rings = s.rings ∧
      (State.returnLock s).lastIssued = s.lastIssued ∧ (State.returnLock s).ce = s.ce ∧
      (State.returnLock s).mes = s.mes ∧ (State.returnLock s).clusters = s.clusters ∧
      (State.returnLock s).dma = s.dma ∧ (State.returnLock s).sync = s.sync ∧
      (State.returnLock s).fc = s.fc ∧ (State.returnLock s).graft = s.graft ∧
      (State.returnLock s).sys = s.sys ∧ (State.returnLock s).host = s.host ∧
      (State.returnLock s).mgmt = s.mgmt ∧ (State.returnLock s).power = s.power := by
  unfold State.returnLock
  (repeat' split) <;> simp

@[simp] theorem State.holdoverDownbeat_frame (s : State) :
    (State.holdoverDownbeat s).now = s.now ∧ (State.holdoverDownbeat s).cueQ = s.cueQ ∧
      (State.holdoverDownbeat s).esp = s.esp ∧ (State.holdoverDownbeat s).rings = s.rings := by
  unfold State.holdoverDownbeat; dsimp only
  repeat' (split <;> try (rename_i h; obtain ⟨rfl, -⟩ := Prod.ext_iff.mp h))
  all_goals simp

@[simp] theorem State.acquiringDownbeat_frame (s : State) :
    (State.acquiringDownbeat s).now = s.now ∧ (State.acquiringDownbeat s).fresh = s.fresh ∧
      (State.acquiringDownbeat s).issued = s.issued ∧ (State.acquiringDownbeat s).finished = s.finished ∧
      (State.acquiringDownbeat s).counters = s.counters ∧ (State.acquiringDownbeat s).cueQ = s.cueQ ∧
      (State.acquiringDownbeat s).ports = s.ports ∧ (State.acquiringDownbeat s).score = s.score ∧
      (State.acquiringDownbeat s).esp = s.esp ∧ (State.acquiringDownbeat s).mem = s.mem ∧
      (State.acquiringDownbeat s).queues = s.queues ∧ (State.acquiringDownbeat s).rings = s.rings ∧
      (State.acquiringDownbeat s).lastIssued = s.lastIssued ∧ (State.acquiringDownbeat s).ce = s.ce ∧
      (State.acquiringDownbeat s).mes = s.mes ∧ (State.acquiringDownbeat s).clusters = s.clusters ∧
      (State.acquiringDownbeat s).dma = s.dma ∧ (State.acquiringDownbeat s).sync = s.sync ∧
      (State.acquiringDownbeat s).fc = s.fc ∧ (State.acquiringDownbeat s).graft = s.graft ∧
      (State.acquiringDownbeat s).sys = s.sys ∧ (State.acquiringDownbeat s).host = s.host ∧
      (State.acquiringDownbeat s).mgmt = s.mgmt ∧ (State.acquiringDownbeat s).power = s.power := by
  unfold State.acquiringDownbeat
  (repeat' split) <;> simp

@[simp] theorem State.lockedDownbeat_frame (s : State) :
    (State.lockedDownbeat s).now = s.now ∧ (State.lockedDownbeat s).cueQ = s.cueQ ∧
      (State.lockedDownbeat s).esp = s.esp ∧ (State.lockedDownbeat s).rings = s.rings := by
  simp [State.lockedDownbeat, apply_ite State.now, apply_ite State.cueQ, apply_ite State.esp, apply_ite State.rings]

@[simp] theorem State.missingFrame_frame (s : State) :
    (State.missingFrame s).now = s.now ∧ (State.missingFrame s).fresh = s.fresh ∧
      (State.missingFrame s).issued = s.issued ∧ (State.missingFrame s).finished = s.finished ∧
      (State.missingFrame s).cueQ = s.cueQ ∧ (State.missingFrame s).ports = s.ports ∧
      (State.missingFrame s).score = s.score ∧ (State.missingFrame s).esp = s.esp ∧
      (State.missingFrame s).mem = s.mem ∧ (State.missingFrame s).queues = s.queues ∧
      (State.missingFrame s).rings = s.rings ∧ (State.missingFrame s).lastIssued = s.lastIssued ∧
      (State.missingFrame s).ce = s.ce ∧ (State.missingFrame s).mes = s.mes ∧
      (State.missingFrame s).clusters = s.clusters ∧ (State.missingFrame s).dma = s.dma ∧
      (State.missingFrame s).sync = s.sync ∧ (State.missingFrame s).graft = s.graft ∧
      (State.missingFrame s).sys = s.sys ∧ (State.missingFrame s).power = s.power := by
  simp [State.missingFrame, apply_ite State.now, apply_ite State.fresh, apply_ite State.issued, apply_ite State.finished, apply_ite State.cueQ, apply_ite State.ports, apply_ite State.score, apply_ite State.esp, apply_ite State.mem, apply_ite State.queues, apply_ite State.rings, apply_ite State.lastIssued, apply_ite State.ce, apply_ite State.mes, apply_ite State.clusters, apply_ite State.dma, apply_ite State.sync, apply_ite State.graft, apply_ite State.sys, apply_ite State.power]

@[simp] theorem State.refDownbeat_frame (s : State) :
    (State.refDownbeat s).now = s.now ∧ (State.refDownbeat s).issued = s.issued ∧
      (State.refDownbeat s).finished = s.finished ∧ (State.refDownbeat s).counters = s.counters ∧
      (State.refDownbeat s).cueQ = s.cueQ ∧ (State.refDownbeat s).ports = s.ports ∧
      (State.refDownbeat s).score = s.score ∧ (State.refDownbeat s).esp = s.esp ∧
      (State.refDownbeat s).mem = s.mem ∧ (State.refDownbeat s).queues = s.queues ∧
      (State.refDownbeat s).rings = s.rings ∧ (State.refDownbeat s).lastIssued = s.lastIssued ∧
      (State.refDownbeat s).ce = s.ce ∧ (State.refDownbeat s).mes = s.mes ∧
      (State.refDownbeat s).clusters = s.clusters ∧ (State.refDownbeat s).dma = s.dma ∧
      (State.refDownbeat s).sync = s.sync ∧ (State.refDownbeat s).fc = s.fc ∧
      (State.refDownbeat s).graft = s.graft ∧ (State.refDownbeat s).sys = s.sys ∧
      (State.refDownbeat s).host = s.host ∧ (State.refDownbeat s).mgmt = s.mgmt ∧
      (State.refDownbeat s).power = s.power := by
  simp [State.refDownbeat]

@[simp] theorem State.tactDownbeat_frame (s : State) :
    (State.tactDownbeat s).now = s.now ∧ (State.tactDownbeat s).cueQ = s.cueQ ∧
      (State.tactDownbeat s).esp = s.esp ∧ (State.tactDownbeat s).rings = s.rings := by
  unfold State.tactDownbeat; dsimp only
  repeat' (split <;> try (rename_i h; obtain ⟨rfl, -⟩ := Prod.ext_iff.mp h))
  all_goals simp

@[simp] theorem State.enqueueCue_frame (s : State) (key : Nat) (relayed : Bool) (c : Cue) :
    (State.enqueueCue s key relayed c).now = s.now ∧ (State.enqueueCue s key relayed c).fresh = s.fresh ∧
      (State.enqueueCue s key relayed c).issued = s.issued ∧ (State.enqueueCue s key relayed c).finished = s.finished ∧
      (State.enqueueCue s key relayed c).counters = s.counters ∧ (State.enqueueCue s key relayed c).ports = s.ports ∧
      (State.enqueueCue s key relayed c).tact = s.tact ∧ (State.enqueueCue s key relayed c).score = s.score ∧
      (State.enqueueCue s key relayed c).esp = s.esp ∧ (State.enqueueCue s key relayed c).mem = s.mem ∧
      (State.enqueueCue s key relayed c).queues = s.queues ∧ (State.enqueueCue s key relayed c).rings = s.rings ∧
      (State.enqueueCue s key relayed c).lastIssued = s.lastIssued ∧ (State.enqueueCue s key relayed c).ce = s.ce ∧
      (State.enqueueCue s key relayed c).mes = s.mes ∧ (State.enqueueCue s key relayed c).clusters = s.clusters ∧
      (State.enqueueCue s key relayed c).dma = s.dma ∧ (State.enqueueCue s key relayed c).sync = s.sync ∧
      (State.enqueueCue s key relayed c).fc = s.fc ∧ (State.enqueueCue s key relayed c).graft = s.graft ∧
      (State.enqueueCue s key relayed c).sys = s.sys ∧ (State.enqueueCue s key relayed c).host = s.host ∧
      (State.enqueueCue s key relayed c).mgmt = s.mgmt ∧ (State.enqueueCue s key relayed c).power = s.power := by
  simp [State.enqueueCue]

@[simp] theorem State.useSeq_frame (s : State) (remote : Bool) (dest : Nat) :
    (State.useSeq s remote dest).now = s.now ∧ (State.useSeq s remote dest).fresh = s.fresh ∧
      (State.useSeq s remote dest).issued = s.issued ∧ (State.useSeq s remote dest).finished = s.finished ∧
      (State.useSeq s remote dest).counters = s.counters ∧ (State.useSeq s remote dest).cueQ = s.cueQ ∧
      (State.useSeq s remote dest).ports = s.ports ∧ (State.useSeq s remote dest).tact = s.tact ∧
      (State.useSeq s remote dest).score = s.score ∧ (State.useSeq s remote dest).esp = s.esp ∧
      (State.useSeq s remote dest).mem = s.mem ∧ (State.useSeq s remote dest).queues = s.queues ∧
      (State.useSeq s remote dest).rings = s.rings ∧ (State.useSeq s remote dest).lastIssued = s.lastIssued ∧
      (State.useSeq s remote dest).ce = s.ce ∧ (State.useSeq s remote dest).mes = s.mes ∧
      (State.useSeq s remote dest).clusters = s.clusters ∧ (State.useSeq s remote dest).dma = s.dma ∧
      (State.useSeq s remote dest).fc = s.fc ∧ (State.useSeq s remote dest).graft = s.graft ∧
      (State.useSeq s remote dest).sys = s.sys ∧ (State.useSeq s remote dest).host = s.host ∧
      (State.useSeq s remote dest).mgmt = s.mgmt ∧ (State.useSeq s remote dest).power = s.power := by
  simp [State.useSeq, apply_ite State.now, apply_ite State.fresh, apply_ite State.issued, apply_ite State.finished, apply_ite State.counters, apply_ite State.cueQ, apply_ite State.ports, apply_ite State.tact, apply_ite State.score, apply_ite State.esp, apply_ite State.mem, apply_ite State.queues, apply_ite State.rings, apply_ite State.lastIssued, apply_ite State.ce, apply_ite State.mes, apply_ite State.clusters, apply_ite State.dma, apply_ite State.fc, apply_ite State.graft, apply_ite State.sys, apply_ite State.host, apply_ite State.mgmt, apply_ite State.power]

@[simp] theorem State.numberCue_frame (s : State) (key : Nat) (c : Cue) :
    (State.numberCue s key c).1.now = s.now ∧ (State.numberCue s key c).1.fresh = s.fresh ∧
      (State.numberCue s key c).1.issued = s.issued ∧ (State.numberCue s key c).1.finished = s.finished ∧
      (State.numberCue s key c).1.counters = s.counters ∧ (State.numberCue s key c).1.cueQ = s.cueQ ∧
      (State.numberCue s key c).1.ports = s.ports ∧ (State.numberCue s key c).1.tact = s.tact ∧
      (State.numberCue s key c).1.score = s.score ∧ (State.numberCue s key c).1.esp = s.esp ∧
      (State.numberCue s key c).1.mem = s.mem ∧ (State.numberCue s key c).1.queues = s.queues ∧
      (State.numberCue s key c).1.rings = s.rings ∧ (State.numberCue s key c).1.lastIssued = s.lastIssued ∧
      (State.numberCue s key c).1.ce = s.ce ∧ (State.numberCue s key c).1.mes = s.mes ∧
      (State.numberCue s key c).1.clusters = s.clusters ∧ (State.numberCue s key c).1.dma = s.dma ∧
      (State.numberCue s key c).1.fc = s.fc ∧ (State.numberCue s key c).1.graft = s.graft ∧
      (State.numberCue s key c).1.sys = s.sys ∧ (State.numberCue s key c).1.host = s.host ∧
      (State.numberCue s key c).1.mgmt = s.mgmt ∧ (State.numberCue s key c).1.power = s.power := by
  simp [State.numberCue]

@[simp] theorem State.originate_frame (s : State) (key : Nat) (c : Cue) :
    (State.originate s key c).1.now = s.now ∧ (State.originate s key c).1.fresh = s.fresh ∧
      (State.originate s key c).1.issued = s.issued ∧ (State.originate s key c).1.finished = s.finished ∧
      (State.originate s key c).1.counters = s.counters ∧ (State.originate s key c).1.ports = s.ports ∧
      (State.originate s key c).1.tact = s.tact ∧ (State.originate s key c).1.score = s.score ∧
      (State.originate s key c).1.esp = s.esp ∧ (State.originate s key c).1.mem = s.mem ∧
      (State.originate s key c).1.queues = s.queues ∧ (State.originate s key c).1.rings = s.rings ∧
      (State.originate s key c).1.lastIssued = s.lastIssued ∧ (State.originate s key c).1.ce = s.ce ∧
      (State.originate s key c).1.mes = s.mes ∧ (State.originate s key c).1.clusters = s.clusters ∧
      (State.originate s key c).1.dma = s.dma ∧ (State.originate s key c).1.fc = s.fc ∧
      (State.originate s key c).1.graft = s.graft ∧ (State.originate s key c).1.sys = s.sys ∧
      (State.originate s key c).1.host = s.host ∧ (State.originate s key c).1.mgmt = s.mgmt ∧
      (State.originate s key c).1.power = s.power := by
  unfold State.originate
  (repeat' split) <;> simp

@[simp] theorem State.tellNeighbour_frame (s : State) (p : Nat) (typ : Nat) (body : List Byte) :
    (State.tellNeighbour s p typ body).now = s.now ∧ (State.tellNeighbour s p typ body).fresh = s.fresh ∧
      (State.tellNeighbour s p typ body).issued = s.issued ∧ (State.tellNeighbour s p typ body).finished = s.finished ∧
      (State.tellNeighbour s p typ body).counters = s.counters ∧ (State.tellNeighbour s p typ body).ports = s.ports ∧
      (State.tellNeighbour s p typ body).tact = s.tact ∧ (State.tellNeighbour s p typ body).score = s.score ∧
      (State.tellNeighbour s p typ body).esp = s.esp ∧ (State.tellNeighbour s p typ body).mem = s.mem ∧
      (State.tellNeighbour s p typ body).queues = s.queues ∧ (State.tellNeighbour s p typ body).rings = s.rings ∧
      (State.tellNeighbour s p typ body).lastIssued = s.lastIssued ∧ (State.tellNeighbour s p typ body).ce = s.ce ∧
      (State.tellNeighbour s p typ body).mes = s.mes ∧ (State.tellNeighbour s p typ body).clusters = s.clusters ∧
      (State.tellNeighbour s p typ body).dma = s.dma ∧ (State.tellNeighbour s p typ body).fc = s.fc ∧
      (State.tellNeighbour s p typ body).graft = s.graft ∧ (State.tellNeighbour s p typ body).sys = s.sys ∧
      (State.tellNeighbour s p typ body).host = s.host ∧ (State.tellNeighbour s p typ body).mgmt = s.mgmt ∧
      (State.tellNeighbour s p typ body).power = s.power := by
  simp [State.tellNeighbour]

@[simp] theorem State.sendCue_frame (s : State) (typ : Nat) (dest : Nat) (body : List Byte) :
    (State.sendCue s typ dest body).1.now = s.now ∧ (State.sendCue s typ dest body).1.fresh = s.fresh ∧
      (State.sendCue s typ dest body).1.issued = s.issued ∧ (State.sendCue s typ dest body).1.finished = s.finished ∧
      (State.sendCue s typ dest body).1.counters = s.counters ∧ (State.sendCue s typ dest body).1.tact = s.tact ∧
      (State.sendCue s typ dest body).1.score = s.score ∧ (State.sendCue s typ dest body).1.esp = s.esp ∧
      (State.sendCue s typ dest body).1.mem = s.mem ∧ (State.sendCue s typ dest body).1.queues = s.queues ∧
      (State.sendCue s typ dest body).1.rings = s.rings ∧ (State.sendCue s typ dest body).1.lastIssued = s.lastIssued ∧
      (State.sendCue s typ dest body).1.ce = s.ce ∧ (State.sendCue s typ dest body).1.mes = s.mes ∧
      (State.sendCue s typ dest body).1.clusters = s.clusters ∧ (State.sendCue s typ dest body).1.dma = s.dma ∧
      (State.sendCue s typ dest body).1.fc = s.fc ∧ (State.sendCue s typ dest body).1.graft = s.graft ∧
      (State.sendCue s typ dest body).1.sys = s.sys ∧ (State.sendCue s typ dest body).1.host = s.host ∧
      (State.sendCue s typ dest body).1.mgmt = s.mgmt ∧ (State.sendCue s typ dest body).1.power = s.power := by
  unfold State.sendCue
  (repeat' split) <;> simp

@[simp] theorem State.badCue_frame (s : State) (p : Nat) (typ : Nat) :
    (State.badCue s p typ).now = s.now ∧ (State.badCue s p typ).fresh = s.fresh ∧
      (State.badCue s p typ).issued = s.issued ∧ (State.badCue s p typ).finished = s.finished ∧
      (State.badCue s p typ).cueQ = s.cueQ ∧ (State.badCue s p typ).ports = s.ports ∧
      (State.badCue s p typ).tact = s.tact ∧ (State.badCue s p typ).score = s.score ∧
      (State.badCue s p typ).esp = s.esp ∧ (State.badCue s p typ).mem = s.mem ∧
      (State.badCue s p typ).queues = s.queues ∧ (State.badCue s p typ).rings = s.rings ∧
      (State.badCue s p typ).lastIssued = s.lastIssued ∧ (State.badCue s p typ).ce = s.ce ∧
      (State.badCue s p typ).mes = s.mes ∧ (State.badCue s p typ).clusters = s.clusters ∧
      (State.badCue s p typ).dma = s.dma ∧ (State.badCue s p typ).sync = s.sync ∧
      (State.badCue s p typ).graft = s.graft ∧ (State.badCue s p typ).sys = s.sys ∧
      (State.badCue s p typ).power = s.power := by
  simp [State.badCue]

@[simp] theorem State.relayCue_frame (s : State) (p : Nat) (c : Cue) :
    (State.relayCue s p c).now = s.now ∧ (State.relayCue s p c).fresh = s.fresh ∧
      (State.relayCue s p c).issued = s.issued ∧ (State.relayCue s p c).finished = s.finished ∧
      (State.relayCue s p c).tact = s.tact ∧ (State.relayCue s p c).score = s.score ∧
      (State.relayCue s p c).esp = s.esp ∧ (State.relayCue s p c).mem = s.mem ∧
      (State.relayCue s p c).queues = s.queues ∧ (State.relayCue s p c).rings = s.rings ∧
      (State.relayCue s p c).lastIssued = s.lastIssued ∧ (State.relayCue s p c).ce = s.ce ∧
      (State.relayCue s p c).mes = s.mes ∧ (State.relayCue s p c).clusters = s.clusters ∧
      (State.relayCue s p c).dma = s.dma ∧ (State.relayCue s p c).sync = s.sync ∧
      (State.relayCue s p c).graft = s.graft ∧ (State.relayCue s p c).sys = s.sys ∧
      (State.relayCue s p c).power = s.power := by
  unfold State.relayCue; dsimp only
  repeat' (split <;> try (rename_i h; obtain ⟨rfl, -⟩ := Prod.ext_iff.mp h))
  all_goals simp

@[simp] theorem State.answerRollCall_frame (s : State) (p : Nat) :
    (State.answerRollCall s p).now = s.now ∧ (State.answerRollCall s p).issued = s.issued ∧
      (State.answerRollCall s p).finished = s.finished ∧ (State.answerRollCall s p).counters = s.counters ∧
      (State.answerRollCall s p).ports = s.ports ∧ (State.answerRollCall s p).tact = s.tact ∧
      (State.answerRollCall s p).score = s.score ∧ (State.answerRollCall s p).esp = s.esp ∧
      (State.answerRollCall s p).mem = s.mem ∧ (State.answerRollCall s p).queues = s.queues ∧
      (State.answerRollCall s p).rings = s.rings ∧ (State.answerRollCall s p).lastIssued = s.lastIssued ∧
      (State.answerRollCall s p).ce = s.ce ∧ (State.answerRollCall s p).mes = s.mes ∧
      (State.answerRollCall s p).clusters = s.clusters ∧ (State.answerRollCall s p).dma = s.dma ∧
      (State.answerRollCall s p).fc = s.fc ∧ (State.answerRollCall s p).graft = s.graft ∧
      (State.answerRollCall s p).sys = s.sys ∧ (State.answerRollCall s p).host = s.host ∧
      (State.answerRollCall s p).mgmt = s.mgmt ∧ (State.answerRollCall s p).power = s.power := by
  simp [State.answerRollCall, apply_ite State.now, apply_ite State.issued, apply_ite State.finished, apply_ite State.counters, apply_ite State.ports, apply_ite State.tact, apply_ite State.score, apply_ite State.esp, apply_ite State.mem, apply_ite State.queues, apply_ite State.rings, apply_ite State.lastIssued, apply_ite State.ce, apply_ite State.mes, apply_ite State.clusters, apply_ite State.dma, apply_ite State.fc, apply_ite State.graft, apply_ite State.sys, apply_ite State.host, apply_ite State.mgmt, apply_ite State.power]

@[simp] theorem State.noteHere_frame (s : State) (p : Nat) (c : Cue) :
    (State.noteHere s p c).now = s.now ∧ (State.noteHere s p c).fresh = s.fresh ∧
      (State.noteHere s p c).issued = s.issued ∧ (State.noteHere s p c).finished = s.finished ∧
      (State.noteHere s p c).counters = s.counters ∧ (State.noteHere s p c).cueQ = s.cueQ ∧
      (State.noteHere s p c).ports = s.ports ∧ (State.noteHere s p c).tact = s.tact ∧
      (State.noteHere s p c).score = s.score ∧ (State.noteHere s p c).esp = s.esp ∧
      (State.noteHere s p c).mem = s.mem ∧ (State.noteHere s p c).queues = s.queues ∧
      (State.noteHere s p c).rings = s.rings ∧ (State.noteHere s p c).lastIssued = s.lastIssued ∧
      (State.noteHere s p c).ce = s.ce ∧ (State.noteHere s p c).mes = s.mes ∧
      (State.noteHere s p c).clusters = s.clusters ∧ (State.noteHere s p c).dma = s.dma ∧
      (State.noteHere s p c).sync = s.sync ∧ (State.noteHere s p c).fc = s.fc ∧
      (State.noteHere s p c).graft = s.graft ∧ (State.noteHere s p c).host = s.host ∧
      (State.noteHere s p c).mgmt = s.mgmt ∧ (State.noteHere s p c).power = s.power := by
  simp [State.noteHere]

@[simp] theorem State.postHost_frame (s : State) (a : Nat) (bs : List Byte) :
    (State.postHost s a bs).now = s.now ∧ (State.postHost s a bs).fresh = s.fresh ∧
      (State.postHost s a bs).issued = s.issued ∧ (State.postHost s a bs).finished = s.finished ∧
      (State.postHost s a bs).counters = s.counters ∧ (State.postHost s a bs).cueQ = s.cueQ ∧
      (State.postHost s a bs).ports = s.ports ∧ (State.postHost s a bs).tact = s.tact ∧
      (State.postHost s a bs).score = s.score ∧ (State.postHost s a bs).esp = s.esp ∧
      (State.postHost s a bs).mem = s.mem ∧ (State.postHost s a bs).queues = s.queues ∧
      (State.postHost s a bs).rings = s.rings ∧ (State.postHost s a bs).lastIssued = s.lastIssued ∧
      (State.postHost s a bs).ce = s.ce ∧ (State.postHost s a bs).mes = s.mes ∧
      (State.postHost s a bs).clusters = s.clusters ∧ (State.postHost s a bs).dma = s.dma ∧
      (State.postHost s a bs).sync = s.sync ∧ (State.postHost s a bs).fc = s.fc ∧
      (State.postHost s a bs).graft = s.graft ∧ (State.postHost s a bs).sys = s.sys ∧
      (State.postHost s a bs).mgmt = s.mgmt ∧ (State.postHost s a bs).power = s.power := by
  simp [State.postHost]

@[simp] theorem State.readHost_frame (s : State) (a : Nat) (len : Nat) (chan : Option Nat) (cmd : Option (Nat × Nat)) (flush : Bool) :
    (State.readHost s a len chan cmd flush).now = s.now ∧ (State.readHost s a len chan cmd flush).fresh = s.fresh ∧
      (State.readHost s a len chan cmd flush).issued = s.issued ∧ (State.readHost s a len chan cmd flush).finished = s.finished ∧
      (State.readHost s a len chan cmd flush).counters = s.counters ∧ (State.readHost s a len chan cmd flush).cueQ = s.cueQ ∧
      (State.readHost s a len chan cmd flush).ports = s.ports ∧ (State.readHost s a len chan cmd flush).tact = s.tact ∧
      (State.readHost s a len chan cmd flush).score = s.score ∧ (State.readHost s a len chan cmd flush).esp = s.esp ∧
      (State.readHost s a len chan cmd flush).mem = s.mem ∧ (State.readHost s a len chan cmd flush).queues = s.queues ∧
      (State.readHost s a len chan cmd flush).rings = s.rings ∧ (State.readHost s a len chan cmd flush).lastIssued = s.lastIssued ∧
      (State.readHost s a len chan cmd flush).ce = s.ce ∧ (State.readHost s a len chan cmd flush).mes = s.mes ∧
      (State.readHost s a len chan cmd flush).clusters = s.clusters ∧ (State.readHost s a len chan cmd flush).dma = s.dma ∧
      (State.readHost s a len chan cmd flush).sync = s.sync ∧ (State.readHost s a len chan cmd flush).fc = s.fc ∧
      (State.readHost s a len chan cmd flush).graft = s.graft ∧ (State.readHost s a len chan cmd flush).sys = s.sys ∧
      (State.readHost s a len chan cmd flush).mgmt = s.mgmt ∧ (State.readHost s a len chan cmd flush).power = s.power := by
  simp [State.readHost]

end Sys2Proof.Machine
end

