-- ==== Sys2Proof/Laws/Events.lean ====
section
/-!
SUPPORT. What reports do: a count, a log entry, an interrupt or a class-C event leaves everything but `unreported`'s fields
alone, and counts what R431 says.
-/
namespace Sys2Proof
open Sys2Proof.Machine

/-- A command whose operands are well-formed answers the state its meaning computes. -/
theorem answers_of {c : Instr} {s t : State} {ok : Bool} {P : State → Prop} (e : Machine.exec c s = within ok t) (h : ok = true)
    (p : P t) : Answers c s P := ⟨t, by rw [e, within, if_pos h], p⟩

/-! ### `ButReports` -/

@[simp] theorem ButReports.rfl' (s : State) : ButReports s s := rfl

theorem ButReports.trans {s t u : State} (h : ButReports s t) (k : ButReports t u) : ButReports s u := by
  have e : unreported s u = unreported s (unreported t u) := rfl
  exact e.trans ((congrArg (unreported s) k).trans h)

theorem ButReports.read {α : Type} {s t : State} (h : ButReports s t) (f : State → α) : f (unreported s t) = f s := congrArg f h
theorem ButReports.pending {s t : State} (h : ButReports s t) : t.pending = s.pending := h.read State.pending
theorem ButReports.now {s t : State} (h : ButReports s t) : t.now = s.now := h.read State.now
theorem ButReports.fresh {s t : State} (h : ButReports s t) : t.fresh = s.fresh := h.read State.fresh
theorem ButReports.issued {s t : State} (h : ButReports s t) : t.issued = s.issued := h.read State.issued
theorem ButReports.finished {s t : State} (h : ButReports s t) : t.finished = s.finished := h.read State.finished
theorem ButReports.ram {s t : State} (h : ButReports s t) : t.ram = s.ram := h.read State.ram
theorem ButReports.cueQ {s t : State} (h : ButReports s t) : t.cueQ = s.cueQ := h.read State.cueQ
theorem ButReports.ports {s t : State} (h : ButReports s t) : t.ports = s.ports := h.read State.ports
theorem ButReports.tact {s t : State} (h : ButReports s t) : t.tact = s.tact := h.read State.tact
theorem ButReports.score {s t : State} (h : ButReports s t) : t.score = s.score := h.read State.score
theorem ButReports.esp {s t : State} (h : ButReports s t) : t.esp = s.esp := h.read State.esp
theorem ButReports.mem {s t : State} (h : ButReports s t) : t.mem = s.mem := h.read State.mem
theorem ButReports.queues {s t : State} (h : ButReports s t) : t.queues = s.queues := h.read State.queues
theorem ButReports.rings {s t : State} (h : ButReports s t) : t.rings = s.rings := h.read State.rings
theorem ButReports.lastIssued {s t : State} (h : ButReports s t) : t.lastIssued = s.lastIssued := h.read State.lastIssued
theorem ButReports.ce {s t : State} (h : ButReports s t) : t.ce = s.ce := h.read State.ce
theorem ButReports.mes {s t : State} (h : ButReports s t) : t.mes = s.mes := h.read State.mes
theorem ButReports.clusters {s t : State} (h : ButReports s t) : t.clusters = s.clusters := h.read State.clusters
theorem ButReports.dma {s t : State} (h : ButReports s t) : t.dma = s.dma := h.read State.dma
theorem ButReports.sync {s t : State} (h : ButReports s t) : t.sync = s.sync := h.read State.sync
theorem ButReports.graft {s t : State} (h : ButReports s t) : t.graft = s.graft := h.read State.graft
theorem ButReports.sys {s t : State} (h : ButReports s t) : t.sys = s.sys := h.read State.sys
theorem ButReports.power {s t : State} (h : ButReports s t) : t.power = s.power := h.read State.power
theorem ButReports.targets {s t : State} (h : ButReports s t) : t.fc.targets = s.fc.targets :=
  h.read (fun u : State => u.fc.targets)
theorem ButReports.resets {s t : State} (h : ButReports s t) : t.fc.resets = s.fc.resets :=
  h.read (fun u : State => u.fc.resets)
theorem ButReports.safe {s t : State} (h : ButReports s t) : t.fc.safe = s.fc.safe :=
  h.read (fun u : State => u.fc.safe)

theorem ButReports.port_eq {s t : State} (h : ButReports s t) (k : Nat) : t.port k = s.port k := h.read fun u => u.port k
theorem ButReports.queue_eq {s t : State} (h : ButReports s t) (k : Nat) : t.queue k = s.queue k := h.read fun u => u.queue k
theorem ButReports.ring_eq {s t : State} (h : ButReports s t) (k : Nat) : t.ring k = s.ring k := h.read fun u => u.ring k
theorem ButReports.ctrl_eq {s t : State} (h : ButReports s t) (k : Nat) : t.ctrl k = s.ctrl k := h.read fun u => u.ctrl k
theorem ButReports.chan_eq {s t : State} (h : ButReports s t) (k : Nat) : t.chan k = s.chan k := h.read fun u => u.chan k
theorem ButReports.me_eq {s t : State} (h : ButReports s t) (k : Nat) : t.me k = s.me k := h.read fun u => u.me k
theorem ButReports.cl_eq {s t : State} (h : ButReports s t) (k : Nat) : t.cl k = s.cl k := h.read fun u => u.cl k
theorem ButReports.tally_eq {s t : State} (h : ButReports s t) (k : Nat) : t.tally k = s.tally k := h.read fun u => u.tally k
theorem ButReports.barrier_eq {s t : State} (h : ButReports s t) (k : Nat) : t.barrier k = s.barrier k := h.read fun u => u.barrier k
theorem ButReports.wake_eq {s t : State} (h : ButReports s t) (k : Nat) : t.wake k = s.wake k := h.read fun u => u.wake k
theorem ButReports.unit_eq {s t : State} (h : ButReports s t) (k : Nat) : t.unit k = s.unit k := h.read fun u => u.unit k
theorem ButReports.cueQueue_eq {s t : State} (h : ButReports s t) (k : Nat) : t.cueQueue k = s.cueQueue k := h.read fun u => u.cueQueue k
theorem ButReports.region_eq {s t : State} (h : ButReports s t) (k : Nat) : t.region k = s.region k := h.read fun u => u.region k
theorem ButReports.cxl_eq {s t : State} (h : ButReports s t) (k : Nat) : t.cxl k = s.cxl k := h.read fun u => u.cxl k
theorem ButReports.lease_eq {s t : State} (h : ButReports s t) (k : Nat) : t.lease k = s.lease k := h.read fun u => u.lease k
theorem ButReports.landWin_eq {s t : State} (h : ButReports s t) (k : Nat) : t.landWin k = s.landWin k := h.read fun u => u.landWin k
theorem ButReports.tgt_eq {s t : State} (h : ButReports s t) (k : Nat) : t.tgt k = s.tgt k := h.read fun u => u.tgt k
theorem ButReports.resetOf_eq {s t : State} (h : ButReports s t) (k : Nat) : t.resetOf k = s.resetOf k := h.read fun u => u.resetOf k
theorem ButReports.core_eq {s t : State} (h : ButReports s t) (c k : Nat) : t.core c k = s.core c k := h.read fun u => u.core c k
theorem ButReports.img_eq {s t : State} (h : ButReports s t) : t.img = s.img := h.read fun u => u.img

/-- An update that reports do not concern keeps the relation. -/
theorem ButReports.map {s t : State} (f : State → State) (h : ButReports s t)
    (hf : unreported (f s) (f t) = f (unreported s t)) : ButReports (f s) (f t) :=
  hf.trans (h.read f)

theorem ButReports.forEach {α : Type} {s t : State} (xs : List α) (f : α → State → State) (hf : ∀ x u, ButReports u (f x u))
    (h : ButReports s t) : ButReports s (forEach xs f t) := by
  induction xs generalizing t with
  | nil => exact h
  | cons x xs ih => exact ih (h.trans (hf x t))

@[simp] theorem butReports_countN (s t : State) (a n : Nat) : ButReports s (t.countN a n) ↔ ButReports s t := Iff.rfl
@[simp] theorem butReports_count (s t : State) (a : Nat) : ButReports s (t.count a) ↔ ButReports s t := Iff.rfl
@[simp] theorem butReports_countDet (s t : State) (d : Nat) : ButReports s (t.countDet d) ↔ ButReports s t := Iff.rfl
@[simp] theorem butReports_log (s t : State) (e : LogEntry) : ButReports s (t.log e) ↔ ButReports s t := Iff.rfl
@[simp] theorem butReports_pendVector (s t : State) (v : Nat) : ButReports s (t.pendVector v) ↔ ButReports s t := Iff.rfl
@[simp] theorem butReports_sendVector (s t : State) (v : Nat) : ButReports s (t.sendVector v) ↔ ButReports s t := Iff.rfl

@[simp] theorem butReports_eventC' (s t : State) (det : Nat) (u : UnitId) (g : Option Nat) (d : Nat) (c i : Bool) :
    ButReports s (t.eventC' det u g d c i) ↔ ButReports s t := by
  unfold State.eventC'
  dsimp only
  split <;> split <;> exact Iff.rfl

theorem butReports_threshSend (s b t : State) (det : Nat) (f : State → State)
    (hf : ∀ u, ButReports s (f u) ↔ ButReports s u) : ButReports s (State.threshSend b t det f) ↔ ButReports s t := by
  unfold State.threshSend
  split
  · split
    · exact Iff.rfl
    · split
      · rw [hf]; exact Iff.rfl
      · exact Iff.rfl
  · exact Iff.rfl

@[simp] theorem butReports_eventCN (n : Nat) (s t : State) (det : Nat) (u : UnitId) (g : Option Nat) (d : Nat) (c i : Bool) :
    ButReports s (State.eventCN n t det u g d c i) ↔ ButReports s t := by
  induction n generalizing t det u g d c i with
  | zero => rw [State.eventCN, butReports_threshSend _ _ _ _ _ (fun _ => Iff.rfl), butReports_eventC']
  | succ n ih =>
    rw [State.eventCN, butReports_threshSend _ _ _ _ _ (fun v => by rw [ih]; exact Iff.rfl), butReports_eventC']

@[simp] theorem butReports_fire (s t : State) (v : Nat) : ButReports s (t.fire v) ↔ ButReports s t := by
  unfold State.fire
  split
  · exact Iff.rfl
  · split
    · rw [butReports_eventCN]; exact Iff.rfl
    · exact Iff.rfl

@[simp] theorem butReports_irqSet (s t : State) (b : BitVec 6) : ButReports s (t.irqSet b) ↔ ButReports s t := by
  unfold State.irqSet
  dsimp only
  split
  · rw [butReports_fire]; exact Iff.rfl
  · exact Iff.rfl

@[simp] theorem butReports_logIrq (s b t : State) : ButReports s (State.logIrq b t) ↔ ButReports s t := by
  unfold State.logIrq
  split
  · rw [butReports_fire]
  · exact Iff.rfl

@[simp] theorem butReports_eventC (s t : State) (det : Nat) (u : UnitId) (d : Nat) (via : List Nat) :
    ButReports s (t.eventC det u d via) ↔ ButReports s t := by simp [State.eventC]

@[simp] theorem butReports_logU (s t : State) (det : Nat) (u : UnitId) (g : Option Nat) (d : Nat) (i : Bool) (b : BitVec 6) :
    ButReports s (t.logU det u g d i b) ↔ ButReports s t := by
  unfold State.logU
  dsimp only
  rw [butReports_irqSet, butReports_logIrq]
  exact Iff.rfl

@[simp] theorem butReports_graftMsg (s t : State) : ButReports s t.graftMsg ↔ ButReports s t := by
  unfold State.graftMsg
  split <;> simp

/-! ### Counters -/

theorem counter_count (s : State) (a b : Nat) : (s.count a).counter b = if a = b then risen (s.counter a) 1 else s.counter b := by
  simp only [State.count, State.counter_countN]; rfl

@[simp] theorem counter_count_self (s : State) (a : Nat) : (s.count a).counter a = risen (s.counter a) 1 := by
  simp [counter_count]

theorem counter_count_ne (s : State) {a b : Nat} (h : a ≠ b) : (s.count a).counter b = s.counter b := by
  simp [counter_count, h]

/-- Voice-port counters are none of those that reports write. -/
theorem vp_not_report {p off det : Nat} (hp : p < 16) (ho : off < 0x1000) : Cnt.vp p off ∉ reportCells det := by
  simp only [reportCells, Cnt.vp, Cnt.host, Cnt.det, Cnt.grp, Det.msiBlocked, List.mem_cons, List.not_mem_nil, or_false, not_or]
  omega

@[simp] theorem counter_log (s : State) (e : LogEntry) (a : Nat) : (s.log e).counter a = s.counter a := rfl
@[simp] theorem counter_pendVector (s : State) (v a : Nat) : (s.pendVector v).counter a = s.counter a := rfl
@[simp] theorem counter_sendVector (s : State) (v a : Nat) : (s.sendVector v).counter a = s.counter a := rfl

/-- R431: a class-C event counts in its detector's counter and in its group's. -/
theorem counter_eventC' (s : State) (det : Nat) (u : UnitId) (g : Option Nat) (d : Nat) (c i : Bool) (a : Nat) :
    (s.eventC' det u g d c i).counter a = ((s.countDet det).count (Cnt.grp (det / 8))).counter a := by
  unfold State.eventC'
  dsimp only
  split <;> split <;> rfl

theorem counter_threshSend (b t : State) (det : Nat) (f : State → State) (a : Nat)
    (hf : ∀ u, (f u).counter a = u.counter a) : (State.threshSend b t det f).counter a = t.counter a := by
  unfold State.threshSend
  split
  · split
    · rfl
    · split
      · rw [hf]; rfl
      · rfl
  · rfl

/-- The counters that a message which is blocked can write (R493). -/
def blockedCells : List Nat := [Cnt.host 5, Cnt.det Det.msiBlocked, Cnt.grp (Det.msiBlocked / 8)]

theorem counter_eventCN (n : Nat) (s : State) (det : Nat) (u : UnitId) (g : Option Nat) (d : Nat) (c i : Bool) (a : Nat)
    (h : a ∉ blockedCells) :
    (State.eventCN n s det u g d c i).counter a = ((s.countDet det).count (Cnt.grp (det / 8))).counter a := by
  induction n generalizing s det u g d c i with
  | zero => rw [State.eventCN, counter_threshSend _ _ _ _ _ (fun _ => rfl), counter_eventC']
  | succ n ih =>
    rw [State.eventCN, counter_threshSend, counter_eventC']
    intro v
    simp only [blockedCells, List.mem_cons, List.not_mem_nil, or_false, not_or] at h
    rw [ih]
    simp [State.countDet, counter_count, Ne.symm h.1, Ne.symm h.2.1, Ne.symm h.2.2]

theorem counter_fire (s : State) (v a : Nat) (h : a ∉ blockedCells) : (s.fire v).counter a = s.counter a := by
  unfold State.fire
  split
  · rfl
  · split
    · rw [counter_eventCN _ _ _ _ _ _ _ _ _ h]
      simp only [blockedCells, List.mem_cons, List.not_mem_nil, or_false, not_or] at h
      simp [State.countDet, counter_count, Ne.symm h.1, Ne.symm h.2.1, Ne.symm h.2.2]
    · rfl

theorem counter_irqSet (s : State) (b : BitVec 6) (a : Nat) (h : a ∉ blockedCells) : (s.irqSet b).counter a = s.counter a := by
  unfold State.irqSet
  dsimp only
  split
  · rw [counter_fire _ _ _ h]; rfl
  · rfl

theorem counter_logIrq (b s : State) (a : Nat) (h : a ∉ blockedCells) : (State.logIrq b s).counter a = s.counter a := by
  unfold State.logIrq
  split
  · rw [counter_fire _ _ _ h]
  · rfl

theorem counter_eventC (s : State) (det : Nat) (u : UnitId) (d : Nat) (via : List Nat) (a : Nat) (h : a ∉ blockedCells) :
    (s.eventC det u d via).counter a = ((s.countDet det).count (Cnt.grp (det / 8))).counter a := by
  rw [State.eventC, counter_logIrq _ _ _ h, counter_eventCN _ _ _ _ _ _ _ _ _ h]

/-- A counter that no blocked message writes, after a class-C event. -/
theorem counter_eventC_other (s : State) (det : Nat) (u : UnitId) (d : Nat) (via : List Nat) (a : Nat) (h : a ∉ reportCells det) :
    (s.eventC det u d via).counter a = s.counter a := by
  simp only [reportCells, List.mem_cons, List.not_mem_nil, or_false, not_or] at h
  rw [counter_eventC]
  · simp [State.countDet, counter_count, Ne.symm h.1, Ne.symm h.2.1]
  · simp [blockedCells, h.2.2]

/-- A class-C event writes no counter but those of its report. -/
theorem countersBut_eventC (s : State) (det : Nat) (u : UnitId) (d : Nat) (via : List Nat) :
    CountersBut (reportCells det) s (s.eventC det u d via) :=
  fun a h => counter_eventC_other s det u d via a h

theorem CountersBut.trans {as bs : List Nat} {s t u : State} (h : CountersBut as s t) (k : CountersBut bs t u) :
    CountersBut (as ++ bs) s u := by
  intro a ha
  rw [List.mem_append, not_or] at ha
  rw [k a ha.2, h a ha.1]

theorem countersBut_count (s : State) (a : Nat) : CountersBut [a] s (s.count a) := by
  intro b h
  exact counter_count_ne s (by simpa [eq_comm] using h)

theorem CountersBut.of_eq {as : List Nat} {s t : State} (h : t.counters = s.counters) : CountersBut as s t := by
  intro a _; simp [State.counter, h]

/-- R431, R435: the report of a class-C event. -/
theorem reported_eventC (s : State) (det : Nat) (u : UnitId) (d : Nat) (via : List Nat) (h : det < 256)
    (hm : det ≠ Det.msiBlocked) : Reported det s (s.eventC det u d via) := by
  refine ⟨by simp, ?_, countersBut_eventC s det u d via⟩
  rw [counter_eventC]
  · rw [counter_count_ne _ (by simp only [Cnt.grp, Cnt.det]; omega), State.countDet, counter_count_self]
  · simp only [blockedCells, Cnt.host, Cnt.det, Cnt.grp, Det.msiBlocked, List.mem_cons, List.not_mem_nil, or_false, not_or] at hm ⊢
    omega

/-- R431: the detector's own counter. -/
theorem counter_eventC_self (s : State) (det : Nat) (u : UnitId) (d : Nat) (via : List Nat) (h : det < 256)
    (hm : det ≠ Det.msiBlocked) :
    (s.eventC det u d via).counter (Cnt.det det) = risen (s.counter (Cnt.det det)) 1 :=
  (reported_eventC s det u d via h hm).2.1

/-! ### Class-U events (R438) -/

/-- R431: a class-U event counts in its detector's counter. -/
theorem counter_logU (s : State) (det : Nat) (unit : UnitId) (tgt : Option Nat) (detail : Nat) (inj : Bool) (bits : BitVec 6)
    (a : Nat) (h : a ∉ blockedCells) :
    (s.logU det unit tgt detail inj bits).counter a = (s.countDet det).counter a := by
  rw [State.logU, counter_irqSet _ _ _ h, counter_logIrq _ _ _ h]; rfl

theorem counter_logU_other (s : State) (det : Nat) (unit : UnitId) (tgt : Option Nat) (detail : Nat) (inj : Bool) (bits : BitVec 6)
    (a : Nat) (h : a ∉ Cnt.det det :: blockedCells) : (s.logU det unit tgt detail inj bits).counter a = s.counter a := by
  rw [List.mem_cons, not_or] at h
  rw [counter_logU _ _ _ _ _ _ _ _ h.2, State.countDet, counter_count_ne _ (Ne.symm h.1)]

theorem counter_logU_self (s : State) (det : Nat) (unit : UnitId) (tgt : Option Nat) (detail : Nat) (inj : Bool) (bits : BitVec 6)
    (h : det < 256) (hm : det ≠ Det.msiBlocked) :
    (s.logU det unit tgt detail inj bits).counter (Cnt.det det) = risen (s.counter (Cnt.det det)) 1 := by
  rw [counter_logU, State.countDet, counter_count_self]
  simp only [blockedCells, Cnt.host, Cnt.det, Cnt.grp, Det.msiBlocked, List.mem_cons, List.not_mem_nil, or_false, not_or] at hm ⊢
  omega

@[simp] theorem counter_containedBy (s : State) (det t a : Nat) : (containedBy s det t).counter a = s.counter a := by
  simp [containedBy, State.counter]

/-- R438: a class-U event that has its reaction contains its target. -/
theorem eventU_reacts (s : State) (det : Nat) (unit : UnitId) (t detail : Nat) (h : Reacts s det unit t) :
    s.eventU det unit (some t) detail [] = ((containedBy s det t).logU det unit (some t) detail false 0x01#6, .react) := by
  obtain ⟨h1, h2, h3⟩ := h
  unfold State.eventU
  rw [h1]
  simp only [Bool.false_eq_true, if_false]
  unfold State.contain containedBy
  dsimp only
  cases hs : (s.tgt t).state with
  | held => exact absurd hs h2
  | serving => simp only [h3, if_true]
  | contained => simp only [h3, if_true]

/-- R438: its reaction, where the detector applies no block reset. -/
theorem raise_reacts (s : State) (det : Nat) (unit : UnitId) (t detail : Nat) (rest : State → State) (h : Reacts s det unit t) :
    s.raise det unit (some t) detail [] none rest = rest ((containedBy s det t).logU det unit (some t) detail false 0x01#6) := by
  rw [State.raise, eventU_reacts _ _ _ _ _ h]

/-- R438: its reaction, where the detector resets unit `i`. -/
theorem raise_resets (s : State) (det : Nat) (unit : UnitId) (t detail i : Nat) (rest : State → State) (h : Reacts s det unit t) :
    s.raise det unit (some t) detail [] (some i) rest =
      rest (((containedBy s det t).logU det unit (some t) detail false 0x01#6).blockReset i) := by
  rw [State.raise, eventU_reacts _ _ _ _ _ h]

theorem raiseOn_reacts (s : State) (det : Nat) (unit : UnitId) (t detail : Nat) (e : unit.target = some t)
    (h : Reacts s det unit t) :
    s.raiseOn det unit detail = (containedBy s det t).logU det unit (some t) detail false 0x01#6 := by
  rw [State.raiseOn, e, raise_reacts _ _ _ _ _ _ h]; rfl

theorem setTgt_but (s : State) (t : Nat) (v : Target) :
    ButReports { s with fc.targets := Tab.put s.fc.targets t v } (s.setTgt t v) := rfl

/-- R438: whatever a class-U event finds, it writes no more than targets and reports. -/
theorem eventU_writes (s : State) (det : Nat) (unit : UnitId) (tgt : Option Nat) (detail : Nat) (via : List Nat) :
    ∃ ts, ButReports { s with fc.targets := ts } (s.eventU det unit tgt detail via).1 := by
  unfold State.eventU
  split
  · exact ⟨s.fc.targets, by simp⟩
  · split
    · exact ⟨s.fc.targets, by simp⟩
    · unfold State.contain
      dsimp only
      split
      · exact ⟨_, by rw [butReports_logU]; exact setTgt_but _ _ _⟩
      all_goals
        split
        · exact ⟨_, by rw [butReports_logU]; exact setTgt_but _ _ _⟩
        · exact ⟨_, by rw [butReports_eventC, butReports_logU]; exact setTgt_but _ _ _⟩

/-- R438: what a class-U event without a block reset comes to: targets and reports, then perhaps the hold effect, then `rest`. -/
theorem raise_writes (s : State) (det : Nat) (unit : UnitId) (tgt : Option Nat) (detail : Nat) (via : List Nat)
    (rest : State → State) :
    ∃ ts u, ButReports { s with fc.targets := ts } u ∧
      (s.raise det unit tgt detail via none rest = u ∨ s.raise det unit tgt detail via none rest = rest u ∨
        ∃ t, tgt = some t ∧ s.raise det unit tgt detail via none rest = rest (u.holdEffect t)) := by
  obtain ⟨ts, h⟩ := eventU_writes s det unit tgt detail via
  refine ⟨ts, (s.eventU det unit tgt detail via).1, h, ?_⟩
  unfold State.raise
  split
  · next e => rw [e]; exact .inl rfl
  · next e => rw [e]; exact .inr (.inl rfl)
  · next e =>
    rw [e]
    cases tgt with
    | none => exact .inr (.inl rfl)
    | some t => exact .inr (.inr ⟨t, rfl, rfl⟩)

/-! ### Class-F events (R446–R449) -/

/-- R446: a class-F event outside the safe state, of a detector that leaves the ports up. -/
theorem raiseF_enters (s : State) (det : Nat) (unit : UnitId) (detail : Nat) (h : s.fc.safe = false)
    (hd : det ≠ Det.corePllUnlock ∧ det ≠ Det.crossingErr) : EntersSafe det s (s.raiseF det unit detail) := by
  have key : ∀ v : State, ButReports s v → EntersSafe det s (v.enterSafe det unit) := by
    intro v hv
    unfold State.enterSafe State.gasp
    dsimp only
    rw [if_neg (by simp [hd.1, hd.2])]
    have hg : v.fc.lastGasp = s.fc.lastGasp := hv.read fun u => u.fc.lastGasp
    refine ⟨_, (butReports_irqSet _ _ _).mpr (hv.map (fun u : State => { u with
      fc.safe := true, fc.lastGasp := some _, sys.safeN := false, sys.selfRefresh := true, tact.outTc := none }) rfl), ?_, ?_⟩
    · intro e
      rw [hg, e]
      exact ⟨rfl, rfl, rfl⟩
    · intro x e
      rw [hg, e]
  unfold State.raiseF
  dsimp only
  have hb : ButReports s (State.logIrq s { (s.countDet det).log (s.entry det .f false false unit none detail) with
      mgmt.eventsF := s.mgmt.eventsF + 1 }) := by
    rw [butReports_logIrq]; rfl
  rw [if_neg (by rw [h]; decide)]
  exact key _ hb

theorem EntersSafe.of_but {det : Nat} {s u t : State} (h : ButReports s u) (k : EntersSafe det u t) : EntersSafe det s t := by
  obtain ⟨g, h1, h2, h3⟩ := k
  have hg : u.fc.lastGasp = s.fc.lastGasp := h.read fun u => u.fc.lastGasp
  rw [hg] at h2 h3
  exact ⟨g, (h.map (fun u : State => { u with fc.safe := true, fc.lastGasp := some g, sys.safeN := false, sys.selfRefresh := true
                                              tact.outTc := none }) rfl).trans h1, h2, h3⟩

/-- R446: in the safe state a class-F event is logged and changes nothing else. -/
theorem raiseF_safe (s : State) (det : Nat) (unit : UnitId) (detail : Nat) (h : s.fc.safe = true) :
    ButReports s (s.raiseF det unit detail) := by
  unfold State.raiseF
  dsimp only
  have hb : ButReports s (State.logIrq s { (s.countDet det).log (s.entry det .f false false unit none detail) with
      mgmt.eventsF := s.mgmt.eventsF + 1 }) := by
    rw [butReports_logIrq]; rfl
  rw [if_pos (by rw [h])]
  exact hb

theorem tgt_of_fc {s t : State} (h : t.fc.targets = s.fc.targets) (k : Nat) : t.tgt k = s.tgt k := by simp [State.tgt, h]

/-- `Reacts` reads the collector's targets and resets, and the commands that hold DMA channels. -/
theorem Reacts.of_eq {s u : State} {det : Nat} {unit : UnitId} {t : Nat} (h : Reacts s det unit t) (h1 : u.fc.targets = s.fc.targets)
    (h2 : u.fc.resets = s.fc.resets) (h3 : u.fc.recoveryLimit = s.fc.recoveryLimit) (h4 : u.dma.channels = s.dma.channels) :
    Reacts u det unit t := by
  have e : u.covered det unit (some t) [] = s.covered det unit (some t) [] := by
    have i : u.inShadow = s.inShadow := by
      funext k
      simp only [State.inShadow, State.resetOf, h2]
    simp only [State.covered, State.coverers, State.chan, i, h4]
  simpa only [Reacts, e, tgt_of_fc h1, h3] using h

@[simp] theorem tgt_containedBy_self (s : State) (det t : Nat) :
    (containedBy s det t).tgt t = { s.tgt t with state := .contained, quiet := 0, lastDetector := det, named := true } := by
  simp [containedBy]

end Sys2Proof
end

