-- ==== Sys2Proof/Laws/KeepWork.lean ====
section
/-!
SUPPORT. What the operations leave alone: every one keeps the queue of commands, and the bytes of memory or at least their canonical
form (collectives, the sequencer's commands and DMA transfers).
-/
namespace Sys2Proof.Machine

/-! ### Machine/CollOps.lean -/

@[simp] theorem State.putColl_keeps (s : State) (c : Coll) :
    (State.putColl s c).pending = s.pending ∧
      (State.putColl s c).ram = s.ram := by
  exact ⟨rfl, rfl⟩

@[simp] theorem State.removeColl_keeps (s : State) (c : Coll) :
    (State.removeColl s c).pending = s.pending ∧
      (State.removeColl s c).ram = s.ram := by
  exact ⟨rfl, rfl⟩

@[simp] theorem State.ceEvent_keeps (s : State) (part : Nat) (i : Nat) (det : Nat) (detail : Nat) :
    (State.ceEvent s part i det detail).pending = s.pending ∧
      (State.ceEvent s part i det detail).ram = s.ram := by
  simp [State.ceEvent]

@[simp] theorem State.sendWindow_keeps (s : State) (c : Coll) (typ : Nat) (g : Nat) (route : Nat) (down : Bool) (v : Nat) (cause : Nat) :
    (State.sendWindow s c typ g route down v cause).1.pending = s.pending ∧
      (State.sendWindow s c typ g route down v cause).1.ram = s.ram := by
  unfold State.sendWindow; dsimp only
  repeat' (split <;> try (rename_i h; obtain ⟨rfl, -⟩ := Prod.ext_iff.mp h))
  all_goals simp

@[simp] theorem State.confirmInputs_keeps (s : State) (c : Coll) :
    (State.confirmInputs s c).pending = s.pending ∧
      (State.confirmInputs s c).ram = s.ram := by
  simp [State.confirmInputs]

@[simp] theorem State.reserveOutputs_keeps (s : State) (c : Coll) :
    (State.reserveOutputs s c).pending = s.pending ∧
      (State.reserveOutputs s c).ram = s.ram := by
  simp [State.reserveOutputs]

@[simp] theorem State.windowProto_keeps (s : State) (part : Nat) (optag : Nat) :
    (State.windowProto s part optag).pending = s.pending ∧
      (State.windowProto s part optag).ram = s.ram := by
  simp [State.windowProto]

@[simp] theorem State.relayWindow_keeps (s : State) (p : Nat) (away : Bool) (cue : Cue) :
    (State.relayWindow s p away cue).pending = s.pending ∧
      (State.relayWindow s p away cue).ram = s.ram := by
  unfold State.relayWindow; dsimp only
  repeat' (split <;> try (rename_i h; obtain ⟨rfl, -⟩ := Prod.ext_iff.mp h))
  all_goals simp [apply_ite State.pending, apply_ite State.ram]

@[simp] theorem State.releaseInput_keeps (s : State) (c : Coll) (n : Nat) (i : CInput) :
    (State.releaseInput s c n i).pending = s.pending ∧
      (State.releaseInput s c n i).ram = s.ram := by
  simp only [State.releaseInput]
  repeat' (split <;> try (rename_i h; obtain ⟨rfl, -⟩ := Prod.ext_iff.mp h))
  all_goals simp [apply_ite State.pending, apply_ite State.ram]

@[simp] theorem State.releaseAll_keeps (s : State) (c : Coll) :
    (State.releaseAll s c).pending = s.pending ∧
      (State.releaseAll s c).ram = s.ram := by
  simp [State.releaseAll, apply_ite State.pending, apply_ite State.ram]

@[simp] theorem State.stopColl_keeps (s : State) (c : Coll) (d : Done) :
    (State.stopColl s c d).pending = s.pending ∧
      (s.ram.wf = true → (State.stopColl s c d).ram.wf = true) := by
  refine ⟨?_, ?_⟩; simp [State.stopColl]; intro hw; simp [State.stopColl, hw]

@[simp] theorem State.collUe_keeps (s : State) (c : Coll) (det : Nat) (page : Nat) :
    (State.collUe s c det page).pending = s.pending ∧
      (s.ram.wf = true → (State.collUe s c det page).ram.wf = true) := by
  refine ⟨?_, ?_⟩; simp [State.collUe]; intro hw; simp [State.collUe, hw]

@[simp] theorem State.noteLateness_keeps (s : State) (c : Coll) (late : Nat) (lag : Nat) :
    (State.noteLateness s c late lag).pending = s.pending ∧
      (State.noteLateness s c late lag).ram = s.ram := by
  simp [State.noteLateness, apply_ite State.pending, apply_ite State.ram]

@[simp] theorem State.closeLateness_keeps (s : State) (c : Coll) :
    (State.closeLateness s c).pending = s.pending ∧
      (State.closeLateness s c).ram = s.ram := by
  exact ⟨rfl, rfl⟩

@[simp] theorem State.completeColl_keeps (s : State) (c : Coll) (d : Done) :
    (State.completeColl s c d).pending = s.pending ∧
      (s.ram.wf = true → (State.completeColl s c d).ram.wf = true) := by
  unfold State.completeColl; dsimp only
  repeat' (split <;> try (rename_i h; obtain ⟨rfl, -⟩ := Prod.ext_iff.mp h))
  all_goals (refine ⟨?_, ?_⟩; simp [apply_ite State.pending]; intro hw; simp +contextual (maxDischargeDepth := 9) [apply_ite State.ram, apply_ite Mem.wf, hw])

@[simp] theorem State.endColl_keeps (s : State) (c : Coll) :
    (State.endColl s c).pending = s.pending ∧
      (s.ram.wf = true → (State.endColl s c).ram.wf = true) := by
  refine ⟨?_, ?_⟩; simp [State.endColl, apply_ite State.pending]; intro hw; simp [State.endColl, apply_ite State.ram, apply_ite Mem.wf, hw]

@[simp] theorem State.settle_keeps (s : State) (q : Nat) (tok : Nat) :
    (State.settle s q tok).pending = s.pending ∧
      (s.ram.wf = true → (State.settle s q tok).ram.wf = true) := by
  unfold State.settle; dsimp only
  repeat' (split <;> try (rename_i h; obtain ⟨rfl, -⟩ := Prod.ext_iff.mp h))
  all_goals (refine ⟨?_, ?_⟩; simp [apply_ite State.pending]; intro hw; simp +contextual (maxDischargeDepth := 9) [apply_ite State.ram, apply_ite Mem.wf, hw])

@[simp] theorem State.collRead_keeps (s : State) (c : Coll) (o : Nat) (n : Nat) :
    (State.collRead s c o n).1.pending = s.pending ∧
      (s.ram.wf = true → (State.collRead s c o n).1.ram.wf = true) := by
  unfold State.collRead
  (repeat' split) <;> (refine ⟨?_, ?_⟩; simp; intro hw; simp [hw])

@[simp] theorem State.collWrite_keeps (s : State) (c : Coll) (o : Nat) (bs : List Byte) :
    (State.collWrite s c o bs).1.pending = s.pending ∧
      (s.ram.wf = true → (State.collWrite s c o bs).1.ram.wf = true) := by
  unfold State.collWrite; dsimp only
  repeat' (split <;> try (rename_i h; obtain ⟨rfl, -⟩ := Prod.ext_iff.mp h))
  all_goals (refine ⟨?_, ?_⟩; simp [apply_ite State.pending]; intro hw; simp +contextual (maxDischargeDepth := 9) [apply_ite State.ram, apply_ite Mem.wf, hw])

@[simp] theorem State.collWrites'_keeps (s : State) (c : Coll) (a2 : List (Nat × List Byte)) :
    (State.collWrites' s c a2).1.pending = s.pending ∧
      (s.ram.wf = true → (State.collWrites' s c a2).1.ram.wf = true) := by
  induction a2 generalizing s c with
  | nil => exact ⟨rfl, id⟩
  | cons x xs ih => exact ⟨by simp [State.collWrites', ih], fun hw => by simp [State.collWrites', ih, hw]⟩

@[simp] theorem State.writeSegment_keeps (s : State) (c : Coll) (k : Nat) (bs : List Byte) :
    (State.writeSegment s c k bs).1.pending = s.pending ∧
      (s.ram.wf = true → (State.writeSegment s c k bs).1.ram.wf = true) := by
  unfold State.writeSegment
  (repeat' split) <;> (refine ⟨?_, ?_⟩; simp; intro hw; simp [hw])

@[simp] theorem State.poisonSeg_keeps (s : State) (n : Nat) :
    (State.poisonSeg s n).1.pending = s.pending ∧
      (State.poisonSeg s n).1.ram = s.ram := by
  exact ⟨rfl, rfl⟩

@[simp] theorem State.readRows_keeps (s : State) (c : Coll) (a : Nat) (n : Nat) (a4 : List Nat) (a5 : List (List Byte)) :
    (State.readRows s c a n a4 a5).1.pending = s.pending ∧
      (s.ram.wf = true → (State.readRows s c a n a4 a5).1.ram.wf = true) := by
  induction a4 generalizing s a5 with
  | nil => exact ⟨rfl, id⟩
  | cons x xs ih =>
    simp only [State.readRows]
    (repeat' split) <;> (rename_i h; obtain ⟨rfl, -⟩ := Prod.ext_iff.mp h) <;> exact ⟨by simp [ih], fun hw => by simp [ih, hw]⟩

@[simp] theorem State.readLists_keeps (s : State) (c : Coll) (l : Nat) (a3 : List Nat) (a4 : List Byte) :
    (State.readLists s c l a3 a4).1.pending = s.pending ∧
      (s.ram.wf = true → (State.readLists s c l a3 a4).1.ram.wf = true) := by
  induction a3 generalizing s a4 with
  | nil => exact ⟨rfl, id⟩
  | cons x xs ih =>
    simp only [State.readLists]
    (repeat' split) <;> (rename_i h; obtain ⟨rfl, -⟩ := Prod.ext_iff.mp h) <;> exact ⟨by simp [ih], fun hw => by simp [ih, hw]⟩

@[simp] theorem State.ownSegment_keeps (s : State) (c : Coll) (k : Nat) :
    (State.ownSegment s c k).1.pending = s.pending ∧
      (s.ram.wf = true → (State.ownSegment s c k).1.ram.wf = true) := by
  unfold State.ownSegment; dsimp only
  repeat' (split <;> try (rename_i h; obtain ⟨rfl, -⟩ := Prod.ext_iff.mp h))
  all_goals (refine ⟨?_, ?_⟩; simp [apply_ite State.pending]; intro hw; simp +contextual (maxDischargeDepth := 9) [apply_ite State.ram, apply_ite Mem.wf, hw])

@[simp] theorem State.ownFailed_keeps (s : State) (c : Coll) (a2 : Loaded) :
    (State.ownFailed s c a2).pending = s.pending ∧
      (s.ram.wf = true → (State.ownFailed s c a2).ram.wf = true) := by
  unfold State.ownFailed
  (repeat' split) <;> (refine ⟨?_, ?_⟩; simp; intro hw; simp [hw])

@[simp] theorem State.combineSegment_keeps (s : State) (c : Coll) (k : Nat) (own : List Byte) (ins : List CInput) :
    (State.combineSegment s c k own ins).1.pending = s.pending ∧
      (State.combineSegment s c k own ins).1.ram = s.ram := by
  unfold State.combineSegment
  (repeat' split) <;> simp

@[simp] theorem State.noteFallback_keeps (s : State) (c : Coll) (k : Nat) :
    (State.noteFallback s c k).pending = s.pending ∧
      (State.noteFallback s c k).ram = s.ram := by
  simp [State.noteFallback, apply_ite State.pending, apply_ite State.ram]

/-! ### Machine/CollRun.lean -/

@[simp] theorem State.residueFault_keeps (s : State) (c : Coll) (det : Nat) (k : Nat) :
    (State.residueFault s c det k).pending = s.pending ∧
      (s.ram.wf = true → (State.residueFault s c det k).ram.wf = true) := by
  refine ⟨?_, ?_⟩; simp [State.residueFault]; intro hw; simp [State.residueFault, hw]

@[simp] theorem State.poisonUp_keeps (s : State) (c : Coll) (k : Nat) :
    (State.poisonUp s c k).1.pending = s.pending ∧
      (State.poisonUp s c k).1.ram = s.ram := by
  unfold State.poisonUp; dsimp only
  repeat' (split <;> try (rename_i h; obtain ⟨rfl, -⟩ := Prod.ext_iff.mp h))
  all_goals simp

@[simp] theorem State.giveUp_keeps (s : State) (c : Coll) (down : Bool) (k : Nat) (status : Nat) :
    (State.giveUp s c down k status).pending = s.pending ∧
      (s.ram.wf = true → (State.giveUp s c down k status).ram.wf = true) := by
  unfold State.giveUp
  (repeat' split) <;> (refine ⟨?_, ?_⟩; simp; intro hw; simp [hw])

@[simp] theorem State.inputFailure_keeps (s : State) (c : Coll) (n : Nat) (i : CInput) (k : Nat) (cause : RetryCause) :
    (State.inputFailure s c n i k cause).pending = s.pending ∧
      (s.ram.wf = true → (State.inputFailure s c n i k cause).ram.wf = true) := by
  refine ⟨?_, ?_⟩; simp [State.inputFailure, apply_ite State.pending]; intro hw; simp [State.inputFailure, apply_ite State.ram, apply_ite Mem.wf, hw]

@[simp] theorem State.downPassed_keeps (s : State) (c : Coll) (i : CInput) (k : Nat) :
    (State.downPassed s c i k).pending = s.pending ∧
      (s.ram.wf = true → (State.downPassed s c i k).ram.wf = true) := by
  refine ⟨?_, ?_⟩; simp [State.downPassed]; intro hw; simp [State.downPassed, hw]

@[simp] theorem State.inputCheck_keeps (s : State) (c : Coll) (n : Nat) (k : Nat) :
    (State.inputCheck s c n k).pending = s.pending ∧
      (s.ram.wf = true → (State.inputCheck s c n k).ram.wf = true) := by
  unfold State.inputCheck; dsimp only
  repeat' (split <;> try (rename_i h; obtain ⟨rfl, -⟩ := Prod.ext_iff.mp h))
  all_goals (refine ⟨?_, ?_⟩; simp [apply_ite State.pending]; intro hw; simp +contextual (maxDischargeDepth := 9) [apply_ite State.ram, apply_ite Mem.wf, hw])

@[simp] theorem State.collSlot_keeps (s : State) (g : Nat) (sl : Slot) :
    (State.collSlot s g sl).pending = s.pending ∧
      (s.ram.wf = true → (State.collSlot s g sl).ram.wf = true) := by
  unfold State.collSlot; dsimp only
  repeat' (split <;> try (rename_i h; obtain ⟨rfl, -⟩ := Prod.ext_iff.mp h))
  all_goals (refine ⟨?_, ?_⟩; simp [apply_ite State.pending]; intro hw; simp +contextual (maxDischargeDepth := 9) [apply_ite State.ram, apply_ite Mem.wf, hw])

@[simp] theorem State.formNow_keeps (s : State) (c : Coll) (o : COutput) (k : Nat) :
    (State.formNow s c o k).1.pending = s.pending ∧
      (s.ram.wf = true → (State.formNow s c o k).1.ram.wf = true) := by
  unfold State.formNow; dsimp only
  repeat' (split <;> try (rename_i h; obtain ⟨rfl, -⟩ := Prod.ext_iff.mp h))
  all_goals (refine ⟨?_, ?_⟩; simp [apply_ite State.pending]; intro hw; simp +contextual (maxDischargeDepth := 9) [apply_ite State.ram, apply_ite Mem.wf, hw])

@[simp] theorem State.collSlotOut_keeps (s : State) (g : Nat) (lo : Bool) :
    (State.collSlotOut s g lo).1.pending = s.pending ∧
      (s.ram.wf = true → (State.collSlotOut s g lo).1.ram.wf = true) := by
  unfold State.collSlotOut; dsimp only
  repeat' (split <;> try (rename_i h; obtain ⟨rfl, -⟩ := Prod.ext_iff.mp h))
  all_goals (refine ⟨?_, ?_⟩; simp [apply_ite State.pending]; intro hw; simp +contextual (maxDischargeDepth := 9) [apply_ite State.ram, apply_ite Mem.wf, hw])

@[simp] theorem State.addResend_keeps (s : State) (c : Coll) (n : Nat) (k : Nat) (lost : Bool) :
    (State.addResend s c n k lost).pending = s.pending ∧
      (State.addResend s c n k lost).ram = s.ram := by
  unfold State.addResend; dsimp only
  repeat' (split <;> try (rename_i h; obtain ⟨rfl, -⟩ := Prod.ext_iff.mp h))
  all_goals simp

@[simp] theorem State.retryFor_keeps (s : State) (c : Coll) (n : Nat) (o : COutput) (k : Nat) (cause : Nat) :
    (State.retryFor s c n o k cause).pending = s.pending ∧
      (s.ram.wf = true → (State.retryFor s c n o k cause).ram.wf = true) := by
  refine ⟨?_, fun hw => ?_⟩
  · unfold State.retryFor; dsimp only; split
    · rw [forEach_pending _ _ _ fun n st => by split <;> simp]; simp
    · exact forEach_pending _ _ _ fun i st => by simp
  · unfold State.retryFor; dsimp only; split
    · refine forEach_wf _ _ _ (by simp [hw]) fun n st h => ?_
      split <;> simp [h]
    · exact forEach_wf _ _ _ hw fun i st h => by simp [h]

@[simp] theorem State.mergeSegment_keeps (s : State) (c : Coll) (k : Nat) :
    (State.mergeSegment s c k).1.pending = s.pending ∧
      (s.ram.wf = true → (State.mergeSegment s c k).1.ram.wf = true) := by
  unfold State.mergeSegment; dsimp only
  repeat' (split <;> try (rename_i h; obtain ⟨rfl, -⟩ := Prod.ext_iff.mp h))
  all_goals (refine ⟨?_, ?_⟩; simp [apply_ite State.pending]; intro hw; simp +contextual (maxDischargeDepth := 9) [apply_ite State.ram, apply_ite Mem.wf, hw])

@[simp] theorem State.combined_keeps (s : State) (c : Coll) (k : Nat) :
    (State.combined s c k).1.pending = s.pending ∧
      (s.ram.wf = true → (State.combined s c k).1.ram.wf = true) := by
  unfold State.combined; dsimp only
  repeat' (split <;> try (rename_i h; obtain ⟨rfl, -⟩ := Prod.ext_iff.mp h))
  all_goals (refine ⟨?_, ?_⟩; simp [apply_ite State.pending]; intro hw; simp +contextual (maxDischargeDepth := 9) [apply_ite State.ram, apply_ite Mem.wf, hw])

@[simp] theorem State.place_keeps (s : State) (c : Coll) (k : Nat) (bs : List Byte) :
    (State.place s c k bs).pending = s.pending ∧
      (s.ram.wf = true → (State.place s c k bs).ram.wf = true) := by
  refine ⟨?_, ?_⟩; simp [State.place, apply_ite State.pending]; intro hw; simp [State.place, apply_ite State.ram, apply_ite Mem.wf, hw]

@[simp] theorem State.combineStep_keeps (s : State) (c : Coll) (k : Nat) (adderFault : Bool) :
    (State.combineStep s c k adderFault).pending = s.pending ∧
      (s.ram.wf = true → (State.combineStep s c k adderFault).ram.wf = true) := by
  unfold State.combineStep; dsimp only
  repeat' (split <;> try (rename_i h; obtain ⟨rfl, -⟩ := Prod.ext_iff.mp h))
  all_goals (refine ⟨?_, ?_⟩; simp [apply_ite State.pending]; intro hw; simp +contextual (maxDischargeDepth := 9) [apply_ite State.ram, apply_ite Mem.wf, hw])

@[simp] theorem State.pitchData_keeps (s : State) (c : Coll) (a2 : List Nat) (a3 : List Byte) :
    (State.pitchData s c a2 a3).1.pending = s.pending ∧
      (s.ram.wf = true → (State.pitchData s c a2 a3).1.ram.wf = true) := by
  induction a2 generalizing s a3 with
  | nil => exact ⟨rfl, id⟩
  | cons x xs ih =>
    simp only [State.pitchData]
    (repeat' split) <;> (rename_i h; obtain ⟨rfl, -⟩ := Prod.ext_iff.mp h) <;> exact ⟨by simp [ih], fun hw => by simp [ih, hw]⟩

@[simp] theorem State.descantResult_keeps (s : State) (c : Coll) (bs : List Byte) :
    (State.descantResult s c bs).pending = s.pending ∧
      (s.ram.wf = true → (State.descantResult s c bs).ram.wf = true) := by
  refine ⟨?_, ?_⟩; simp [State.descantResult]; intro hw; simp [State.descantResult, hw]

@[simp] theorem State.descantStep_keeps (s : State) (c : Coll) (dop : Nat) (step : Nat) (data : List Byte) :
    (State.descantStep s c dop step data).pending = s.pending ∧
      (s.ram.wf = true → (State.descantStep s c dop step data).ram.wf = true) := by
  refine ⟨?_, ?_⟩; simp [State.descantStep, apply_ite State.pending]; intro hw; simp [State.descantStep, apply_ite State.ram, apply_ite Mem.wf, hw]

@[simp] theorem State.afterLeft_keeps (s : State) (dtree : Nat) (dop : Nat) (dseq : Nat) :
    (State.afterLeft s dtree dop dseq).pending = s.pending ∧
      (s.ram.wf = true → (State.afterLeft s dtree dop dseq).ram.wf = true) := by
  unfold State.afterLeft; dsimp only
  repeat' (split <;> try (rename_i h; obtain ⟨rfl, -⟩ := Prod.ext_iff.mp h))
  all_goals (refine ⟨?_, ?_⟩; simp [apply_ite State.pending]; intro hw; simp +contextual (maxDischargeDepth := 9) [apply_ite State.ram, apply_ite Mem.wf, hw])

@[simp] theorem State.contributeStep_keeps (s : State) (c : Coll) (step : Nat) (x : DCtx) :
    (State.contributeStep s c step x).pending = s.pending ∧
      (s.ram.wf = true → (State.contributeStep s c step x).ram.wf = true) := by
  simp only [State.contributeStep]
  repeat' (split <;> try (rename_i h; obtain ⟨rfl, -⟩ := Prod.ext_iff.mp h))
  all_goals (refine ⟨?_, ?_⟩; simp [apply_ite State.pending]; intro hw; simp +contextual (maxDischargeDepth := 9) [apply_ite State.ram, apply_ite Mem.wf, hw])

@[simp] theorem State.wideSteps_keeps (s : State) (c : Coll) :
    (State.wideSteps s c).pending = s.pending ∧
      (s.ram.wf = true → (State.wideSteps s c).ram.wf = true) := by
  have h0 := s.collRead_keeps c 0 (Cc.count c.cmd * Cc.inBytes c.cmd)
  unfold State.wideSteps; dsimp only
  generalize s.collRead c 0 (Cc.count c.cmd * Cc.inBytes c.cmd) = r at h0 ⊢
  obtain ⟨u, l⟩ := r
  cases l <;> dsimp only at h0 ⊢
  · split
    · exact ⟨by simp [h0], fun hw => by simp (maxDischargeDepth := 9) [h0, hw]⟩
    · refine ⟨?_, fun hw => ?_⟩
      · rw [forEach_pending _ _ _ fun n st => by split <;> simp]; simp [h0]
      · refine forEach_wf _ _ _ (by simp [h0, hw]) fun n st h => ?_
        split <;> simp [h]
  all_goals exact ⟨by simp [h0], fun hw => by simp [h0, hw]⟩

@[simp] theorem State.startDbcast_keeps (s : State) (c : Coll) (dfmt : Nat) :
    (State.startDbcast s c dfmt).pending = s.pending ∧
      (s.ram.wf = true → (State.startDbcast s c dfmt).ram.wf = true) := by
  unfold State.startDbcast; dsimp only
  repeat' (split <;> try (rename_i h; obtain ⟨rfl, -⟩ := Prod.ext_iff.mp h))
  all_goals (refine ⟨?_, ?_⟩; simp [apply_ite State.pending]; intro hw; simp +contextual (maxDischargeDepth := 9) [apply_ite State.ram, apply_ite Mem.wf, hw])

@[simp] theorem State.startDescant_keeps (s : State) (c : Coll) :
    (State.startDescant s c).pending = s.pending ∧
      (s.ram.wf = true → (State.startDescant s c).ram.wf = true) := by
  unfold State.startDescant; dsimp only
  repeat' (split <;> try (rename_i h; obtain ⟨rfl, -⟩ := Prod.ext_iff.mp h))
  all_goals (refine ⟨?_, ?_⟩; simp [apply_ite State.pending]; intro hw; simp +contextual (maxDischargeDepth := 9) [apply_ite State.ram, apply_ite Mem.wf, hw])

@[simp] theorem State.emptyResult_keeps (s : State) (c : Coll) :
    (State.emptyResult s c).pending = s.pending ∧
      (s.ram.wf = true → (State.emptyResult s c).ram.wf = true) := by
  refine ⟨?_, ?_⟩; simp [State.emptyResult, apply_ite State.pending]; intro hw; simp [State.emptyResult, apply_ite State.ram, apply_ite Mem.wf, hw]

@[simp] theorem State.injectLateness_keeps (s : State) (c : Coll) :
    (State.injectLateness s c).pending = s.pending ∧
      (State.injectLateness s c).ram = s.ram := by
  unfold State.injectLateness; dsimp only
  repeat' (split <;> try (rename_i h; obtain ⟨rfl, -⟩ := Prod.ext_iff.mp h))
  all_goals simp

@[simp] theorem State.openWindows_keeps (s : State) (c : Coll) :
    (State.openWindows s c).pending = s.pending ∧
      (State.openWindows s c).ram = s.ram := by
  simp [State.openWindows]

@[simp] theorem State.sizeColl_keeps (s : State) (c : Coll) :
    (State.sizeColl s c).pending = s.pending ∧
      (s.ram.wf = true → (State.sizeColl s c).ram.wf = true) := by
  refine ⟨?_, ?_⟩; simp [State.sizeColl, apply_ite State.pending]; intro hw; simp [State.sizeColl, apply_ite State.ram, apply_ite Mem.wf, hw]

@[simp] theorem State.chooseAlg_keeps (s : State) (c : Coll) (a : Alg) :
    (State.chooseAlg s c a).pending = s.pending ∧
      (s.ram.wf = true → (State.chooseAlg s c a).ram.wf = true) := by
  unfold State.chooseAlg; dsimp only
  repeat' (split <;> try (rename_i h; obtain ⟨rfl, -⟩ := Prod.ext_iff.mp h))
  all_goals (refine ⟨?_, ?_⟩; simp [apply_ite State.pending]; intro hw; simp +contextual (maxDischargeDepth := 9) [apply_ite State.ram, apply_ite Mem.wf, hw])

@[simp] theorem State.countedBcast_keeps (s : State) (c : Coll) :
    (State.countedBcast s c).pending = s.pending ∧
      (s.ram.wf = true → (State.countedBcast s c).ram.wf = true) := by
  refine ⟨?_, ?_⟩; simp [State.countedBcast, apply_ite State.pending]; intro hw; simp [State.countedBcast, apply_ite State.ram, apply_ite Mem.wf, hw]

@[simp] theorem State.takeCounts_keeps (s : State) (c : Coll) (data : List Byte) :
    (State.takeCounts s c data).pending = s.pending ∧
      (s.ram.wf = true → (State.takeCounts s c data).ram.wf = true) := by
  refine ⟨?_, ?_⟩; simp [State.takeCounts, apply_ite State.pending]; intro hw; simp [State.takeCounts, apply_ite State.ram, apply_ite Mem.wf, hw]

@[simp] theorem State.ownCount_keeps (s : State) (c : Coll) (a2 : List Nat) (a3 : Nat) :
    (State.ownCount s c a2 a3).1.pending = s.pending ∧
      (s.ram.wf = true → (State.ownCount s c a2 a3).1.ram.wf = true) := by
  induction a2 generalizing s a3 with
  | nil => exact ⟨rfl, id⟩
  | cons x xs ih =>
    simp only [State.ownCount]
    (repeat' split) <;> (rename_i h; obtain ⟨rfl, -⟩ := Prod.ext_iff.mp h) <;> exact ⟨by simp [ih], fun hw => by simp [ih, hw]⟩

@[simp] theorem State.countValue_keeps (s : State) (c : Coll) :
    (State.countValue s c).1.pending = s.pending ∧
      (s.ram.wf = true → (State.countValue s c).1.ram.wf = true) := by
  unfold State.countValue
  (repeat' split) <;> (refine ⟨?_, ?_⟩; simp; intro hw; simp [hw])

@[simp] theorem State.proceed_keeps (s : State) (c : Coll) :
    (State.proceed s c).pending = s.pending ∧
      (s.ram.wf = true → (State.proceed s c).ram.wf = true) := by
  unfold State.proceed; dsimp only
  repeat' (split <;> try (rename_i h; obtain ⟨rfl, -⟩ := Prod.ext_iff.mp h))
  all_goals (refine ⟨?_, ?_⟩; simp [apply_ite State.pending]; intro hw; simp +contextual (maxDischargeDepth := 9) [apply_ite State.ram, apply_ite Mem.wf, hw])

@[simp] theorem State.givenCommand_keeps (s : State) (c : Coll) (g : Given) :
    (State.givenCommand s c g).pending = s.pending ∧
      (s.ram.wf = true → (State.givenCommand s c g).ram.wf = true) := by
  unfold State.givenCommand; dsimp only
  repeat' (split <;> try (rename_i h; obtain ⟨rfl, -⟩ := Prod.ext_iff.mp h))
  all_goals (refine ⟨?_, ?_⟩; simp [apply_ite State.pending]; intro hw; simp +contextual (maxDischargeDepth := 9) [apply_ite State.ram, apply_ite Mem.wf, hw])

@[simp] theorem State.givenBarrier_keeps (s : State) (b : Nat) (data : List Byte) :
    (State.givenBarrier s b data).pending = s.pending ∧
      (s.ram.wf = true → (State.givenBarrier s b data).ram.wf = true) := by
  refine ⟨?_, ?_⟩; simp [State.givenBarrier, apply_ite State.pending]; intro hw; simp [State.givenBarrier, apply_ite State.ram, apply_ite Mem.wf, hw]

@[simp] theorem State.given_keeps (s : State) (g : Given) :
    (State.given s g).pending = s.pending ∧
      (s.ram.wf = true → (State.given s g).ram.wf = true) := by
  unfold State.given
  (repeat' split) <;> (refine ⟨?_, ?_⟩; simp; intro hw; simp [hw])

@[simp] theorem State.descantArrive_keeps (s : State) (g : Nat) (op : Descant) :
    (State.descantArrive s g op).pending = s.pending ∧
      (s.ram.wf = true → (State.descantArrive s g op).ram.wf = true) := by
  simp only [State.descantArrive]
  repeat' (split <;> try (rename_i h; obtain ⟨rfl, -⟩ := Prod.ext_iff.mp h))
  all_goals (refine ⟨?_, ?_⟩; simp [apply_ite State.pending]; intro hw; simp +contextual (maxDischargeDepth := 9) [apply_ite State.ram, apply_ite Mem.wf, hw])

@[simp] theorem State.descantDepart_keeps (s : State) (p : Nat) :
    (State.descantDepart s p).1.pending = s.pending ∧
      (s.ram.wf = true → (State.descantDepart s p).1.ram.wf = true) := by
  unfold State.descantDepart
  (repeat' split) <;> (refine ⟨?_, ?_⟩; simp; intro hw; simp [hw])

/-! ### Machine/Mamus.lean -/

@[simp] theorem State.branch_keeps (s : State) (q : Nat) (idx : Word) (c : BitVec 512) (t : Word) (o : Nat) :
    (State.branch s q idx c t o).pending = s.pending ∧
      (s.ram.wf = true → (State.branch s q idx c t o).ram.wf = true) := by
  refine ⟨?_, ?_⟩; simp [State.branch, apply_ite State.pending]; intro hw; simp [State.branch, apply_ite State.ram, apply_ite Mem.wf, hw]

@[simp] theorem State.pushPin_keeps (s : State) (q : Nat) (p : Word) :
    (State.pushPin s q p).pending = s.pending ∧
      (State.pushPin s q p).ram = s.ram := by
  exact ⟨rfl, rfl⟩

@[simp] theorem State.popPin_keeps (s : State) (q : Nat) :
    (State.popPin s q).pending = s.pending ∧
      (State.popPin s q).ram = s.ram := by
  exact ⟨rfl, rfl⟩

@[simp] theorem State.setSreg_keeps (s : State) (q : Nat) (r : Nat) (v : DWord) :
    (State.setSreg s q r v).pending = s.pending ∧
      (State.setSreg s q r v).ram = s.ram := by
  exact ⟨rfl, rfl⟩

theorem execNop_keeps (q : Nat) (s : State) :
    ∀ t', execNop q s = .next t' → t'.pending = s.pending ∧ (s.ram.wf = true → t'.ram.wf = true) := by
  intro t h; simp only [execNop, within_next] at h; obtain ⟨-, rfl⟩ := h; (refine ⟨?_, ?_⟩; simp [apply_ite State.pending]; intro hw; simp +contextual (maxDischargeDepth := 9) [apply_ite State.ram, apply_ite Mem.wf, hw])

theorem execJump_keeps (q : Nat) (s : State) :
    ∀ t', execJump q s = .next t' → t'.pending = s.pending ∧ (s.ram.wf = true → t'.ram.wf = true) := by
  intro t h; simp only [execJump, within_next] at h; obtain ⟨-, rfl⟩ := h; (refine ⟨?_, ?_⟩; simp [apply_ite State.pending]; intro hw; simp +contextual (maxDischargeDepth := 9) [apply_ite State.ram, apply_ite Mem.wf, hw])

@[simp] theorem State.loopBegin_keeps (s : State) (q : Nat) (idx : Word) (c : BitVec 512) :
    (State.loopBegin s q idx c).pending = s.pending ∧
      (s.ram.wf = true → (State.loopBegin s q idx c).ram.wf = true) := by
  refine ⟨?_, ?_⟩; simp [State.loopBegin, apply_ite State.pending]; intro hw; simp [State.loopBegin, apply_ite State.ram, apply_ite Mem.wf, hw]

@[simp] theorem State.loopEnd_keeps (s : State) (q : Nat) (idx : Word) (c : BitVec 512) :
    (State.loopEnd s q idx c).pending = s.pending ∧
      (s.ram.wf = true → (State.loopEnd s q idx c).ram.wf = true) := by
  unfold State.loopEnd; dsimp only
  repeat' (split <;> try (rename_i h; obtain ⟨rfl, -⟩ := Prod.ext_iff.mp h))
  all_goals (refine ⟨?_, ?_⟩; simp [apply_ite State.pending]; intro hw; simp +contextual (maxDischargeDepth := 9) [apply_ite State.ram, apply_ite Mem.wf, hw])

theorem execLoop_keeps (q : Nat) (s : State) :
    ∀ t', execLoop q s = .next t' → t'.pending = s.pending ∧ (s.ram.wf = true → t'.ram.wf = true) := by
  intro t h; simp only [execLoop, within_next] at h; obtain ⟨-, rfl⟩ := h; (refine ⟨?_, ?_⟩; simp [apply_ite State.pending]; intro hw; simp +contextual (maxDischargeDepth := 9) [apply_ite State.ram, apply_ite Mem.wf, hw])

theorem execCall_keeps (q : Nat) (s : State) :
    ∀ t', execCall q s = .next t' → t'.pending = s.pending ∧ (s.ram.wf = true → t'.ram.wf = true) := by
  intro t h; simp only [execCall, within_next] at h; obtain ⟨-, rfl⟩ := h; (refine ⟨?_, ?_⟩; simp [apply_ite State.pending]; intro hw; simp +contextual (maxDischargeDepth := 9) [apply_ite State.ram, apply_ite Mem.wf, hw])

theorem execRet_keeps (q : Nat) (s : State) :
    ∀ t', execRet q s = .next t' → t'.pending = s.pending ∧ (s.ram.wf = true → t'.ram.wf = true) := by
  intro t h; simp only [execRet, within_next] at h; obtain ⟨-, rfl⟩ := h
  refine ⟨State.runHead_pending _ _ _ _ _ fun s i c => ?_, fun hw => State.runHead_wf _ _ _ _ _ hw fun s i c hw => ?_⟩ <;> (try dsimp only) <;> (repeat' split) <;> simp +contextual (maxDischargeDepth := 9) [*]

theorem execHalt_keeps (q : Nat) (s : State) :
    ∀ t', execHalt q s = .next t' → t'.pending = s.pending ∧ (s.ram.wf = true → t'.ram.wf = true) := by
  intro t h; simp only [execHalt, within_next] at h; obtain ⟨-, rfl⟩ := h; (refine ⟨?_, ?_⟩; simp [apply_ite State.pending]; intro hw; simp +contextual (maxDischargeDepth := 9) [apply_ite State.ram, apply_ite Mem.wf, hw])

theorem execSets_keeps (q : Nat) (s : State) :
    ∀ t', execSets q s = .next t' → t'.pending = s.pending ∧ (s.ram.wf = true → t'.ram.wf = true) := by
  intro t h; simp only [execSets, within_next] at h; obtain ⟨-, rfl⟩ := h; (refine ⟨?_, ?_⟩; simp [apply_ite State.pending]; intro hw; simp +contextual (maxDischargeDepth := 9) [apply_ite State.ram, apply_ite Mem.wf, hw])

theorem execAdds_keeps (q : Nat) (s : State) :
    ∀ t', execAdds q s = .next t' → t'.pending = s.pending ∧ (s.ram.wf = true → t'.ram.wf = true) := by
  intro t h; simp only [execAdds, within_next] at h; obtain ⟨-, rfl⟩ := h; (refine ⟨?_, ?_⟩; simp [apply_ite State.pending]; intro hw; simp +contextual (maxDischargeDepth := 9) [apply_ite State.ram, apply_ite Mem.wf, hw])

theorem execBrs_keeps (q : Nat) (s : State) :
    ∀ t', execBrs q s = .next t' → t'.pending = s.pending ∧ (s.ram.wf = true → t'.ram.wf = true) := by
  intro t h; simp only [execBrs, within_next] at h; obtain ⟨-, rfl⟩ := h; (refine ⟨?_, ?_⟩; simp [apply_ite State.pending]; intro hw; simp +contextual (maxDischargeDepth := 9) [apply_ite State.ram, apply_ite Mem.wf, hw])

@[simp] theorem State.timeHead_keeps (s : State) (q : Nat) (idx : Word) (c : BitVec 512) (target : Stamp → Stamp) :
    (State.timeHead s q idx c target).pending = s.pending ∧
      (s.ram.wf = true → (State.timeHead s q idx c target).ram.wf = true) := by
  refine ⟨?_, ?_⟩; simp [State.timeHead, apply_ite State.pending]; intro hw; simp [State.timeHead, apply_ite State.ram, apply_ite Mem.wf, hw]

theorem execAtBeat_keeps (q : Nat) (s : State) :
    ∀ t', execAtBeat q s = .next t' → t'.pending = s.pending ∧ (s.ram.wf = true → t'.ram.wf = true) := by
  intro t h; simp only [execAtBeat, within_next] at h; obtain ⟨-, rfl⟩ := h; (refine ⟨?_, ?_⟩; simp [apply_ite State.pending]; intro hw; simp +contextual (maxDischargeDepth := 9) [apply_ite State.ram, apply_ite Mem.wf, hw])

theorem execAtDownbeat_keeps (q : Nat) (s : State) :
    ∀ t', execAtDownbeat q s = .next t' → t'.pending = s.pending ∧ (s.ram.wf = true → t'.ram.wf = true) := by
  intro t h; simp only [execAtDownbeat, within_next] at h; obtain ⟨-, rfl⟩ := h; (refine ⟨?_, ?_⟩; simp [apply_ite State.pending]; intro hw; simp +contextual (maxDischargeDepth := 9) [apply_ite State.ram, apply_ite Mem.wf, hw])

theorem execRecord_keeps (q : Nat) (s : State) :
    ∀ t', execRecord q s = .next t' → t'.pending = s.pending ∧ (s.ram.wf = true → t'.ram.wf = true) := by
  intro t h; simp only [execRecord, within_next] at h; obtain ⟨-, rfl⟩ := h
  refine ⟨State.runHead_pending _ _ _ _ _ fun s i c => ?_, fun hw => State.runHead_wf _ _ _ _ _ hw fun s i c hw => ?_⟩
  all_goals (split <;> (rename_i h; obtain ⟨rfl, -⟩ := Prod.ext_iff.mp h))
  all_goals first | (simp; done) | simp (maxDischargeDepth := 9) [hw]

theorem execMark_keeps (q : Nat) (s : State) :
    ∀ t', execMark q s = .next t' → t'.pending = s.pending ∧ (s.ram.wf = true → t'.ram.wf = true) := by
  intro t h; simp only [execMark, within_next] at h; obtain ⟨-, rfl⟩ := h; (refine ⟨?_, ?_⟩; simp [apply_ite State.pending]; intro hw; simp +contextual (maxDischargeDepth := 9) [apply_ite State.ram, apply_ite Mem.wf, hw])

/-! ### Machine/DmaOps.lean -/

@[simp] theorem State.endXfer_keeps (s : State) (ch : Nat) (d : Done) :
    (State.endXfer s ch d).pending = s.pending ∧
      (State.endXfer s ch d).ram = s.ram := by
  simp [State.endXfer, apply_ite State.pending, apply_ite State.ram]

@[simp] theorem State.failXfer_keeps (s : State) (ch : Nat) (status : Nat) (detail : Nat) :
    (State.failXfer s ch status detail).pending = s.pending ∧
      (State.failXfer s ch status detail).ram = s.ram := by
  simp [State.failXfer]

@[simp] theorem State.badXfer_keeps (s : State) (ch : Nat) (cause : Nat) (offset : Nat) :
    (State.badXfer s ch cause offset).pending = s.pending ∧
      (State.badXfer s ch cause offset).ram = s.ram := by
  simp [State.badXfer]

@[simp] theorem State.narrowXfer_keeps (s : State) (ch : Nat) (a : Nat) :
    (State.narrowXfer s ch a).pending = s.pending ∧
      (State.narrowXfer s ch a).ram = s.ram := by
  unfold State.narrowXfer
  (repeat' split) <;> simp

@[simp] theorem State.ueXfer_keeps (s : State) (ch : Nat) (det : Nat) (page : Nat) :
    (State.ueXfer s ch det page).pending = s.pending ∧
      (s.ram.wf = true → (State.ueXfer s ch det page).ram.wf = true) := by
  refine ⟨?_, ?_⟩; simp [State.ueXfer]; intro hw; simp [State.ueXfer, hw]

@[simp] theorem State.issuedAll_keeps (s : State) (ch : Nat) :
    (State.issuedAll s ch).pending = s.pending ∧
      (State.issuedAll s ch).ram = s.ram := by
  unfold State.issuedAll; dsimp only
  repeat' (split <;> try (rename_i h; obtain ⟨rfl, -⟩ := Prod.ext_iff.mp h))
  all_goals simp

@[simp] theorem State.sendReserve_keeps (s : State) (ch : Nat) :
    (State.sendReserve s ch).pending = s.pending ∧
      (State.sendReserve s ch).ram = s.ram := by
  unfold State.sendReserve; dsimp only
  repeat' (split <;> try (rename_i h; obtain ⟨rfl, -⟩ := Prod.ext_iff.mp h))
  all_goals simp

@[simp] theorem State.runXfer_keeps (s : State) (ch : Nat) (d : DmaSet) :
    (State.runXfer s ch d).pending = s.pending ∧
      (State.runXfer s ch d).ram = s.ram := by
  simp [State.runXfer]

@[simp] theorem State.startXfer_keeps (s : State) (ch : Nat) :
    (State.startXfer s ch).pending = s.pending ∧
      (State.startXfer s ch).ram = s.ram := by
  unfold State.startXfer; dsimp only
  repeat' (split <;> try (rename_i h; obtain ⟨rfl, -⟩ := Prod.ext_iff.mp h))
  all_goals simp

@[simp] theorem State.chanRefused_keeps (s : State) (ch : Nat) :
    (State.chanRefused s ch).pending = s.pending ∧
      (State.chanRefused s ch).ram = s.ram := by
  simp [State.chanRefused]

@[simp] theorem State.setRefused_keeps (s : State) (ch : Nat) :
    (State.setRefused s ch).pending = s.pending ∧
      (State.setRefused s ch).ram = s.ram := by
  simp [State.setRefused]

@[simp] theorem State.goChan_keeps (s : State) (ch : Nat) :
    (State.goChan s ch).pending = s.pending ∧
      (State.goChan s ch).ram = s.ram := by
  simp [State.goChan, apply_ite State.pending, apply_ite State.ram]

@[simp] theorem State.promote_keeps (s : State) (ch : Nat) :
    (State.promote s ch).pending = s.pending ∧
      (State.promote s ch).ram = s.ram := by
  simp [State.promote]

@[simp] theorem State.operandBytes_keeps (s : State) (ch : Nat) (use : HostUse) (host : Bool) (a : Nat) (n : Nat) :
    (State.operandBytes s ch use host a n).1.pending = s.pending ∧
      (s.ram.wf = true → (State.operandBytes s ch use host a n).1.ram.wf = true) := by
  unfold State.operandBytes; dsimp only
  repeat' (split <;> try (rename_i h; obtain ⟨rfl, -⟩ := Prod.ext_iff.mp h))
  all_goals (refine ⟨?_, ?_⟩; simp [apply_ite State.pending]; intro hw; simp +contextual (maxDischargeDepth := 9) [apply_ite State.ram, apply_ite Mem.wf, hw])

@[simp] theorem State.putBytes_keeps (s : State) (ch : Nat) (host : Bool) (a : Nat) (bs : List Byte) :
    (State.putBytes s ch host a bs).1.pending = s.pending ∧
      (s.ram.wf = true → (State.putBytes s ch host a bs).1.ram.wf = true) := by
  unfold State.putBytes; dsimp only
  repeat' (split <;> try (rename_i h; obtain ⟨rfl, -⟩ := Prod.ext_iff.mp h))
  all_goals (refine ⟨?_, ?_⟩; simp [apply_ite State.pending]; intro hw; simp +contextual (maxDischargeDepth := 9) [apply_ite State.ram, apply_ite Mem.wf, hw])

@[simp] theorem State.moved_keeps (s : State) (ch : Nat) (n : Nat) :
    (State.moved s ch n).pending = s.pending ∧
      (State.moved s ch n).ram = s.ram := by
  exact ⟨rfl, rfl⟩

@[simp] theorem State.ifAll_keeps (s : State) (ch : Nat) :
    (State.ifAll s ch).pending = s.pending ∧
      (State.ifAll s ch).ram = s.ram := by
  simp [State.ifAll, apply_ite State.pending, apply_ite State.ram]

@[simp] theorem State.burstPlain_keeps (s : State) (ch : Nat) :
    (State.burstPlain s ch).pending = s.pending ∧
      (s.ram.wf = true → (State.burstPlain s ch).ram.wf = true) := by
  unfold State.burstPlain; dsimp only
  repeat' (split <;> try (rename_i h; obtain ⟨rfl, -⟩ := Prod.ext_iff.mp h))
  all_goals (refine ⟨?_, ?_⟩; simp [apply_ite State.pending]; intro hw; simp +contextual (maxDischargeDepth := 9) [apply_ite State.ram, apply_ite Mem.wf, hw])

@[simp] theorem State.compareEnd_keeps (s : State) (ch : Nat) :
    (State.compareEnd s ch).pending = s.pending ∧
      (s.ram.wf = true → (State.compareEnd s ch).ram.wf = true) := by
  unfold State.compareEnd; dsimp only
  repeat' (split <;> try (rename_i h; obtain ⟨rfl, -⟩ := Prod.ext_iff.mp h))
  all_goals (refine ⟨?_, ?_⟩; simp [apply_ite State.pending]; intro hw; simp +contextual (maxDischargeDepth := 9) [apply_ite State.ram, apply_ite Mem.wf, hw])

@[simp] theorem State.burstCompare_keeps (s : State) (ch : Nat) :
    (State.burstCompare s ch).pending = s.pending ∧
      (s.ram.wf = true → (State.burstCompare s ch).ram.wf = true) := by
  refine ⟨?_, fun hw => ?_⟩
  all_goals
    unfold State.burstCompare; dsimp only
    repeat' (split <;> try (rename_i h; obtain ⟨rfl, -⟩ := Prod.ext_iff.mp h))
  all_goals first | (simp; done) | simp (maxDischargeDepth := 9) [hw]

@[simp] theorem State.entryAtHand_keeps (s : State) (ch : Nat) :
    (State.entryAtHand s ch).1.pending = s.pending ∧
      (s.ram.wf = true → (State.entryAtHand s ch).1.ram.wf = true) := by
  unfold State.entryAtHand; dsimp only
  repeat' (split <;> try (rename_i h; obtain ⟨rfl, -⟩ := Prod.ext_iff.mp h))
  all_goals (refine ⟨?_, ?_⟩; simp [apply_ite State.pending]; intro hw; simp +contextual (maxDischargeDepth := 9) [apply_ite State.ram, apply_ite Mem.wf, hw])

@[simp] theorem State.nextEntry_keeps (s : State) (ch : Nat) :
    (State.nextEntry s ch).pending = s.pending ∧
      (State.nextEntry s ch).ram = s.ram := by
  exact ⟨rfl, rfl⟩

@[simp] theorem State.entryMoved_keeps (s : State) (ch : Nat) (n : Nat) (len : Nat) :
    (State.entryMoved s ch n len).pending = s.pending ∧
      (State.entryMoved s ch n len).ram = s.ram := by
  simp [State.entryMoved, apply_ite State.pending, apply_ite State.ram]

@[simp] theorem State.badEntry_keeps (s : State) (ch : Nat) (entry : Nat) (cause : Nat) :
    (State.badEntry s ch entry cause).pending = s.pending ∧
      (State.badEntry s ch entry cause).ram = s.ram := by
  simp [State.badEntry]

@[simp] theorem State.burstEntry_keeps (s : State) (ch : Nat) (e : ListEntry) :
    (State.burstEntry s ch e).pending = s.pending ∧
      (s.ram.wf = true → (State.burstEntry s ch e).ram.wf = true) := by
  unfold State.burstEntry; dsimp only
  repeat' (split <;> try (rename_i h; obtain ⟨rfl, -⟩ := Prod.ext_iff.mp h))
  all_goals (refine ⟨?_, ?_⟩; simp [apply_ite State.pending]; intro hw; simp +contextual (maxDischargeDepth := 9) [apply_ite State.ram, apply_ite Mem.wf, hw])

@[simp] theorem State.burstListed_keeps (s : State) (ch : Nat) :
    (State.burstListed s ch).pending = s.pending ∧
      (s.ram.wf = true → (State.burstListed s ch).ram.wf = true) := by
  unfold State.burstListed; dsimp only
  repeat' (split <;> try (rename_i h; obtain ⟨rfl, -⟩ := Prod.ext_iff.mp h))
  all_goals (refine ⟨?_, ?_⟩; simp [apply_ite State.pending]; intro hw; simp +contextual (maxDischargeDepth := 9) [apply_ite State.ram, apply_ite Mem.wf, hw])

@[simp] theorem State.lateFailure_keeps (s : State) (ch : Nat) (owner : Option Nat) (remote : Bool) (a : Nat) :
    (State.lateFailure s ch owner remote a).pending = s.pending ∧
      (s.ram.wf = true → (State.lateFailure s ch owner remote a).ram.wf = true) := by
  unfold State.lateFailure
  (repeat' split) <;> (refine ⟨?_, ?_⟩; simp; intro hw; simp [hw])

@[simp] theorem State.closeTrail_keeps (s : State) (ch : Nat) :
    (State.closeTrail s ch).pending = s.pending ∧
      (State.closeTrail s ch).ram = s.ram := by
  simp [State.closeTrail]

@[simp] theorem State.failSide_keeps (s : State) (ch : Nat) (trail : Bool) (r : RemoteTx) (status : Nat) (detail : Nat) (seg : Nat) :
    (State.failSide s ch trail r status detail seg).pending = s.pending ∧
      (s.ram.wf = true → (State.failSide s ch trail r status detail seg).ram.wf = true) := by
  refine ⟨?_, ?_⟩; simp [State.failSide, apply_ite State.pending]; intro hw; simp [State.failSide, apply_ite State.ram, apply_ite Mem.wf, hw]

@[simp] theorem State.ueSide_keeps (s : State) (ch : Nat) (trail : Bool) (r : RemoteTx) (seg : Nat) (det : Nat) (page : Nat) :
    (State.ueSide s ch trail r seg det page).pending = s.pending ∧
      (s.ram.wf = true → (State.ueSide s ch trail r seg det page).ram.wf = true) := by
  refine ⟨?_, ?_⟩; simp [State.ueSide]; intro hw; simp [State.ueSide, hw]

@[simp] theorem State.burstRemote_keeps (s : State) (ch : Nat) (trail : Bool) :
    (State.burstRemote s ch trail).pending = s.pending ∧
      (s.ram.wf = true → (State.burstRemote s ch trail).ram.wf = true) := by
  unfold State.burstRemote; dsimp only
  repeat' (split <;> try (rename_i h; obtain ⟨rfl, -⟩ := Prod.ext_iff.mp h))
  all_goals (refine ⟨?_, ?_⟩; simp [apply_ite State.pending]; intro hw; simp +contextual (maxDischargeDepth := 9) [apply_ite State.ram, apply_ite Mem.wf, hw])

@[simp] theorem State.burst_keeps (s : State) (ch : Nat) :
    (State.burst s ch).pending = s.pending ∧
      (s.ram.wf = true → (State.burst s ch).ram.wf = true) := by
  unfold State.burst; dsimp only
  repeat' (split <;> try (rename_i h; obtain ⟨rfl, -⟩ := Prod.ext_iff.mp h))
  all_goals (refine ⟨?_, ?_⟩; simp [apply_ite State.pending]; intro hw; simp +contextual (maxDischargeDepth := 9) [apply_ite State.ram, apply_ite Mem.wf, hw])

@[simp] theorem State.dmaTurn_keeps (s : State) :
    (State.dmaTurn s).pending = s.pending ∧
      (s.ram.wf = true → (State.dmaTurn s).ram.wf = true) := by
  unfold State.dmaTurn
  (repeat' split) <;> (refine ⟨?_, ?_⟩; simp; intro hw; simp [hw])

@[simp] theorem State.streamOwn_keeps (s : State) (g : Nat) :
    (State.streamOwn s g).1.pending = s.pending ∧
      (State.streamOwn s g).1.ram = s.ram := by
  unfold State.streamOwn; dsimp only
  repeat' (split <;> try (rename_i h; obtain ⟨rfl, -⟩ := Prod.ext_iff.mp h))
  all_goals simp

@[simp] theorem State.streamConfirm_keeps (s : State) (m : Cue) :
    (State.streamConfirm s m).pending = s.pending ∧
      (State.streamConfirm s m).ram = s.ram := by
  unfold State.streamConfirm
  (repeat' split) <;> simp

@[simp] theorem State.streamRelease_keeps (s : State) (m : Cue) :
    (State.streamRelease s m).pending = s.pending ∧
      (State.streamRelease s m).ram = s.ram := by
  unfold State.streamRelease; dsimp only
  repeat' (split <;> try (rename_i h; obtain ⟨rfl, -⟩ := Prod.ext_iff.mp h))
  all_goals simp

@[simp] theorem State.resendSegment_keeps (s : State) (ch : Nat) (trail : Bool) (r : RemoteTx) (j : Nat) :
    (State.resendSegment s ch trail r j).pending = s.pending ∧
      (s.ram.wf = true → (State.resendSegment s ch trail r j).ram.wf = true) := by
  refine ⟨?_, ?_⟩; simp [State.resendSegment, apply_ite State.pending]; intro hw; simp [State.resendSegment, apply_ite State.ram, apply_ite Mem.wf, hw]

@[simp] theorem State.streamRetry_keeps (s : State) (m : Cue) :
    (State.streamRetry s m).pending = s.pending ∧
      (s.ram.wf = true → (State.streamRetry s m).ram.wf = true) := by
  unfold State.streamRetry; dsimp only
  repeat' (split <;> try (rename_i h; obtain ⟨rfl, -⟩ := Prod.ext_iff.mp h))
  all_goals (refine ⟨?_, ?_⟩; simp [apply_ite State.pending]; intro hw; simp +contextual (maxDischargeDepth := 9) [apply_ite State.ram, apply_ite Mem.wf, hw])

@[simp] theorem State.sideStall_keeps (s : State) (ch : Nat) (trail : Bool) :
    (State.sideStall s ch trail).pending = s.pending ∧
      (s.ram.wf = true → (State.sideStall s ch trail).ram.wf = true) := by
  unfold State.sideStall
  (repeat' split) <;> (refine ⟨?_, ?_⟩; simp; intro hw; simp [hw])

@[simp] theorem State.chanDownbeat_keeps (s : State) (ch : Nat) :
    (State.chanDownbeat s ch).pending = s.pending ∧
      (State.chanDownbeat s ch).ram = s.ram := by
  simp [State.chanDownbeat]

@[simp] theorem State.chanLost_keeps (s : State) (x : Nat) (ch : Nat) :
    (State.chanLost s x ch).pending = s.pending ∧
      (s.ram.wf = true → (State.chanLost s x ch).ram.wf = true) := by
  unfold State.chanLost; dsimp only
  repeat' (split <;> try (rename_i h; obtain ⟨rfl, -⟩ := Prod.ext_iff.mp h))
  all_goals (refine ⟨?_, ?_⟩; simp [apply_ite State.pending]; intro hw; simp +contextual (maxDischargeDepth := 9) [apply_ite State.ram, apply_ite Mem.wf, hw])

@[simp] theorem State.answered_keeps (s : State) (ch : Nat) :
    (State.answered s ch).pending = s.pending ∧
      (State.answered s ch).ram = s.ram := by
  simp [State.answered, apply_ite State.pending, apply_ite State.ram]

@[simp] theorem State.softRecord_keeps (s : State) (ch : Nat) (d : Done) :
    (State.softRecord s ch d).pending = s.pending ∧
      (s.ram.wf = true → (State.softRecord s ch d).ram.wf = true) := by
  unfold State.softRecord; dsimp only
  repeat' (split <;> try (rename_i h; obtain ⟨rfl, -⟩ := Prod.ext_iff.mp h))
  all_goals (refine ⟨?_, ?_⟩; simp [apply_ite State.pending]; intro hw; simp +contextual (maxDischargeDepth := 9) [apply_ite State.ram, apply_ite Mem.wf, hw])

@[simp] theorem State.softEnd_keeps (s : State) (ch : Nat) (d : Done) :
    (State.softEnd s ch d).pending = s.pending ∧
      (s.ram.wf = true → (State.softEnd s ch d).ram.wf = true) := by
  refine ⟨?_, ?_⟩; simp [State.softEnd, apply_ite State.pending]; intro hw; simp [State.softEnd, apply_ite State.ram, apply_ite Mem.wf, hw]

@[simp] theorem State.completeXfer_keeps (s : State) (ch : Nat) :
    (State.completeXfer s ch).pending = s.pending ∧
      (s.ram.wf = true → (State.completeXfer s ch).ram.wf = true) := by
  unfold State.completeXfer; dsimp only
  repeat' (split <;> try (rename_i h; obtain ⟨rfl, -⟩ := Prod.ext_iff.mp h))
  all_goals (refine ⟨?_, ?_⟩; simp [apply_ite State.pending]; intro hw; simp +contextual (maxDischargeDepth := 9) [apply_ite State.ram, apply_ite Mem.wf, hw])

/-! ### Machine/DmaLand.lean -/

@[simp] theorem State.writeLandCtrl_keeps (s : State) (w : Nat) (v : Nat) :
    (State.writeLandCtrl s w v).pending = s.pending ∧
      (State.writeLandCtrl s w v).ram = s.ram := by
  simp [State.writeLandCtrl, apply_ite State.pending, apply_ite State.ram]

@[simp] theorem State.putStream_keeps (s : State) (x : StreamRx) :
    (State.putStream s x).pending = s.pending ∧
      (State.putStream s x).ram = s.ram := by
  exact ⟨rfl, rfl⟩

@[simp] theorem State.tellSource_keeps (s : State) (source : Nat) (typ : Nat) (optag : Nat) (v : Nat) (cause : Nat) :
    (State.tellSource s source typ optag v cause).1.pending = s.pending ∧
      (State.tellSource s source typ optag v cause).1.ram = s.ram := by
  simp [State.tellSource]

@[simp] theorem State.releaseStream_keeps (s : State) (x : StreamRx) :
    (State.releaseStream s x).pending = s.pending ∧
      (State.releaseStream s x).ram = s.ram := by
  unfold State.releaseStream; dsimp only
  repeat' (split <;> try (rename_i h; obtain ⟨rfl, -⟩ := Prod.ext_iff.mp h))
  all_goals simp

@[simp] theorem State.dropLanding_keeps (s : State) (source : Nat) (optag : Nat) (seg : Option Nat) :
    (State.dropLanding s source optag seg).pending = s.pending ∧
      (State.dropLanding s source optag seg).ram = s.ram := by
  exact ⟨rfl, rfl⟩

@[simp] theorem State.streamReserve_keeps (s : State) (m : Cue) :
    (State.streamReserve s m).pending = s.pending ∧
      (State.streamReserve s m).ram = s.ram := by
  simp [State.streamReserve, apply_ite State.pending, apply_ite State.ram]

@[simp] theorem State.landPage_keeps (s : State) (x : StreamRx) (pg : Nat) :
    (State.landPage s x pg).pending = s.pending ∧
      (s.ram.wf = true → (State.landPage s x pg).ram.wf = true) := by
  unfold State.landPage; dsimp only
  repeat' (split <;> try (rename_i h; obtain ⟨rfl, -⟩ := Prod.ext_iff.mp h))
  all_goals (refine ⟨?_, ?_⟩; simp [apply_ite State.pending]; intro hw; simp +contextual (maxDischargeDepth := 9) [apply_ite State.ram, apply_ite Mem.wf, hw])

@[simp] theorem State.placeSlot_keeps (s : State) (p : Nat) (x : StreamRx) (sl : Slot) (a : Nat) :
    (State.placeSlot s p x sl a).pending = s.pending ∧
      (s.ram.wf = true → (State.placeSlot s p x sl a).ram.wf = true) := by
  refine ⟨?_, ?_⟩; simp [State.placeSlot, apply_ite State.pending]; intro hw; simp +contextual (maxDischargeDepth := 9) [State.placeSlot, apply_ite State.ram, apply_ite Mem.wf, hw]

@[simp] theorem State.dropIngress_keeps (s : State) (p : Nat) (i : Nat) :
    (State.dropIngress s p i).pending = s.pending ∧
      (State.dropIngress s p i).ram = s.ram := by
  exact ⟨rfl, rfl⟩

@[simp] theorem State.landSlot_keeps (s : State) (p : Nat) (i : Nat) (sl : Slot) :
    (State.landSlot s p i sl).pending = s.pending ∧
      (s.ram.wf = true → (State.landSlot s p i sl).ram.wf = true) := by
  unfold State.landSlot; dsimp only
  repeat' (split <;> try (rename_i h; obtain ⟨rfl, -⟩ := Prod.ext_iff.mp h))
  all_goals (refine ⟨?_, ?_⟩; simp [apply_ite State.pending]; intro hw; simp +contextual (maxDischargeDepth := 9) [apply_ite State.ram, apply_ite Mem.wf, hw])

@[simp] theorem State.retryLanding_keeps (s : State) (x : StreamRx) (k : Nat) (cause : Nat) :
    (State.retryLanding s x k cause).pending = s.pending ∧
      (State.retryLanding s x k cause).ram = s.ram := by
  unfold State.retryLanding; dsimp only
  repeat' (split <;> try (rename_i h; obtain ⟨rfl, -⟩ := Prod.ext_iff.mp h))
  all_goals simp

@[simp] theorem State.landed_keeps (s : State) (x : StreamRx) (k : Nat) :
    (State.landed s x k).pending = s.pending ∧
      (State.landed s x k).ram = s.ram := by
  simp [State.landed, apply_ite State.pending, apply_ite State.ram]

@[simp] theorem State.checkLanding_keeps (s : State) (x : StreamRx) (k : Nat) :
    (State.checkLanding s x k).pending = s.pending ∧
      (State.checkLanding s x k).ram = s.ram := by
  unfold State.checkLanding; dsimp only
  repeat' (split <;> try (rename_i h; obtain ⟨rfl, -⟩ := Prod.ext_iff.mp h))
  all_goals simp

/-! ### Machine/Collectives.lean -/

@[simp] theorem State.narrowRefused_keeps (s : State) (a : Nat) :
    (State.narrowRefused s a).pending = s.pending ∧
      (State.narrowRefused s a).ram = s.ram := by
  unfold State.narrowRefused
  (repeat' split) <;> simp

@[simp] theorem State.startSource_keeps (s : State) (c : Coll) :
    (State.startSource s c).pending = s.pending ∧
      (s.ram.wf = true → (State.startSource s c).ram.wf = true) := by
  unfold State.startSource
  (repeat' split) <;> (refine ⟨?_, ?_⟩; simp; intro hw; simp [hw])

@[simp] theorem State.startColl_keeps (s : State) (q : Nat) (idx : Word) (cmd : BitVec 512) :
    (State.startColl s q idx cmd).pending = s.pending ∧
      (s.ram.wf = true → (State.startColl s q idx cmd).ram.wf = true) := by
  unfold State.startColl; dsimp only
  repeat' (split <;> try (rename_i h; obtain ⟨rfl, -⟩ := Prod.ext_iff.mp h))
  all_goals (refine ⟨?_, ?_⟩; simp [apply_ite State.pending]; intro hw; simp +contextual (maxDischargeDepth := 9) [apply_ite State.ram, apply_ite Mem.wf, hw])

@[simp] theorem State.issueColl_keeps (q : Nat) (s : State) (idx : Word) (c : BitVec 512) :
    (State.issueColl q s idx c).pending = s.pending ∧
      (s.ram.wf = true → (State.issueColl q s idx c).ram.wf = true) := by
  unfold State.issueColl
  (repeat' split) <;> (refine ⟨?_, ?_⟩; simp; intro hw; simp [hw])

@[simp] theorem State.runColl_keeps (s : State) (q : Nat) (op : Nat) :
    (State.runColl s q op).pending = s.pending ∧
      (s.ram.wf = true → (State.runColl s q op).ram.wf = true) := by
  refine ⟨?_, ?_⟩; simp [State.runColl, apply_ite State.pending]; intro hw; simp +contextual (maxDischargeDepth := 9) [State.runColl, apply_ite State.ram, apply_ite Mem.wf, hw]

theorem execBcast_keeps (q : Nat) (s : State) :
    ∀ t', execBcast q s = .next t' → t'.pending = s.pending ∧ (s.ram.wf = true → t'.ram.wf = true) := by
  intro t h; simp only [execBcast, within_next] at h; obtain ⟨-, rfl⟩ := h; (refine ⟨?_, ?_⟩; simp [apply_ite State.pending]; intro hw; simp +contextual (maxDischargeDepth := 9) [apply_ite State.ram, apply_ite Mem.wf, hw])

theorem execReduce_keeps (q : Nat) (s : State) :
    ∀ t', execReduce q s = .next t' → t'.pending = s.pending ∧ (s.ram.wf = true → t'.ram.wf = true) := by
  intro t h; simp only [execReduce, within_next] at h; obtain ⟨-, rfl⟩ := h; (refine ⟨?_, ?_⟩; simp [apply_ite State.pending]; intro hw; simp +contextual (maxDischargeDepth := 9) [apply_ite State.ram, apply_ite Mem.wf, hw])

theorem execHarvest_keeps (q : Nat) (s : State) :
    ∀ t', execHarvest q s = .next t' → t'.pending = s.pending ∧ (s.ram.wf = true → t'.ram.wf = true) := by
  intro t h; simp only [execHarvest, within_next] at h; obtain ⟨-, rfl⟩ := h; (refine ⟨?_, ?_⟩; simp [apply_ite State.pending]; intro hw; simp +contextual (maxDischargeDepth := 9) [apply_ite State.ram, apply_ite Mem.wf, hw])

theorem execDbcast_keeps (q : Nat) (s : State) :
    ∀ t', execDbcast q s = .next t' → t'.pending = s.pending ∧ (s.ram.wf = true → t'.ram.wf = true) := by
  intro t h; simp only [execDbcast, within_next] at h; obtain ⟨-, rfl⟩ := h; (refine ⟨?_, ?_⟩; simp [apply_ite State.pending]; intro hw; simp +contextual (maxDischargeDepth := 9) [apply_ite State.ram, apply_ite Mem.wf, hw])

theorem execDreduce_keeps (q : Nat) (s : State) :
    ∀ t', execDreduce q s = .next t' → t'.pending = s.pending ∧ (s.ram.wf = true → t'.ram.wf = true) := by
  intro t h; simp only [execDreduce, within_next] at h; obtain ⟨-, rfl⟩ := h; (refine ⟨?_, ?_⟩; simp [apply_ite State.pending]; intro hw; simp +contextual (maxDischargeDepth := 9) [apply_ite State.ram, apply_ite Mem.wf, hw])

theorem execCounts_keeps (q : Nat) (s : State) :
    ∀ t', execCounts q s = .next t' → t'.pending = s.pending ∧ (s.ram.wf = true → t'.ram.wf = true) := by
  intro t h; simp only [execCounts, within_next] at h; obtain ⟨-, rfl⟩ := h; (refine ⟨?_, ?_⟩; simp [apply_ite State.pending]; intro hw; simp +contextual (maxDischargeDepth := 9) [apply_ite State.ram, apply_ite Mem.wf, hw])

@[simp] theorem State.reserveIn_keeps (s : State) (c : Coll) (g : Nat) (m : Cue) :
    (State.reserveIn s c g m).pending = s.pending ∧
      (State.reserveIn s c g m).ram = s.ram := by
  unfold State.reserveIn
  (repeat' split) <;> simp

@[simp] theorem State.windowMsg_pending (s : State) (p : Nat) (m : Cue) (f g : State → State) (hf : ∀ s, (f s).pending = s.pending)
    (hg : ∀ s, (g s).pending = s.pending) : (s.windowMsg p m f g).pending = s.pending := by
  unfold State.windowMsg; (repeat' split) <;> simp [hf, hg]

@[simp] theorem State.windowMsg_wf (s : State) (p : Nat) (m : Cue) (f g : State → State) (hw : s.ram.wf = true)
    (hf : ∀ s, s.ram.wf = true → (f s).ram.wf = true) (hg : ∀ s, s.ram.wf = true → (g s).ram.wf = true) :
    (s.windowMsg p m f g).ram.wf = true := by
  unfold State.windowMsg; (repeat' split) <;> simp [hf, hg, hw]

@[simp] theorem State.onReserve_keeps (s : State) (p : Nat) (m : Cue) :
    (State.onReserve s p m).pending = s.pending ∧
      (s.ram.wf = true → (State.onReserve s p m).ram.wf = true) := by
  unfold State.onReserve
  refine ⟨State.windowMsg_pending _ _ _ _ _ ?_ ?_, fun hw => State.windowMsg_wf _ _ _ _ _ hw ?_ ?_⟩
  all_goals
    intros
    (try dsimp only)
    (repeat' split) <;> simp +contextual (maxDischargeDepth := 9) [*]

theorem execWindowReserve_keeps (p : Nat) (c : Cue) (s : State) :
    ∀ t', execWindowReserve p c s = .next t' → t'.pending = s.pending ∧ (s.ram.wf = true → t'.ram.wf = true) := by
  intro t h; simp only [execWindowReserve, within_next] at h; obtain ⟨-, rfl⟩ := h; (refine ⟨?_, ?_⟩; simp [apply_ite State.pending]; intro hw; simp +contextual (maxDischargeDepth := 9) [apply_ite State.ram, apply_ite Mem.wf, hw])

@[simp] theorem State.confirmIn_keeps (s : State) (c : Coll) (n : Nat) (o : COutput) (w : Nat) :
    (State.confirmIn s c n o w).pending = s.pending ∧
      (State.confirmIn s c n o w).ram = s.ram := by
  simp [State.confirmIn, apply_ite State.pending, apply_ite State.ram]

@[simp] theorem State.keepEarly_keeps (s : State) (p : Nat) (m : Cue) :
    (State.keepEarly s p m).pending = s.pending ∧
      (State.keepEarly s p m).ram = s.ram := by
  simp [State.keepEarly, apply_ite State.pending, apply_ite State.ram]

@[simp] theorem State.onConfirm_keeps (s : State) (p : Nat) (m : Cue) :
    (State.onConfirm s p m).pending = s.pending ∧
      (s.ram.wf = true → (State.onConfirm s p m).ram.wf = true) := by
  unfold State.onConfirm
  refine ⟨State.windowMsg_pending _ _ _ _ _ ?_ ?_, fun hw => State.windowMsg_wf _ _ _ _ _ hw ?_ ?_⟩
  all_goals
    intros
    (try dsimp only)
    (repeat' split) <;> simp +contextual (maxDischargeDepth := 9) [*]

theorem execWindowConfirm_keeps (p : Nat) (c : Cue) (s : State) :
    ∀ t', execWindowConfirm p c s = .next t' → t'.pending = s.pending ∧ (s.ram.wf = true → t'.ram.wf = true) := by
  intro t h; simp only [execWindowConfirm, within_next] at h; obtain ⟨-, rfl⟩ := h; (refine ⟨?_, ?_⟩; simp [apply_ite State.pending]; intro hw; simp +contextual (maxDischargeDepth := 9) [apply_ite State.ram, apply_ite Mem.wf, hw])

@[simp] theorem State.releaseIn_keeps (s : State) (c : Coll) (n : Nat) (o : COutput) (v : Nat) :
    (State.releaseIn s c n o v).pending = s.pending ∧
      (s.ram.wf = true → (State.releaseIn s c n o v).ram.wf = true) := by
  refine ⟨?_, ?_⟩; simp [State.releaseIn, apply_ite State.pending]; intro hw; simp [State.releaseIn, apply_ite State.ram, apply_ite Mem.wf, hw]

@[simp] theorem State.outputMsg_pending (s : State) (p : Nat) (m : Cue) (f : State → Coll → Nat → COutput → State)
    (hf : ∀ s x n o, (f s x n o).pending = s.pending) : (s.outputMsg p m f).pending = s.pending := by
  unfold State.outputMsg; (repeat' split) <;> simp [hf]

@[simp] theorem State.outputMsg_wf (s : State) (p : Nat) (m : Cue) (f : State → Coll → Nat → COutput → State) (hw : s.ram.wf = true)
    (hf : ∀ s x n o, s.ram.wf = true → (f s x n o).ram.wf = true) : (s.outputMsg p m f).ram.wf = true := by
  unfold State.outputMsg; (repeat' split) <;> simp [hf, hw]

@[simp] theorem State.onRelease_keeps (s : State) (p : Nat) (m : Cue) :
    (State.onRelease s p m).pending = s.pending ∧
      (s.ram.wf = true → (State.onRelease s p m).ram.wf = true) := by
  unfold State.onRelease
  refine ⟨State.windowMsg_pending _ _ _ _ _ ?_ ?_, fun hw => State.windowMsg_wf _ _ _ _ _ hw ?_ ?_⟩
  all_goals
    intros
    (try dsimp only)
    (repeat' split) <;> simp +contextual (maxDischargeDepth := 9) [*]

theorem execWindowRelease_keeps (p : Nat) (c : Cue) (s : State) :
    ∀ t', execWindowRelease p c s = .next t' → t'.pending = s.pending ∧ (s.ram.wf = true → t'.ram.wf = true) := by
  intro t h; simp only [execWindowRelease, within_next] at h; obtain ⟨-, rfl⟩ := h; (refine ⟨?_, ?_⟩; simp [apply_ite State.pending]; intro hw; simp +contextual (maxDischargeDepth := 9) [apply_ite State.ram, apply_ite Mem.wf, hw])

@[simp] theorem State.onRetry_keeps (s : State) (p : Nat) (m : Cue) :
    (State.onRetry s p m).pending = s.pending ∧
      (s.ram.wf = true → (State.onRetry s p m).ram.wf = true) := by
  unfold State.onRetry
  refine ⟨State.windowMsg_pending _ _ _ _ _ ?_ ?_, fun hw => State.windowMsg_wf _ _ _ _ _ hw ?_ ?_⟩
  all_goals
    intros
    (try dsimp only)
    (repeat' split) <;> simp +contextual (maxDischargeDepth := 9) [*]

theorem execSegmentRetry_keeps (p : Nat) (c : Cue) (s : State) :
    ∀ t', execSegmentRetry p c s = .next t' → t'.pending = s.pending ∧ (s.ram.wf = true → t'.ram.wf = true) := by
  intro t h; simp only [execSegmentRetry, within_next] at h; obtain ⟨-, rfl⟩ := h; (refine ⟨?_, ?_⟩; simp [apply_ite State.pending]; intro hw; simp +contextual (maxDischargeDepth := 9) [apply_ite State.ram, apply_ite Mem.wf, hw])

theorem execCombine_keeps (part : Nat) (optag : Nat) (seg : Nat) (adderFault : Bool) (s : State) :
    ∀ t', execCombine part optag seg adderFault s = .next t' → t'.pending = s.pending ∧ (s.ram.wf = true → t'.ram.wf = true) := by
  intro t h; simp only [execCombine, within_next] at h; obtain ⟨-, rfl⟩ := h
  (repeat' split) <;> (refine ⟨?_, ?_⟩; simp [apply_ite State.pending]; intro hw; simp +contextual (maxDischargeDepth := 9) [apply_ite State.ram, apply_ite Mem.wf, hw])

theorem execSegmentIncomplete_keeps (part : Nat) (optag : Nat) (input : Nat) (seg : Nat) (s : State) :
    ∀ t', execSegmentIncomplete part optag input seg s = .next t' → t'.pending = s.pending ∧ (s.ram.wf = true → t'.ram.wf = true) := by
  intro t h; simp only [execSegmentIncomplete, within_next] at h; obtain ⟨-, rfl⟩ := h
  (repeat' split) <;> (refine ⟨?_, ?_⟩; simp [apply_ite State.pending]; intro hw; simp +contextual (maxDischargeDepth := 9) [apply_ite State.ram, apply_ite Mem.wf, hw])

theorem execRetryGiveUp_keeps (part : Nat) (optag : Nat) (input : Nat) (seg : Nat) (s : State) :
    ∀ t', execRetryGiveUp part optag input seg s = .next t' → t'.pending = s.pending ∧ (s.ram.wf = true → t'.ram.wf = true) := by
  intro t h; simp only [execRetryGiveUp, within_next] at h; obtain ⟨-, rfl⟩ := h
  (repeat' split) <;> (refine ⟨?_, ?_⟩; simp [apply_ite State.pending]; intro hw; simp +contextual (maxDischargeDepth := 9) [apply_ite State.ram, apply_ite Mem.wf, hw])

@[simp] theorem State.pitchNext_keeps (s : State) (c : Coll) :
    (State.pitchNext s c).pending = s.pending ∧
      (s.ram.wf = true → (State.pitchNext s c).ram.wf = true) := by
  unfold State.pitchNext; dsimp only
  repeat' (split <;> try (rename_i h; obtain ⟨rfl, -⟩ := Prod.ext_iff.mp h))
  all_goals (refine ⟨?_, ?_⟩; simp [apply_ite State.pending]; intro hw; simp +contextual (maxDischargeDepth := 9) [apply_ite State.ram, apply_ite Mem.wf, hw])

theorem execPitchInject_keeps (part : Nat) (optag : Nat) (s : State) :
    ∀ t', execPitchInject part optag s = .next t' → t'.pending = s.pending ∧ (s.ram.wf = true → t'.ram.wf = true) := by
  intro t h; simp only [execPitchInject, within_next] at h; obtain ⟨-, rfl⟩ := h
  (repeat' split) <;> (refine ⟨?_, ?_⟩; simp [apply_ite State.pending]; intro hw; simp +contextual (maxDischargeDepth := 9) [apply_ite State.ram, apply_ite Mem.wf, hw])

theorem execRootStagingRelease_keeps (part : Nat) (optag : Nat) (s : State) :
    ∀ t', execRootStagingRelease part optag s = .next t' → t'.pending = s.pending ∧ t'.ram = s.ram := by
  intro t h; simp only [execRootStagingRelease, within_next] at h; obtain ⟨-, rfl⟩ := h
  (repeat' split) <;> simp [apply_ite State.pending, apply_ite State.ram]

theorem execLateDiscard_keeps (dtree : Nat) (optag : Nat) (s : State) :
    ∀ t', execLateDiscard dtree optag s = .next t' → t'.pending = s.pending ∧ t'.ram = s.ram := by
  intro t h; simp only [execLateDiscard, within_next] at h; obtain ⟨-, rfl⟩ := h
  (repeat' split) <;> simp [apply_ite State.pending, apply_ite State.ram]

end Sys2Proof.Machine
end

