-- ==== Sys2Proof/Laws/KeepUnits.lean ====
section
/-!
SUPPORT. What the operations leave alone: every one keeps the queue of commands, and the bytes of memory or at least their canonical
form (sync unit, members, memory controllers, compute units, data commands and DMA commands).
-/
namespace Sys2Proof.Machine

/-! ### Machine/SyncOps.lean -/

@[simp] theorem State.arriveAt_keeps (s : State) (b : Nat) (q : Nat) :
    (State.arriveAt s b q).pending = s.pending ∧
      (s.ram.wf = true → (State.arriveAt s b q).ram.wf = true) := by
  unfold State.arriveAt; dsimp only
  repeat' (split <;> try (rename_i h; obtain ⟨rfl, -⟩ := Prod.ext_iff.mp h))
  all_goals (refine ⟨?_, ?_⟩; simp [apply_ite State.pending]; intro hw; simp +contextual (maxDischargeDepth := 9) [apply_ite State.ram, apply_ite Mem.wf, hw])

@[simp] theorem State.applyRemote_keeps (s : State) (t : Nat) (inc : Nat) (needRemote : Bool) :
    (State.applyRemote s t inc needRemote).pending = s.pending ∧
      (State.applyRemote s t inc needRemote).ram = s.ram := by
  simp [State.applyRemote, apply_ite State.pending, apply_ite State.ram]

@[simp] theorem State.noteRemoteSeq_keeps (s : State) (src : Nat) (seq : Nat) :
    (State.noteRemoteSeq s src seq).pending = s.pending ∧
      (State.noteRemoteSeq s src seq).ram = s.ram := by
  simp [State.noteRemoteSeq, apply_ite State.pending, apply_ite State.ram]

@[simp] theorem State.remotePlaced_keeps (s : State) (m : Cue) :
    (State.remotePlaced s m).pending = s.pending ∧
      (s.ram.wf = true → (State.remotePlaced s m).ram.wf = true) := by
  refine ⟨?_, fun hw => ?_⟩
  · refine forEach_pending _ _ _ fun q st => ?_
    split <;> simp
  · refine forEach_wf _ _ _ hw fun q st h => ?_
    split <;> simp [h]

@[simp] theorem State.syncRefused_keeps (s : State) (detail : Nat) :
    (State.syncRefused s detail).pending = s.pending ∧
      (State.syncRefused s detail).ram = s.ram := by
  simp [State.syncRefused]

@[simp] theorem State.writeTallyCfg_keeps (s : State) (t : Nat) (v : Nat) :
    (State.writeTallyCfg s t v).pending = s.pending ∧
      (State.writeTallyCfg s t v).ram = s.ram := by
  unfold State.writeTallyCfg; dsimp only
  repeat' (split <;> try (rename_i h; obtain ⟨rfl, -⟩ := Prod.ext_iff.mp h))
  all_goals simp

@[simp] theorem State.writeBarCfg_keeps (s : State) (b : Nat) (v : Nat) :
    (State.writeBarCfg s b v).pending = s.pending ∧
      (State.writeBarCfg s b v).ram = s.ram := by
  unfold State.writeBarCfg; dsimp only
  repeat' (split <;> try (rename_i h; obtain ⟨rfl, -⟩ := Prod.ext_iff.mp h))
  all_goals simp

@[simp] theorem State.armBarrier_keeps (s : State) (b : Nat) :
    (State.armBarrier s b).pending = s.pending ∧
      (State.armBarrier s b).ram = s.ram := by
  simp [State.armBarrier, apply_ite State.pending, apply_ite State.ram]

@[simp] theorem State.disarmBarrier_keeps (s : State) (b : Nat) :
    (State.disarmBarrier s b).pending = s.pending ∧
      (State.disarmBarrier s b).ram = s.ram := by
  simp [State.disarmBarrier, apply_ite State.pending, apply_ite State.ram]

@[simp] theorem State.rearmBarrier_keeps (s : State) (b : Nat) :
    (State.rearmBarrier s b).pending = s.pending ∧
      (State.rearmBarrier s b).ram = s.ram := by
  simp [State.rearmBarrier, apply_ite State.pending, apply_ite State.ram]

@[simp] theorem State.wakeWritten_keeps (s : State) (w : Nat) :
    (State.wakeWritten s w).pending = s.pending ∧
      (State.wakeWritten s w).ram = s.ram := by
  simp [State.wakeWritten, apply_ite State.pending, apply_ite State.ram]

@[simp] theorem State.sendRebars_keeps (s : State) :
    (State.sendRebars s).pending = s.pending ∧
      (State.sendRebars s).ram = s.ram := by
  simp [State.sendRebars, apply_ite State.pending, apply_ite State.ram]

@[simp] theorem State.applyRebar_keeps (s : State) (i : Nat) (p : Img.Pair) (snapshot : DWord) :
    (State.applyRebar s i p snapshot).pending = s.pending ∧
      (s.ram.wf = true → (State.applyRebar s i p snapshot).ram.wf = true) := by
  refine ⟨?_, ?_⟩; simp [State.applyRebar, apply_ite State.pending]; intro hw; simp [State.applyRebar, apply_ite State.ram, apply_ite Mem.wf, hw]

@[simp] theorem State.rebarMisses_keeps (s : State) :
    (State.rebarMisses s).pending = s.pending ∧
      (State.rebarMisses s).ram = s.ram := by
  simp [State.rebarMisses]

@[simp] theorem State.stallCount_keeps (s : State) (q : Nat) :
    (State.stallCount s q).pending = s.pending ∧
      (State.stallCount s q).ram = s.ram := by
  simp [State.stallCount, apply_ite State.pending, apply_ite State.ram]

@[simp] theorem State.timeoutCommand_keeps (s : State) (q : Nat) (x : Inflight) :
    (State.timeoutCommand s q x).pending = s.pending ∧
      (s.ram.wf = true → (State.timeoutCommand s q x).ram.wf = true) := by
  refine ⟨?_, ?_⟩; simp [State.timeoutCommand, apply_ite State.pending]; intro hw; simp [State.timeoutCommand, apply_ite State.ram, apply_ite Mem.wf, hw]

@[simp] theorem State.watchdogExpires_keeps (s : State) (q : Nat) :
    (State.watchdogExpires s q).pending = s.pending ∧
      (s.ram.wf = true → (State.watchdogExpires s q).ram.wf = true) := by
  have h1 := forEach_wf (s.queue q).inflight (fun x st => st.timeoutCommand q x) s
  refine ⟨?_, fun hw => ?_⟩
  · unfold State.watchdogExpires; dsimp only; split <;> simp [State.raiseOn]
  · have h2 := h1 hw fun x st h => (State.timeoutCommand_keeps st q x).2 h
    unfold State.watchdogExpires; dsimp only; split <;> simp [h2]

@[simp] theorem State.dlBeats_keeps (s : State) (n : Nat) :
    (State.dlBeats s n).pending = s.pending ∧
      (State.dlBeats s n).ram = s.ram := by
  simp [State.dlBeats, apply_ite State.pending, apply_ite State.ram]

@[simp] theorem State.dlFires_keeps (s : State) :
    (State.dlFires s).pending = s.pending ∧
      (s.ram.wf = true → (State.dlFires s).ram.wf = true) := by
  refine ⟨?_, fun hw => ?_⟩
  · unfold State.dlFires; dsimp only; split <;> simp
  · unfold State.dlFires; dsimp only; split
    · refine State.raise_wf _ _ _ _ _ _ _ _ ?_ (fun s h => h)
      simp only [State.count_keeps]
      exact forEach_wf _ _ _ hw fun x st h => (State.endHead_keeps st _ _ _).2 h
    · simp [hw]

/-! ### Machine/Sync.lean -/

@[simp] theorem State.waitHead_keeps (s : State) (q : Nat) (idx : Word) (c : BitVec 512) :
    (State.waitHead s q idx c).pending = s.pending ∧
      (s.ram.wf = true → (State.waitHead s q idx c).ram.wf = true) := by
  refine ⟨?_, ?_⟩; simp [State.waitHead, apply_ite State.pending]; intro hw; simp [State.waitHead, apply_ite State.ram, apply_ite Mem.wf, hw]

theorem execWait_keeps (q : Nat) (s : State) :
    ∀ t', execWait q s = .next t' → t'.pending = s.pending ∧ (s.ram.wf = true → t'.ram.wf = true) := by
  intro t h; simp only [execWait, within_next] at h; obtain ⟨-, rfl⟩ := h
  refine ⟨State.runHead_pending _ _ _ _ _ fun s i c => ?_, fun hw => State.runHead_wf _ _ _ _ _ hw fun s i c hw => ?_⟩ <;> (try dsimp only) <;> (repeat' split) <;> simp +contextual (maxDischargeDepth := 9) [*]

@[simp] theorem State.cmdTimeout_keeps (s : State) (q : Nat) :
    (State.cmdTimeout s q).pending = s.pending ∧
      (s.ram.wf = true → (State.cmdTimeout s q).ram.wf = true) := by
  refine ⟨?_, ?_⟩; simp [State.cmdTimeout]; intro hw; simp [State.cmdTimeout, hw]

theorem execWaitTimeout_keeps (q : Nat) (s : State) :
    ∀ t', execWaitTimeout q s = .next t' → t'.pending = s.pending ∧ (s.ram.wf = true → t'.ram.wf = true) := by
  intro t h; simp only [execWaitTimeout, within_next] at h; obtain ⟨-, rfl⟩ := h
  refine ⟨State.runHead_pending _ _ _ _ _ fun s i c => ?_, fun hw => State.runHead_wf _ _ _ _ _ hw fun s i c hw => ?_⟩ <;> (try dsimp only) <;> (repeat' split) <;> simp +contextual (maxDischargeDepth := 9) [*]

theorem execSignal_keeps (q : Nat) (s : State) :
    ∀ t', execSignal q s = .next t' → t'.pending = s.pending ∧ (s.ram.wf = true → t'.ram.wf = true) := by
  intro t h; simp only [execSignal, within_next] at h; obtain ⟨-, rfl⟩ := h
  refine ⟨State.runHead_pending _ _ _ _ _ fun s i c => ?_, fun hw => State.runHead_wf _ _ _ _ _ hw fun s i c hw => ?_⟩ <;> (try dsimp only) <;> (repeat' split) <;> simp +contextual (maxDischargeDepth := 9) [*]

@[simp] theorem State.remoteSend_keeps (s : State) (q : Nat) (idx : Word) (c : BitVec 512) :
    (State.remoteSend s q idx c).pending = s.pending ∧
      (s.ram.wf = true → (State.remoteSend s q idx c).ram.wf = true) := by
  unfold State.remoteSend; dsimp only
  repeat' (split <;> try (rename_i h; obtain ⟨rfl, -⟩ := Prod.ext_iff.mp h))
  all_goals (refine ⟨?_, ?_⟩; simp [apply_ite State.pending]; intro hw; simp +contextual (maxDischargeDepth := 9) [apply_ite State.ram, apply_ite Mem.wf, hw])

theorem execRemoteSignal_keeps (q : Nat) (s : State) :
    ∀ t', execRemoteSignal q s = .next t' → t'.pending = s.pending ∧ (s.ram.wf = true → t'.ram.wf = true) := by
  intro t h; simp only [execRemoteSignal, within_next] at h; obtain ⟨-, rfl⟩ := h
  refine ⟨State.runHead_pending _ _ _ _ _ fun s i c => ?_, fun hw => State.runHead_wf _ _ _ _ _ hw fun s i c hw => ?_⟩ <;> (try dsimp only) <;> (repeat' split) <;> simp +contextual (maxDischargeDepth := 9) [*]

@[simp] theorem State.onRemote_keeps (s : State) (c : Cue) :
    (State.onRemote s c).pending = s.pending ∧
      (State.onRemote s c).ram = s.ram := by
  simp [State.onRemote, apply_ite State.pending, apply_ite State.ram]

theorem execRemoteSignalMsg_keeps (c : Cue) (s : State) :
    ∀ t', execRemoteSignalMsg c s = .next t' → t'.pending = s.pending ∧ t'.ram = s.ram := by
  intro t h; simp only [execRemoteSignalMsg, within_next] at h; obtain ⟨-, rfl⟩ := h; simp

@[simp] theorem State.barAbandoned_keeps (s : State) (q : Nat) (idx : Word) (c : BitVec 512) :
    (State.barAbandoned s q idx c).pending = s.pending ∧
      (s.ram.wf = true → (State.barAbandoned s q idx c).ram.wf = true) := by
  refine ⟨?_, ?_⟩; simp [State.barAbandoned]; intro hw; simp [State.barAbandoned, hw]

theorem execArrive_keeps (q : Nat) (s : State) :
    ∀ t', execArrive q s = .next t' → t'.pending = s.pending ∧ (s.ram.wf = true → t'.ram.wf = true) := by
  intro t h; simp only [execArrive, within_next] at h; obtain ⟨-, rfl⟩ := h
  refine ⟨State.runHead_pending _ _ _ _ _ fun s i c => ?_, fun hw => State.runHead_wf _ _ _ _ _ hw fun s i c hw => ?_⟩ <;> (try dsimp only) <;> (repeat' split) <;> simp +contextual (maxDischargeDepth := 9) [*]

@[simp] theorem State.noteArrived_keeps (s : State) (q : Nat) (b : Nat) :
    (State.noteArrived s q b).pending = s.pending ∧
      (State.noteArrived s q b).ram = s.ram := by
  exact ⟨rfl, rfl⟩

@[simp] theorem State.arriveWaitHead_keeps (s : State) (q : Nat) (idx : Word) (c : BitVec 512) :
    (State.arriveWaitHead s q idx c).pending = s.pending ∧
      (s.ram.wf = true → (State.arriveWaitHead s q idx c).ram.wf = true) := by
  refine ⟨?_, ?_⟩; simp [State.arriveWaitHead, apply_ite State.pending]; intro hw; simp [State.arriveWaitHead, apply_ite State.ram, apply_ite Mem.wf, hw]

theorem execArriveWait_keeps (q : Nat) (s : State) :
    ∀ t', execArriveWait q s = .next t' → t'.pending = s.pending ∧ (s.ram.wf = true → t'.ram.wf = true) := by
  intro t h; simp only [execArriveWait, within_next] at h; obtain ⟨-, rfl⟩ := h
  refine ⟨State.runHead_pending _ _ _ _ _ fun s i c => ?_, fun hw => State.runHead_wf _ _ _ _ _ hw fun s i c hw => ?_⟩ <;> (try dsimp only) <;> (repeat' split) <;> simp +contextual (maxDischargeDepth := 9) [*]

theorem execArriveWaitTimeout_keeps (q : Nat) (s : State) :
    ∀ t', execArriveWaitTimeout q s = .next t' → t'.pending = s.pending ∧ (s.ram.wf = true → t'.ram.wf = true) := by
  intro t h; simp only [execArriveWaitTimeout, within_next] at h; obtain ⟨-, rfl⟩ := h
  refine ⟨State.runHead_pending _ _ _ _ _ fun s i c => ?_, fun hw => State.runHead_wf _ _ _ _ _ hw fun s i c hw => ?_⟩ <;> (try dsimp only) <;> (repeat' split) <;> simp +contextual (maxDischargeDepth := 9) [*]

theorem execBarrierArm_keeps (b : Nat) (s : State) :
    ∀ t', execBarrierArm b s = .next t' → t'.pending = s.pending ∧ t'.ram = s.ram := by
  intro t h; simp only [execBarrierArm, within_next] at h; obtain ⟨-, rfl⟩ := h; simp

theorem execBarrierDisarm_keeps (b : Nat) (s : State) :
    ∀ t', execBarrierDisarm b s = .next t' → t'.pending = s.pending ∧ t'.ram = s.ram := by
  intro t h; simp only [execBarrierDisarm, within_next] at h; obtain ⟨-, rfl⟩ := h; simp

theorem execBarrierRearm_keeps (b : Nat) (s : State) :
    ∀ t', execBarrierRearm b s = .next t' → t'.pending = s.pending ∧ t'.ram = s.ram := by
  intro t h; simp only [execBarrierRearm, within_next] at h; obtain ⟨-, rfl⟩ := h; simp

@[simp] theorem State.writeTally_keeps (s : State) (t : Nat) (v : DWord) :
    (State.writeTally s t v).pending = s.pending ∧
      (State.writeTally s t v).ram = s.ram := by
  simp [State.writeTally, apply_ite State.pending, apply_ite State.ram]

theorem execTallySet_keeps (t : Nat) (v : DWord) (s : State) :
    ∀ t', execTallySet t v s = .next t' → t'.pending = s.pending ∧ t'.ram = s.ram := by
  intro t h; simp only [execTallySet, within_next] at h; obtain ⟨-, rfl⟩ := h; simp

theorem execTallyCfgWrite_keeps (t : Nat) (v : Word) (s : State) :
    ∀ t', execTallyCfgWrite t v s = .next t' → t'.pending = s.pending ∧ t'.ram = s.ram := by
  intro t h; simp only [execTallyCfgWrite, within_next] at h; obtain ⟨-, rfl⟩ := h; simp

theorem execTallyRearm_keeps (t : Nat) (v : Word) (s : State) :
    ∀ t', execTallyRearm t v s = .next t' → t'.pending = s.pending ∧ t'.ram = s.ram := by
  intro t h; simp only [execTallyRearm, within_next] at h; obtain ⟨-, rfl⟩ := h; simp

@[simp] theorem State.writeWakeSrc_keeps (s : State) (w : Nat) (v : Nat) :
    (State.writeWakeSrc s w v).pending = s.pending ∧
      (State.writeWakeSrc s w v).ram = s.ram := by
  unfold State.writeWakeSrc
  (repeat' split) <;> simp

@[simp] theorem State.writeWakeThresh_keeps (s : State) (w : Nat) (v : DWord) :
    (State.writeWakeThresh s w v).pending = s.pending ∧
      (State.writeWakeThresh s w v).ram = s.ram := by
  simp [State.writeWakeThresh]

@[simp] theorem State.writeWakeFire_keeps (s : State) (v : Nat) :
    (State.writeWakeFire s v).pending = s.pending ∧
      (State.writeWakeFire s v).ram = s.ram := by
  simp [State.writeWakeFire]

theorem execWakeSrcWrite_keeps (w : Nat) (v : DWord) (s : State) :
    ∀ t', execWakeSrcWrite w v s = .next t' → t'.pending = s.pending ∧ t'.ram = s.ram := by
  intro t h; simp only [execWakeSrcWrite, within_next] at h; obtain ⟨-, rfl⟩ := h; simp

theorem execWakeThreshWrite_keeps (w : Nat) (v : DWord) (s : State) :
    ∀ t', execWakeThreshWrite w v s = .next t' → t'.pending = s.pending ∧ t'.ram = s.ram := by
  intro t h; simp only [execWakeThreshWrite, within_next] at h; obtain ⟨-, rfl⟩ := h; simp

theorem execWakeFire_keeps (v : DWord) (s : State) :
    ∀ t', execWakeFire v s = .next t' → t'.pending = s.pending ∧ t'.ram = s.ram := by
  intro t h; simp only [execWakeFire, within_next] at h; obtain ⟨-, rfl⟩ := h; simp

@[simp] theorem State.onRebar_keeps (s : State) (c : Cue) :
    (State.onRebar s c).pending = s.pending ∧
      (s.ram.wf = true → (State.onRebar s c).ram.wf = true) := by
  unfold State.onRebar
  (repeat' split) <;> (refine ⟨?_, ?_⟩; simp; intro hw; simp [hw])

theorem execRebar_keeps (c : Cue) (s : State) :
    ∀ t', execRebar c s = .next t' → t'.pending = s.pending ∧ (s.ram.wf = true → t'.ram.wf = true) := by
  intro t h; simp only [execRebar, within_next] at h; obtain ⟨-, rfl⟩ := h; (refine ⟨?_, ?_⟩; simp [apply_ite State.pending]; intro hw; simp +contextual (maxDischargeDepth := 9) [apply_ite State.ram, apply_ite Mem.wf, hw])

theorem execWatchdog_keeps (q : Nat) (s : State) :
    ∀ t', execWatchdog q s = .next t' → t'.pending = s.pending ∧ (s.ram.wf = true → t'.ram.wf = true) := by
  intro t h; simp only [execWatchdog, within_next] at h; obtain ⟨-, rfl⟩ := h; (refine ⟨?_, ?_⟩; simp [apply_ite State.pending]; intro hw; simp +contextual (maxDischargeDepth := 9) [apply_ite State.ram, apply_ite Mem.wf, hw])

theorem execDeadlock_keeps (s : State) :
    ∀ t', execDeadlock s = .next t' → t'.pending = s.pending ∧ (s.ram.wf = true → t'.ram.wf = true) := by
  intro t h; simp only [execDeadlock, within_next] at h; obtain ⟨-, rfl⟩ := h; (refine ⟨?_, ?_⟩; simp [apply_ite State.pending]; intro hw; simp +contextual (maxDischargeDepth := 9) [apply_ite State.ram, apply_ite Mem.wf, hw])

@[simp] theorem State.writeDl_keeps (s : State) (mask : Option Nat) (v : Nat) :
    (State.writeDl s mask v).pending = s.pending ∧
      (State.writeDl s mask v).ram = s.ram := by
  unfold State.writeDl
  (repeat' split) <;> simp

theorem execDlCfgWrite_keeps (mask : Option Nat) (v : Word) (s : State) :
    ∀ t', execDlCfgWrite mask v s = .next t' → t'.pending = s.pending ∧ t'.ram = s.ram := by
  intro t h; simp only [execDlCfgWrite, within_next] at h; obtain ⟨-, rfl⟩ := h; simp

/-! ### Machine/Members.lean -/

@[simp] theorem State.loseMember_keeps (s : State) (x : Nat) :
    (State.loseMember s x).pending = s.pending ∧
      (s.ram.wf = true → (State.loseMember s x).ram.wf = true) := by
  refine ⟨?_, ?_⟩; simp [State.loseMember, apply_ite State.pending]; intro hw; simp +contextual (maxDischargeDepth := 9) [State.loseMember, apply_ite State.ram, apply_ite Mem.wf, hw]

@[simp] theorem State.declareLost_keeps (s : State) (x : Nat) (reason : Nat) :
    (State.declareLost s x reason).pending = s.pending ∧
      (s.ram.wf = true → (State.declareLost s x reason).ram.wf = true) := by
  refine ⟨?_, ?_⟩; simp [State.declareLost]; intro hw; simp [State.declareLost, hw]

theorem execNeighbourLost_keeps (x : Nat) (s : State) :
    ∀ t', execNeighbourLost x s = .next t' → t'.pending = s.pending ∧ (s.ram.wf = true → t'.ram.wf = true) := by
  intro t h; simp only [execNeighbourLost, within_next] at h; obtain ⟨-, rfl⟩ := h
  (repeat' split) <;> (refine ⟨?_, ?_⟩; simp [apply_ite State.pending]; intro hw; simp +contextual (maxDischargeDepth := 9) [apply_ite State.ram, apply_ite Mem.wf, hw])

@[simp] theorem State.onMemberLost_keeps (s : State) (p : Nat) (c : Cue) :
    (State.onMemberLost s p c).pending = s.pending ∧
      (s.ram.wf = true → (State.onMemberLost s p c).ram.wf = true) := by
  refine ⟨?_, ?_⟩; simp [State.onMemberLost, apply_ite State.pending]; intro hw; simp [State.onMemberLost, apply_ite State.ram, apply_ite Mem.wf, hw]

theorem execMemberLost_keeps (p : Nat) (c : Cue) (s : State) :
    ∀ t', execMemberLost p c s = .next t' → t'.pending = s.pending ∧ (s.ram.wf = true → t'.ram.wf = true) := by
  intro t h; simp only [execMemberLost, within_next] at h; obtain ⟨-, rfl⟩ := h; (refine ⟨?_, ?_⟩; simp [apply_ite State.pending]; intro hw; simp +contextual (maxDischargeDepth := 9) [apply_ite State.ram, apply_ite Mem.wf, hw])

@[simp] theorem State.writeDeclare_keeps (s : State) (v : Nat) :
    (State.writeDeclare s v).pending = s.pending ∧
      (State.writeDeclare s v).ram = s.ram := by
  simp [State.writeDeclare, apply_ite State.pending, apply_ite State.ram]

theorem execCeLostDeclare_keeps (v : Word) (s : State) :
    ∀ t', execCeLostDeclare v s = .next t' → t'.pending = s.pending ∧ t'.ram = s.ram := by
  intro t h; simp only [execCeLostDeclare, within_next] at h; obtain ⟨-, rfl⟩ := h; simp

/-! ### Machine/Memory.lean -/

@[simp] theorem State.answer_keeps (s : State) (who : Requester) (r : MemReply) :
    (State.answer s who r).pending = s.pending ∧
      (State.answer s who r).ram = s.ram := by
  simp [State.answer]

@[simp] theorem State.commandUe_keeps (s : State) (q : Nat) (tok : Nat) (det : Nat) (page : Nat) :
    (State.commandUe s q tok det page).pending = s.pending ∧
      (s.ram.wf = true → (State.commandUe s q tok det page).ram.wf = true) := by
  unfold State.commandUe
  (repeat' split) <;> (refine ⟨?_, ?_⟩; simp; intro hw; simp [hw])

@[simp] theorem State.failReader_keeps (s : State) (who : Requester) (det : Nat) (page : Nat) (rmw : Bool) :
    (State.failReader s who det page rmw).pending = s.pending ∧
      (s.ram.wf = true → (State.failReader s who det page rmw).ram.wf = true) := by
  unfold State.failReader; dsimp only
  repeat' (split <;> try (rename_i h; obtain ⟨rfl, -⟩ := Prod.ext_iff.mp h))
  all_goals (refine ⟨?_, ?_⟩; simp [apply_ite State.pending]; intro hw; simp +contextual (maxDischargeDepth := 9) [apply_ite State.ram, apply_ite Mem.wf, hw])

@[simp] theorem State.coreStore_keeps (s : State) (cl : Nat) (k : Nat) (a : Nat) (bs : List Byte) :
    (State.coreStore s cl k a bs).pending = s.pending ∧
      (State.coreStore s cl k a bs).ram = s.ram := by
  simp [State.coreStore]

@[simp] theorem State.readPart_keeps (s : State) (who : Requester) (a : Nat) (n : Nat) :
    (State.readPart s who a n).pending = s.pending ∧
      (s.ram.wf = true → (State.readPart s who a n).ram.wf = true) := by
  unfold State.readPart; dsimp only
  repeat' (split <;> try (rename_i h; obtain ⟨rfl, -⟩ := Prod.ext_iff.mp h))
  all_goals (refine ⟨?_, ?_⟩; simp [apply_ite State.pending]; intro hw; simp +contextual (maxDischargeDepth := 9) [apply_ite State.ram, apply_ite Mem.wf, hw])

@[simp] theorem State.readRequest_keeps (s : State) (who : Requester) (a : Nat) (n : Nat) :
    (State.readRequest s who a n).pending = s.pending ∧
      (s.ram.wf = true → (State.readRequest s who a n).ram.wf = true) := by
  simp only [State.readRequest]
  repeat' (split <;> try (rename_i h; obtain ⟨rfl, -⟩ := Prod.ext_iff.mp h))
  all_goals (refine ⟨?_, ?_⟩; simp [apply_ite State.pending]; intro hw; simp +contextual (maxDischargeDepth := 9) [apply_ite State.ram, apply_ite Mem.wf, hw])

theorem execMemoryRead_keeps (who : Requester) (addr : Nat) (len : Nat) (s : State) :
    ∀ t', execMemoryRead who addr len s = .next t' → t'.pending = s.pending ∧ (s.ram.wf = true → t'.ram.wf = true) := by
  intro t h; simp only [execMemoryRead, within_next] at h; obtain ⟨-, rfl⟩ := h; (refine ⟨?_, ?_⟩; simp [apply_ite State.pending]; intro hw; simp +contextual (maxDischargeDepth := 9) [apply_ite State.ram, apply_ite Mem.wf, hw])

@[simp] theorem State.lockPart_keeps (s : State) (k : Nat) (ph : Nat) (r : MemReq) :
    (State.lockPart s k ph r).pending = s.pending ∧
      (s.ram.wf = true → (State.lockPart s k ph r).ram.wf = true) := by
  refine ⟨?_, ?_⟩; simp [State.lockPart, apply_ite State.pending]; intro hw; simp [State.lockPart, apply_ite State.ram, apply_ite Mem.wf, hw]

@[simp] theorem State.narrowPart'_keeps (s : State) (k : Nat) (ph : Nat) (r : MemReq) :
    (State.narrowPart' s k ph r).pending = s.pending ∧
      (s.ram.wf = true → (State.narrowPart' s k ph r).ram.wf = true) := by
  refine ⟨?_, ?_⟩; simp [State.narrowPart', apply_ite State.pending]; intro hw; simp [State.narrowPart', apply_ite State.ram, apply_ite Mem.wf, hw]

@[simp] theorem State.wholePart_keeps (s : State) (k : Nat) (ph : Nat) (r : MemReq) :
    (State.wholePart s k ph r).pending = s.pending ∧
      (s.ram.wf = true → (State.wholePart s k ph r).ram.wf = true) := by
  refine ⟨?_, ?_⟩; simp [State.wholePart, apply_ite State.pending]; intro hw; simp [State.wholePart, apply_ite State.ram, apply_ite Mem.wf, hw]

@[simp] theorem State.writePart_keeps (s : State) (who : Requester) (a : Nat) (bs : List Byte) :
    (State.writePart s who a bs).pending = s.pending ∧
      (s.ram.wf = true → (State.writePart s who a bs).ram.wf = true) := by
  unfold State.writePart
  (repeat' split) <;> (refine ⟨?_, ?_⟩; simp; intro hw; simp [hw])

@[simp] theorem State.strictWrite_keeps (s : State) (who : Requester) (a : Nat) :
    (State.strictWrite s who a).pending = s.pending ∧
      (s.ram.wf = true → (State.strictWrite s who a).ram.wf = true) := by
  unfold State.strictWrite; dsimp only
  repeat' (split <;> try (rename_i h; obtain ⟨rfl, -⟩ := Prod.ext_iff.mp h))
  all_goals (refine ⟨?_, ?_⟩; simp [apply_ite State.pending]; intro hw; simp +contextual (maxDischargeDepth := 9) [apply_ite State.ram, apply_ite Mem.wf, hw])

@[simp] theorem State.writeRequest_keeps (s : State) (who : Requester) (a : Nat) (bs : List Byte) :
    (State.writeRequest s who a bs).pending = s.pending ∧
      (s.ram.wf = true → (State.writeRequest s who a bs).ram.wf = true) := by
  unfold State.writeRequest; dsimp only
  repeat' (split <;> try (rename_i h; obtain ⟨rfl, -⟩ := Prod.ext_iff.mp h))
  all_goals (refine ⟨?_, ?_⟩; simp [apply_ite State.pending]; intro hw; simp +contextual (maxDischargeDepth := 9) [apply_ite State.ram, apply_ite Mem.wf, hw])

theorem execMemoryWrite_keeps (who : Requester) (addr : Nat) (data : List Byte) (s : State) :
    ∀ t', execMemoryWrite who addr data s = .next t' → t'.pending = s.pending ∧ (s.ram.wf = true → t'.ram.wf = true) := by
  intro t h; simp only [execMemoryWrite, within_next] at h; obtain ⟨-, rfl⟩ := h; (refine ⟨?_, ?_⟩; simp [apply_ite State.pending]; intro hw; simp +contextual (maxDischargeDepth := 9) [apply_ite State.ram, apply_ite Mem.wf, hw])

@[simp] theorem State.grantNext_keeps (s : State) (k : Nat) :
    (State.grantNext s k).pending = s.pending ∧
      (s.ram.wf = true → (State.grantNext s k).ram.wf = true) := by
  unfold State.grantNext; dsimp only
  repeat' (split <;> try (rename_i h; obtain ⟨rfl, -⟩ := Prod.ext_iff.mp h))
  all_goals (refine ⟨?_, ?_⟩; simp [apply_ite State.pending]; intro hw; simp +contextual (maxDischargeDepth := 9) [apply_ite State.ram, apply_ite Mem.wf, hw])

theorem execPageLockGrant_keeps (k : Nat) (s : State) :
    ∀ t', execPageLockGrant k s = .next t' → t'.pending = s.pending ∧ (s.ram.wf = true → t'.ram.wf = true) := by
  intro t h; simp only [execPageLockGrant, within_next] at h; obtain ⟨-, rfl⟩ := h; (refine ⟨?_, ?_⟩; simp [apply_ite State.pending]; intro hw; simp +contextual (maxDischargeDepth := 9) [apply_ite State.ram, apply_ite Mem.wf, hw])

@[simp] theorem State.issueRmw_keeps (s : State) (k : Nat) (l : PageLock) :
    (State.issueRmw s k l).pending = s.pending ∧
      (State.issueRmw s k l).ram = s.ram := by
  simp [State.issueRmw]

@[simp] theorem State.serve_keeps (s : State) (k : Nat) (r : MemReq) (best : Bool) :
    (State.serve s k r best).pending = s.pending ∧
      (State.serve s k r best).ram = s.ram := by
  unfold State.serve
  (repeat' split) <;> simp

@[simp] theorem State.scrubLateCheck_keeps (s : State) (k : Nat) :
    (State.scrubLateCheck s k).pending = s.pending ∧
      (State.scrubLateCheck s k).ram = s.ram := by
  simp [State.scrubLateCheck, apply_ite State.pending, apply_ite State.ram]

@[simp] theorem State.patrolPage_keeps (s : State) (who : Requester) (k : Nat) (ph : Nat) :
    (State.patrolPage s who k ph).1.pending = s.pending ∧
      (s.ram.wf = true → (State.patrolPage s who k ph).1.ram.wf = true) := by
  unfold State.patrolPage; dsimp only
  repeat' (split <;> try (rename_i h; obtain ⟨rfl, -⟩ := Prod.ext_iff.mp h))
  all_goals (refine ⟨?_, ?_⟩; simp [apply_ite State.pending]; intro hw; simp +contextual (maxDischargeDepth := 9) [apply_ite State.ram, apply_ite Mem.wf, hw])

@[simp] theorem State.scrubStep_keeps (s : State) (k : Nat) :
    (State.scrubStep s k).pending = s.pending ∧
      (s.ram.wf = true → (State.scrubStep s k).ram.wf = true) := by
  refine ⟨?_, ?_⟩; simp [State.scrubStep, apply_ite State.pending]; intro hw; simp [State.scrubStep, apply_ite State.ram, apply_ite Mem.wf, hw]

theorem execScrubRead_keeps (k : Nat) (s : State) :
    ∀ t', execScrubRead k s = .next t' → t'.pending = s.pending ∧ (s.ram.wf = true → t'.ram.wf = true) := by
  intro t h; simp only [execScrubRead, within_next] at h; obtain ⟨-, rfl⟩ := h; (refine ⟨?_, ?_⟩; simp [apply_ite State.pending]; intro hw; simp +contextual (maxDischargeDepth := 9) [apply_ite State.ram, apply_ite Mem.wf, hw])

@[simp] theorem State.service_keeps (s : State) (k : Nat) :
    (State.service s k).pending = s.pending ∧
      (s.ram.wf = true → (State.service s k).ram.wf = true) := by
  unfold State.service; dsimp only
  repeat' (split <;> try (rename_i h; obtain ⟨rfl, -⟩ := Prod.ext_iff.mp h))
  all_goals (refine ⟨?_, ?_⟩; simp [apply_ite State.pending]; intro hw; simp +contextual (maxDischargeDepth := 9) [apply_ite State.ram, apply_ite Mem.wf, hw])

theorem execPageService_keeps (k : Nat) (s : State) :
    ∀ t', execPageService k s = .next t' → t'.pending = s.pending ∧ (s.ram.wf = true → t'.ram.wf = true) := by
  intro t h; simp only [execPageService, within_next] at h; obtain ⟨-, rfl⟩ := h; (refine ⟨?_, ?_⟩; simp [apply_ite State.pending]; intro hw; simp +contextual (maxDischargeDepth := 9) [apply_ite State.ram, apply_ite Mem.wf, hw])

@[simp] theorem State.decodeNext_keeps (s : State) (k : Nat) :
    (State.decodeNext s k).pending = s.pending ∧
      (s.ram.wf = true → (State.decodeNext s k).ram.wf = true) := by
  unfold State.decodeNext; dsimp only
  repeat' (split <;> try (rename_i h; obtain ⟨rfl, -⟩ := Prod.ext_iff.mp h))
  all_goals (refine ⟨?_, ?_⟩; simp [apply_ite State.pending]; intro hw; simp +contextual (maxDischargeDepth := 9) [apply_ite State.ram, apply_ite Mem.wf, hw])

theorem execPageDecode_keeps (k : Nat) (s : State) :
    ∀ t', execPageDecode k s = .next t' → t'.pending = s.pending ∧ (s.ram.wf = true → t'.ram.wf = true) := by
  intro t h; simp only [execPageDecode, within_next] at h; obtain ⟨-, rfl⟩ := h; (refine ⟨?_, ?_⟩; simp [apply_ite State.pending]; intro hw; simp +contextual (maxDischargeDepth := 9) [apply_ite State.ram, apply_ite Mem.wf, hw])

theorem execRmwWriteDone_keeps (k : Nat) (s : State) :
    ∀ t', execRmwWriteDone k s = .next t' → t'.pending = s.pending ∧ t'.ram = s.ram := by
  intro t h; simp only [execRmwWriteDone, within_next] at h; obtain ⟨-, rfl⟩ := h
  (repeat' split) <;> simp [apply_ite State.pending, apply_ite State.ram]

@[simp] theorem State.regionRefuse_keeps (s : State) (detail : Nat) :
    (State.regionRefuse s detail).pending = s.pending ∧
      (State.regionRefuse s detail).ram = s.ram := by
  simp [State.regionRefuse]

@[simp] theorem State.writeRegionAttr_keeps (s : State) (n : Nat) (v : Nat) :
    (State.writeRegionAttr s n v).pending = s.pending ∧
      (State.writeRegionAttr s n v).ram = s.ram := by
  simp [State.writeRegionAttr, apply_ite State.pending, apply_ite State.ram]

theorem execRegionAttrWrite_keeps (n : Nat) (v : Word) (s : State) :
    ∀ t', execRegionAttrWrite n v s = .next t' → t'.pending = s.pending ∧ t'.ram = s.ram := by
  intro t h; simp only [execRegionAttrWrite, within_next] at h; obtain ⟨-, rfl⟩ := h; simp

@[simp] theorem State.writeBound_keeps (s : State) (n : Nat) (limit : Bool) (v : Nat) :
    (State.writeBound s n limit v).pending = s.pending ∧
      (State.writeBound s n limit v).ram = s.ram := by
  simp [State.writeBound]

theorem execRegionBoundWrite_keeps (n : Nat) (limit : Bool) (v : DWord) (s : State) :
    ∀ t', execRegionBoundWrite n limit v s = .next t' → t'.pending = s.pending ∧ t'.ram = s.ram := by
  intro t h; simp only [execRegionBoundWrite, within_next] at h; obtain ⟨-, rfl⟩ := h; simp

@[simp] theorem State.writeRecode_keeps (s : State) (v : Nat) :
    (State.writeRecode s v).pending = s.pending ∧
      (State.writeRecode s v).ram = s.ram := by
  simp [State.writeRecode, apply_ite State.pending, apply_ite State.ram]

theorem execRecodeStart_keeps (v : Word) (s : State) :
    ∀ t', execRecodeStart v s = .next t' → t'.pending = s.pending ∧ t'.ram = s.ram := by
  intro t h; simp only [execRecodeStart, within_next] at h; obtain ⟨-, rfl⟩ := h; simp

@[simp] theorem State.recodeTo_keeps (s : State) (rc : Recode) (a : Nat) :
    (State.recodeTo s rc a).pending = s.pending ∧
      (State.recodeTo s rc a).ram = s.ram := by
  simp [State.recodeTo, apply_ite State.pending, apply_ite State.ram]

@[simp] theorem State.recodePage_keeps (s : State) (rc : Recode) :
    (State.recodePage s rc).pending = s.pending ∧
      (s.ram.wf = true → (State.recodePage s rc).ram.wf = true) := by
  unfold State.recodePage; dsimp only
  repeat' (split <;> try (rename_i h; obtain ⟨rfl, -⟩ := Prod.ext_iff.mp h))
  all_goals (refine ⟨?_, ?_⟩; simp [apply_ite State.pending]; intro hw; simp +contextual (maxDischargeDepth := 9) [apply_ite State.ram, apply_ite Mem.wf, hw])

theorem execRecodePage_keeps (s : State) :
    ∀ t', execRecodePage s = .next t' → t'.pending = s.pending ∧ (s.ram.wf = true → t'.ram.wf = true) := by
  intro t h; simp only [execRecodePage, within_next] at h; obtain ⟨-, rfl⟩ := h
  (repeat' split) <;> (refine ⟨?_, ?_⟩; simp [apply_ite State.pending]; intro hw; simp +contextual (maxDischargeDepth := 9) [apply_ite State.ram, apply_ite Mem.wf, hw])

@[simp] theorem State.accountLease_keeps (s : State) (x : Nat × Img.Lease) :
    (State.accountLease s x).pending = s.pending ∧
      (State.accountLease s x).ram = s.ram := by
  simp [State.accountLease]

theorem execLeaseAccount_keeps (s : State) :
    ∀ t', execLeaseAccount s = .next t' → t'.pending = s.pending ∧ t'.ram = s.ram := by
  intro t h; simp only [execLeaseAccount, within_next] at h; obtain ⟨-, rfl⟩ := h; simp

@[simp] theorem State.beginBreach_keeps (s : State) (k : Nat) (l : Nat) :
    (State.beginBreach s k l).pending = s.pending ∧
      (State.beginBreach s k l).ram = s.ram := by
  simp [State.beginBreach]

theorem execLeaseBreach_keeps (k : Nat) (s : State) :
    ∀ t', execLeaseBreach k s = .next t' → t'.pending = s.pending ∧ t'.ram = s.ram := by
  intro t h; simp only [execLeaseBreach, within_next] at h; obtain ⟨-, rfl⟩ := h
  (repeat' split) <;> simp [apply_ite State.pending, apply_ite State.ram]

theorem execLeaseBreachEnd_keeps (k : Nat) (s : State) :
    ∀ t', execLeaseBreachEnd k s = .next t' → t'.pending = s.pending ∧ t'.ram = s.ram := by
  intro t h; simp only [execLeaseBreachEnd, within_next] at h; obtain ⟨-, rfl⟩ := h; simp [apply_ite State.pending, apply_ite State.ram]

@[simp] theorem State.queryPoison_keeps (s : State) (v : DWord) :
    (State.queryPoison s v).pending = s.pending ∧
      (State.queryPoison s v).ram = s.ram := by
  simp [State.queryPoison]

theorem execPoisonQuery_keeps (v : DWord) (s : State) :
    ∀ t', execPoisonQuery v s = .next t' → t'.pending = s.pending ∧ t'.ram = s.ram := by
  intro t h; simp only [execPoisonQuery, within_next] at h; obtain ⟨-, rfl⟩ := h; simp

@[simp] theorem State.writeInject_keeps (s : State) (n : Nat) :
    (State.writeInject s n).pending = s.pending ∧
      (State.writeInject s n).ram = s.ram := by
  simp [State.writeInject, apply_ite State.pending, apply_ite State.ram]

theorem execInjectArm_keeps (v : DWord) (s : State) :
    ∀ t', execInjectArm v s = .next t' → t'.pending = s.pending ∧ t'.ram = s.ram := by
  intro t h; simp only [execInjectArm, within_next] at h; obtain ⟨-, rfl⟩ := h; simp

@[simp] theorem State.failWaiting_keeps (s : State) (j : Nat) :
    (State.failWaiting s j).pending = s.pending ∧
      (s.ram.wf = true → (State.failWaiting s j).ram.wf = true) := by
  refine ⟨?_, ?_⟩; simp [State.failWaiting, apply_ite State.pending]; intro hw; simp +contextual (maxDischargeDepth := 9) [State.failWaiting, apply_ite State.ram, apply_ite Mem.wf, hw]

@[simp] theorem State.loseCxl_keeps (s : State) (j : Nat) (det : Nat) :
    (State.loseCxl s j det).pending = s.pending ∧
      (s.ram.wf = true → (State.loseCxl s j det).ram.wf = true) := by
  refine ⟨?_, ?_⟩; simp [State.loseCxl]; intro hw; simp [State.loseCxl, hw]

theorem execCxlLinkLost_keeps (j : Nat) (s : State) :
    ∀ t', execCxlLinkLost j s = .next t' → t'.pending = s.pending ∧ (s.ram.wf = true → t'.ram.wf = true) := by
  intro t h; simp only [execCxlLinkLost, within_next] at h; obtain ⟨-, rfl⟩ := h; (refine ⟨?_, ?_⟩; simp [apply_ite State.pending]; intro hw; simp +contextual (maxDischargeDepth := 9) [apply_ite State.ram, apply_ite Mem.wf, hw])

/-! ### Machine/Compute.lean -/

@[simp] theorem State.issueWith_pending (s : State) (q : Nat) (idx : Word) (c : BitVec 512) (run : State → State × Done)
    (hr : ∀ s, (run s).1.pending = s.pending) : (s.issueWith q idx c run).pending = s.pending := by
  simp [State.issueWith, hr]

@[simp] theorem State.issueWith_wf (s : State) (q : Nat) (idx : Word) (c : BitVec 512) (run : State → State × Done)
    (hw : s.ram.wf = true) (hr : ∀ s, s.ram.wf = true → (run s).1.ram.wf = true) : (s.issueWith q idx c run).ram.wf = true := by
  simp [State.issueWith, hr, hw]

@[simp] theorem State.issueMe_pending (s : State) (q : Nat) (idx : Word) (c : BitVec 512) (run : State → State × Done)
    (hr : ∀ s, (run s).1.pending = s.pending) : (s.issueMe q idx c run).pending = s.pending := by
  unfold State.issueMe; dsimp only; (repeat' split) <;> simp [hr]

@[simp] theorem State.issueMe_wf (s : State) (q : Nat) (idx : Word) (c : BitVec 512) (run : State → State × Done)
    (hw : s.ram.wf = true) (hr : ∀ s, s.ram.wf = true → (run s).1.ram.wf = true) : (s.issueMe q idx c run).ram.wf = true := by
  unfold State.issueMe; dsimp only; (repeat' split)
  · simp [hw]
  · exact State.issueWith_wf _ _ _ _ _ hw hr
  · exact hw

@[simp] theorem State.loadFailed_keeps (s : State) (q : Nat) (l : Loaded) :
    (State.loadFailed s q l).1.pending = s.pending ∧
      (s.ram.wf = true → (State.loadFailed s q l).1.ram.wf = true) := by
  unfold State.loadFailed
  (repeat' split) <;> (refine ⟨?_, ?_⟩; simp; intro hw; simp [hw])

@[simp] theorem State.storeResult_keeps (s : State) (q : Nat) (a : Nat) (bs : List Byte) (d : Done) :
    (State.storeResult s q a bs d).1.pending = s.pending ∧
      (s.ram.wf = true → (State.storeResult s q a bs d).1.ram.wf = true) := by
  simp only [State.storeResult]
  repeat' (split <;> try (rename_i h; obtain ⟨rfl, -⟩ := Prod.ext_iff.mp h))
  all_goals (refine ⟨?_, ?_⟩; simp [apply_ite State.pending]; intro hw; simp +contextual (maxDischargeDepth := 9) [apply_ite State.ram, apply_ite Mem.wf, hw])

@[simp] theorem State.placeBatch_keeps (s : State) (c : BitVec 512) (elems : List Byte) (scales : List Byte) (m : Nat) :
    (State.placeBatch s c elems scales m).pending = s.pending ∧
      (State.placeBatch s c elems scales m).ram = s.ram := by
  simp [State.placeBatch]

@[simp] theorem State.loadq_keeps (s : State) (q : Nat) (c : BitVec 512) :
    (State.loadq s q c).1.pending = s.pending ∧
      (s.ram.wf = true → (State.loadq s q c).1.ram.wf = true) := by
  unfold State.loadq; dsimp only
  repeat' (split <;> try (rename_i h; obtain ⟨rfl, -⟩ := Prod.ext_iff.mp h))
  all_goals (refine ⟨?_, ?_⟩; simp [apply_ite State.pending]; intro hw; simp +contextual (maxDischargeDepth := 9) [apply_ite State.ram, apply_ite Mem.wf, hw])

theorem execLoadq_keeps (q : Nat) (s : State) :
    ∀ t', execLoadq q s = .next t' → t'.pending = s.pending ∧ (s.ram.wf = true → t'.ram.wf = true) := by
  intro t h; simp only [execLoadq, within_next] at h; obtain ⟨-, rfl⟩ := h
  refine ⟨State.runHead_pending _ _ _ _ _ fun s i c => ?_, fun hw => State.runHead_wf _ _ _ _ _ hw fun s i c hw => ?_⟩ <;> (try dsimp only) <;> (repeat' split) <;> simp +contextual (maxDischargeDepth := 9) [*]

@[simp] theorem State.scoreRows_keeps (s : State) (q : Nat) (c : BitVec 512) (wrong : Option Nat) (queries : List (List Num.Val)) (scales : Option (List Nat)) (a6 : List Nat) (a7 : List (List Nat)) (a8 : Num.Counts) :
    (State.scoreRows s q c wrong queries scales a6 a7 a8).1.pending = s.pending ∧
      (s.ram.wf = true → (State.scoreRows s q c wrong queries scales a6 a7 a8).1.ram.wf = true) := by
  induction a6 generalizing s a7 a8 with
  | nil => exact ⟨rfl, id⟩
  | cons x xs ih =>
    simp only [State.scoreRows]
    have h := s.load_keeps (cf c 16 8 + x * (Me.dim c * (Num.Fmt.ofCode (Me.fe c)).bits / 8)) (Me.dim c * (Num.Fmt.ofCode (Me.fe c)).bits / 8)
    generalize s.load (cf c 16 8 + x * (Me.dim c * (Num.Fmt.ofCode (Me.fe c)).bits / 8)) (Me.dim c * (Num.Fmt.ofCode (Me.fe c)).bits / 8) = r at h ⊢
    obtain ⟨u, l⟩ := r
    cases l with
    | data bs =>
      dsimp only at h ⊢
      split <;> exact ⟨by simp [ih, h], fun hw => (ih _ _ _).2 (by simp [h, hw])⟩
    | ue p d => exact h
    | unbacked x => exact h

@[simp] theorem State.scoreCmd_keeps (s : State) (q : Nat) (c : BitVec 512) :
    (State.scoreCmd s q c).1.pending = s.pending ∧
      (s.ram.wf = true → (State.scoreCmd s q c).1.ram.wf = true) := by
  unfold State.scoreCmd; dsimp only
  repeat' (split <;> try (rename_i h; obtain ⟨rfl, -⟩ := Prod.ext_iff.mp h))
  all_goals (refine ⟨?_, ?_⟩; simp [apply_ite State.pending]; intro hw; simp +contextual (maxDischargeDepth := 9) [apply_ite State.ram, apply_ite Mem.wf, hw])

theorem execScore_keeps (q : Nat) (s : State) :
    ∀ t', execScore q s = .next t' → t'.pending = s.pending ∧ (s.ram.wf = true → t'.ram.wf = true) := by
  intro t h; simp only [execScore, within_next] at h; obtain ⟨-, rfl⟩ := h
  refine ⟨State.runHead_pending _ _ _ _ _ fun s i c => ?_, fun hw => State.runHead_wf _ _ _ _ _ hw fun s i c hw => ?_⟩ <;> (try dsimp only) <;> (repeat' split) <;> simp +contextual (maxDischargeDepth := 9) [*]

@[simp] theorem State.topkCmd_keeps (s : State) (q : Nat) (c : BitVec 512) :
    (State.topkCmd s q c).1.pending = s.pending ∧
      (s.ram.wf = true → (State.topkCmd s q c).1.ram.wf = true) := by
  unfold State.topkCmd; dsimp only
  repeat' (split <;> try (rename_i h; obtain ⟨rfl, -⟩ := Prod.ext_iff.mp h))
  all_goals (refine ⟨?_, ?_⟩; simp [apply_ite State.pending]; intro hw; simp +contextual (maxDischargeDepth := 9) [apply_ite State.ram, apply_ite Mem.wf, hw])

theorem execTopk_keeps (q : Nat) (s : State) :
    ∀ t', execTopk q s = .next t' → t'.pending = s.pending ∧ (s.ram.wf = true → t'.ram.wf = true) := by
  intro t h; simp only [execTopk, within_next] at h; obtain ⟨-, rfl⟩ := h
  refine ⟨State.runHead_pending _ _ _ _ _ fun s i c => ?_, fun hw => State.runHead_wf _ _ _ _ _ hw fun s i c hw => ?_⟩ <;> (try dsimp only) <;> (repeat' split) <;> simp +contextual (maxDischargeDepth := 9) [*]

@[simp] theorem State.quantCmd_keeps (s : State) (q : Nat) (c : BitVec 512) :
    (State.quantCmd s q c).1.pending = s.pending ∧
      (s.ram.wf = true → (State.quantCmd s q c).1.ram.wf = true) := by
  unfold State.quantCmd; dsimp only
  repeat' (split <;> try (rename_i h; obtain ⟨rfl, -⟩ := Prod.ext_iff.mp h))
  all_goals (refine ⟨?_, ?_⟩; simp [apply_ite State.pending]; intro hw; simp +contextual (maxDischargeDepth := 9) [apply_ite State.ram, apply_ite Mem.wf, hw])

@[simp] theorem State.issueQuant_keeps (s : State) (q : Nat) (idx : Word) (c : BitVec 512) :
    (State.issueQuant s q idx c).pending = s.pending ∧
      (s.ram.wf = true → (State.issueQuant s q idx c).ram.wf = true) := by
  unfold State.issueQuant; dsimp only
  repeat' (split <;> try (rename_i h; obtain ⟨rfl, -⟩ := Prod.ext_iff.mp h))
  all_goals (refine ⟨?_, ?_⟩; simp [apply_ite State.pending]; intro hw; simp +contextual (maxDischargeDepth := 9) [apply_ite State.ram, apply_ite Mem.wf, hw])

theorem execQuant_keeps (q : Nat) (s : State) :
    ∀ t', execQuant q s = .next t' → t'.pending = s.pending ∧ (s.ram.wf = true → t'.ram.wf = true) := by
  intro t h; simp only [execQuant, within_next] at h; obtain ⟨-, rfl⟩ := h
  refine ⟨State.runHead_pending _ _ _ _ _ fun s i c => ?_, fun hw => State.runHead_wf _ _ _ _ _ hw fun s i c hw => ?_⟩ <;> (try dsimp only) <;> (repeat' split) <;> simp +contextual (maxDischargeDepth := 9) [*]

theorem execDequant_keeps (q : Nat) (s : State) :
    ∀ t', execDequant q s = .next t' → t'.pending = s.pending ∧ (s.ram.wf = true → t'.ram.wf = true) := by
  intro t h; simp only [execDequant, within_next] at h; obtain ⟨-, rfl⟩ := h
  refine ⟨State.runHead_pending _ _ _ _ _ fun s i c => ?_, fun hw => State.runHead_wf _ _ _ _ _ hw fun s i c hw => ?_⟩ <;> (try dsimp only) <;> (repeat' split) <;> simp +contextual (maxDischargeDepth := 9) [*]

/-! ### Machine/Cores.lean -/

@[simp] theorem State.endSleep_keeps (s : State) (cl : Nat) (k : Nat) :
    (State.endSleep s cl k).pending = s.pending ∧
      (State.endSleep s cl k).ram = s.ram := by
  simp [State.endSleep, apply_ite State.pending, apply_ite State.ram]

@[simp] theorem State.deliver_keeps (s : State) (cl : Nat) (c : BitVec 512) (k : Nat) :
    (State.deliver s cl c k).pending = s.pending ∧
      (State.deliver s cl c k).ram = s.ram := by
  simp [State.deliver]

@[simp] theorem State.issueLaunch_keeps (s : State) (q : Nat) (idx : Word) (c : BitVec 512) :
    (State.issueLaunch s q idx c).pending = s.pending ∧
      (State.issueLaunch s q idx c).ram = s.ram := by
  simp [State.issueLaunch, apply_ite State.pending, apply_ite State.ram]

theorem execLaunch_keeps (q : Nat) (s : State) :
    ∀ t', execLaunch q s = .next t' → t'.pending = s.pending ∧ (s.ram.wf = true → t'.ram.wf = true) := by
  intro t h; simp only [execLaunch, within_next] at h; obtain ⟨-, rfl⟩ := h
  refine ⟨State.runHead_pending _ _ _ _ _ fun s i c => ?_, fun hw => State.runHead_wf _ _ _ _ _ hw fun s i c hw => ?_⟩ <;> (try dsimp only) <;> (repeat' split) <;> simp +contextual (maxDischargeDepth := 9) [*]

@[simp] theorem State.launchTimeout_keeps (s : State) (q : Nat) (x : Inflight) :
    (State.launchTimeout s q x).pending = s.pending ∧
      (s.ram.wf = true → (State.launchTimeout s q x).ram.wf = true) := by
  refine ⟨?_, ?_⟩; simp [State.launchTimeout]; intro hw; simp [State.launchTimeout, hw]

theorem execLaunchTimeout_keeps (q : Nat) (idx : Word) (s : State) :
    ∀ t', execLaunchTimeout q idx s = .next t' → t'.pending = s.pending ∧ (s.ram.wf = true → t'.ram.wf = true) := by
  intro t h; simp only [execLaunchTimeout, within_next] at h; obtain ⟨-, rfl⟩ := h
  (repeat' split) <;> (refine ⟨?_, ?_⟩; simp [apply_ite State.pending]; intro hw; simp +contextual (maxDischargeDepth := 9) [apply_ite State.ram, apply_ite Mem.wf, hw])

@[simp] theorem State.cleanCore_keeps (s : State) (cl : Nat) (k : Nat) :
    (State.cleanCore s cl k).pending = s.pending ∧
      (s.ram.wf = true → (State.cleanCore s cl k).ram.wf = true) := by
  unfold State.cleanCore
  dsimp only
  refine ⟨?_, fun hw => ?_⟩
  · simp only [State.modCore_keeps]
    refine forEach_pending _ _ _ fun x st => ?_
    split <;> (rename_i h; obtain ⟨rfl, -⟩ := Prod.ext_iff.mp h) <;> simp
  · simp only [State.modCore_keeps]
    refine forEach_wf _ _ _ hw fun x st h => ?_
    have hs := (st.store_keeps x.1 (((s.core cl k)).dirty.readN x.1 x.2)).2 h
    generalize st.store x.1 (((s.core cl k)).dirty.readN x.1 x.2) = r at hs ⊢
    obtain ⟨u, l⟩ := r
    cases l <;> simp only at hs ⊢ <;> simp [hs]

@[simp] theorem State.launchEnds_keeps (s : State) (cl : Nat) (l : Launch) :
    (State.launchEnds s cl l).pending = s.pending ∧
      (s.ram.wf = true → (State.launchEnds s cl l).ram.wf = true) := by
  refine ⟨?_, ?_⟩; simp [State.launchEnds, apply_ite State.pending]; intro hw; simp [State.launchEnds, apply_ite State.ram, apply_ite Mem.wf, hw]

@[simp] theorem State.kernelDone_keeps (s : State) (cl : Nat) (k : Nat) :
    (State.kernelDone s cl k).pending = s.pending ∧
      (s.ram.wf = true → (State.kernelDone s cl k).ram.wf = true) := by
  unfold State.kernelDone; dsimp only
  repeat' (split <;> try (rename_i h; obtain ⟨rfl, -⟩ := Prod.ext_iff.mp h))
  all_goals (refine ⟨?_, ?_⟩; simp [apply_ite State.pending]; intro hw; simp +contextual (maxDischargeDepth := 9) [apply_ite State.ram, apply_ite Mem.wf, hw])

theorem execOlsdone_keeps (cl : Nat) (core : Nat) (s : State) :
    ∀ t', execOlsdone cl core s = .next t' → t'.pending = s.pending ∧ (s.ram.wf = true → t'.ram.wf = true) := by
  intro t h; simp only [execOlsdone, within_next] at h; obtain ⟨-, rfl⟩ := h; (refine ⟨?_, ?_⟩; simp [apply_ite State.pending]; intro hw; simp +contextual (maxDischargeDepth := 9) [apply_ite State.ram, apply_ite Mem.wf, hw])

theorem execWfi_keeps (cl : Nat) (core : Nat) (s : State) :
    ∀ t', execWfi cl core s = .next t' → t'.pending = s.pending ∧ t'.ram = s.ram := by
  intro t h; simp only [execWfi, within_next] at h; obtain ⟨-, rfl⟩ := h; simp [apply_ite State.pending, apply_ite State.ram]

theorem execCoreWake_keeps (cl : Nat) (core : Nat) (s : State) :
    ∀ t', execCoreWake cl core s = .next t' → t'.pending = s.pending ∧ t'.ram = s.ram := by
  intro t h; simp only [execCoreWake, within_next] at h; obtain ⟨-, rfl⟩ := h; simp [apply_ite State.pending, apply_ite State.ram]

theorem execOlswpendClear_keeps (cl : Nat) (core : Nat) (mask : DWord) (s : State) :
    ∀ t', execOlswpendClear cl core mask s = .next t' → t'.pending = s.pending ∧ t'.ram = s.ram := by
  intro t h; simp only [execOlswpendClear, within_next] at h; obtain ⟨-, rfl⟩ := h; simp [apply_ite State.pending, apply_ite State.ram]

@[simp] theorem State.push_keeps (s : State) (cl : Nat) (k : Nat) (v : DWord) :
    (State.push s cl k v).pending = s.pending ∧
      (s.ram.wf = true → (State.push s cl k v).ram.wf = true) := by
  refine ⟨?_, ?_⟩; simp [State.push]; intro hw; simp [State.push, hw]

theorem execOlspush_keeps (cl : Nat) (core : Nat) (v : DWord) (s : State) :
    ∀ t', execOlspush cl core v s = .next t' → t'.pending = s.pending ∧ (s.ram.wf = true → t'.ram.wf = true) := by
  intro t h; simp only [execOlspush, within_next] at h; obtain ⟨-, rfl⟩ := h; (refine ⟨?_, ?_⟩; simp [apply_ite State.pending]; intro hw; simp +contextual (maxDischargeDepth := 9) [apply_ite State.ram, apply_ite Mem.wf, hw])

theorem execCoreReinitialised_keeps (cl : Nat) (core : Nat) (s : State) :
    ∀ t', execCoreReinitialised cl core s = .next t' → t'.pending = s.pending ∧ t'.ram = s.ram := by
  intro t h; simp only [execCoreReinitialised, within_next] at h; obtain ⟨-, rfl⟩ := h; simp [apply_ite State.pending, apply_ite State.ram]

/-! ### Machine/Data.lean -/

@[simp] theorem State.runData_keeps (s : State) (q : Nat) (idx : Word) (c : BitVec 512) :
    (State.runData s q idx c).pending = s.pending ∧
      (State.runData s q idx c).ram = s.ram := by
  unfold State.runData
  (repeat' split) <;> simp

theorem execCopy_keeps (q : Nat) (s : State) :
    ∀ t', execCopy q s = .next t' → t'.pending = s.pending ∧ (s.ram.wf = true → t'.ram.wf = true) := by
  intro t h; simp only [execCopy, within_next] at h; obtain ⟨-, rfl⟩ := h
  refine ⟨State.runHead_pending _ _ _ _ _ fun s i c => ?_, fun hw => State.runHead_wf _ _ _ _ _ hw fun s i c hw => ?_⟩ <;> (try dsimp only) <;> (repeat' split) <;> simp +contextual (maxDischargeDepth := 9) [*]

theorem execFill_keeps (q : Nat) (s : State) :
    ∀ t', execFill q s = .next t' → t'.pending = s.pending ∧ (s.ram.wf = true → t'.ram.wf = true) := by
  intro t h; simp only [execFill, within_next] at h; obtain ⟨-, rfl⟩ := h
  refine ⟨State.runHead_pending _ _ _ _ _ fun s i c => ?_, fun hw => State.runHead_wf _ _ _ _ _ hw fun s i c hw => ?_⟩ <;> (try dsimp only) <;> (repeat' split) <;> simp +contextual (maxDischargeDepth := 9) [*]

theorem execCompare_keeps (q : Nat) (s : State) :
    ∀ t', execCompare q s = .next t' → t'.pending = s.pending ∧ (s.ram.wf = true → t'.ram.wf = true) := by
  intro t h; simp only [execCompare, within_next] at h; obtain ⟨-, rfl⟩ := h
  refine ⟨State.runHead_pending _ _ _ _ _ fun s i c => ?_, fun hw => State.runHead_wf _ _ _ _ _ hw fun s i c hw => ?_⟩ <;> (try dsimp only) <;> (repeat' split) <;> simp +contextual (maxDischargeDepth := 9) [*]

theorem execGather_keeps (q : Nat) (s : State) :
    ∀ t', execGather q s = .next t' → t'.pending = s.pending ∧ (s.ram.wf = true → t'.ram.wf = true) := by
  intro t h; simp only [execGather, within_next] at h; obtain ⟨-, rfl⟩ := h
  refine ⟨State.runHead_pending _ _ _ _ _ fun s i c => ?_, fun hw => State.runHead_wf _ _ _ _ _ hw fun s i c hw => ?_⟩ <;> (try dsimp only) <;> (repeat' split) <;> simp +contextual (maxDischargeDepth := 9) [*]

theorem execScatter_keeps (q : Nat) (s : State) :
    ∀ t', execScatter q s = .next t' → t'.pending = s.pending ∧ (s.ram.wf = true → t'.ram.wf = true) := by
  intro t h; simp only [execScatter, within_next] at h; obtain ⟨-, rfl⟩ := h
  refine ⟨State.runHead_pending _ _ _ _ _ fun s i c => ?_, fun hw => State.runHead_wf _ _ _ _ _ hw fun s i c hw => ?_⟩ <;> (try dsimp only) <;> (repeat' split) <;> simp +contextual (maxDischargeDepth := 9) [*]

@[simp] theorem State.runFence_keeps (s : State) (q : Nat) (idx : Word) (c : BitVec 512) :
    (State.runFence s q idx c).pending = s.pending ∧
      (s.ram.wf = true → (State.runFence s q idx c).ram.wf = true) := by
  unfold State.runFence; dsimp only
  repeat' (split <;> try (rename_i h; obtain ⟨rfl, -⟩ := Prod.ext_iff.mp h))
  all_goals (refine ⟨?_, ?_⟩; simp [apply_ite State.pending]; intro hw; simp +contextual (maxDischargeDepth := 9) [apply_ite State.ram, apply_ite Mem.wf, hw])

theorem execFence_keeps (q : Nat) (s : State) :
    ∀ t', execFence q s = .next t' → t'.pending = s.pending ∧ (s.ram.wf = true → t'.ram.wf = true) := by
  intro t h; simp only [execFence, within_next] at h; obtain ⟨-, rfl⟩ := h
  refine ⟨State.runHead_pending _ _ _ _ _ fun s i c => ?_, fun hw => State.runHead_wf _ _ _ _ _ hw fun s i c hw => ?_⟩ <;> (try dsimp only) <;> (repeat' split) <;> simp +contextual (maxDischargeDepth := 9) [*]

theorem execFenceComplete_keeps (q : Nat) (s : State) :
    ∀ t', execFenceComplete q s = .next t' → t'.pending = s.pending ∧ (s.ram.wf = true → t'.ram.wf = true) := by
  intro t h; simp only [execFenceComplete, within_next] at h; obtain ⟨-, rfl⟩ := h
  (repeat' split) <;> (refine ⟨?_, ?_⟩; simp [apply_ite State.pending]; intro hw; simp +contextual (maxDischargeDepth := 9) [apply_ite State.ram, apply_ite Mem.wf, hw])

/-! ### Machine/Dma.lean -/

@[simp] theorem State.cmdGo_keeps (s : State) (ch : Nat) :
    (State.cmdGo s ch).pending = s.pending ∧
      (State.cmdGo s ch).ram = s.ram := by
  simp [State.cmdGo, apply_ite State.pending, apply_ite State.ram]

@[simp] theorem State.cmdArm_keeps (s : State) (ch : Nat) :
    (State.cmdArm s ch).pending = s.pending ∧
      (State.cmdArm s ch).ram = s.ram := by
  simp [State.cmdArm, apply_ite State.pending, apply_ite State.ram]

@[simp] theorem State.cmdDisarm_keeps (s : State) (ch : Nat) :
    (State.cmdDisarm s ch).pending = s.pending ∧
      (State.cmdDisarm s ch).ram = s.ram := by
  simp [State.cmdDisarm, apply_ite State.pending, apply_ite State.ram]

@[simp] theorem State.cmdAbort_keeps (s : State) (ch : Nat) :
    (State.cmdAbort s ch).pending = s.pending ∧
      (State.cmdAbort s ch).ram = s.ram := by
  simp [State.cmdAbort, apply_ite State.pending, apply_ite State.ram]

@[simp] theorem State.cmdClear_keeps (s : State) (ch : Nat) :
    (State.cmdClear s ch).pending = s.pending ∧
      (State.cmdClear s ch).ram = s.ram := by
  simp [State.cmdClear, apply_ite State.pending, apply_ite State.ram]

theorem execDmaGo_keeps (ch : Nat) (s : State) :
    ∀ t', execDmaGo ch s = .next t' → t'.pending = s.pending ∧ t'.ram = s.ram := by
  intro t h; simp only [execDmaGo, within_next] at h; obtain ⟨-, rfl⟩ := h; simp

theorem execDmaArm_keeps (ch : Nat) (s : State) :
    ∀ t', execDmaArm ch s = .next t' → t'.pending = s.pending ∧ t'.ram = s.ram := by
  intro t h; simp only [execDmaArm, within_next] at h; obtain ⟨-, rfl⟩ := h; simp

theorem execDmaDisarm_keeps (ch : Nat) (s : State) :
    ∀ t', execDmaDisarm ch s = .next t' → t'.pending = s.pending ∧ t'.ram = s.ram := by
  intro t h; simp only [execDmaDisarm, within_next] at h; obtain ⟨-, rfl⟩ := h; simp

theorem execDmaAbort_keeps (ch : Nat) (s : State) :
    ∀ t', execDmaAbort ch s = .next t' → t'.pending = s.pending ∧ t'.ram = s.ram := by
  intro t h; simp only [execDmaAbort, within_next] at h; obtain ⟨-, rfl⟩ := h; simp

theorem execDmaClear_keeps (ch : Nat) (s : State) :
    ∀ t', execDmaClear ch s = .next t' → t'.pending = s.pending ∧ t'.ram = s.ram := by
  intro t h; simp only [execDmaClear, within_next] at h; obtain ⟨-, rfl⟩ := h; simp

@[simp] theorem State.writeChCfg_keeps (s : State) (ch : Nat) (v : Nat) :
    (State.writeChCfg s ch v).pending = s.pending ∧
      (State.writeChCfg s ch v).ram = s.ram := by
  simp [State.writeChCfg, apply_ite State.pending, apply_ite State.ram]

theorem execDmaChCfgWrite_keeps (ch : Nat) (v : Word) (s : State) :
    ∀ t', execDmaChCfgWrite ch v s = .next t' → t'.pending = s.pending ∧ t'.ram = s.ram := by
  intro t h; simp only [execDmaChCfgWrite, within_next] at h; obtain ⟨-, rfl⟩ := h; simp

@[simp] theorem State.dmaStart_keeps (s : State) (ch : Nat) :
    (State.dmaStart s ch).pending = s.pending ∧
      (State.dmaStart s ch).ram = s.ram := by
  unfold State.dmaStart; dsimp only
  repeat' (split <;> try (rename_i h; obtain ⟨rfl, -⟩ := Prod.ext_iff.mp h))
  all_goals simp

theorem execDmaStart_keeps (ch : Nat) (s : State) :
    ∀ t', execDmaStart ch s = .next t' → t'.pending = s.pending ∧ t'.ram = s.ram := by
  intro t h; simp only [execDmaStart, within_next] at h; obtain ⟨-, rfl⟩ := h; simp [apply_ite State.pending, apply_ite State.ram]

theorem execDmaBurst_keeps (s : State) :
    ∀ t', execDmaBurst s = .next t' → t'.pending = s.pending ∧ (s.ram.wf = true → t'.ram.wf = true) := by
  intro t h; simp only [execDmaBurst, within_next] at h; obtain ⟨-, rfl⟩ := h; (refine ⟨?_, ?_⟩; simp [apply_ite State.pending]; intro hw; simp +contextual (maxDischargeDepth := 9) [apply_ite State.ram, apply_ite Mem.wf, hw])

theorem execDmaComplete_keeps (ch : Nat) (s : State) :
    ∀ t', execDmaComplete ch s = .next t' → t'.pending = s.pending ∧ (s.ram.wf = true → t'.ram.wf = true) := by
  intro t h; simp only [execDmaComplete, within_next] at h; obtain ⟨-, rfl⟩ := h; (refine ⟨?_, ?_⟩; simp [apply_ite State.pending]; intro hw; simp +contextual (maxDischargeDepth := 9) [apply_ite State.ram, apply_ite Mem.wf, hw])

theorem execStreamLanding_keeps (p : Nat) (s : State) :
    ∀ t', execStreamLanding p s = .next t' → t'.pending = s.pending ∧ (s.ram.wf = true → t'.ram.wf = true) := by
  intro t h; simp only [execStreamLanding, within_next] at h; obtain ⟨-, rfl⟩ := h
  (repeat' split) <;> (refine ⟨?_, ?_⟩; simp [apply_ite State.pending]; intro hw; simp +contextual (maxDischargeDepth := 9) [apply_ite State.ram, apply_ite Mem.wf, hw])

theorem execLandingSegmentDone_keeps (source : Nat) (optag : Nat) (seg : Nat) (s : State) :
    ∀ t', execLandingSegmentDone source optag seg s = .next t' → t'.pending = s.pending ∧ t'.ram = s.ram := by
  intro t h; simp only [execLandingSegmentDone, within_next] at h; obtain ⟨-, rfl⟩ := h
  (repeat' split) <;> simp [apply_ite State.pending, apply_ite State.ram]

theorem execStreamStall_keeps (ch : Nat) (s : State) :
    ∀ t', execStreamStall ch s = .next t' → t'.pending = s.pending ∧ (s.ram.wf = true → t'.ram.wf = true) := by
  intro t h; simp only [execStreamStall, within_next] at h; obtain ⟨-, rfl⟩ := h; (refine ⟨?_, ?_⟩; simp [apply_ite State.pending]; intro hw; simp +contextual (maxDischargeDepth := 9) [apply_ite State.ram, apply_ite Mem.wf, hw])

theorem execStreamEntryExpiry_keeps (source : Nat) (optag : Nat) (s : State) :
    ∀ t', execStreamEntryExpiry source optag s = .next t' → t'.pending = s.pending ∧ t'.ram = s.ram := by
  intro t h; simp only [execStreamEntryExpiry, within_next] at h; obtain ⟨-, rfl⟩ := h
  (repeat' split) <;> simp [apply_ite State.pending, apply_ite State.ram]

@[simp] theorem State.writeShare_keeps (s : State) (v : Nat) :
    (State.writeShare s v).pending = s.pending ∧
      (State.writeShare s v).ram = s.ram := by
  simp [State.writeShare, apply_ite State.pending, apply_ite State.ram]

theorem execDmaShareWrite_keeps (v : Word) (s : State) :
    ∀ t', execDmaShareWrite v s = .next t' → t'.pending = s.pending ∧ t'.ram = s.ram := by
  intro t h; simp only [execDmaShareWrite, within_next] at h; obtain ⟨-, rfl⟩ := h; simp

theorem execDmaLandCtrlWrite_keeps (w : Nat) (v : DWord) (s : State) :
    ∀ t', execDmaLandCtrlWrite w v s = .next t' → t'.pending = s.pending ∧ t'.ram = s.ram := by
  intro t h; simp only [execDmaLandCtrlWrite, within_next] at h; obtain ⟨-, rfl⟩ := h; simp

end Sys2Proof.Machine
end

