-- ==== Sys2Proof/Laws/KeepFabric.lean ====
section
/-!
SUPPORT. What the operations leave alone: every one keeps the queue of commands, and the bytes of memory or at least their canonical
form (flash, the tick, score, joining, ports, grafting, espalier, slots and the switch).
-/
namespace Sys2Proof.Machine

/-! ### Machine/FlashOps.lean -/

@[simp] theorem State.startFlash_keeps (s : State) (object : Nat) (c : FlashCopy) (failAt : Option Nat) (mailbox : Bool) :
    (State.startFlash s object c failAt mailbox).pending = s.pending ∧
      (State.startFlash s object c failAt mailbox).ram = s.ram := by
  simp [State.startFlash]

@[simp] theorem State.stopFlash_keeps (s : State) :
    (State.stopFlash s).pending = s.pending ∧
      (State.stopFlash s).ram = s.ram := by
  unfold State.stopFlash
  (repeat' split) <;> simp

@[simp] theorem State.mboxDone_keeps (s : State) (r : Answer) (out : List Byte) :
    (State.mboxDone s r out).pending = s.pending ∧
      (State.mboxDone s r out).ram = s.ram := by
  simp [State.mboxDone, apply_ite State.pending, apply_ite State.ram]

@[simp] theorem State.flashDone_keeps (s : State) (w : FlashWrite) (failed : Option Nat) :
    (State.flashDone s w failed).pending = s.pending ∧
      (State.flashDone s w failed).ram = s.ram := by
  unfold State.flashDone
  (repeat' split) <;> simp

@[simp] theorem State.flashStep_keeps (s : State) :
    (State.flashStep s).pending = s.pending ∧
      (State.flashStep s).ram = s.ram := by
  unfold State.flashStep
  (repeat' split) <;> simp

/-! ### Machine/Tick.lean -/

@[simp] theorem State.countStalls_keeps (s : State) (n : Nat) :
    (State.countStalls s n).pending = s.pending ∧
      (State.countStalls s n).ram = s.ram := by
  simp [State.countStalls]

@[simp] theorem State.elapse_keeps (s : State) (n : Nat) :
    (State.elapse s n).pending = s.pending ∧
      (State.elapse s n).ram = s.ram := by
  simp [State.elapse]

@[simp] theorem State.tick_keeps (s : State) :
    (State.tick s).pending = s.pending ∧
      (State.tick s).ram = s.ram := by
  simp [State.tick]

/-! ### Machine/ScoreOps.lean -/

@[simp] theorem State.checkDone_keeps (s : State) :
    (State.checkDone s).pending = s.pending ∧
      (State.checkDone s).ram = s.ram := by
  unfold State.checkDone; dsimp only
  repeat' (split <;> try (rename_i h; obtain ⟨rfl, -⟩ := Prod.ext_iff.mp h))
  all_goals simp

@[simp] theorem State.setTarget_keeps (s : State) (p : Nat) :
    (State.setTarget s p).1.pending = s.pending ∧
      (State.setTarget s p).1.ram = s.ram := by
  unfold State.setTarget
  (repeat' split) <;> simp

/-! ### Machine/JoinOps.lean -/

@[simp] theorem State.sendJoinRequest_keeps (s : State) :
    (State.sendJoinRequest s).pending = s.pending ∧
      (State.sendJoinRequest s).ram = s.ram := by
  simp [State.sendJoinRequest, apply_ite State.pending, apply_ite State.ram]

@[simp] theorem State.admitted_keeps (s : State) (p : Nat) :
    (State.admitted s p).pending = s.pending ∧
      (State.admitted s p).ram = s.ram := by
  simp [State.admitted, apply_ite State.pending, apply_ite State.ram]

@[simp] theorem State.freshAdmit_keeps (s : State) (go : Bool) :
    (State.freshAdmit s go).pending = s.pending ∧
      (State.freshAdmit s go).ram = s.ram := by
  simp [State.freshAdmit, apply_ite State.pending, apply_ite State.ram]

@[simp] theorem State.takeAdmit_keeps (s : State) (c : Cue) :
    (State.takeAdmit s c).pending = s.pending ∧
      (State.takeAdmit s c).ram = s.ram := by
  simp [State.takeAdmit, apply_ite State.pending, apply_ite State.ram]

@[simp] theorem State.onAdmit_keeps (s : State) (p : Nat) (c : Cue) :
    (State.onAdmit s p c).pending = s.pending ∧
      (State.onAdmit s p c).ram = s.ram := by
  simp [State.onAdmit, apply_ite State.pending, apply_ite State.ram]

@[simp] theorem State.sendAdmit_keeps (s : State) (k : Nat) (p : Nat) :
    (State.sendAdmit s k p).pending = s.pending ∧
      (State.sendAdmit s k p).ram = s.ram := by
  unfold State.sendAdmit
  (repeat' split) <;> simp

@[simp] theorem State.graftAdmit_keeps (s : State) (seq : Word) (fp : DWord) (p : Nat) :
    (State.graftAdmit s seq fp p).pending = s.pending ∧
      (State.graftAdmit s seq fp p).ram = s.ram := by
  simp [State.graftAdmit, apply_ite State.pending, apply_ite State.ram]

@[simp] theorem State.repeatAdmits_keeps (s : State) :
    (State.repeatAdmits s).pending = s.pending ∧
      (State.repeatAdmits s).ram = s.ram := by
  simp [State.repeatAdmits]

@[simp] theorem State.refuseJoin_keeps (s : State) (p : Nat) (c : Cue) (reason : Nat) :
    (State.refuseJoin s p c reason).pending = s.pending ∧
      (State.refuseJoin s p c reason).ram = s.ram := by
  simp [State.refuseJoin]

@[simp] theorem State.takeRequest_keeps (s : State) (p : Nat) (c : Cue) :
    (State.takeRequest s p c).pending = s.pending ∧
      (State.takeRequest s p c).ram = s.ram := by
  unfold State.takeRequest; dsimp only
  repeat' (split <;> try (rename_i h; obtain ⟨rfl, -⟩ := Prod.ext_iff.mp h))
  all_goals simp

@[simp] theorem State.onRequest_keeps (s : State) (p : Nat) (c : Cue) :
    (State.onRequest s p c).pending = s.pending ∧
      (State.onRequest s p c).ram = s.ram := by
  simp [State.onRequest, apply_ite State.pending, apply_ite State.ram]

@[simp] theorem State.onRefuse_keeps (s : State) (p : Nat) (c : Cue) :
    (State.onRefuse s p c).pending = s.pending ∧
      (State.onRefuse s p c).ram = s.ram := by
  simp [State.onRefuse, apply_ite State.pending, apply_ite State.ram]

@[simp] theorem State.onJoin_keeps (s : State) (p : Nat) (c : Cue) :
    (State.onJoin s p c).pending = s.pending ∧
      (State.onJoin s p c).ram = s.ram := by
  unfold State.onJoin
  (repeat' split) <;> simp

@[simp] theorem State.ageJoin_keeps (s : State) :
    (State.ageJoin s).pending = s.pending ∧
      (State.ageJoin s).ram = s.ram := by
  simp [State.ageJoin]

/-! ### Machine/PortOps.lean -/

@[simp] theorem State.landRange_keeps (s : State) (p : Nat) :
    (State.landRange s p).pending = s.pending ∧
      (s.ram.wf = true → (State.landRange s p).ram.wf = true) := by
  refine ⟨?_, ?_⟩; simp [State.landRange]; intro hw; simp [State.landRange, hw]

@[simp] theorem State.enterSchedule_keeps (s : State) (m : Mem) (p : Nat) :
    (State.enterSchedule s m p).pending = s.pending ∧
      (s.ram.wf = true → (State.enterSchedule s m p).ram.wf = true) := by
  refine ⟨?_, ?_⟩; simp [State.enterSchedule, apply_ite State.pending]; intro hw; simp [State.enterSchedule, apply_ite State.ram, apply_ite Mem.wf, hw]

@[simp] theorem State.upstreamLost_keeps (s : State) (p : Nat) :
    (State.upstreamLost s p).pending = s.pending ∧
      (State.upstreamLost s p).ram = s.ram := by
  simp [State.upstreamLost, apply_ite State.pending, apply_ite State.ram]

@[simp] theorem State.portToDown_keeps (s : State) (p : Nat) :
    (State.portToDown s p).pending = s.pending ∧
      (State.portToDown s p).ram = s.ram := by
  simp [State.portToDown]

@[simp] theorem State.train_keeps (s : State) (p : Nat) :
    (State.train s p).pending = s.pending ∧
      (State.train s p).ram = s.ram := by
  simp [State.train]

@[simp] theorem State.goOutOfStep_keeps (s : State) (p : Nat) :
    (State.goOutOfStep s p).pending = s.pending ∧
      (State.goOutOfStep s p).ram = s.ram := by
  simp [State.goOutOfStep, apply_ite State.pending, apply_ite State.ram]

@[simp] theorem State.echoMiss_keeps (s : State) (p : Nat) :
    (State.echoMiss s p).pending = s.pending ∧
      (State.echoMiss s p).ram = s.ram := by
  simp [State.echoMiss, apply_ite State.pending, apply_ite State.ram]

@[simp] theorem State.exchange_keeps (s : State) (p : Nat) (t1 : DWord) (t2 : DWord) (t3 : DWord) (t4 : DWord) :
    (State.exchange s p t1 t2 t3 t4).pending = s.pending ∧
      (State.exchange s p t1 t2 t3 t4).ram = s.ram := by
  unfold State.exchange; dsimp only
  repeat' (split <;> try (rename_i h; obtain ⟨rfl, -⟩ := Prod.ext_iff.mp h))
  all_goals simp

@[simp] theorem State.echoIn_keeps (s : State) (p : Nat) (t : TailSlot) (arrival : DWord) :
    (State.echoIn s p t arrival).pending = s.pending ∧
      (State.echoIn s p t arrival).ram = s.ram := by
  unfold State.echoIn; dsimp only
  repeat' (split <;> try (rename_i h; obtain ⟨rfl, -⟩ := Prod.ext_iff.mp h))
  all_goals simp

@[simp] theorem State.noteFallen_keeps (s : State) (p : Nat) (fallen : Bool) :
    (State.noteFallen s p fallen).pending = s.pending ∧
      (State.noteFallen s p fallen).ram = s.ram := by
  simp [State.noteFallen, apply_ite State.pending, apply_ite State.ram]

@[simp] theorem State.noteOos_keeps (s : State) (p : Nat) (oos : Bool) :
    (State.noteOos s p oos).pending = s.pending ∧
      (State.noteOos s p oos).ram = s.ram := by
  simp [State.noteOos, apply_ite State.pending, apply_ite State.ram]

@[simp] theorem State.compareStamp_keeps (s : State) (p : Nat) (t : TailSlot) :
    (State.compareStamp s p t).pending = s.pending ∧
      (s.ram.wf = true → (State.compareStamp s p t).ram.wf = true) := by
  refine ⟨?_, ?_⟩; simp [State.compareStamp, apply_ite State.pending]; intro hw; simp [State.compareStamp, apply_ite State.ram, apply_ite Mem.wf, hw]

@[simp] theorem State.tailLost_keeps (s : State) (p : Nat) (uncorr : Bool) :
    (State.tailLost s p uncorr).pending = s.pending ∧
      (State.tailLost s p uncorr).ram = s.ram := by
  simp [State.tailLost, apply_ite State.pending, apply_ite State.ram]

@[simp] theorem State.tailIn_keeps (s : State) (p : Nat) (t : TailSlot) (arrival : DWord) (phase : Int) :
    (State.tailIn s p t arrival phase).pending = s.pending ∧
      (s.ram.wf = true → (State.tailIn s p t arrival phase).ram.wf = true) := by
  unfold State.tailIn; dsimp only
  repeat' (split <;> try (rename_i h; obtain ⟨rfl, -⟩ := Prod.ext_iff.mp h))
  all_goals (refine ⟨?_, ?_⟩; simp [apply_ite State.pending]; intro hw; simp +contextual (maxDischargeDepth := 9) [apply_ite State.ram, apply_ite Mem.wf, hw])

@[simp] theorem State.slew_keeps (s : State) (p : Nat) :
    (State.slew s p).pending = s.pending ∧
      (State.slew s p).ram = s.ram := by
  simp [State.slew, apply_ite State.pending, apply_ite State.ram]

@[simp] theorem State.realign_keeps (s : State) (p : Nat) :
    (State.realign s p).pending = s.pending ∧
      (State.realign s p).ram = s.ram := by
  unfold State.realign; dsimp only
  repeat' (split <;> try (rename_i h; obtain ⟨rfl, -⟩ := Prod.ext_iff.mp h))
  all_goals simp

/-! ### Machine/GraftOps.lean -/

@[simp] theorem State.mboxEnd_keeps (s : State) (result : Nat) (detail : Nat) :
    (State.mboxEnd s result detail).pending = s.pending ∧
      (State.mboxEnd s result detail).ram = s.ram := by
  simp [State.mboxEnd]

@[simp] theorem State.mboxIgnored_keeps (s : State) :
    (State.mboxIgnored s).pending = s.pending ∧
      (State.mboxIgnored s).ram = s.ram := by
  simp [State.mboxIgnored]

@[simp] theorem State.readBundle_keeps (s : State) (act : Mem) (a : Nat) (len : Nat) :
    (State.readBundle s act a len).1.pending = s.pending ∧
      (s.ram.wf = true → (State.readBundle s act a len).1.ram.wf = true) := by
  have h0 := s.load_keeps a 64
  unfold State.readBundle
  split
  · exact ⟨rfl, id⟩
  · generalize s.load a 64 = r at h0 ⊢
    obtain ⟨u, l⟩ := r
    cases l with
    | data h =>
      dsimp only at h0 ⊢
      split
      · exact h0
      · split
        · exact h0
        · have h1 := u.load_keeps a len
          generalize u.load a len = r at h1 ⊢
          obtain ⟨v, l⟩ := r
          have h2 := And.intro (h1.1.trans h0.1) fun hw => h1.2 (h0.2 hw)
          cases l with
          | data bs => dsimp only at h2 ⊢; split <;> exact h2
          | ue p d => exact h2
          | unbacked x => exact h2
    | ue p d => exact h0
    | unbacked x => exact h0

@[simp] theorem State.graftFlood_keeps (s : State) (typ : Nat) (body : List Byte) :
    (State.graftFlood s typ body).pending = s.pending ∧
      (State.graftFlood s typ body).ram = s.ram := by
  simp [State.graftFlood]

@[simp] theorem State.sendPrepare_keeps (s : State) :
    (State.sendPrepare s).pending = s.pending ∧
      (State.sendPrepare s).ram = s.ram := by
  simp [State.sendPrepare]

@[simp] theorem State.skipTransfers_keeps (s : State) :
    (State.skipTransfers s).pending = s.pending ∧
      (State.skipTransfers s).ram = s.ram := by
  simp [State.skipTransfers, apply_ite State.pending, apply_ite State.ram]

@[simp] theorem State.startGraft_keeps (s : State) (act : Mem) (m : Mem) (a : Nat) :
    (State.startGraft s act m a).pending = s.pending ∧
      (State.startGraft s act m a).ram = s.ram := by
  simp [State.startGraft, apply_ite State.pending, apply_ite State.ram]

@[simp] theorem State.submitGraft_keeps (s : State) :
    (State.submitGraft s).pending = s.pending ∧
      (s.ram.wf = true → (State.submitGraft s).ram.wf = true) := by
  unfold State.submitGraft
  split
  · simp
  · rename_i act _
    split
    · simp
    · have h := s.readBundle_keeps act (s.mboxArg 0) (s.mboxArg 1)
      generalize s.readBundle act (s.mboxArg 0) (s.mboxArg 1) = r at h ⊢
      obtain ⟨u, x⟩ := r
      cases x <;> dsimp only at h ⊢ <;> (try split) <;> exact ⟨by simp [h], fun hw => by simp [h, hw]⟩

@[simp] theorem State.dropGraft_keeps (s : State) (outcome : Nat) (reason : Nat) :
    (State.dropGraft s outcome reason).pending = s.pending ∧
      (State.dropGraft s outcome reason).ram = s.ram := by
  simp [State.dropGraft, apply_ite State.pending, apply_ite State.ram]

@[simp] theorem State.abortGraft_keeps (s : State) (reason : Nat) (status : Nat) (who : Nat) :
    (State.abortGraft s reason status who).pending = s.pending ∧
      (State.abortGraft s reason status who).ram = s.ram := by
  simp [State.abortGraft]

@[simp] theorem State.cancelGraft_keeps (s : State) :
    (State.cancelGraft s).pending = s.pending ∧
      (State.cancelGraft s).ram = s.ram := by
  simp [State.cancelGraft, apply_ite State.pending, apply_ite State.ram]

@[simp] theorem State.takeCommit_keeps (s : State) (p : Nat) :
    (State.takeCommit s p).pending = s.pending ∧
      (State.takeCommit s p).ram = s.ram := by
  unfold State.takeCommit; dsimp only
  repeat' (split <;> try (rename_i h; obtain ⟨rfl, -⟩ := Prod.ext_iff.mp h))
  all_goals simp

@[simp] theorem State.commitGraft_keeps (s : State) :
    (State.commitGraft s).pending = s.pending ∧
      (State.commitGraft s).ram = s.ram := by
  simp [State.commitGraft]

@[simp] theorem State.decideGraft_keeps (s : State) :
    (State.decideGraft s).pending = s.pending ∧
      (State.decideGraft s).ram = s.ram := by
  unfold State.decideGraft
  (repeat' split) <;> simp

@[simp] theorem State.transferSlot_keeps (s : State) (e : BundleEntry) (n : Nat) :
    (State.transferSlot s e n).1.pending = s.pending ∧
      (s.ram.wf = true → (State.transferSlot s e n).1.ram.wf = true) := by
  refine ⟨?_, ?_⟩; simp [State.transferSlot]; intro hw; simp [State.transferSlot, hw]

@[simp] theorem State.transferSent_keeps (s : State) (e : BundleEntry) (n : Nat) :
    (State.transferSent s e n).pending = s.pending ∧
      (State.transferSent s e n).ram = s.ram := by
  simp [State.transferSent, apply_ite State.pending, apply_ite State.ram]

@[simp] theorem State.relayGraft_keeps (s : State) (p : Nat) (x : Slot) :
    (State.relayGraft s p x).pending = s.pending ∧
      (State.relayGraft s p x).ram = s.ram := by
  simp [State.relayGraft, apply_ite State.pending, apply_ite State.ram]

@[simp] theorem State.sendAck_keeps (s : State) (master : Nat) (id : Nat) (status : Nat) (err : Nat) (detail : Nat) :
    (State.sendAck s master id status err detail).1.pending = s.pending ∧
      (State.sendAck s master id status err detail).1.ram = s.ram := by
  simp [State.sendAck]

@[simp] theorem State.answerPrepare_keeps (s : State) :
    (State.answerPrepare s).pending = s.pending ∧
      (State.answerPrepare s).ram = s.ram := by
  unfold State.answerPrepare; dsimp only
  repeat' (split <;> try (rename_i h; obtain ⟨rfl, -⟩ := Prod.ext_iff.mp h))
  all_goals simp

@[simp] theorem State.lockGraft_keeps (s : State) (x : Slot) :
    (State.lockGraft s x).pending = s.pending ∧
      (State.lockGraft s x).ram = s.ram := by
  simp [State.lockGraft]

@[simp] theorem State.buildImage_keeps (s : State) :
    (State.buildImage s).pending = s.pending ∧
      (State.buildImage s).ram = s.ram := by
  unfold State.buildImage; dsimp only
  repeat' (split <;> try (rename_i h; obtain ⟨rfl, -⟩ := Prod.ext_iff.mp h))
  all_goals simp

@[simp] theorem State.takeGraft_keeps (s : State) (x : Slot) :
    (State.takeGraft s x).pending = s.pending ∧
      (State.takeGraft s x).ram = s.ram := by
  simp [State.takeGraft, apply_ite State.pending, apply_ite State.ram]

@[simp] theorem State.onGraftSlot_keeps (s : State) (p : Nat) (x : Slot) :
    (State.onGraftSlot s p x).pending = s.pending ∧
      (State.onGraftSlot s p x).ram = s.ram := by
  simp [State.onGraftSlot, apply_ite State.pending, apply_ite State.ram]

@[simp] theorem State.relayFlood_keeps (s : State) (p : Nat) (c : Cue) :
    (State.relayFlood s p c).1.pending = s.pending ∧
      (State.relayFlood s p c).1.ram = s.ram := by
  unfold State.relayFlood; dsimp only
  repeat' (split <;> try (rename_i h; obtain ⟨rfl, -⟩ := Prod.ext_iff.mp h))
  all_goals simp

@[simp] theorem State.onPrepare_keeps (s : State) (p : Nat) (c : Cue) :
    (State.onPrepare s p c).pending = s.pending ∧
      (State.onPrepare s p c).ram = s.ram := by
  unfold State.onPrepare; dsimp only
  repeat' (split <;> try (rename_i h; obtain ⟨rfl, -⟩ := Prod.ext_iff.mp h))
  all_goals simp

@[simp] theorem State.onAck_keeps (s : State) (c : Cue) :
    (State.onAck s c).pending = s.pending ∧
      (State.onAck s c).ram = s.ram := by
  simp [State.onAck, apply_ite State.pending, apply_ite State.ram]

@[simp] theorem State.onCommit_keeps (s : State) (p : Nat) (c : Cue) :
    (State.onCommit s p c).pending = s.pending ∧
      (State.onCommit s p c).ram = s.ram := by
  unfold State.onCommit; dsimp only
  repeat' (split <;> try (rename_i h; obtain ⟨rfl, -⟩ := Prod.ext_iff.mp h))
  all_goals simp

@[simp] theorem State.onAbort_keeps (s : State) (p : Nat) (c : Cue) :
    (State.onAbort s p c).pending = s.pending ∧
      (State.onAbort s p c).ram = s.ram := by
  unfold State.onAbort; dsimp only
  repeat' (split <;> try (rename_i h; obtain ⟨rfl, -⟩ := Prod.ext_iff.mp h))
  all_goals simp

@[simp] theorem State.ackDeadline_keeps (s : State) :
    (State.ackDeadline s).pending = s.pending ∧
      (State.ackDeadline s).ram = s.ram := by
  unfold State.ackDeadline
  (repeat' split) <;> simp

@[simp] theorem State.noDecision_keeps (s : State) :
    (State.noDecision s).pending = s.pending ∧
      (State.noDecision s).ram = s.ram := by
  simp [State.noDecision, apply_ite State.pending, apply_ite State.ram]

@[simp] theorem State.drainUnit_keeps (s : State) :
    (State.drainUnit s).pending = s.pending ∧
      (s.ram.wf = true → (State.drainUnit s).ram.wf = true) := by
  unfold State.drainUnit
  (repeat' split) <;> (refine ⟨?_, ?_⟩; simp; intro hw; simp [hw])

@[simp] theorem State.unitOut_keeps (s : State) (i : Nat) :
    (State.unitOut s i).pending = s.pending ∧
      (s.ram.wf = true → (State.unitOut s i).ram.wf = true) := by
  refine ⟨?_, ?_⟩; simp [State.unitOut, apply_ite State.pending]; intro hw; simp [State.unitOut, apply_ite State.ram, apply_ite Mem.wf, hw]

@[simp] theorem State.outUnit_keeps (s : State) :
    (State.outUnit s).pending = s.pending ∧
      (s.ram.wf = true → (State.outUnit s).ram.wf = true) := by
  unfold State.outUnit
  (repeat' split) <;> (refine ⟨?_, ?_⟩; simp; intro hw; simp [hw])

@[simp] theorem State.releaseReset_keeps (s : State) (i : Nat) :
    (State.releaseReset s i).pending = s.pending ∧
      (State.releaseReset s i).ram = s.ram := by
  simp [State.releaseReset]

@[simp] theorem State.returnTo_keeps (s : State) :
    (State.returnTo s).pending = s.pending ∧
      (State.returnTo s).ram = s.ram := by
  unfold State.returnTo; dsimp only
  repeat' (split <;> try (rename_i h; obtain ⟨rfl, -⟩ := Prod.ext_iff.mp h))
  all_goals simp

@[simp] theorem State.fillCxl_keeps (s : State) (j : Nat) :
    (State.fillCxl s j).pending = s.pending ∧
      (s.ram.wf = true → (State.fillCxl s j).ram.wf = true) := by
  refine ⟨?_, ?_⟩; simp [State.fillCxl]; intro hw; simp [State.fillCxl, hw]

@[simp] theorem State.clearReturned_keeps (s : State) (i : Nat) :
    (State.clearReturned s i).pending = s.pending ∧
      (s.ram.wf = true → (State.clearReturned s i).ram.wf = true) := by
  refine ⟨?_, ?_⟩; simp [State.clearReturned, apply_ite State.pending]; intro hw; simp [State.clearReturned, apply_ite State.ram, apply_ite Mem.wf, hw]

@[simp] theorem State.probationDownbeat_keeps (s : State) (i : Nat) :
    (State.probationDownbeat s i).pending = s.pending ∧
      (State.probationDownbeat s i).ram = s.ram := by
  simp [State.probationDownbeat, apply_ite State.pending, apply_ite State.ram]

@[simp] theorem State.applyMasks_keeps (s : State) :
    (State.applyMasks s).pending = s.pending ∧
      (s.ram.wf = true → (State.applyMasks s).ram.wf = true) := by
  refine ⟨?_, ?_⟩; simp [State.applyMasks, apply_ite State.pending]; intro hw; simp +contextual (maxDischargeDepth := 9) [State.applyMasks, apply_ite State.ram, apply_ite Mem.wf, hw]

/-! ### Machine/Espalier.lean -/

@[simp] theorem State.dropFlit_keeps (s : State) (r : Nat) (via : List Nat) :
    (State.dropFlit s r via).pending = s.pending ∧
      (State.dropFlit s r via).ram = s.ram := by
  simp [State.dropFlit]

@[simp] theorem State.secded_keeps (s : State) (r : Nat) (f : Flit) (err : FlitError) (via : List Nat) :
    (State.secded s r f err via).1.pending = s.pending ∧
      (s.ram.wf = true → (State.secded s r f err via).1.ram.wf = true) := by
  unfold State.secded
  (repeat' split) <;> (refine ⟨?_, ?_⟩; simp; intro hw; simp [hw])

@[simp] theorem State.countEdgeOver_keeps (s : State) (p : Nat) :
    (State.countEdgeOver s p).pending = s.pending ∧
      (State.countEdgeOver s p).ram = s.ram := by
  simp [State.countEdgeOver]

@[simp] theorem State.countEdgeLate_keeps (s : State) (p : Nat) :
    (State.countEdgeLate s p).pending = s.pending ∧
      (State.countEdgeLate s p).ram = s.ram := by
  simp [State.countEdgeLate]

@[simp] theorem State.edgeOver_keeps (s : State) (r : Nat) (cycle : Nat) (via : List Nat) :
    (State.edgeOver s r cycle via).pending = s.pending ∧
      (State.edgeOver s r cycle via).ram = s.ram := by
  simp [State.edgeOver, apply_ite State.pending, apply_ite State.ram]

@[simp] theorem State.drive_keeps (s : State) (r : Nat) (f : Flit) (o : Link) (via : List Nat) :
    (State.drive s r f o via).pending = s.pending ∧
      (State.drive s r f o via).ram = s.ram := by
  unfold State.drive; dsimp only
  repeat' (split <;> try (rename_i h; obtain ⟨rfl, -⟩ := Prod.ext_iff.mp h))
  all_goals simp

@[simp] theorem State.hop_keeps (s : State) (r : Nat) (l : Link) (f : Flit) (cycle : Nat) (err : FlitError) (via : List Nat) :
    (State.hop s r l f cycle err via).pending = s.pending ∧
      (s.ram.wf = true → (State.hop s r l f cycle err via).ram.wf = true) := by
  unfold State.hop; dsimp only
  repeat' (split <;> try (rename_i h; obtain ⟨rfl, -⟩ := Prod.ext_iff.mp h))
  all_goals (refine ⟨?_, ?_⟩; simp [apply_ite State.pending]; intro hw; simp +contextual (maxDischargeDepth := 9) [apply_ite State.ram, apply_ite Mem.wf, hw])

theorem execFlitHop_keeps (r : Nat) (input : Link) (inject : Option Flit) (cycle : Nat) (err : FlitError) (s : State) :
    ∀ t', execFlitHop r input inject cycle err s = .next t' → t'.pending = s.pending ∧ (s.ram.wf = true → t'.ram.wf = true) := by
  intro t h; simp only [execFlitHop, within_next] at h; obtain ⟨-, rfl⟩ := h
  (repeat' split) <;> (refine ⟨?_, ?_⟩; simp [apply_ite State.pending]; intro hw; simp +contextual (maxDischargeDepth := 9) [apply_ite State.ram, apply_ite Mem.wf, hw])

@[simp] theorem State.poisonedFlit_keeps (s : State) (u : Attach) (f : Flit) :
    (State.poisonedFlit s u f).pending = s.pending ∧
      (s.ram.wf = true → (State.poisonedFlit s u f).ram.wf = true) := by
  unfold State.poisonedFlit
  (repeat' split) <;> (refine ⟨?_, ?_⟩; simp; intro hw; simp [hw])

theorem execFlitDeliver_keeps (r : Nat) (l : Link) (err : FlitError) (s : State) :
    ∀ t', execFlitDeliver r l err s = .next t' → t'.pending = s.pending ∧ (s.ram.wf = true → t'.ram.wf = true) := by
  intro t h; simp only [execFlitDeliver, within_next] at h; obtain ⟨-, rfl⟩ := h
  repeat' (split <;> try (rename_i h; obtain ⟨rfl, -⟩ := Prod.ext_iff.mp h))
  all_goals (refine ⟨?_, ?_⟩; simp [apply_ite State.pending]; intro hw; simp +contextual (maxDischargeDepth := 9) [apply_ite State.ram, apply_ite Mem.wf, hw])

/-! ### Machine/Slots.lean -/

@[simp] theorem State.slotLost_keeps (s : State) (p : Nat) (cnt : Nat) (det : Nat) (red : Bool) :
    (State.slotLost s p cnt det red).pending = s.pending ∧
      (State.slotLost s p cnt det red).ram = s.ram := by
  simp [State.slotLost]

@[simp] theorem State.pushSlot_keeps (s : State) (p : Nat) (sl : Slot) :
    (State.pushSlot s p sl).pending = s.pending ∧
      (State.pushSlot s p sl).ram = s.ram := by
  simp [State.pushSlot]

@[simp] theorem State.noteCorr_keeps (s : State) (p : Nat) (corr : List Nat) :
    (State.noteCorr s p corr).pending = s.pending ∧
      (State.noteCorr s p corr).ram = s.ram := by
  simp [State.noteCorr, apply_ite State.pending, apply_ite State.ram]

@[simp] theorem State.noteAmber_keeps (s : State) (p : Nat) (e : Int) :
    (State.noteAmber s p e).pending = s.pending ∧
      (State.noteAmber s p e).ram = s.ram := by
  simp [State.noteAmber, apply_ite State.pending, apply_ite State.ram]

@[simp] theorem State.judgeSlot_keeps (s : State) (p : Nat) (sent : Stamp) (sl : Slot) (payOk : Bool) :
    (State.judgeSlot s p sent sl payOk).pending = s.pending ∧
      (State.judgeSlot s p sent sl payOk).ram = s.ram := by
  simp [State.judgeSlot, apply_ite State.pending, apply_ite State.ram]

@[simp] theorem State.probationSlot_keeps (s : State) (p : Nat) (ok : Bool) :
    (State.probationSlot s p ok).pending = s.pending ∧
      (s.ram.wf = true → (State.probationSlot s p ok).ram.wf = true) := by
  refine ⟨?_, ?_⟩; simp [State.probationSlot, apply_ite State.pending]; intro hw; simp [State.probationSlot, apply_ite State.ram, apply_ite Mem.wf, hw]

@[simp] theorem State.afterLoss_keeps (s : State) (p : Nat) :
    (State.afterLoss s p).pending = s.pending ∧
      (s.ram.wf = true → (State.afterLoss s p).ram.wf = true) := by
  refine ⟨?_, ?_⟩; simp [State.afterLoss, apply_ite State.pending]; intro hw; simp [State.afterLoss, apply_ite State.ram, apply_ite Mem.wf, hw]

@[simp] theorem State.checkSlot_keeps (s : State) (p : Nat) (w : Nat) (bs : List Byte) (e : Int) :
    (State.checkSlot s p w bs e).pending = s.pending ∧
      (s.ram.wf = true → (State.checkSlot s p w bs e).ram.wf = true) := by
  refine ⟨?_, ?_⟩; simp [State.checkSlot, apply_ite State.pending]; intro hw; simp [State.checkSlot, apply_ite State.ram, apply_ite Mem.wf, hw]

@[simp] theorem State.slotIn_keeps (s : State) (p : Nat) (code : Option (Nat × List Byte)) (corr : List Nat) (phase : Int) :
    (State.slotIn s p code corr phase).pending = s.pending ∧
      (s.ram.wf = true → (State.slotIn s p code corr phase).ram.wf = true) := by
  unfold State.slotIn; dsimp only
  repeat' (split <;> try (rename_i h; obtain ⟨rfl, -⟩ := Prod.ext_iff.mp h))
  all_goals (refine ⟨?_, ?_⟩; simp [apply_ite State.pending]; intro hw; simp +contextual (maxDischargeDepth := 9) [apply_ite State.ram, apply_ite Mem.wf, hw])

theorem execSlotRx_keeps (p : Nat) (code : Option (Nat × List Byte)) (corr : List Nat) (phase : Int) (s : State) :
    ∀ t', execSlotRx p code corr phase s = .next t' → t'.pending = s.pending ∧ (s.ram.wf = true → t'.ram.wf = true) := by
  intro t h; simp only [execSlotRx, within_next] at h; obtain ⟨-, rfl⟩ := h; (refine ⟨?_, ?_⟩; simp [apply_ite State.pending]; intro hw; simp +contextual (maxDischargeDepth := 9) [apply_ite State.ram, apply_ite Mem.wf, hw])

@[simp] theorem State.holdBeat_keeps (s : State) (q : Nat) (sl : Slot) (at_ : Nat) :
    (State.holdBeat s q sl at_).pending = s.pending ∧
      (State.holdBeat s q sl at_).ram = s.ram := by
  simp [State.holdBeat, apply_ite State.pending, apply_ite State.ram]

@[simp] theorem State.forwardTo_keeps (s : State) (paths : List (Nat × List (Attach × Nat))) (sl : Slot) (q : Nat) :
    (State.forwardTo s paths sl q).pending = s.pending ∧
      (State.forwardTo s paths sl q).ram = s.ram := by
  simp [State.forwardTo, apply_ite State.pending, apply_ite State.ram]

@[simp] theorem State.forwardSlot_keeps (s : State) (p : Nat) (sl : Slot) :
    (State.forwardSlot s p sl).pending = s.pending ∧
      (State.forwardSlot s p sl).ram = s.ram := by
  simp [State.forwardSlot]

@[simp] theorem State.ingressOvf_keeps (s : State) (p : Nat) :
    (State.ingressOvf s p).pending = s.pending ∧
      (State.ingressOvf s p).ram = s.ram := by
  simp [State.ingressOvf]

@[simp] theorem State.holdIngress_keeps (s : State) (p : Nat) (sl : Slot) :
    (State.holdIngress s p sl).pending = s.pending ∧
      (State.holdIngress s p sl).ram = s.ram := by
  simp [State.holdIngress]

@[simp] theorem State.streamSlot_keeps (s : State) (p : Nat) (sl : Slot) :
    (State.streamSlot s p sl).pending = s.pending ∧
      (State.streamSlot s p sl).ram = s.ram := by
  simp [State.streamSlot, apply_ite State.pending, apply_ite State.ram]

@[simp] theorem State.deliverSlot_keeps (s : State) (p : Nat) (sl : Slot) :
    (State.deliverSlot s p sl).pending = s.pending ∧
      (s.ram.wf = true → (State.deliverSlot s p sl).ram.wf = true) := by
  unfold State.deliverSlot; dsimp only
  repeat' (split <;> try (rename_i h; obtain ⟨rfl, -⟩ := Prod.ext_iff.mp h))
  all_goals (refine ⟨?_, ?_⟩; simp [apply_ite State.pending]; intro hw; simp +contextual (maxDischargeDepth := 9) [apply_ite State.ram, apply_ite Mem.wf, hw])

@[simp] theorem State.descantOf_keeps (s : State) (p : Nat) (sl : Slot) :
    (State.descantOf s p sl).pending = s.pending ∧
      (s.ram.wf = true → (State.descantOf s p sl).ram.wf = true) := by
  unfold State.descantOf
  (repeat' split) <;> (refine ⟨?_, ?_⟩; simp; intro hw; simp [hw])

@[simp] theorem State.releaseSlot_keeps (s : State) (p : Nat) :
    (State.releaseSlot s p).pending = s.pending ∧
      (s.ram.wf = true → (State.releaseSlot s p).ram.wf = true) := by
  unfold State.releaseSlot
  (repeat' split) <;> (refine ⟨?_, ?_⟩; simp; intro hw; simp [hw])

theorem execSlotRelease_keeps (p : Nat) (s : State) :
    ∀ t', execSlotRelease p s = .next t' → t'.pending = s.pending ∧ (s.ram.wf = true → t'.ram.wf = true) := by
  intro t h; simp only [execSlotRelease, within_next] at h; obtain ⟨-, rfl⟩ := h; (refine ⟨?_, ?_⟩; simp [apply_ite State.pending]; intro hw; simp +contextual (maxDischargeDepth := 9) [apply_ite State.ram, apply_ite Mem.wf, hw])

@[simp] theorem State.takeCues_keeps (s : State) (key : Nat) (n : Nat) :
    (State.takeCues s key n).1.pending = s.pending ∧
      (State.takeCues s key n).1.ram = s.ram := by
  simp [State.takeCues, apply_ite State.pending, apply_ite State.ram]

@[simp] theorem State.cueSlot_keeps (s : State) (p : Nat) :
    (State.cueSlot s p).1.pending = s.pending ∧
      (s.ram.wf = true → (State.cueSlot s p).1.ram.wf = true) := by
  unfold State.cueSlot; dsimp only
  repeat' (split <;> try (rename_i h; obtain ⟨rfl, -⟩ := Prod.ext_iff.mp h))
  all_goals (refine ⟨?_, ?_⟩; simp [apply_ite State.pending]; intro hw; simp +contextual (maxDischargeDepth := 9) [apply_ite State.ram, apply_ite Mem.wf, hw])

@[simp] theorem State.streamOut_keeps (s : State) (g : Nat) :
    (State.streamOut s g).1.pending = s.pending ∧
      (State.streamOut s g).1.ram = s.ram := by
  unfold State.streamOut; dsimp only
  repeat' (split <;> try (rename_i h; obtain ⟨rfl, -⟩ := Prod.ext_iff.mp h))
  all_goals simp

@[simp] theorem State.graftSlotOut_keeps (s : State) (g : Nat) :
    (State.graftSlotOut s g).1.pending = s.pending ∧
      (s.ram.wf = true → (State.graftSlotOut s g).1.ram.wf = true) := by
  have h1 : ∀ r, s.graftOut g = some r → r.1.pending = s.pending ∧ (s.ram.wf = true → r.1.ram.wf = true) := by
    intro r hr
    unfold State.graftOut at hr
    (repeat' split at hr) <;> first
      | (cases hr; done)
      | (obtain rfl := Option.some.inj hr; exact ⟨rfl, id⟩)
      | (obtain rfl := Option.some.inj hr; exact ⟨by simp, fun hw => by simp [hw]⟩)
  unfold State.graftSlotOut
  split
  · exact h1 _ ‹_›
  · exact ⟨rfl, id⟩

@[simp] theorem State.classOut_keeps (s : State) (p : Nat) (code : Nat) :
    (State.classOut s p code).1.pending = s.pending ∧
      (s.ram.wf = true → (State.classOut s p code).1.ram.wf = true) := by
  unfold State.classOut
  (repeat' split) <;> (refine ⟨?_, ?_⟩; simp; intro hw; simp [hw])

@[simp] theorem State.firstOut_keeps (s : State) (p : Nat) (a2 : List Nat) :
    (State.firstOut s p a2).1.pending = s.pending ∧
      (s.ram.wf = true → (State.firstOut s p a2).1.ram.wf = true) := by
  induction a2 generalizing s with
  | nil => exact ⟨rfl, id⟩
  | cons x xs ih =>
    have h := s.classOut_keeps p x
    simp only [State.firstOut]
    generalize s.classOut p x = r at h ⊢
    obtain ⟨u, l⟩ := r
    cases l <;> dsimp only at h ⊢
    · exact ⟨by simp [ih, h], fun hw => by simp [ih, h, hw]⟩
    · exact h

@[simp] theorem State.ownFill_keeps (s : State) (p : Nat) (code : Nat) :
    (State.ownFill s p code).1.pending = s.pending ∧
      (s.ram.wf = true → (State.ownFill s p code).1.ram.wf = true) := by
  unfold State.ownFill
  (repeat' split) <;> (refine ⟨?_, ?_⟩; simp; intro hw; simp [hw])

@[simp] theorem State.fillSlot_keeps (s : State) (p : Nat) :
    (State.fillSlot s p).1.pending = s.pending ∧
      (s.ram.wf = true → (State.fillSlot s p).1.ram.wf = true) := by
  unfold State.fillSlot; dsimp only
  repeat' (split <;> try (rename_i h; obtain ⟨rfl, -⟩ := Prod.ext_iff.mp h))
  all_goals (refine ⟨?_, ?_⟩; simp [apply_ite State.pending]; intro hw; simp +contextual (maxDischargeDepth := 9) [apply_ite State.ram, apply_ite Mem.wf, hw])

@[simp] theorem State.emit_keeps (s : State) (p : Nat) (sl : Slot) (op : Option Descant) :
    (State.emit s p sl op).pending = s.pending ∧
      (State.emit s p sl op).ram = s.ram := by
  simp [State.emit]

@[simp] theorem State.shadowSlot_keeps (s : State) (p : Nat) :
    (State.shadowSlot s p).1.pending = s.pending ∧
      (State.shadowSlot s p).1.ram = s.ram := by
  unfold State.shadowSlot; dsimp only
  repeat' (split <;> try (rename_i h; obtain ⟨rfl, -⟩ := Prod.ext_iff.mp h))
  all_goals simp

@[simp] theorem State.sendSlot_keeps (s : State) (p : Nat) :
    (State.sendSlot s p).pending = s.pending ∧
      (s.ram.wf = true → (State.sendSlot s p).ram.wf = true) := by
  refine ⟨?_, ?_⟩; simp [State.sendSlot, apply_ite State.pending]; intro hw; simp [State.sendSlot, apply_ite State.ram, apply_ite Mem.wf, hw]

theorem execSlotTx_keeps (p : Nat) (s : State) :
    ∀ t', execSlotTx p s = .next t' → t'.pending = s.pending ∧ (s.ram.wf = true → t'.ram.wf = true) := by
  intro t h; simp only [execSlotTx, within_next] at h; obtain ⟨-, rfl⟩ := h; (refine ⟨?_, ?_⟩; simp [apply_ite State.pending]; intro hw; simp +contextual (maxDischargeDepth := 9) [apply_ite State.ram, apply_ite Mem.wf, hw])

@[simp] theorem State.cueOrder_keeps (s : State) (p : Nat) (c : Cue) :
    (State.cueOrder s p c).pending = s.pending ∧
      (State.cueOrder s p c).ram = s.ram := by
  simp [State.cueOrder, apply_ite State.pending, apply_ite State.ram]

@[simp] theorem State.consumeCue_keeps (s : State) (p : Nat) (c : Cue) :
    (State.consumeCue s p c).pending = s.pending ∧
      (s.ram.wf = true → (State.consumeCue s p c).ram.wf = true) := by
  unfold State.consumeCue
  (repeat' split) <;> (refine ⟨?_, ?_⟩; simp; intro hw; simp [hw])

@[simp] theorem State.takeCue_keeps (s : State) (p : Nat) (c : Cue) :
    (State.takeCue s p c).pending = s.pending ∧
      (s.ram.wf = true → (State.takeCue s p c).ram.wf = true) := by
  unfold State.takeCue; dsimp only
  repeat' (split <;> try (rename_i h; obtain ⟨rfl, -⟩ := Prod.ext_iff.mp h))
  all_goals (refine ⟨?_, ?_⟩; simp [apply_ite State.pending]; intro hw; simp +contextual (maxDischargeDepth := 9) [apply_ite State.ram, apply_ite Mem.wf, hw])

theorem execCueMessage_keeps (p : Nat) (s : State) :
    ∀ t', execCueMessage p s = .next t' → t'.pending = s.pending ∧ (s.ram.wf = true → t'.ram.wf = true) := by
  intro t h; simp only [execCueMessage, within_next] at h; obtain ⟨-, rfl⟩ := h
  (repeat' split) <;> (refine ⟨?_, ?_⟩; simp [apply_ite State.pending]; intro hw; simp +contextual (maxDischargeDepth := 9) [apply_ite State.ram, apply_ite Mem.wf, hw])

/-! ### Machine/Switch.lean -/

@[simp] theorem State.endChanged_keeps (s : State) (old : Mem) (new : Mem) :
    (State.endChanged s old new).pending = s.pending ∧
      (s.ram.wf = true → (State.endChanged s old new).ram.wf = true) := by
  have h1 := fun hw => forEach_wf s.ce.colls (fun c st =>
    match s.graftedAway old new c with
    | some d => st.stopColl c { status := St.abortedGraft, detail := d }
    | none => st) s hw fun c st h => by split <;> simp [h]
  have h0 : ∀ c st, ((fun c st =>
    match s.graftedAway old new c with
    | some d => State.stopColl st c { status := St.abortedGraft, detail := d }
    | none => st) c st).pending = st.pending := fun c st => by dsimp only; split <;> simp
  unfold State.endChanged
  dsimp only
  refine ⟨?_, fun hw => (State.abandonChorus_keeps _ 3 _).2 (h1 hw)⟩
  rw [(State.abandonChorus_keeps _ 3 _).1]
  exact forEach_pending _ _ s h0

@[simp] theorem State.dropFlits_keeps (s : State) :
    (State.dropFlits s).pending = s.pending ∧
      (State.dropFlits s).ram = s.ram := by
  simp [State.dropFlits]

@[simp] theorem State.keepLost_keeps (s : State) (joined : Bool) (new : Mem) :
    (State.keepLost s joined new).pending = s.pending ∧
      (State.keepLost s joined new).ram = s.ram := by
  simp [State.keepLost, apply_ite State.pending, apply_ite State.ram]

@[simp] theorem State.adoptPort_keeps (old : Option Mem) (new : Mem) (p : Nat) (s : State) :
    (State.adoptPort old new p s).pending = s.pending ∧
      (s.ram.wf = true → (State.adoptPort old new p s).ram.wf = true) := by
  unfold State.adoptPort; dsimp only
  repeat' (split <;> try (rename_i h; obtain ⟨rfl, -⟩ := Prod.ext_iff.mp h))
  all_goals (refine ⟨?_, ?_⟩; simp [apply_ite State.pending]; intro hw; simp +contextual (maxDischargeDepth := 9) [apply_ite State.ram, apply_ite Mem.wf, hw])

@[simp] theorem State.pruneSelf_keeps (s : State) :
    (State.pruneSelf s).pending = s.pending ∧
      (s.ram.wf = true → (State.pruneSelf s).ram.wf = true) := by
  refine ⟨?_, ?_⟩; simp [State.pruneSelf]; intro hw; simp [State.pruneSelf, hw]

@[simp] theorem State.swapBanks_keeps (s : State) :
    (State.swapBanks s).pending = s.pending ∧
      (State.swapBanks s).ram = s.ram := by
  simp [State.swapBanks]

@[simp] theorem State.graftSwitched_keeps (s : State) :
    (State.graftSwitched s).pending = s.pending ∧
      (s.ram.wf = true → (State.graftSwitched s).ram.wf = true) := by
  refine ⟨?_, ?_⟩; simp [State.graftSwitched, apply_ite State.pending]; intro hw; simp [State.graftSwitched, apply_ite State.ram, apply_ite Mem.wf, hw]

@[simp] theorem State.switchScore_keeps (s : State) :
    (State.switchScore s).pending = s.pending ∧
      (s.ram.wf = true → (State.switchScore s).ram.wf = true) := by
  unfold State.switchScore; dsimp only
  repeat' (split <;> try (rename_i h; obtain ⟨rfl, -⟩ := Prod.ext_iff.mp h))
  all_goals (refine ⟨?_, ?_⟩; simp [apply_ite State.pending]; intro hw; simp +contextual (maxDischargeDepth := 9) [apply_ite State.ram, apply_ite Mem.wf, hw])

theorem execScoreSwitch_keeps (s : State) :
    ∀ t', execScoreSwitch s = .next t' → t'.pending = s.pending ∧ (s.ram.wf = true → t'.ram.wf = true) := by
  intro t h; simp only [execScoreSwitch, within_next] at h; obtain ⟨-, rfl⟩ := h; (refine ⟨?_, ?_⟩; simp [apply_ite State.pending]; intro hw; simp +contextual (maxDischargeDepth := 9) [apply_ite State.ram, apply_ite Mem.wf, hw])

end Sys2Proof.Machine
end

