-- ==== Sys2Proof/Laws/KeepControl.lean ====
section
/-!
SUPPORT. What the operations leave alone: every one keeps the queue of commands, and the bytes of memory or at least their canonical
form (the Tactus, faults, power, downbeat, queues, registers, host, management, start-up and resets).
-/
namespace Sys2Proof.Machine

/-! ### Machine/Tactus.lean -/

theorem execReferenceLoss_keeps (lanes : Bool) (s : State) :
    ∀ t', execReferenceLoss lanes s = .next t' → t'.pending = s.pending ∧ t'.ram = s.ram := by
  intro t h; simp only [execReferenceLoss, within_next] at h; obtain ⟨-, rfl⟩ := h
  (repeat' split) <;> simp [apply_ite State.pending, apply_ite State.ram]

@[simp] theorem State.pulseAt_keeps (s : State) (phase : Int) (agrees : Bool) :
    (State.pulseAt s phase agrees).pending = s.pending ∧
      (State.pulseAt s phase agrees).ram = s.ram := by
  simp [State.pulseAt]

@[simp] theorem State.slip_keeps (s : State) (offset : Int) :
    (State.slip s offset).pending = s.pending ∧
      (State.slip s offset).ram = s.ram := by
  simp [State.slip]

theorem execDownbeatPulse_keeps (offset : Int) (phase : Int) (s : State) :
    ∀ t', execDownbeatPulse offset phase s = .next t' → t'.pending = s.pending ∧ t'.ram = s.ram := by
  intro t h; simp only [execDownbeatPulse, within_next] at h; obtain ⟨-, rfl⟩ := h
  (repeat' split) <;> simp [apply_ite State.pending, apply_ite State.ram]

theorem execDbDisplaced_keeps (s : State) :
    ∀ t', execDbDisplaced s = .next t' → t'.pending = s.pending ∧ (s.ram.wf = true → t'.ram.wf = true) := by
  intro t h; simp only [execDbDisplaced, within_next] at h; obtain ⟨-, rfl⟩ := h; (refine ⟨?_, ?_⟩; simp [apply_ite State.pending]; intro hw; simp +contextual (maxDischargeDepth := 9) [apply_ite State.ram, apply_ite Mem.wf, hw])

theorem execDownbeatMissing_keeps (s : State) :
    ∀ t', execDownbeatMissing s = .next t' → t'.pending = s.pending ∧ t'.ram = s.ram := by
  intro t h; simp only [execDownbeatMissing, within_next] at h; obtain ⟨-, rfl⟩ := h; simp [apply_ite State.pending, apply_ite State.ram]

@[simp] theorem State.frameIn_keeps (s : State) (f : Timecode) :
    (State.frameIn s f).pending = s.pending ∧
      (s.ram.wf = true → (State.frameIn s f).ram.wf = true) := by
  refine ⟨?_, ?_⟩; simp [State.frameIn, apply_ite State.pending]; intro hw; simp [State.frameIn, apply_ite State.ram, apply_ite Mem.wf, hw]

theorem execTimecodeFrame_keeps (f : Timecode) (s : State) :
    ∀ t', execTimecodeFrame f s = .next t' → t'.pending = s.pending ∧ (s.ram.wf = true → t'.ram.wf = true) := by
  intro t h; simp only [execTimecodeFrame, within_next] at h; obtain ⟨-, rfl⟩ := h
  (repeat' split) <;> (refine ⟨?_, ?_⟩; simp [apply_ite State.pending]; intro hw; simp +contextual (maxDischargeDepth := 9) [apply_ite State.ram, apply_ite Mem.wf, hw])

theorem execHoldoverLimit_keeps (s : State) :
    ∀ t', execHoldoverLimit s = .next t' → t'.pending = s.pending ∧ (s.ram.wf = true → t'.ram.wf = true) := by
  intro t h; simp only [execHoldoverLimit, within_next] at h; obtain ⟨-, rfl⟩ := h; (refine ⟨?_, ?_⟩; simp [apply_ite State.pending]; intro hw; simp +contextual (maxDischargeDepth := 9) [apply_ite State.ram, apply_ite Mem.wf, hw])

@[simp] theorem State.tactRefuse_keeps (s : State) :
    (State.tactRefuse s).pending = s.pending ∧
      (State.tactRefuse s).ram = s.ram := by
  simp [State.tactRefuse]

@[simp] theorem State.tactCtrl_keeps (s : State) (v : Nat) :
    (State.tactCtrl s v).pending = s.pending ∧
      (State.tactCtrl s v).ram = s.ram := by
  unfold State.tactCtrl; dsimp only
  repeat' (split <;> try (rename_i h; obtain ⟨rfl, -⟩ := Prod.ext_iff.mp h))
  all_goals simp

@[simp] theorem State.writeTact_keeps (s : State) (epoch : Bool) (v : Nat) :
    (State.writeTact s epoch v).pending = s.pending ∧
      (State.writeTact s epoch v).ram = s.ram := by
  unfold State.writeTact
  (repeat' split) <;> simp

theorem execTactCtrlWrite_keeps (epoch : Bool) (v : DWord) (s : State) :
    ∀ t', execTactCtrlWrite epoch v s = .next t' → t'.pending = s.pending ∧ t'.ram = s.ram := by
  intro t h; simp only [execTactCtrlWrite, within_next] at h; obtain ⟨-, rfl⟩ := h; simp

/-! ### Machine/Faults.lean -/

@[simp] theorem State.resetOver_keeps (s : State) (i : Nat) :
    (State.resetOver s i).pending = s.pending ∧
      (State.resetOver s i).ram = s.ram := by
  simp [State.resetOver, apply_ite State.pending, apply_ite State.ram]

theorem execBlockResetRelease_keeps (i : Nat) (s : State) :
    ∀ t', execBlockResetRelease i s = .next t' → t'.pending = s.pending ∧ t'.ram = s.ram := by
  intro t h; simp only [execBlockResetRelease, within_next] at h; obtain ⟨-, rfl⟩ := h; simp [apply_ite State.pending, apply_ite State.ram]

theorem execShadowClose_keeps (i : Nat) (s : State) :
    ∀ t', execShadowClose i s = .next t' → t'.pending = s.pending ∧ t'.ram = s.ram := by
  intro t h; simp only [execShadowClose, within_next] at h; obtain ⟨-, rfl⟩ := h; simp [apply_ite State.pending, apply_ite State.ram]

@[simp] theorem State.writeOlsCtrl_keeps (s : State) (v : Nat) :
    (State.writeOlsCtrl s v).pending = s.pending ∧
      (s.ram.wf = true → (State.writeOlsCtrl s v).ram.wf = true) := by
  unfold State.writeOlsCtrl; dsimp only
  repeat' (split <;> try (rename_i h; obtain ⟨rfl, -⟩ := Prod.ext_iff.mp h))
  all_goals (refine ⟨?_, ?_⟩; simp [apply_ite State.pending]; intro hw; simp +contextual (maxDischargeDepth := 9) [apply_ite State.ram, apply_ite Mem.wf, hw])

theorem execOlsBlockReset_keeps (v : Word) (s : State) :
    ∀ t', execOlsBlockReset v s = .next t' → t'.pending = s.pending ∧ (s.ram.wf = true → t'.ram.wf = true) := by
  intro t h; simp only [execOlsBlockReset, within_next] at h; obtain ⟨-, rfl⟩ := h; (refine ⟨?_, ?_⟩; simp [apply_ite State.pending]; intro hw; simp +contextual (maxDischargeDepth := 9) [apply_ite State.ram, apply_ite Mem.wf, hw])

@[simp] theorem State.recover_keeps (s : State) (t : Nat) :
    (State.recover s t).pending = s.pending ∧
      (State.recover s t).ram = s.ram := by
  simp [State.recover, apply_ite State.pending, apply_ite State.ram]

theorem execRecovered_keeps (t : Nat) (s : State) :
    ∀ t', execRecovered t s = .next t' → t'.pending = s.pending ∧ t'.ram = s.ram := by
  intro t h; simp only [execRecovered, within_next] at h; obtain ⟨-, rfl⟩ := h; simp

@[simp] theorem State.clearTarget_keeps (s : State) (t : Nat) :
    (State.clearTarget s t).pending = s.pending ∧
      (State.clearTarget s t).ram = s.ram := by
  simp [State.clearTarget, apply_ite State.pending, apply_ite State.ram]

theorem execFcTgtClear_keeps (t : Nat) (s : State) :
    ∀ t', execFcTgtClear t s = .next t' → t'.pending = s.pending ∧ t'.ram = s.ram := by
  intro t h; simp only [execFcTgtClear, within_next] at h; obtain ⟨-, rfl⟩ := h; simp

@[simp] theorem State.quietDownbeat_keeps (s : State) :
    (State.quietDownbeat s).pending = s.pending ∧
      (State.quietDownbeat s).ram = s.ram := by
  simp [State.quietDownbeat]

@[simp] theorem State.shadowDownbeat_keeps (s : State) :
    (State.shadowDownbeat s).pending = s.pending ∧
      (State.shadowDownbeat s).ram = s.ram := by
  simp [State.shadowDownbeat]

@[simp] theorem State.injectF_keeps (s : State) (unit : UnitId) :
    (State.injectF s unit).pending = s.pending ∧
      (State.injectF s unit).ram = s.ram := by
  simp [State.injectF]

@[simp] theorem State.inject_keeps (s : State) (v : Nat) :
    (State.inject s v).pending = s.pending ∧
      (State.inject s v).ram = s.ram := by
  unfold State.inject; dsimp only
  repeat' (split <;> try (rename_i h; obtain ⟨rfl, -⟩ := Prod.ext_iff.mp h))
  all_goals simp

theorem execFcInject_keeps (v : DWord) (s : State) :
    ∀ t', execFcInject v s = .next t' → t'.pending = s.pending ∧ t'.ram = s.ram := by
  intro t h; simp only [execFcInject, within_next] at h; obtain ⟨-, rfl⟩ := h; simp

@[simp] theorem State.writeFcCtrl_keeps (s : State) (v : Nat) :
    (State.writeFcCtrl s v).pending = s.pending ∧
      (State.writeFcCtrl s v).ram = s.ram := by
  simp [State.writeFcCtrl, apply_ite State.pending, apply_ite State.ram]

theorem execSafeRequest_keeps (v : Word) (s : State) :
    ∀ t', execSafeRequest v s = .next t' → t'.pending = s.pending ∧ t'.ram = s.ram := by
  intro t h; simp only [execSafeRequest, within_next] at h; obtain ⟨-, rfl⟩ := h; simp

@[simp] theorem State.selectMirror_keeps (s : State) (v : Word) :
    (State.selectMirror s v).pending = s.pending ∧
      (State.selectMirror s v).ram = s.ram := by
  simp [State.selectMirror]

theorem execMirrorSelect_keeps (v : Word) (s : State) :
    ∀ t', execMirrorSelect v s = .next t' → t'.pending = s.pending ∧ t'.ram = s.ram := by
  intro t h; simp only [execMirrorSelect, within_next] at h; obtain ⟨-, rfl⟩ := h; simp

theorem execLockstep_keeps (parity : Bool) (s : State) :
    ∀ t', execLockstep parity s = .next t' → t'.pending = s.pending ∧ t'.ram = s.ram := by
  intro t h; simp only [execLockstep, within_next] at h; obtain ⟨-, rfl⟩ := h; simp [apply_ite State.pending, apply_ite State.ram]

/-! ### Machine/Power.lean -/

@[simp] theorem State.governDownbeat_keeps (s : State) :
    (State.governDownbeat s).pending = s.pending ∧
      (State.governDownbeat s).ram = s.ram := by
  simp [State.governDownbeat, apply_ite State.pending, apply_ite State.ram]

@[simp] theorem State.sample_keeps (s : State) (w : Nat) :
    (State.sample s w).pending = s.pending ∧
      (State.sample s w).ram = s.ram := by
  simp [State.sample, apply_ite State.pending, apply_ite State.ram]

theorem execPowerSample_keeps (eighthWatts : Nat) (s : State) :
    ∀ t', execPowerSample eighthWatts s = .next t' → t'.pending = s.pending ∧ t'.ram = s.ram := by
  intro t h; simp only [execPowerSample, within_next] at h; obtain ⟨-, rfl⟩ := h; simp [apply_ite State.pending, apply_ite State.ram]

@[simp] theorem State.holdTj_keeps (s : State) :
    (State.holdTj s).pending = s.pending ∧
      (State.holdTj s).ram = s.ram := by
  simp [State.holdTj, apply_ite State.pending, apply_ite State.ram]

@[simp] theorem State.readTj_keeps (s : State) (t : Int) :
    (State.readTj s t).pending = s.pending ∧
      (State.readTj s t).ram = s.ram := by
  simp [State.readTj, apply_ite State.pending, apply_ite State.ram]

theorem execTjMax_keeps (eighthDegrees : Int) (s : State) :
    ∀ t', execTjMax eighthDegrees s = .next t' → t'.pending = s.pending ∧ t'.ram = s.ram := by
  intro t h; simp only [execTjMax, within_next] at h; obtain ⟨-, rfl⟩ := h; simp [apply_ite State.pending, apply_ite State.ram]

theorem execThermTrip_keeps (s : State) :
    ∀ t', execThermTrip s = .next t' → t'.pending = s.pending ∧ t'.ram = s.ram := by
  intro t h; simp only [execThermTrip, within_next] at h; obtain ⟨-, rfl⟩ := h; simp [apply_ite State.pending, apply_ite State.ram]

theorem execThermTripRelease_keeps (eighthDegrees : Int) (s : State) :
    ∀ t', execThermTripRelease eighthDegrees s = .next t' → t'.pending = s.pending ∧ t'.ram = s.ram := by
  intro t h; simp only [execThermTripRelease, within_next] at h; obtain ⟨-, rfl⟩ := h; simp [apply_ite State.pending, apply_ite State.ram]

theorem execSensorFail_keeps (id : Nat) (s : State) :
    ∀ t', execSensorFail id s = .next t' → t'.pending = s.pending ∧ (s.ram.wf = true → t'.ram.wf = true) := by
  intro t h; simp only [execSensorFail, within_next] at h; obtain ⟨-, rfl⟩ := h; (refine ⟨?_, ?_⟩; simp [apply_ite State.pending]; intro hw; simp +contextual (maxDischargeDepth := 9) [apply_ite State.ram, apply_ite Mem.wf, hw])

theorem execRailWarn_keeps (rail : Nat) (s : State) :
    ∀ t', execRailWarn rail s = .next t' → t'.pending = s.pending ∧ t'.ram = s.ram := by
  intro t h; simp only [execRailWarn, within_next] at h; obtain ⟨-, rfl⟩ := h; simp [apply_ite State.pending, apply_ite State.ram]

theorem execRailFault_keeps (rail : Nat) (s : State) :
    ∀ t', execRailFault rail s = .next t' → t'.pending = s.pending ∧ t'.ram = s.ram := by
  intro t h; simp only [execRailFault, within_next] at h; obtain ⟨-, rfl⟩ := h; simp [apply_ite State.pending, apply_ite State.ram]

theorem execSerdesPllUnlock_keeps (p : Nat) (s : State) :
    ∀ t', execSerdesPllUnlock p s = .next t' → t'.pending = s.pending ∧ (s.ram.wf = true → t'.ram.wf = true) := by
  intro t h; simp only [execSerdesPllUnlock, within_next] at h; obtain ⟨-, rfl⟩ := h; (refine ⟨?_, ?_⟩; simp [apply_ite State.pending]; intro hw; simp +contextual (maxDischargeDepth := 9) [apply_ite State.ram, apply_ite Mem.wf, hw])

theorem execCorePllUnlock_keeps (s : State) :
    ∀ t', execCorePllUnlock s = .next t' → t'.pending = s.pending ∧ t'.ram = s.ram := by
  intro t h; simp only [execCorePllUnlock, within_next] at h; obtain ⟨-, rfl⟩ := h; simp [apply_ite State.pending, apply_ite State.ram]

theorem execCrossingErr_keeps (s : State) :
    ∀ t', execCrossingErr s = .next t' → t'.pending = s.pending ∧ t'.ram = s.ram := by
  intro t h; simp only [execCrossingErr, within_next] at h; obtain ⟨-, rfl⟩ := h; simp [apply_ite State.pending, apply_ite State.ram]

theorem execHotRefresh_keeps (k : Nat) (enter : Bool) (s : State) :
    ∀ t', execHotRefresh k enter s = .next t' → t'.pending = s.pending ∧ t'.ram = s.ram := by
  intro t h; simp only [execHotRefresh, within_next] at h; obtain ⟨-, rfl⟩ := h; simp [apply_ite State.pending, apply_ite State.ram]

theorem execPhyRetrain_keeps (slice : Nat) (ok : Bool) (s : State) :
    ∀ t', execPhyRetrain slice ok s = .next t' → t'.pending = s.pending ∧ t'.ram = s.ram := by
  intro t h; simp only [execPhyRetrain, within_next] at h; obtain ⟨-, rfl⟩ := h; simp [apply_ite State.pending, apply_ite State.ram]

theorem execCxlRetrain_keeps (j : Nat) (s : State) :
    ∀ t', execCxlRetrain j s = .next t' → t'.pending = s.pending ∧ t'.ram = s.ram := by
  intro t h; simp only [execCxlRetrain, within_next] at h; obtain ⟨-, rfl⟩ := h; simp [apply_ite State.pending, apply_ite State.ram]

theorem execCxlRetrainDone_keeps (j : Nat) (s : State) :
    ∀ t', execCxlRetrainDone j s = .next t' → t'.pending = s.pending ∧ t'.ram = s.ram := by
  intro t h; simp only [execCxlRetrainDone, within_next] at h; obtain ⟨-, rfl⟩ := h; simp [apply_ite State.pending, apply_ite State.ram]

theorem execCxlRetrainTimeout_keeps (j : Nat) (s : State) :
    ∀ t', execCxlRetrainTimeout j s = .next t' → t'.pending = s.pending ∧ (s.ram.wf = true → t'.ram.wf = true) := by
  intro t h; simp only [execCxlRetrainTimeout, within_next] at h; obtain ⟨-, rfl⟩ := h; (refine ⟨?_, ?_⟩; simp [apply_ite State.pending]; intro hw; simp +contextual (maxDischargeDepth := 9) [apply_ite State.ram, apply_ite Mem.wf, hw])

theorem execCxlViral_keeps (j : Nat) (s : State) :
    ∀ t', execCxlViral j s = .next t' → t'.pending = s.pending ∧ (s.ram.wf = true → t'.ram.wf = true) := by
  intro t h; simp only [execCxlViral, within_next] at h; obtain ⟨-, rfl⟩ := h; (refine ⟨?_, ?_⟩; simp [apply_ite State.pending]; intro hw; simp +contextual (maxDischargeDepth := 9) [apply_ite State.ram, apply_ite Mem.wf, hw])

theorem execExpanderFillDone_keeps (j : Nat) (ok : Bool) (s : State) :
    ∀ t', execExpanderFillDone j ok s = .next t' → t'.pending = s.pending ∧ (s.ram.wf = true → t'.ram.wf = true) := by
  intro t h; simp only [execExpanderFillDone, within_next] at h; obtain ⟨-, rfl⟩ := h
  (repeat' split) <;> (refine ⟨?_, ?_⟩; simp [apply_ite State.pending]; intro hw; simp +contextual (maxDischargeDepth := 9) [apply_ite State.ram, apply_ite Mem.wf, hw])

/-! ### Machine/Downbeat.lean -/

@[simp] theorem State.dropTarget_keeps (s : State) :
    (State.dropTarget s).pending = s.pending ∧
      (State.dropTarget s).ram = s.ram := by
  simp [State.dropTarget, apply_ite State.pending, apply_ite State.ram]

@[simp] theorem State.portsEnter_keeps (s : State) :
    (State.portsEnter s).pending = s.pending ∧
      (s.ram.wf = true → (State.portsEnter s).ram.wf = true) := by
  simp only [State.portsEnter]
  repeat' (split <;> try (rename_i h; obtain ⟨rfl, -⟩ := Prod.ext_iff.mp h))
  all_goals (refine ⟨?_, ?_⟩; simp [apply_ite State.pending]; intro hw; simp +contextual (maxDischargeDepth := 9) [apply_ite State.ram, apply_ite Mem.wf, hw])

@[simp] theorem State.splitWith_keeps (s : State) (p : Nat) (t : TailSlot) :
    (State.splitWith s p t).pending = s.pending ∧
      (s.ram.wf = true → (State.splitWith s p t).ram.wf = true) := by
  refine ⟨?_, ?_⟩; simp [State.splitWith, apply_ite State.pending]; intro hw; simp [State.splitWith, apply_ite State.ram, apply_ite Mem.wf, hw]

@[simp] theorem State.splitCheck_keeps (s : State) :
    (State.splitCheck s).pending = s.pending ∧
      (s.ram.wf = true → (State.splitCheck s).ram.wf = true) := by
  refine ⟨forEach_pending _ _ _ fun p st => ?_, fun hw => forEach_wf _ _ _ hw fun p st h => ?_⟩
  · split <;> simp
  · split <;> simp [h]

@[simp] theorem State.countBad_keeps (s : State) :
    (State.countBad s).pending = s.pending ∧
      (State.countBad s).ram = s.ram := by
  simp [State.countBad]

@[simp] theorem State.callRoll_keeps (s : State) :
    (State.callRoll s).pending = s.pending ∧
      (State.callRoll s).ram = s.ram := by
  simp [State.callRoll, apply_ite State.pending, apply_ite State.ram]

@[simp] theorem State.retryAgain_keeps (s : State) (c : Coll) (i : CInput) :
    (State.retryAgain s c i).pending = s.pending ∧
      (State.retryAgain s c i).ram = s.ram := by
  refine ⟨forEach_pending _ _ _ fun p st => ?_, forEach_ram _ _ _ fun p st => ?_⟩
  all_goals (repeat' split) <;> simp

@[simp] theorem State.collDownbeat_keeps (s : State) (c : Coll) :
    (State.collDownbeat s c).pending = s.pending ∧
      (State.collDownbeat s c).ram = s.ram := by
  unfold State.collDownbeat; dsimp only
  repeat' (split <;> try (rename_i h; obtain ⟨rfl, -⟩ := Prod.ext_iff.mp h))
  all_goals simp

@[simp] theorem State.rebarDownbeat_keeps (s : State) :
    (State.rebarDownbeat s).pending = s.pending ∧
      (State.rebarDownbeat s).ram = s.ram := by
  simp [State.rebarDownbeat, apply_ite State.pending, apply_ite State.ram]

@[simp] theorem State.graftDownbeat_keeps (s : State) :
    (State.graftDownbeat s).pending = s.pending ∧
      (State.graftDownbeat s).ram = s.ram := by
  simp [State.graftDownbeat]

@[simp] theorem State.memberOut_keeps (s : State) :
    (State.memberOut s).pending = s.pending ∧
      (s.ram.wf = true → (State.memberOut s).ram.wf = true) := by
  refine ⟨?_, ?_⟩; simp [State.memberOut, apply_ite State.pending]; intro hw; simp [State.memberOut, apply_ite State.ram, apply_ite Mem.wf, hw]

@[simp] theorem State.timedDownbeat_keeps (s : State) :
    (State.timedDownbeat s).pending = s.pending ∧
      (s.ram.wf = true → (State.timedDownbeat s).ram.wf = true) := by
  refine ⟨?_, ?_⟩; simp [State.timedDownbeat]; intro hw; simp [State.timedDownbeat, hw]

@[simp] theorem State.downbeatActions_keeps (s : State) :
    (State.downbeatActions s).pending = s.pending ∧
      (s.ram.wf = true → (State.downbeatActions s).ram.wf = true) := by
  refine ⟨?_, ?_⟩; simp [State.downbeatActions, apply_ite State.pending]; intro hw; simp +contextual (maxDischargeDepth := 9) [State.downbeatActions, apply_ite State.ram, apply_ite Mem.wf, hw]

@[simp] theorem State.collectorDownbeat_keeps (s : State) :
    (State.collectorDownbeat s).pending = s.pending ∧
      (State.collectorDownbeat s).ram = s.ram := by
  simp [State.collectorDownbeat]

@[simp] theorem State.toDownbeat_keeps (s : State) :
    (State.toDownbeat s).pending = s.pending ∧
      (State.toDownbeat s).ram = s.ram := by
  simp [State.toDownbeat]

theorem execDownbeat_keeps (s : State) :
    ∀ t', execDownbeat s = .next t' → t'.pending = s.pending ∧ (s.ram.wf = true → t'.ram.wf = true) := by
  intro t h; simp only [execDownbeat, within_next] at h; obtain ⟨-, rfl⟩ := h; (refine ⟨?_, ?_⟩; simp [apply_ite State.pending]; intro hw; simp +contextual (maxDischargeDepth := 9) [apply_ite State.ram, apply_ite Mem.wf, hw])

/-! ### Machine/Grafting.lean -/

@[simp] theorem State.mailbox_pending (s : State) (f : State → State) (hf : ∀ s, (f s).pending = s.pending) :
    (s.mailbox f).pending = s.pending := by
  unfold State.mailbox; (repeat' split) <;> simp [hf]

@[simp] theorem State.mailbox_ram (s : State) (f : State → State) (hf : ∀ s, (f s).ram = s.ram) : (s.mailbox f).ram = s.ram := by
  unfold State.mailbox; (repeat' split) <;> simp [hf]

@[simp] theorem State.mailbox_wf (s : State) (f : State → State) (hw : s.ram.wf = true)
    (hf : ∀ s, s.ram.wf = true → (f s).ram.wf = true) : (s.mailbox f).ram.wf = true := by
  unfold State.mailbox; (repeat' split) <;> simp [hf, hw]

theorem execSubmit_keeps (s : State) :
    ∀ t', execSubmit s = .next t' → t'.pending = s.pending ∧ (s.ram.wf = true → t'.ram.wf = true) := by
  intro t h; simp only [execSubmit, within_next] at h; obtain ⟨-, rfl⟩ := h; (refine ⟨?_, ?_⟩; simp [apply_ite State.pending]; intro hw; simp +contextual (maxDischargeDepth := 9) [apply_ite State.ram, apply_ite Mem.wf, hw])

theorem execCancel_keeps (s : State) :
    ∀ t', execCancel s = .next t' → t'.pending = s.pending ∧ t'.ram = s.ram := by
  intro t h; simp only [execCancel, within_next] at h; obtain ⟨-, rfl⟩ := h; simp

theorem execDrain_keeps (s : State) :
    ∀ t', execDrain s = .next t' → t'.pending = s.pending ∧ (s.ram.wf = true → t'.ram.wf = true) := by
  intro t h; simp only [execDrain, within_next] at h; obtain ⟨-, rfl⟩ := h; (refine ⟨?_, ?_⟩; simp [apply_ite State.pending]; intro hw; simp +contextual (maxDischargeDepth := 9) [apply_ite State.ram, apply_ite Mem.wf, hw])

theorem execOut_keeps (s : State) :
    ∀ t', execOut s = .next t' → t'.pending = s.pending ∧ (s.ram.wf = true → t'.ram.wf = true) := by
  intro t h; simp only [execOut, within_next] at h; obtain ⟨-, rfl⟩ := h; (refine ⟨?_, ?_⟩; simp [apply_ite State.pending]; intro hw; simp +contextual (maxDischargeDepth := 9) [apply_ite State.ram, apply_ite Mem.wf, hw])

theorem execReturnUnit_keeps (s : State) :
    ∀ t', execReturnUnit s = .next t' → t'.pending = s.pending ∧ t'.ram = s.ram := by
  intro t h; simp only [execReturnUnit, within_next] at h; obtain ⟨-, rfl⟩ := h; simp

theorem execUnitQuiesced_keeps (i : Nat) (s : State) :
    ∀ t', execUnitQuiesced i s = .next t' → t'.pending = s.pending ∧ (s.ram.wf = true → t'.ram.wf = true) := by
  intro t h; simp only [execUnitQuiesced, within_next] at h; obtain ⟨-, rfl⟩ := h; (refine ⟨?_, ?_⟩; simp [apply_ite State.pending]; intro hw; simp +contextual (maxDischargeDepth := 9) [apply_ite State.ram, apply_ite Mem.wf, hw])

theorem execReturnDone_keeps (i : Nat) (pass : Bool) (s : State) :
    ∀ t', execReturnDone i pass s = .next t' → t'.pending = s.pending ∧ (s.ram.wf = true → t'.ram.wf = true) := by
  intro t h; simp only [execReturnDone, within_next] at h; obtain ⟨-, rfl⟩ := h; (refine ⟨?_, ?_⟩; simp [apply_ite State.pending]; intro hw; simp +contextual (maxDischargeDepth := 9) [apply_ite State.ram, apply_ite Mem.wf, hw])

theorem execShadowCompare_keeps (i : Nat) (agree : Bool) (s : State) :
    ∀ t', execShadowCompare i agree s = .next t' → t'.pending = s.pending ∧ (s.ram.wf = true → t'.ram.wf = true) := by
  intro t h; simp only [execShadowCompare, within_next] at h; obtain ⟨-, rfl⟩ := h; (refine ⟨?_, ?_⟩; simp [apply_ite State.pending]; intro hw; simp +contextual (maxDischargeDepth := 9) [apply_ite State.ram, apply_ite Mem.wf, hw])

theorem execProbationPass_keeps (i : Nat) (s : State) :
    ∀ t', execProbationPass i s = .next t' → t'.pending = s.pending ∧ t'.ram = s.ram := by
  intro t h; simp only [execProbationPass, within_next] at h; obtain ⟨-, rfl⟩ := h; simp [apply_ite State.pending, apply_ite State.ram]

theorem execGraftSlotRx_keeps (p : Nat) (sl : Slot) (s : State) :
    ∀ t', execGraftSlotRx p sl s = .next t' → t'.pending = s.pending ∧ t'.ram = s.ram := by
  intro t h; simp only [execGraftSlotRx, within_next] at h; obtain ⟨-, rfl⟩ := h; simp [apply_ite State.pending, apply_ite State.ram]

theorem execPrepare_keeps (p : Nat) (c : Cue) (s : State) :
    ∀ t', execPrepare p c s = .next t' → t'.pending = s.pending ∧ t'.ram = s.ram := by
  intro t h; simp only [execPrepare, within_next] at h; obtain ⟨-, rfl⟩ := h; simp [apply_ite State.pending, apply_ite State.ram]

theorem execAck_keeps (p : Nat) (c : Cue) (s : State) :
    ∀ t', execAck p c s = .next t' → t'.pending = s.pending ∧ t'.ram = s.ram := by
  intro t h; simp only [execAck, within_next] at h; obtain ⟨-, rfl⟩ := h; simp [apply_ite State.pending, apply_ite State.ram]

theorem execAckDeadline_keeps (s : State) :
    ∀ t', execAckDeadline s = .next t' → t'.pending = s.pending ∧ t'.ram = s.ram := by
  intro t h; simp only [execAckDeadline, within_next] at h; obtain ⟨-, rfl⟩ := h; simp [apply_ite State.pending, apply_ite State.ram]

theorem execGraftDecide_keeps (s : State) :
    ∀ t', execGraftDecide s = .next t' → t'.pending = s.pending ∧ t'.ram = s.ram := by
  intro t h; simp only [execGraftDecide, within_next] at h; obtain ⟨-, rfl⟩ := h; simp [apply_ite State.pending, apply_ite State.ram]

theorem execCommit_keeps (p : Nat) (c : Cue) (s : State) :
    ∀ t', execCommit p c s = .next t' → t'.pending = s.pending ∧ t'.ram = s.ram := by
  intro t h; simp only [execCommit, within_next] at h; obtain ⟨-, rfl⟩ := h; simp [apply_ite State.pending, apply_ite State.ram]

theorem execAbort_keeps (p : Nat) (c : Cue) (s : State) :
    ∀ t', execAbort p c s = .next t' → t'.pending = s.pending ∧ t'.ram = s.ram := by
  intro t h; simp only [execAbort, within_next] at h; obtain ⟨-, rfl⟩ := h; simp [apply_ite State.pending, apply_ite State.ram]

theorem execNoDecision_keeps (s : State) :
    ∀ t', execNoDecision s = .next t' → t'.pending = s.pending ∧ t'.ram = s.ram := by
  intro t h; simp only [execNoDecision, within_next] at h; obtain ⟨-, rfl⟩ := h; simp [apply_ite State.pending, apply_ite State.ram]

/-! ### Machine/Queues.lean -/

theorem execDoorbell_keeps (q : Nat) (v : Word) (s : State) :
    ∀ t', execDoorbell q v s = .next t' → t'.pending = s.pending ∧ (s.ram.wf = true → t'.ram.wf = true) := by
  intro t h; simp only [execDoorbell, within_next] at h; obtain ⟨-, rfl⟩ := h; (refine ⟨?_, ?_⟩; simp [apply_ite State.pending]; intro hw; simp +contextual (maxDischargeDepth := 9) [apply_ite State.ram, apply_ite Mem.wf, hw])

@[simp] theorem State.fetchAhead_keeps (s : State) (q : Nat) :
    (State.fetchAhead s q).pending = s.pending ∧
      (s.ram.wf = true → (State.fetchAhead s q).ram.wf = true) := by
  unfold State.fetchAhead; dsimp only
  repeat' (split <;> try (rename_i h; obtain ⟨rfl, -⟩ := Prod.ext_iff.mp h))
  all_goals (refine ⟨?_, ?_⟩; simp [apply_ite State.pending]; intro hw; simp +contextual (maxDischargeDepth := 9) [apply_ite State.ram, apply_ite Mem.wf, hw])

theorem execCommandFetch_keeps (q : Nat) (s : State) :
    ∀ t', execCommandFetch q s = .next t' → t'.pending = s.pending ∧ (s.ram.wf = true → t'.ram.wf = true) := by
  intro t h; simp only [execCommandFetch, within_next] at h; obtain ⟨-, rfl⟩ := h; (refine ⟨?_, ?_⟩; simp [apply_ite State.pending]; intro hw; simp +contextual (maxDischargeDepth := 9) [apply_ite State.ram, apply_ite Mem.wf, hw])

theorem execCommandComplete_keeps (q : Nat) (idx : Word) (s : State) :
    ∀ t', execCommandComplete q idx s = .next t' → t'.pending = s.pending ∧ (s.ram.wf = true → t'.ram.wf = true) := by
  intro t h; simp only [execCommandComplete, within_next] at h; obtain ⟨-, rfl⟩ := h
  (repeat' split) <;> (refine ⟨?_, ?_⟩; simp [apply_ite State.pending]; intro hw; simp +contextual (maxDischargeDepth := 9) [apply_ite State.ram, apply_ite Mem.wf, hw])

theorem execQCtrlEnable_keeps (q : Nat) (v : Word) (s : State) :
    ∀ t', execQCtrlEnable q v s = .next t' → t'.pending = s.pending ∧ (s.ram.wf = true → t'.ram.wf = true) := by
  intro t h; simp only [execQCtrlEnable, within_next] at h; obtain ⟨-, rfl⟩ := h; (refine ⟨?_, ?_⟩; simp [apply_ite State.pending]; intro hw; simp +contextual (maxDischargeDepth := 9) [apply_ite State.ram, apply_ite Mem.wf, hw])

theorem execQCtrlDisable_keeps (q : Nat) (v : Word) (s : State) :
    ∀ t', execQCtrlDisable q v s = .next t' → t'.pending = s.pending ∧ (s.ram.wf = true → t'.ram.wf = true) := by
  intro t h; simp only [execQCtrlDisable, within_next] at h; obtain ⟨-, rfl⟩ := h; (refine ⟨?_, ?_⟩; simp [apply_ite State.pending]; intro hw; simp +contextual (maxDischargeDepth := 9) [apply_ite State.ram, apply_ite Mem.wf, hw])

theorem execQCtrlSuspend_keeps (q : Nat) (v : Word) (s : State) :
    ∀ t', execQCtrlSuspend q v s = .next t' → t'.pending = s.pending ∧ (s.ram.wf = true → t'.ram.wf = true) := by
  intro t h; simp only [execQCtrlSuspend, within_next] at h; obtain ⟨-, rfl⟩ := h; (refine ⟨?_, ?_⟩; simp [apply_ite State.pending]; intro hw; simp +contextual (maxDischargeDepth := 9) [apply_ite State.ram, apply_ite Mem.wf, hw])

theorem execQCtrlResume_keeps (q : Nat) (v : Word) (s : State) :
    ∀ t', execQCtrlResume q v s = .next t' → t'.pending = s.pending ∧ (s.ram.wf = true → t'.ram.wf = true) := by
  intro t h; simp only [execQCtrlResume, within_next] at h; obtain ⟨-, rfl⟩ := h; (refine ⟨?_, ?_⟩; simp [apply_ite State.pending]; intro hw; simp +contextual (maxDischargeDepth := 9) [apply_ite State.ram, apply_ite Mem.wf, hw])

theorem execQCtrlReset_keeps (q : Nat) (v : Word) (s : State) :
    ∀ t', execQCtrlReset q v s = .next t' → t'.pending = s.pending ∧ (s.ram.wf = true → t'.ram.wf = true) := by
  intro t h; simp only [execQCtrlReset, within_next] at h; obtain ⟨-, rfl⟩ := h; (refine ⟨?_, ?_⟩; simp [apply_ite State.pending]; intro hw; simp +contextual (maxDischargeDepth := 9) [apply_ite State.ram, apply_ite Mem.wf, hw])

@[simp] theorem State.writeQFetch_keeps (s : State) (q : Nat) (v : Word) :
    (State.writeQFetch s q v).pending = s.pending ∧
      (State.writeQFetch s q v).ram = s.ram := by
  simp [State.writeQFetch, apply_ite State.pending, apply_ite State.ram]

theorem execQFetchWrite_keeps (q : Nat) (v : Word) (s : State) :
    ∀ t', execQFetchWrite q v s = .next t' → t'.pending = s.pending ∧ t'.ram = s.ram := by
  intro t h; simp only [execQFetchWrite, within_next] at h; obtain ⟨-, rfl⟩ := h; simp

@[simp] theorem State.writeQWatchdog_keeps (s : State) (q : Nat) (v : Nat) :
    (State.writeQWatchdog s q v).pending = s.pending ∧
      (State.writeQWatchdog s q v).ram = s.ram := by
  exact ⟨rfl, rfl⟩

theorem execQWatchdogWrite_keeps (q : Nat) (v : Word) (s : State) :
    ∀ t', execQWatchdogWrite q v s = .next t' → t'.pending = s.pending ∧ t'.ram = s.ram := by
  intro t h; simp only [execQWatchdogWrite, within_next] at h; obtain ⟨-, rfl⟩ := h; simp

@[simp] theorem State.enableRing_keeps (s : State) (r : Nat) :
    (State.enableRing s r).pending = s.pending ∧
      (State.enableRing s r).ram = s.ram := by
  simp [State.enableRing, apply_ite State.pending, apply_ite State.ram]

theorem execCrCtrlEnable_keeps (r : Nat) (s : State) :
    ∀ t', execCrCtrlEnable r s = .next t' → t'.pending = s.pending ∧ t'.ram = s.ram := by
  intro t h; simp only [execCrCtrlEnable, within_next] at h; obtain ⟨-, rfl⟩ := h; simp

@[simp] theorem State.disableRing_keeps (s : State) (r : Nat) :
    (State.disableRing s r).pending = s.pending ∧
      (State.disableRing s r).ram = s.ram := by
  simp [State.disableRing, apply_ite State.pending, apply_ite State.ram]

theorem execCrCtrlDisable_keeps (r : Nat) (s : State) :
    ∀ t', execCrCtrlDisable r s = .next t' → t'.pending = s.pending ∧ t'.ram = s.ram := by
  intro t h; simp only [execCrCtrlDisable, within_next] at h; obtain ⟨-, rfl⟩ := h; simp

@[simp] theorem State.writeCrHead_keeps (s : State) (r : Nat) (v : Word) :
    (State.writeCrHead s r v).pending = s.pending ∧
      (State.writeCrHead s r v).ram = s.ram := by
  simp [State.writeCrHead, apply_ite State.pending, apply_ite State.ram]

theorem execCrHeadWrite_keeps (r : Nat) (v : Word) (s : State) :
    ∀ t', execCrHeadWrite r v s = .next t' → t'.pending = s.pending ∧ t'.ram = s.ram := by
  intro t h; simp only [execCrHeadWrite, within_next] at h; obtain ⟨-, rfl⟩ := h; simp

theorem execCrIrqDelay_keeps (r : Nat) (s : State) :
    ∀ t', execCrIrqDelay r s = .next t' → t'.pending = s.pending ∧ t'.ram = s.ram := by
  intro t h; simp only [execCrIrqDelay, within_next] at h; obtain ⟨-, rfl⟩ := h
  (repeat' split) <;> simp [apply_ite State.pending, apply_ite State.ram]

/-! ### Machine/Score.lean -/

@[simp] theorem State.writeBank_keeps (s : State) (bank : Nat) (off : Nat) (len : Nat) (v : Nat) :
    (State.writeBank s bank off len v).pending = s.pending ∧
      (State.writeBank s bank off len v).ram = s.ram := by
  unfold State.writeBank; dsimp only
  repeat' (split <;> try (rename_i h; obtain ⟨rfl, -⟩ := Prod.ext_iff.mp h))
  all_goals simp

theorem execBankWrite_keeps (bank : Nat) (off : Nat) (len : Nat) (v : DWord) (s : State) :
    ∀ t', execBankWrite bank off len v s = .next t' → t'.pending = s.pending ∧ t'.ram = s.ram := by
  intro t h; simp only [execBankWrite, within_next] at h; obtain ⟨-, rfl⟩ := h; simp

@[simp] theorem State.writeScrCtrl_keeps (s : State) (b : BankState) :
    (State.writeScrCtrl s b).pending = s.pending ∧
      (State.writeScrCtrl s b).ram = s.ram := by
  simp [State.writeScrCtrl, apply_ite State.pending, apply_ite State.ram]

theorem execScoreLoad_keeps (s : State) :
    ∀ t', execScoreLoad s = .next t' → t'.pending = s.pending ∧ t'.ram = s.ram := by
  intro t h; simp only [execScoreLoad, within_next] at h; obtain ⟨-, rfl⟩ := h; simp

theorem execScoreDiscard_keeps (s : State) :
    ∀ t', execScoreDiscard s = .next t' → t'.pending = s.pending ∧ t'.ram = s.ram := by
  intro t h; simp only [execScoreDiscard, within_next] at h; obtain ⟨-, rfl⟩ := h; simp

theorem execLoadCheckDone_keeps (s : State) :
    ∀ t', execLoadCheckDone s = .next t' → t'.pending = s.pending ∧ t'.ram = s.ram := by
  intro t h; simp only [execLoadCheckDone, within_next] at h; obtain ⟨-, rfl⟩ := h; simp [apply_ite State.pending, apply_ite State.ram]

@[simp] theorem State.writeScrTarget_keeps (s : State) (v : Nat) :
    (State.writeScrTarget s v).pending = s.pending ∧
      (State.writeScrTarget s v).ram = s.ram := by
  simp [State.writeScrTarget, apply_ite State.pending, apply_ite State.ram]

theorem execScrTargetWrite_keeps (v : DWord) (s : State) :
    ∀ t', execScrTargetWrite v s = .next t' → t'.pending = s.pending ∧ t'.ram = s.ram := by
  intro t h; simp only [execScrTargetWrite, within_next] at h; obtain ⟨-, rfl⟩ := h; simp

theorem execRootstockRelease_keeps (s : State) :
    ∀ t', execRootstockRelease s = .next t' → t'.pending = s.pending ∧ t'.ram = s.ram := by
  intro t h; simp only [execRootstockRelease, within_next] at h; obtain ⟨-, rfl⟩ := h; simp [apply_ite State.pending, apply_ite State.ram]

/-! ### Machine/Ports.lean -/

@[simp] theorem State.sendTail_keeps (s : State) (p : Nat) (frac : Nat) :
    (State.sendTail s p frac).pending = s.pending ∧
      (State.sendTail s p frac).ram = s.ram := by
  simp [State.sendTail]

theorem execTailSlotTx_keeps (p : Nat) (frac : Nat) (s : State) :
    ∀ t', execTailSlotTx p frac s = .next t' → t'.pending = s.pending ∧ t'.ram = s.ram := by
  intro t h; simp only [execTailSlotTx, within_next] at h; obtain ⟨-, rfl⟩ := h; simp [apply_ite State.pending, apply_ite State.ram]

theorem execTailSlotRx_keeps (p : Nat) (code : Option (Nat × List Byte)) (arrival : DWord) (phase : Int) (s : State) :
    ∀ t', execTailSlotRx p code arrival phase s = .next t' → t'.pending = s.pending ∧ (s.ram.wf = true → t'.ram.wf = true) := by
  intro t h; simp only [execTailSlotRx, within_next] at h; obtain ⟨-, rfl⟩ := h
  (repeat' split) <;> (refine ⟨?_, ?_⟩; simp [apply_ite State.pending]; intro hw; simp +contextual (maxDischargeDepth := 9) [apply_ite State.ram, apply_ite Mem.wf, hw])

theorem execOutOfStep_keeps (p : Nat) (s : State) :
    ∀ t', execOutOfStep p s = .next t' → t'.pending = s.pending ∧ (s.ram.wf = true → t'.ram.wf = true) := by
  intro t h; simp only [execOutOfStep, within_next] at h; obtain ⟨-, rfl⟩ := h; (refine ⟨?_, ?_⟩; simp [apply_ite State.pending]; intro hw; simp +contextual (maxDischargeDepth := 9) [apply_ite State.ram, apply_ite Mem.wf, hw])

theorem execPortDownbeat_keeps (p : Nat) (s : State) :
    ∀ t', execPortDownbeat p s = .next t' → t'.pending = s.pending ∧ t'.ram = s.ram := by
  intro t h; simp only [execPortDownbeat, within_next] at h; obtain ⟨-, rfl⟩ := h; simp [apply_ite State.pending, apply_ite State.ram]

theorem execTrainingDone_keeps (p : Nat) (s : State) :
    ∀ t', execTrainingDone p s = .next t' → t'.pending = s.pending ∧ t'.ram = s.ram := by
  intro t h; simp only [execTrainingDone, within_next] at h; obtain ⟨-, rfl⟩ := h; simp [apply_ite State.pending, apply_ite State.ram]

theorem execPortAlign_keeps (p : Nat) (spacing : List Nat) (skew : Nat) (phase : Int) (s : State) :
    ∀ t', execPortAlign p spacing skew phase s = .next t' → t'.pending = s.pending ∧ (s.ram.wf = true → t'.ram.wf = true) := by
  intro t h; simp only [execPortAlign, within_next] at h; obtain ⟨-, rfl⟩ := h
  (repeat' split) <;> (refine ⟨?_, ?_⟩; simp [apply_ite State.pending]; intro hw; simp +contextual (maxDischargeDepth := 9) [apply_ite State.ram, apply_ite Mem.wf, hw])

theorem execFramingTimeout_keeps (p : Nat) (s : State) :
    ∀ t', execFramingTimeout p s = .next t' → t'.pending = s.pending ∧ t'.ram = s.ram := by
  intro t h; simp only [execFramingTimeout, within_next] at h; obtain ⟨-, rfl⟩ := h; simp [apply_ite State.pending, apply_ite State.ram]

theorem execPortDown_keeps (p : Nat) (signal : Bool) (s : State) :
    ∀ t', execPortDown p signal s = .next t' → t'.pending = s.pending ∧ (s.ram.wf = true → t'.ram.wf = true) := by
  intro t h; simp only [execPortDown, within_next] at h; obtain ⟨-, rfl⟩ := h; (refine ⟨?_, ?_⟩; simp [apply_ite State.pending]; intro hw; simp +contextual (maxDischargeDepth := 9) [apply_ite State.ram, apply_ite Mem.wf, hw])

theorem execPortRetrain_keeps (p : Nat) (s : State) :
    ∀ t', execPortRetrain p s = .next t' → t'.pending = s.pending ∧ t'.ram = s.ram := by
  intro t h; simp only [execPortRetrain, within_next] at h; obtain ⟨-, rfl⟩ := h; simp [apply_ite State.pending, apply_ite State.ram]

@[simp] theorem State.writeVpCtrl_keeps (s : State) (p : Nat) (v : Nat) :
    (State.writeVpCtrl s p v).pending = s.pending ∧
      (State.writeVpCtrl s p v).ram = s.ram := by
  simp [State.writeVpCtrl, apply_ite State.pending, apply_ite State.ram]

theorem execVpHoldDown_keeps (p : Nat) (v : Word) (s : State) :
    ∀ t', execVpHoldDown p v s = .next t' → t'.pending = s.pending ∧ t'.ram = s.ram := by
  intro t h; simp only [execVpHoldDown, within_next] at h; obtain ⟨-, rfl⟩ := h; simp

theorem execRollCall_keeps (p : Nat) (c : Cue) (s : State) :
    ∀ t', execRollCall p c s = .next t' → t'.pending = s.pending ∧ t'.ram = s.ram := by
  intro t h; simp only [execRollCall, within_next] at h; obtain ⟨-, rfl⟩ := h; simp [apply_ite State.pending, apply_ite State.ram]

theorem execHere_keeps (p : Nat) (c : Cue) (s : State) :
    ∀ t', execHere p c s = .next t' → t'.pending = s.pending ∧ t'.ram = s.ram := by
  intro t h; simp only [execHere, within_next] at h; obtain ⟨-, rfl⟩ := h; simp [apply_ite State.pending, apply_ite State.ram]

theorem execHold_keeps (p : Nat) (c : Cue) (s : State) :
    ∀ t', execHold p c s = .next t' → t'.pending = s.pending ∧ t'.ram = s.ram := by
  intro t h; simp only [execHold, within_next] at h; obtain ⟨-, rfl⟩ := h; simp [apply_ite State.pending, apply_ite State.ram]

/-! ### Machine/Regs.lean -/

@[simp] theorem State.readLate_keeps (s : State) (c : Nat) (data1 : Bool) :
    (State.readLate s c data1).pending = s.pending ∧
      (State.readLate s c data1).ram = s.ram := by
  unfold State.readLate; dsimp only
  repeat' (split <;> try (rename_i h; obtain ⟨rfl, -⟩ := Prod.ext_iff.mp h))
  all_goals simp

@[simp] theorem State.regRead_keeps (s : State) (a : Nat) :
    (State.regRead s a).pending = s.pending ∧
      (State.regRead s a).ram = s.ram := by
  unfold State.regRead
  (repeat' split) <;> simp

@[simp] theorem State.barAnswer_keeps (s : State) (v : Option Nat) :
    (State.barAnswer s v).pending = s.pending ∧
      (State.barAnswer s v).ram = s.ram := by
  simp [State.barAnswer]

@[simp] theorem State.consume_keeps (s : State) (a : Nat) :
    (State.consume s a).pending = s.pending ∧
      (State.consume s a).ram = s.ram := by
  simp [State.consume, apply_ite State.pending, apply_ite State.ram]

@[simp] theorem State.read64_keeps (s : State) (a : Nat) :
    (State.read64 s a).pending = s.pending ∧
      (State.read64 s a).ram = s.ram := by
  unfold State.read64
  (repeat' split) <;> simp

@[simp] theorem State.readHalf_keeps (s : State) (a : Nat) :
    (State.readHalf s a).pending = s.pending ∧
      (State.readHalf s a).ram = s.ram := by
  unfold State.readHalf
  (repeat' split) <;> simp

@[simp] theorem State.read32_keeps (s : State) (a : Nat) :
    (State.read32 s a).pending = s.pending ∧
      (State.read32 s a).ram = s.ram := by
  unfold State.read32
  (repeat' split) <;> simp

@[simp] theorem State.barRead_keeps (s : State) (a : Nat) (wide : Bool) :
    (State.barRead s a wide).pending = s.pending ∧
      (State.barRead s a wide).ram = s.ram := by
  unfold State.barRead
  (repeat' split) <;> simp

theorem execRcRead_keeps (off : Nat) (wide : Bool) (s : State) :
    ∀ t', execRcRead off wide s = .next t' → t'.pending = s.pending ∧ t'.ram = s.ram := by
  intro t h; simp only [execRcRead, within_next] at h; obtain ⟨-, rfl⟩ := h; simp

theorem execCeLateRead_keeps (c : Nat) (data1 : Bool) (s : State) :
    ∀ t', execCeLateRead c data1 s = .next t' → t'.pending = s.pending ∧ t'.ram = s.ram := by
  intro t h; simp only [execCeLateRead, within_next] at h; obtain ⟨-, rfl⟩ := h; simp

/-! ### Machine/MgmtOps.lean -/

@[simp] theorem State.mgmtEnd_keeps (s : State) (r : MReq) (a : Answer) (out : List Byte) :
    (State.mgmtEnd s r a out).pending = s.pending ∧
      (State.mgmtEnd s r a out).ram = s.ram := by
  unfold State.mgmtEnd
  (repeat' split) <;> simp

@[simp] theorem State.mgmtRun_pending (s : State) (r : MReq) (b : Bool) (f : State → State) (hf : ∀ s, (f s).pending = s.pending) :
    (s.mgmtRun r b f).pending = s.pending := by
  unfold State.mgmtRun; (repeat' split) <;> simp [hf]

@[simp] theorem State.mgmtRun_ram (s : State) (r : MReq) (b : Bool) (f : State → State) (hf : ∀ s, (f s).ram = s.ram) :
    (s.mgmtRun r b f).ram = s.ram := by
  unfold State.mgmtRun; (repeat' split) <;> simp [hf]

@[simp] theorem State.mgmtRun_wf (s : State) (r : MReq) (b : Bool) (f : State → State) (hw : s.ram.wf = true)
    (hf : ∀ s, s.ram.wf = true → (f s).ram.wf = true) : (s.mgmtRun r b f).ram.wf = true := by
  unfold State.mgmtRun; (repeat' split) <;> simp [hf, hw]

@[simp] theorem State.doInfo_keeps (s : State) (r : MReq) :
    (State.doInfo s r).pending = s.pending ∧
      (State.doInfo s r).ram = s.ram := by
  simp [State.doInfo]

@[simp] theorem State.doReadGasp_keeps (s : State) (r : MReq) :
    (State.doReadGasp s r).pending = s.pending ∧
      (State.doReadGasp s r).ram = s.ram := by
  unfold State.doReadGasp
  (repeat' split) <;> simp

@[simp] theorem State.doClearGasp_keeps (s : State) (r : MReq) :
    (State.doClearGasp s r).pending = s.pending ∧
      (State.doClearGasp s r).ram = s.ram := by
  simp [State.doClearGasp]

@[simp] theorem State.doSensors_keeps (s : State) (r : MReq) :
    (State.doSensors s r).pending = s.pending ∧
      (State.doSensors s r).ram = s.ram := by
  simp [State.doSensors]

@[simp] theorem State.imageRefused_keeps (s : State) (r : MReq) (a : Answer) :
    (State.imageRefused s r a).pending = s.pending ∧
      (State.imageRefused s r a).ram = s.ram := by
  simp [State.imageRefused]

@[simp] theorem State.doFlashWrite_keeps (s : State) (r : MReq) (sigOk : Bool) (failAt : Option Nat) :
    (State.doFlashWrite s r sigOk failAt).pending = s.pending ∧
      (s.ram.wf = true → (State.doFlashWrite s r sigOk failAt).ram.wf = true) := by
  unfold State.doFlashWrite; dsimp only
  repeat' (split <;> try (rename_i h; obtain ⟨rfl, -⟩ := Prod.ext_iff.mp h))
  all_goals (refine ⟨?_, ?_⟩; simp [apply_ite State.pending]; intro hw; simp +contextual (maxDischargeDepth := 9) [apply_ite State.ram, apply_ite Mem.wf, hw])

@[simp] theorem State.doNonce_keeps (s : State) (r : MReq) (nonce : BitVec 256) :
    (State.doNonce s r nonce).pending = s.pending ∧
      (State.doNonce s r nonce).ram = s.ram := by
  simp [State.doNonce]

@[simp] theorem State.useNonce_keeps (s : State) (fault : Option Nat) :
    (State.useNonce s fault).pending = s.pending ∧
      (State.useNonce s fault).ram = s.ram := by
  unfold State.useNonce
  (repeat' split) <;> simp

@[simp] theorem State.tokenFailed_keeps (s : State) (r : MReq) (n : Nat) :
    (State.tokenFailed s r n).pending = s.pending ∧
      (State.tokenFailed s r n).ram = s.ram := by
  simp [State.tokenFailed]

@[simp] theorem State.withToken_pending (s : State) (r : MReq) (k : Nat) (a b : Bool) (f : List Byte → State → State)
    (hf : ∀ t s, (f t s).pending = s.pending) : (s.withToken r k a b f).pending = s.pending := by
  unfold State.withToken; dsimp only; (repeat' split) <;> simp [hf]

@[simp] theorem State.withToken_ram (s : State) (r : MReq) (k : Nat) (a b : Bool) (f : List Byte → State → State)
    (hf : ∀ t s, (f t s).ram = s.ram) : (s.withToken r k a b f).ram = s.ram := by
  unfold State.withToken; dsimp only; (repeat' split) <;> simp [hf]

@[simp] theorem State.doUnlock_keeps (s : State) (r : MReq) (keyOk : Bool) (sigOk : Bool) :
    (State.doUnlock s r keyOk sigOk).pending = s.pending ∧
      (State.doUnlock s r keyOk sigOk).ram = s.ram := by
  simp [State.doUnlock]

@[simp] theorem State.doRollback_keeps (s : State) (r : MReq) :
    (State.doRollback s r).pending = s.pending ∧
      (State.doRollback s r).ram = s.ram := by
  simp [State.doRollback, apply_ite State.pending, apply_ite State.ram]

@[simp] theorem State.doRevoke_keeps (s : State) (r : MReq) (keyOk : Bool) (sigOk : Bool) :
    (State.doRevoke s r keyOk sigOk).pending = s.pending ∧
      (State.doRevoke s r keyOk sigOk).ram = s.ram := by
  simp [State.doRevoke, apply_ite State.pending, apply_ite State.ram]

@[simp] theorem State.mgmtCmd_keeps (s : State) (code : Nat) :
    (State.mgmtCmd s code).pending = s.pending ∧
      (s.ram.wf = true → (State.mgmtCmd s code).ram.wf = true) := by
  unfold State.mgmtCmd
  refine ⟨?_, fun hw => ?_⟩
  · apply State.mgmtRun_pending; intro s; split <;> simp
  · apply State.mgmtRun_wf _ _ _ _ hw; intro s hw; split <;> simp [hw]

/-! ### Machine/RegWrite.lean -/

@[simp] theorem State.putIf_pending (s : State) (c : Bool) (f : State → State) (hf : ∀ s, (f s).pending = s.pending) :
    (s.putIf c f).1.pending = s.pending := by
  unfold State.putIf; split <;> simp [hf]

@[simp] theorem State.putIf_ram (s : State) (c : Bool) (f : State → State) (hf : ∀ s, (f s).ram = s.ram) :
    (s.putIf c f).1.ram = s.ram := by
  unfold State.putIf; split <;> simp [hf]

@[simp] theorem State.flushVectors_keeps (s : State) :
    (State.flushVectors s).pending = s.pending ∧
      (State.flushVectors s).ram = s.ram := by
  simp [State.flushVectors, apply_ite State.pending, apply_ite State.ram]

@[simp] theorem State.writeMsix_keeps (s : State) (o : Nat) (v : Nat) :
    (State.writeMsix s o v).pending = s.pending ∧
      (State.writeMsix s o v).ram = s.ram := by
  simp [State.writeMsix]

@[simp] theorem State.putGlobal_keeps (s : State) (o : Nat) (v : Nat) :
    (State.putGlobal s o v).1.pending = s.pending ∧
      (s.ram.wf = true → (State.putGlobal s o v).1.ram.wf = true) := by
  unfold State.putGlobal
  (repeat' split) <;> (refine ⟨?_, ?_⟩; simp; intro hw; simp [hw])

@[simp] theorem State.newLimit_keeps (s : State) (n : Nat) :
    (State.newLimit s n).pending = s.pending ∧
      (State.newLimit s n).ram = s.ram := by
  simp [State.newLimit]

@[simp] theorem State.putTact_keeps (s : State) (o : Nat) (v : Nat) :
    (State.putTact s o v).1.pending = s.pending ∧
      (State.putTact s o v).1.ram = s.ram := by
  unfold State.putTact
  (repeat' split) <;> simp

@[simp] theorem State.putVp_keeps (s : State) (p : Nat) (o : Nat) (v : Nat) :
    (State.putVp s p o v).1.pending = s.pending ∧
      (State.putVp s p o v).1.ram = s.ram := by
  unfold State.putVp
  (repeat' split) <;> simp

@[simp] theorem State.putScrCtrl_keeps (s : State) (v : Nat) :
    (State.putScrCtrl s v).1.pending = s.pending ∧
      (State.putScrCtrl s v).1.ram = s.ram := by
  simp [State.putScrCtrl]

@[simp] theorem State.putScore_keeps (s : State) (o : Nat) (v : Nat) :
    (State.putScore s o v).1.pending = s.pending ∧
      (State.putScore s o v).1.ram = s.ram := by
  unfold State.putScore
  (repeat' split) <;> simp

@[simp] theorem State.putMem_keeps (s : State) (o : Nat) (v : Nat) :
    (State.putMem s o v).1.pending = s.pending ∧
      (State.putMem s o v).1.ram = s.ram := by
  unfold State.putMem
  (repeat' split) <;> simp

@[simp] theorem State.putHost_keeps (s : State) (o : Nat) (v : Nat) :
    (State.putHost s o v).1.pending = s.pending ∧
      (State.putHost s o v).1.ram = s.ram := by
  unfold State.putHost
  (repeat' split) <;> simp

@[simp] theorem State.putMgmt_keeps (s : State) (o : Nat) (v : Nat) :
    (State.putMgmt s o v).1.pending = s.pending ∧
      (s.ram.wf = true → (State.putMgmt s o v).1.ram.wf = true) := by
  unfold State.putMgmt
  (repeat' split) <;> (refine ⟨?_, ?_⟩; simp; intro hw; simp [hw])

@[simp] theorem State.graftCmd_keeps (s : State) (code : Nat) :
    (State.graftCmd s code).pending = s.pending ∧
      (s.ram.wf = true → (State.graftCmd s code).ram.wf = true) := by
  simp only [State.graftCmd]
  repeat' (split <;> try (rename_i h; obtain ⟨rfl, -⟩ := Prod.ext_iff.mp h))
  all_goals (refine ⟨?_, ?_⟩; simp [apply_ite State.pending]; intro hw; simp +contextual (maxDischargeDepth := 9) [apply_ite State.ram, apply_ite Mem.wf, hw])

@[simp] theorem State.putGraft_keeps (s : State) (o : Nat) (v : Nat) :
    (State.putGraft s o v).1.pending = s.pending ∧
      (s.ram.wf = true → (State.putGraft s o v).1.ram.wf = true) := by
  unfold State.putGraft
  (repeat' split) <;> (refine ⟨?_, ?_⟩; simp; intro hw; simp [hw])

@[simp] theorem State.putQCfg_keeps (s : State) (q : Nat) (f : Queue → Queue) :
    (State.putQCfg s q f).1.pending = s.pending ∧
      (State.putQCfg s q f).1.ram = s.ram := by
  simp [State.putQCfg]

@[simp] theorem State.putSreg_keeps (s : State) (q : Nat) (i : Nat) (v : Nat) :
    (State.putSreg s q i v).1.pending = s.pending ∧
      (State.putSreg s q i v).1.ram = s.ram := by
  simp [State.putSreg]

@[simp] theorem State.putQueue_keeps (s : State) (q : Nat) (o : Nat) (v : Nat) :
    (State.putQueue s q o v).1.pending = s.pending ∧
      (s.ram.wf = true → (State.putQueue s q o v).1.ram.wf = true) := by
  unfold State.putQueue
  (repeat' split) <;> (refine ⟨?_, ?_⟩; simp; intro hw; simp [hw])

@[simp] theorem State.putRCfg_keeps (s : State) (r : Nat) (f : Ring → Ring) :
    (State.putRCfg s r f).1.pending = s.pending ∧
      (State.putRCfg s r f).1.ram = s.ram := by
  simp [State.putRCfg]

@[simp] theorem State.putRing_keeps (s : State) (r : Nat) (o : Nat) (v : Nat) :
    (State.putRing s r o v).1.pending = s.pending ∧
      (State.putRing s r o v).1.ram = s.ram := by
  unfold State.putRing
  (repeat' split) <;> simp

@[simp] theorem State.putCe_keeps (s : State) (c : Nat) (o : Nat) (v : Nat) :
    (State.putCe s c o v).1.pending = s.pending ∧
      (State.putCe s c o v).1.ram = s.ram := by
  unfold State.putCe
  (repeat' split) <;> simp

@[simp] theorem State.putSet_keeps (s : State) (ch : Nat) (shadow : Bool) (i : Nat) (v : Nat) :
    (State.putSet s ch shadow i v).1.pending = s.pending ∧
      (State.putSet s ch shadow i v).1.ram = s.ram := by
  unfold State.putSet; dsimp only
  repeat' (split <;> try (rename_i h; obtain ⟨rfl, -⟩ := Prod.ext_iff.mp h))
  all_goals simp

@[simp] theorem State.chanCmd_keeps (s : State) (ch : Nat) (v : Nat) :
    (State.chanCmd s ch v).pending = s.pending ∧
      (State.chanCmd s ch v).ram = s.ram := by
  unfold State.chanCmd
  (repeat' split) <;> simp

@[simp] theorem State.putChan_keeps (s : State) (ch : Nat) (o : Nat) (v : Nat) :
    (State.putChan s ch o v).1.pending = s.pending ∧
      (State.putChan s ch o v).1.ram = s.ram := by
  unfold State.putChan
  (repeat' split) <;> simp

@[simp] theorem State.putLand_keeps (s : State) (w : Nat) (o : Nat) (v : Nat) :
    (State.putLand s w o v).1.pending = s.pending ∧
      (State.putLand s w o v).1.ram = s.ram := by
  unfold State.putLand
  (repeat' split) <;> simp

@[simp] theorem State.putDma_keeps (s : State) (o : Nat) (v : Nat) :
    (State.putDma s o v).1.pending = s.pending ∧
      (State.putDma s o v).1.ram = s.ram := by
  unfold State.putDma
  (repeat' split) <;> simp

@[simp] theorem State.barCtrl_keeps (s : State) (b : Nat) (v : Nat) :
    (State.barCtrl s b v).pending = s.pending ∧
      (State.barCtrl s b v).ram = s.ram := by
  unfold State.barCtrl
  (repeat' split) <;> simp

@[simp] theorem State.putBar_keeps (s : State) (b : Nat) (o : Nat) (v : Nat) :
    (State.putBar s b o v).1.pending = s.pending ∧
      (State.putBar s b o v).1.ram = s.ram := by
  unfold State.putBar
  (repeat' split) <;> simp

@[simp] theorem State.putSync_keeps (s : State) (o : Nat) (v : Nat) :
    (State.putSync s o v).1.pending = s.pending ∧
      (State.putSync s o v).1.ram = s.ram := by
  unfold State.putSync
  (repeat' split) <;> simp

@[simp] theorem State.putFc_keeps (s : State) (o : Nat) (v : Nat) :
    (State.putFc s o v).1.pending = s.pending ∧
      (State.putFc s o v).1.ram = s.ram := by
  unfold State.putFc
  (repeat' split) <;> simp

@[simp] theorem State.putReg_keeps (s : State) (a : Nat) (v : Nat) :
    (State.putReg s a v).1.pending = s.pending ∧
      (s.ram.wf = true → (State.putReg s a v).1.ram.wf = true) := by
  unfold State.putReg; dsimp only
  repeat' (split <;> try (rename_i h; obtain ⟨rfl, -⟩ := Prod.ext_iff.mp h))
  all_goals (refine ⟨?_, ?_⟩; simp [apply_ite State.pending]; intro hw; simp +contextual (maxDischargeDepth := 9) [apply_ite State.ram, apply_ite Mem.wf, hw])

@[simp] theorem State.writeReg_keeps (s : State) (a : Nat) (v : Nat) :
    (State.writeReg s a v).1.pending = s.pending ∧
      (s.ram.wf = true → (State.writeReg s a v).1.ram.wf = true) := by
  unfold State.writeReg
  (repeat' split) <;> (refine ⟨?_, ?_⟩; simp; intro hw; simp [hw])

@[simp] theorem State.write32_keeps (s : State) (a : Nat) (v : Nat) :
    (State.write32 s a v).pending = s.pending ∧
      (s.ram.wf = true → (State.write32 s a v).ram.wf = true) := by
  unfold State.write32
  (repeat' split) <;> (refine ⟨?_, ?_⟩; simp; intro hw; simp [hw])

@[simp] theorem State.barWrite_keeps (s : State) (a : Nat) (wide : Bool) (v : Nat) :
    (State.barWrite s a wide v).pending = s.pending ∧
      (s.ram.wf = true → (State.barWrite s a wide v).ram.wf = true) := by
  have h1 : ∀ a n v u, s.putWindow a n v = some u → u.pending = s.pending ∧ u.ram = s.ram := by
    intro a n v u hr
    unfold State.putWindow at hr
    (repeat' split at hr) <;> first
      | (cases hr; done)
      | (obtain rfl := Option.some.inj hr; simp [apply_ite State.pending, apply_ite State.ram]; done)
      | (obtain rfl := Option.some.inj hr; split <;> simp; done)
  unfold State.barWrite
  dsimp only
  split
  · rename_i u hu
    split at hu
    · have h2 := h1 _ _ _ _ hu; exact ⟨h2.1, fun hw => h2.2 ▸ hw⟩
    · cases hu
  · (repeat' split) <;> exact ⟨by simp, fun hw => by simp [hw]⟩

theorem execRegisterWrite_keeps (off : Nat) (wide : Bool) (v : DWord) (s : State) :
    ∀ t', execRegisterWrite off wide v s = .next t' → t'.pending = s.pending ∧ (s.ram.wf = true → t'.ram.wf = true) := by
  intro t h; simp only [execRegisterWrite, within_next] at h; obtain ⟨-, rfl⟩ := h; (refine ⟨?_, ?_⟩; simp [apply_ite State.pending]; intro hw; simp +contextual (maxDischargeDepth := 9) [apply_ite State.ram, apply_ite Mem.wf, hw])

theorem execMsixTableWrite_keeps (off : Nat) (v : Word) (s : State) :
    ∀ t', execMsixTableWrite off v s = .next t' → t'.pending = s.pending ∧ t'.ram = s.ram := by
  intro t h; simp only [execMsixTableWrite, within_next] at h; obtain ⟨-, rfl⟩ := h; simp

theorem execSvcAccess_keeps (dr : BitVec 128) (s : State) :
    ∀ t', execSvcAccess dr s = .next t' → t'.pending = s.pending ∧ (s.ram.wf = true → t'.ram.wf = true) := by
  intro t h; simp only [execSvcAccess, within_next] at h; obtain ⟨-, rfl⟩ := h; (refine ⟨?_, ?_⟩; simp [apply_ite State.pending]; intro hw; simp +contextual (maxDischargeDepth := 9) [apply_ite State.ram, apply_ite Mem.wf, hw])

/-! ### Machine/Host.lean -/

@[simp] theorem State.barPoisoned_keeps (s : State) (n : Nat) :
    (State.barPoisoned s n).pending = s.pending ∧
      (State.barPoisoned s n).ram = s.ram := by
  simp [State.barPoisoned]

@[simp] theorem State.bar2Load_keeps (s : State) (a : Nat) (n : Nat) :
    (State.bar2Load s a n).pending = s.pending ∧
      (s.ram.wf = true → (State.bar2Load s a n).ram.wf = true) := by
  simp only [State.bar2Load]
  repeat' (split <;> try (rename_i h; obtain ⟨rfl, -⟩ := Prod.ext_iff.mp h))
  all_goals (refine ⟨?_, ?_⟩; simp [apply_ite State.pending]; intro hw; simp +contextual (maxDischargeDepth := 9) [apply_ite State.ram, apply_ite Mem.wf, hw])

theorem execBar2Read_keeps (off : Nat) (len : Nat) (s : State) :
    ∀ t', execBar2Read off len s = .next t' → t'.pending = s.pending ∧ (s.ram.wf = true → t'.ram.wf = true) := by
  intro t h; simp only [execBar2Read, within_next] at h; obtain ⟨-, rfl⟩ := h; (refine ⟨?_, ?_⟩; simp [apply_ite State.pending]; intro hw; simp +contextual (maxDischargeDepth := 9) [apply_ite State.ram, apply_ite Mem.wf, hw])

@[simp] theorem State.bar2Store_keeps (s : State) (a : Nat) (bs : List Byte) :
    (State.bar2Store s a bs).pending = s.pending ∧
      (s.ram.wf = true → (State.bar2Store s a bs).ram.wf = true) := by
  simp only [State.bar2Store]
  repeat' (split <;> try (rename_i h; obtain ⟨rfl, -⟩ := Prod.ext_iff.mp h))
  all_goals (refine ⟨?_, ?_⟩; simp [apply_ite State.pending]; intro hw; simp +contextual (maxDischargeDepth := 9) [apply_ite State.ram, apply_ite Mem.wf, hw])

@[simp] theorem State.hostFault_keeps (s : State) (det : Nat) (cnt : Nat) (detail : Nat) :
    (State.hostFault s det cnt detail).pending = s.pending ∧
      (s.ram.wf = true → (State.hostFault s det cnt detail).ram.wf = true) := by
  refine ⟨?_, ?_⟩; simp [State.hostFault]; intro hw; simp [State.hostFault, hw]

theorem execBar2Write_keeps (off : Nat) (data : List Byte) (poisoned : Bool) (s : State) :
    ∀ t', execBar2Write off data poisoned s = .next t' → t'.pending = s.pending ∧ (s.ram.wf = true → t'.ram.wf = true) := by
  intro t h; simp only [execBar2Write, within_next] at h; obtain ⟨-, rfl⟩ := h; (refine ⟨?_, ?_⟩; simp [apply_ite State.pending]; intro hw; simp +contextual (maxDischargeDepth := 9) [apply_ite State.ram, apply_ite Mem.wf, hw])

theorem execPtmDialog_keeps (time : DWord) (s : State) :
    ∀ t', execPtmDialog time s = .next t' → t'.pending = s.pending ∧ t'.ram = s.ram := by
  intro t h; simp only [execPtmDialog, within_next] at h; obtain ⟨-, rfl⟩ := h; simp [apply_ite State.pending, apply_ite State.ram]

@[simp] theorem State.dropRead_keeps (s : State) (id : Nat) :
    (State.dropRead s id).pending = s.pending ∧
      (State.dropRead s id).ram = s.ram := by
  simp [State.dropRead]

@[simp] theorem State.chanData_keeps (s : State) (ch : Nat) (id : Nat) (bs : List Byte) :
    (State.chanData s ch id bs).pending = s.pending ∧
      (State.chanData s ch id bs).ram = s.ram := by
  unfold State.chanData; dsimp only
  repeat' (split <;> try (rename_i h; obtain ⟨rfl, -⟩ := Prod.ext_iff.mp h))
  all_goals simp

@[simp] theorem State.chanError_keeps (s : State) (ch : Nat) (id : Nat) (a : Nat) :
    (State.chanError s ch id a).pending = s.pending ∧
      (s.ram.wf = true → (State.chanError s ch id a).ram.wf = true) := by
  unfold State.chanError; dsimp only
  repeat' (split <;> try (rename_i h; obtain ⟨rfl, -⟩ := Prod.ext_iff.mp h))
  all_goals (refine ⟨?_, ?_⟩; simp [apply_ite State.pending]; intro hw; simp +contextual (maxDischargeDepth := 9) [apply_ite State.ram, apply_ite Mem.wf, hw])

@[simp] theorem State.commandData_keeps (s : State) (q : Nat) (tok : Nat) (flush : Bool) (bs : List Byte) :
    (State.commandData s q tok flush bs).pending = s.pending ∧
      (s.ram.wf = true → (State.commandData s q tok flush bs).ram.wf = true) := by
  unfold State.commandData
  (repeat' split) <;> (refine ⟨?_, ?_⟩; simp; intro hw; simp [hw])

@[simp] theorem State.commandError_keeps (s : State) (q : Nat) (tok : Nat) (flush : Bool) (a : Nat) :
    (State.commandError s q tok flush a).pending = s.pending ∧
      (s.ram.wf = true → (State.commandError s q tok flush a).ram.wf = true) := by
  unfold State.commandError
  (repeat' split) <;> (refine ⟨?_, ?_⟩; simp; intro hw; simp [hw])

@[simp] theorem State.readData_keeps (s : State) (r : HostRead) (bs : List Byte) :
    (State.readData s r bs).pending = s.pending ∧
      (s.ram.wf = true → (State.readData s r bs).ram.wf = true) := by
  unfold State.readData
  (repeat' split) <;> (refine ⟨?_, ?_⟩; simp; intro hw; simp [hw])

@[simp] theorem State.readError_keeps (s : State) (r : HostRead) :
    (State.readError s r).pending = s.pending ∧
      (s.ram.wf = true → (State.readError s r).ram.wf = true) := by
  unfold State.readError
  (repeat' split) <;> (refine ⟨?_, ?_⟩; simp; intro hw; simp [hw])

@[simp] theorem State.completeRead_keeps (s : State) (r : HostRead) (a2 : HostCpl) :
    (State.completeRead s r a2).pending = s.pending ∧
      (s.ram.wf = true → (State.completeRead s r a2).ram.wf = true) := by
  unfold State.completeRead
  (repeat' split) <;> (refine ⟨?_, ?_⟩; simp; intro hw; simp [hw])

theorem execHostReadCompletion_keeps (id : Nat) (c : HostCpl) (s : State) :
    ∀ t', execHostReadCompletion id c s = .next t' → t'.pending = s.pending ∧ (s.ram.wf = true → t'.ram.wf = true) := by
  intro t h; simp only [execHostReadCompletion, within_next] at h; obtain ⟨-, rfl⟩ := h
  (repeat' split) <;> (refine ⟨?_, ?_⟩; simp [apply_ite State.pending]; intro hw; simp +contextual (maxDischargeDepth := 9) [apply_ite State.ram, apply_ite Mem.wf, hw])

theorem execCplTimeout_keeps (id : Nat) (s : State) :
    ∀ t', execCplTimeout id s = .next t' → t'.pending = s.pending ∧ (s.ram.wf = true → t'.ram.wf = true) := by
  intro t h; simp only [execCplTimeout, within_next] at h; obtain ⟨-, rfl⟩ := h
  (repeat' split) <;> (refine ⟨?_, ?_⟩; simp [apply_ite State.pending]; intro hw; simp +contextual (maxDischargeDepth := 9) [apply_ite State.ram, apply_ite Mem.wf, hw])

@[simp] theorem State.linkDown_keeps (s : State) :
    (State.linkDown s).pending = s.pending ∧
      (s.ram.wf = true → (State.linkDown s).ram.wf = true) := by
  refine ⟨?_, ?_⟩; simp [State.linkDown, apply_ite State.pending]; intro hw; simp +contextual (maxDischargeDepth := 9) [State.linkDown, apply_ite State.ram, apply_ite Mem.wf, hw]

theorem execHostLinkDown_keeps (s : State) :
    ∀ t', execHostLinkDown s = .next t' → t'.pending = s.pending ∧ (s.ram.wf = true → t'.ram.wf = true) := by
  intro t h; simp only [execHostLinkDown, within_next] at h; obtain ⟨-, rfl⟩ := h; (refine ⟨?_, ?_⟩; simp [apply_ite State.pending]; intro hw; simp +contextual (maxDischargeDepth := 9) [apply_ite State.ram, apply_ite Mem.wf, hw])

theorem execHostRefclkLoss_keeps (s : State) :
    ∀ t', execHostRefclkLoss s = .next t' → t'.pending = s.pending ∧ (s.ram.wf = true → t'.ram.wf = true) := by
  intro t h; simp only [execHostRefclkLoss, within_next] at h; obtain ⟨-, rfl⟩ := h; (refine ⟨?_, ?_⟩; simp [apply_ite State.pending]; intro hw; simp +contextual (maxDischargeDepth := 9) [apply_ite State.ram, apply_ite Mem.wf, hw])

theorem execHostLinkUp_keeps (rate : Nat) (width : Nat) (flit : Bool) (s : State) :
    ∀ t', execHostLinkUp rate width flit s = .next t' → t'.pending = s.pending ∧ t'.ram = s.ram := by
  intro t h; simp only [execHostLinkUp, within_next] at h; obtain ⟨-, rfl⟩ := h; simp [apply_ite State.pending, apply_ite State.ram]

@[simp] theorem State.setConfig_keeps (s : State) (a1 : CfgWrite) :
    (State.setConfig s a1).pending = s.pending ∧
      (State.setConfig s a1).ram = s.ram := by
  unfold State.setConfig
  (repeat' split) <;> simp

theorem execConfigSpaceWrite_keeps (w : CfgWrite) (s : State) :
    ∀ t', execConfigSpaceWrite w s = .next t' → t'.pending = s.pending ∧ t'.ram = s.ram := by
  intro t h; simp only [execConfigSpaceWrite, within_next] at h; obtain ⟨-, rfl⟩ := h; simp [apply_ite State.pending, apply_ite State.ram]

/-! ### Machine/Management.lean -/

theorem execGetInfo_keeps (r : MReq) (s : State) :
    ∀ t', execGetInfo r s = .next t' → t'.pending = s.pending ∧ t'.ram = s.ram := by
  intro t h; simp only [execGetInfo, within_next] at h; obtain ⟨-, rfl⟩ := h; simp

theorem execReadLastgasp_keeps (r : MReq) (s : State) :
    ∀ t', execReadLastgasp r s = .next t' → t'.pending = s.pending ∧ t'.ram = s.ram := by
  intro t h; simp only [execReadLastgasp, within_next] at h; obtain ⟨-, rfl⟩ := h; simp

theorem execClearLastgasp_keeps (r : MReq) (s : State) :
    ∀ t', execClearLastgasp r s = .next t' → t'.pending = s.pending ∧ t'.ram = s.ram := by
  intro t h; simp only [execClearLastgasp, within_next] at h; obtain ⟨-, rfl⟩ := h; simp

theorem execReadSensors_keeps (r : MReq) (s : State) :
    ∀ t', execReadSensors r s = .next t' → t'.pending = s.pending ∧ t'.ram = s.ram := by
  intro t h; simp only [execReadSensors, within_next] at h; obtain ⟨-, rfl⟩ := h; simp

theorem execFlashWrite_keeps (r : MReq) (sigOk : Bool) (failAt : Option Nat) (s : State) :
    ∀ t', execFlashWrite r sigOk failAt s = .next t' → t'.pending = s.pending ∧ (s.ram.wf = true → t'.ram.wf = true) := by
  intro t h; simp only [execFlashWrite, within_next] at h; obtain ⟨-, rfl⟩ := h; (refine ⟨?_, ?_⟩; simp [apply_ite State.pending]; intro hw; simp +contextual (maxDischargeDepth := 9) [apply_ite State.ram, apply_ite Mem.wf, hw])

theorem execJtagNonce_keeps (r : MReq) (nonce : BitVec 256) (s : State) :
    ∀ t', execJtagNonce r nonce s = .next t' → t'.pending = s.pending ∧ t'.ram = s.ram := by
  intro t h; simp only [execJtagNonce, within_next] at h; obtain ⟨-, rfl⟩ := h; simp

theorem execJtagUnlock_keeps (r : MReq) (keyOk : Bool) (sigOk : Bool) (s : State) :
    ∀ t', execJtagUnlock r keyOk sigOk s = .next t' → t'.pending = s.pending ∧ t'.ram = s.ram := by
  intro t h; simp only [execJtagUnlock, within_next] at h; obtain ⟨-, rfl⟩ := h; simp

theorem execAdvanceRollback_keeps (r : MReq) (s : State) :
    ∀ t', execAdvanceRollback r s = .next t' → t'.pending = s.pending ∧ t'.ram = s.ram := by
  intro t h; simp only [execAdvanceRollback, within_next] at h; obtain ⟨-, rfl⟩ := h; simp

theorem execRevokeKey_keeps (r : MReq) (keyOk : Bool) (sigOk : Bool) (s : State) :
    ∀ t', execRevokeKey r keyOk sigOk s = .next t' → t'.pending = s.pending ∧ t'.ram = s.ram := by
  intro t h; simp only [execRevokeKey, within_next] at h; obtain ⟨-, rfl⟩ := h; simp

theorem execPldmFirmwareUpdate_keeps (object : Nat) (image : List Byte) (sigOk : Bool) (failAt : Option Nat) (s : State) :
    ∀ t', execPldmFirmwareUpdate object image sigOk failAt s = .next t' → t'.pending = s.pending ∧ t'.ram = s.ram := by
  intro t h; simp only [execPldmFirmwareUpdate, within_next] at h; obtain ⟨-, rfl⟩ := h
  (repeat' split) <;> simp [apply_ite State.pending, apply_ite State.ram]

theorem execSpdmRequest_keeps (code : Nat) (body : List Byte) (s : State) :
    ∀ t', execSpdmRequest code body s = .next t' → t'.pending = s.pending ∧ t'.ram = s.ram := by
  intro t h; simp only [execSpdmRequest, within_next] at h; obtain ⟨-, rfl⟩ := h; simp [apply_ite State.pending, apply_ite State.ram]

theorem execMctpControl_keeps (code : Nat) (v : Nat) (s : State) :
    ∀ t', execMctpControl code v s = .next t' → t'.pending = s.pending ∧ t'.ram = s.ram := by
  intro t h; simp only [execMctpControl, within_next] at h; obtain ⟨-, rfl⟩ := h
  (repeat' split) <;> simp [apply_ite State.pending, apply_ite State.ram]

@[simp] theorem State.readSensor_keeps (s : State) (id : Nat) (v : Int) :
    (State.readSensor s id v).pending = s.pending ∧
      (State.readSensor s id v).ram = s.ram := by
  simp [State.readSensor, apply_ite State.pending, apply_ite State.ram]

theorem execPldmSensorRefresh_keeps (readings : List (Nat × Nat)) (s : State) :
    ∀ t', execPldmSensorRefresh readings s = .next t' → t'.pending = s.pending ∧ t'.ram = s.ram := by
  intro t h; simp only [execPldmSensorRefresh, within_next] at h; obtain ⟨-, rfl⟩ := h; simp [apply_ite State.pending, apply_ite State.ram]

theorem execPldmPlatformRequest_keeps (code : Nat) (arg : Nat) (s : State) :
    ∀ t', execPldmPlatformRequest code arg s = .next t' → t'.pending = s.pending ∧ t'.ram = s.ram := by
  intro t h; simp only [execPldmPlatformRequest, within_next] at h; obtain ⟨-, rfl⟩ := h
  (repeat' split) <;> simp [apply_ite State.pending, apply_ite State.ram]

theorem execMcWatchdog_keeps (s : State) :
    ∀ t', execMcWatchdog s = .next t' → t'.pending = s.pending ∧ (s.ram.wf = true → t'.ram.wf = true) := by
  intro t h; simp only [execMcWatchdog, within_next] at h; obtain ⟨-, rfl⟩ := h; (refine ⟨?_, ?_⟩; simp [apply_ite State.pending]; intro hw; simp +contextual (maxDischargeDepth := 9) [apply_ite State.ram, apply_ite Mem.wf, hw])

theorem execTapInstruction_keeps (ir : Nat) (s : State) :
    ∀ t', execTapInstruction ir s = .next t' → t'.pending = s.pending ∧ t'.ram = s.ram := by
  intro t h; simp only [execTapInstruction, within_next] at h; obtain ⟨-, rfl⟩ := h; simp [apply_ite State.pending, apply_ite State.ram]

/-! ### Machine/Boot.lean -/

@[simp] theorem State.bootStep_pending (n : Nat) (f : State → State) (s : State) (hf : ∀ s, (f s).pending = s.pending) :
    (State.bootStep n f s).pending = s.pending := by
  unfold State.bootStep; split <;> simp [hf]

@[simp] theorem State.bootStep_ram (n : Nat) (f : State → State) (s : State) (hf : ∀ s, (f s).ram = s.ram) :
    (State.bootStep n f s).ram = s.ram := by
  unfold State.bootStep; split <;> simp [hf]

@[simp] theorem State.bootStep_wf (n : Nat) (f : State → State) (s : State) (hw : s.ram.wf = true)
    (hf : ∀ s, s.ram.wf = true → (f s).ram.wf = true) : (State.bootStep n f s).ram.wf = true := by
  unfold State.bootStep; split <;> simp [hf, hw]

@[simp] theorem State.bootFirmware_keeps (s : State) :
    (State.bootFirmware s).pending = s.pending ∧
      (State.bootFirmware s).ram = s.ram := by
  unfold State.bootFirmware
  (repeat' split) <;> simp

@[simp] theorem State.skipRecord_keeps (s : State) :
    (State.skipRecord s).pending = s.pending ∧
      (State.skipRecord s).ram = s.ram := by
  simp [State.skipRecord]

theorem State.putWindow_keeps (s u : State) (a n v : Nat) (hr : s.putWindow a n v = some u) :
    u.pending = s.pending ∧ u.ram = s.ram := by
  unfold State.putWindow at hr
  (repeat' split at hr) <;> first
    | (cases hr; done)
    | (obtain rfl := Option.some.inj hr; simp [apply_ite State.pending, apply_ite State.ram]; done)
    | (obtain rfl := Option.some.inj hr; split <;> simp; done)

@[simp] theorem State.applyRecord_pending (al : Nat → Bool) (put : State → Nat → Nat → Put) (r : Record) (s : State)
    (hf : ∀ s a v, (put s a v).1.pending = s.pending) : (State.applyRecord al put r s).pending = s.pending := by
  have h1 : ∀ a n v, ((s.putWindow a n v).getD s).pending = s.pending := fun a n v => by
    cases h : s.putWindow a n v with
    | none => rfl
    | some u => exact (State.putWindow_keeps s u a n v h).1
  unfold State.applyRecord
  repeat' (split <;> try (rename_i h; obtain ⟨rfl, -⟩ := Prod.ext_iff.mp h))
  all_goals simp [h1, hf]

@[simp] theorem State.applyRecord_wf (al : Nat → Bool) (put : State → Nat → Nat → Put) (r : Record) (s : State)
    (hw : s.ram.wf = true) (hf : ∀ s a v, s.ram.wf = true → (put s a v).1.ram.wf = true) :
    (State.applyRecord al put r s).ram.wf = true := by
  have h1 : ∀ a n v, ((s.putWindow a n v).getD s).ram = s.ram := fun a n v => by
    cases h : s.putWindow a n v with
    | none => rfl
    | some u => exact (State.putWindow_keeps s u a n v h).2
  unfold State.applyRecord
  repeat' (split <;> try (rename_i h; obtain ⟨rfl, -⟩ := Prod.ext_iff.mp h))
  all_goals simp [h1, hf, hw]

@[simp] theorem State.putCold_keeps (s : State) (a : Nat) (v : Nat) :
    (State.putCold s a v).1.pending = s.pending ∧
      (s.ram.wf = true → (State.putCold s a v).1.ram.wf = true) := by
  refine ⟨?_, ?_⟩; simp [State.putCold]; intro hw; simp [State.putCold, hw]

@[simp] theorem State.putWarm_keeps (old : State) (s : State) (a : Nat) (v : Nat) :
    (State.putWarm old s a v).1.pending = s.pending ∧
      (s.ram.wf = true → (State.putWarm old s a v).1.ram.wf = true) := by
  simp only [State.putWarm]
  repeat' (split <;> try (rename_i h; obtain ⟨rfl, -⟩ := Prod.ext_iff.mp h))
  all_goals (refine ⟨?_, ?_⟩; simp [apply_ite State.pending]; intro hw; simp +contextual (maxDischargeDepth := 9) [apply_ite State.ram, apply_ite Mem.wf, hw])

@[simp] theorem State.putLate_keeps (s : State) (a : Nat) (v : Nat) :
    (State.putLate s a v).1.pending = s.pending ∧
      (s.ram.wf = true → (State.putLate s a v).1.ram.wf = true) := by
  refine ⟨?_, ?_⟩; simp [State.putLate]; intro hw; simp [State.putLate, hw]

@[simp] theorem State.runRecords_pending (late : Bool) (al : Nat → Bool) (put : State → Nat → Nat → Put) (s : State)
    (hf : ∀ s a v, (put s a v).1.pending = s.pending) : (State.runRecords late al put s).pending = s.pending := by
  unfold State.runRecords; split <;> simp [hf]

@[simp] theorem State.runRecords_wf (late : Bool) (al : Nat → Bool) (put : State → Nat → Nat → Put) (s : State)
    (hw : s.ram.wf = true) (hf : ∀ s a v, s.ram.wf = true → (put s a v).1.ram.wf = true) :
    (State.runRecords late al put s).ram.wf = true := by
  unfold State.runRecords; split
  · exact hw
  · exact forEach_wf _ _ _ hw fun r st h => State.applyRecord_wf al put r st h hf

@[simp] theorem State.noConfig_keeps (s : State) :
    (State.noConfig s).pending = s.pending ∧
      (State.noConfig s).ram = s.ram := by
  simp [State.noConfig, apply_ite State.pending, apply_ite State.ram]

@[simp] theorem State.bootFuses_pending (b : Boot) (put : State → Nat → Nat → Put) (s : State)
    (hf : ∀ s a v, (put s a v).1.pending = s.pending) : (State.bootFuses b put s).pending = s.pending := by
  unfold State.bootFuses; dsimp only; split <;> simp [hf]

@[simp] theorem State.bootFuses_wf (b : Boot) (put : State → Nat → Nat → Put) (s : State)
    (hw : s.ram.wf = true) (hf : ∀ s a v, s.ram.wf = true → (put s a v).1.ram.wf = true) :
    (State.bootFuses b put s).ram.wf = true := by
  unfold State.bootFuses; dsimp only; split
  · simp [hw]
  · exact State.runRecords_wf false _ put _ (by simp [hw]) hf

@[simp] theorem State.bootClock_keeps (b : Boot) (s : State) :
    (State.bootClock b s).pending = s.pending ∧
      (State.bootClock b s).ram = s.ram := by
  unfold State.bootClock; dsimp only
  repeat' (split <;> try (rename_i h; obtain ⟨rfl, -⟩ := Prod.ext_iff.mp h))
  all_goals simp [apply_ite State.pending, apply_ite State.ram]

@[simp] theorem State.bootRepair_keeps (b : Boot) (s : State) :
    (State.bootRepair b s).pending = s.pending ∧
      (State.bootRepair b s).ram = s.ram := by
  simp [State.bootRepair, apply_ite State.pending, apply_ite State.ram]

@[simp] theorem State.bankFrom_keeps (s : State) (c : FlashCopy) :
    (State.bankFrom s c).pending = s.pending ∧
      (State.bankFrom s c).ram = s.ram := by
  simp [State.bankFrom]

@[simp] theorem State.bootMemory_keeps (b : Boot) (cold : Bool) (s : State) :
    (State.bootMemory b cold s).pending = s.pending ∧
      (State.bootMemory b cold s).ram = s.ram := by
  unfold State.bootMemory; dsimp only
  repeat' (split <;> try (rename_i h; obtain ⟨rfl, -⟩ := Prod.ext_iff.mp h))
  all_goals simp

@[simp] theorem State.enumerate_keeps (e : Expander) (s : State) :
    (State.enumerate e s).pending = s.pending ∧
      (State.enumerate e s).ram = s.ram := by
  simp [State.enumerate]

@[simp] theorem State.noScore_keeps (s : State) :
    (State.noScore s).pending = s.pending ∧
      (s.ram.wf = true → (State.noScore s).ram.wf = true) := by
  refine ⟨?_, ?_⟩; simp [State.noScore]; intro hw; simp [State.noScore, hw]

@[simp] theorem State.bootScore_keeps (s : State) :
    (State.bootScore s).pending = s.pending ∧
      (s.ram.wf = true → (State.bootScore s).ram.wf = true) := by
  unfold State.bootScore; dsimp only
  repeat' (split <;> try (rename_i h; obtain ⟨rfl, -⟩ := Prod.ext_iff.mp h))
  all_goals (refine ⟨?_, ?_⟩; simp [apply_ite State.pending]; intro hw; simp +contextual (maxDischargeDepth := 9) [apply_ite State.ram, apply_ite Mem.wf, hw])

@[simp] theorem State.bootCxl_keeps (b : Boot) (s : State) :
    (State.bootCxl b s).pending = s.pending ∧
      (s.ram.wf = true → (State.bootCxl b s).ram.wf = true) := by
  refine ⟨?_, ?_⟩; simp [State.bootCxl]; intro hw; simp [State.bootCxl, hw]

@[simp] theorem State.bootSelfTest_keeps (b : Boot) (s : State) :
    (State.bootSelfTest b s).pending = s.pending ∧
      (State.bootSelfTest b s).ram = s.ram := by
  unfold State.bootSelfTest
  (repeat' split) <;> simp

@[simp] theorem State.poisonRow_keeps (pages : List Nat) (s : State) :
    (State.poisonRow pages s).pending = s.pending ∧
      (State.poisonRow pages s).ram = s.ram := by
  unfold State.poisonRow; dsimp only
  constructor
  · (try rw [State.eventC_keeps.1]); apply forEach_pending; intro x st; (repeat' split) <;> simp
  · apply forEach_ram; intro x st; (repeat' split) <;> simp

@[simp] theorem State.backCxl_keeps (j : Nat) (s : State) :
    (State.backCxl j s).pending = s.pending ∧
      (State.backCxl j s).ram = s.ram := by
  simp [State.backCxl, apply_ite State.pending, apply_ite State.ram]

@[simp] theorem State.bootFill_keeps (b : Boot) (s : State) :
    (State.bootFill b s).pending = s.pending ∧
      (s.ram.wf = true → (State.bootFill b s).ram.wf = true) := by
  refine ⟨?_, ?_⟩; simp [State.bootFill, apply_ite State.pending]; intro hw; simp [State.bootFill, apply_ite State.ram, apply_ite Mem.wf, hw]

@[simp] theorem State.bootImages_keeps (b : Boot) (s : State) :
    (State.bootImages b s).pending = s.pending ∧
      (State.bootImages b s).ram = s.ram := by
  simp [State.bootImages]

@[simp] theorem State.wakeCores_keeps (c : Nat) (s : State) :
    (State.wakeCores c s).pending = s.pending ∧
      (State.wakeCores c s).ram = s.ram := by
  simp [State.wakeCores, apply_ite State.pending, apply_ite State.ram]

@[simp] theorem State.letRun_keeps (s : State) :
    (State.letRun s).pending = s.pending ∧
      (s.ram.wf = true → (State.letRun s).ram.wf = true) := by
  refine ⟨?_, ?_⟩; simp [State.letRun, apply_ite State.pending]; intro hw; simp +contextual (maxDischargeDepth := 9) [State.letRun, apply_ite State.ram, apply_ite Mem.wf, hw]

@[simp] theorem State.undefMes_keeps (s : State) :
    (State.undefMes s).pending = s.pending ∧
      (State.undefMes s).ram = s.ram := by
  simp [State.undefMes]

/-! ### Machine/Resets.lean -/

@[simp] theorem State.coldBase_keeps (s : State) :
    (State.coldBase s).pending = s.pending ∧
      (s.ram.wf = true → (State.coldBase s).ram.wf = true) := by
  refine ⟨?_, ?_⟩; simp [State.coldBase]; intro hw; simp [State.coldBase, hw]

@[simp] theorem State.coldStart_keeps (b : Boot) (s : State) :
    (State.coldStart b s).pending = s.pending ∧
      (s.ram.wf = true → (State.coldStart b s).ram.wf = true) := by
  refine ⟨?_, ?_⟩; simp [State.coldStart, apply_ite State.pending]; intro hw; simp +contextual (maxDischargeDepth := 9) [State.coldStart, apply_ite State.ram, apply_ite Mem.wf, hw]

theorem execColdReset_keeps (b : Boot) (s : State) :
    ∀ t', execColdReset b s = .next t' → t'.pending = s.pending ∧ (s.ram.wf = true → t'.ram.wf = true) := by
  intro t h; simp only [execColdReset, within_next] at h; obtain ⟨-, rfl⟩ := h; (refine ⟨?_, ?_⟩; simp [apply_ite State.pending]; intro hw; simp +contextual (maxDischargeDepth := 9) [apply_ite State.ram, apply_ite Mem.wf, hw])

theorem execRelease_keeps (s : State) :
    ∀ t', execRelease s = .next t' → t'.pending = s.pending ∧ (s.ram.wf = true → t'.ram.wf = true) := by
  intro t h; simp only [execRelease, within_next] at h; obtain ⟨-, rfl⟩ := h; (refine ⟨?_, ?_⟩; simp [apply_ite State.pending]; intro hw; simp +contextual (maxDischargeDepth := 9) [apply_ite State.ram, apply_ite Mem.wf, hw])

@[simp] theorem State.warmBase_keeps (s : State) :
    (State.warmBase s).pending = s.pending ∧
      (State.warmBase s).ram = s.ram := by
  simp [State.warmBase]

@[simp] theorem State.warmBack_keeps (old : State) (s : State) :
    (State.warmBack old s).pending = s.pending ∧
      (State.warmBack old s).ram = s.ram := by
  simp [State.warmBack, apply_ite State.pending, apply_ite State.ram]

@[simp] theorem State.warmStart_keeps (b : Boot) (old : State) :
    (State.warmStart b old).pending = old.pending ∧
      (old.ram.wf = true → (State.warmStart b old).ram.wf = true) := by
  unfold State.warmStart; dsimp only
  repeat' (split <;> try (rename_i h; obtain ⟨rfl, -⟩ := Prod.ext_iff.mp h))
  all_goals (refine ⟨?_, ?_⟩; simp [apply_ite State.pending]; intro hw; simp +contextual (maxDischargeDepth := 9) [apply_ite State.ram, apply_ite Mem.wf, hw])

@[simp] theorem State.retrainHost_keeps (s : State) :
    (State.retrainHost s).pending = s.pending ∧
      (State.retrainHost s).ram = s.ram := by
  simp [State.retrainHost]

theorem execWarmReset_keeps (b : Boot) (s : State) :
    ∀ t', execWarmReset b s = .next t' → t'.pending = s.pending ∧ (s.ram.wf = true → t'.ram.wf = true) := by
  intro t h; simp only [execWarmReset, within_next] at h; obtain ⟨-, rfl⟩ := h; (refine ⟨?_, ?_⟩; simp [apply_ite State.pending]; intro hw; simp +contextual (maxDischargeDepth := 9) [apply_ite State.ram, apply_ite Mem.wf, hw])

@[simp] theorem State.flrCommands_keeps (s : State) :
    (State.flrCommands s).pending = s.pending ∧
      (State.flrCommands s).ram = s.ram := by
  simp [State.flrCommands]

@[simp] theorem State.flrAll_keeps (s : State) :
    (State.flrAll s).pending = s.pending ∧
      (s.ram.wf = true → (State.flrAll s).ram.wf = true) := by
  refine ⟨?_, ?_⟩; simp [State.flrAll]; intro hw; simp [State.flrAll, hw]

theorem execFlr_keeps (s : State) :
    ∀ t', execFlr s = .next t' → t'.pending = s.pending ∧ (s.ram.wf = true → t'.ram.wf = true) := by
  intro t h; simp only [execFlr, within_next] at h; obtain ⟨-, rfl⟩ := h; (refine ⟨?_, ?_⟩; simp [apply_ite State.pending]; intro hw; simp +contextual (maxDischargeDepth := 9) [apply_ite State.ram, apply_ite Mem.wf, hw])

@[simp] theorem State.losePwrgd_keeps (s : State) :
    (State.losePwrgd s).pending = s.pending ∧
      (State.losePwrgd s).ram = s.ram := by
  simp [State.losePwrgd, apply_ite State.pending, apply_ite State.ram]

theorem execPwrgdLost_keeps (s : State) :
    ∀ t', execPwrgdLost s = .next t' → t'.pending = s.pending ∧ t'.ram = s.ram := by
  intro t h; simp only [execPwrgdLost, within_next] at h; obtain ⟨-, rfl⟩ := h; simp [apply_ite State.pending, apply_ite State.ram]

theorem execVstbyUp_keeps (s : State) :
    ∀ t', execVstbyUp s = .next t' → t'.pending = s.pending ∧ t'.ram = s.ram := by
  intro t h; simp only [execVstbyUp, within_next] at h; obtain ⟨-, rfl⟩ := h; simp [apply_ite State.pending, apply_ite State.ram]

theorem execVstbyLoss_keeps (s : State) :
    ∀ t', execVstbyLoss s = .next t' → t'.pending = s.pending ∧ t'.ram = s.ram := by
  intro t h; simp only [execVstbyLoss, within_next] at h; obtain ⟨-, rfl⟩ := h; simp [apply_ite State.pending, apply_ite State.ram]

theorem execJoinRequest_keeps (p : Nat) (c : Cue) (s : State) :
    ∀ t', execJoinRequest p c s = .next t' → t'.pending = s.pending ∧ t'.ram = s.ram := by
  intro t h; simp only [execJoinRequest, within_next] at h; obtain ⟨-, rfl⟩ := h; simp [apply_ite State.pending, apply_ite State.ram]

theorem execJoinGo_keeps (s : State) :
    ∀ t', execJoinGo s = .next t' → t'.pending = s.pending ∧ t'.ram = s.ram := by
  intro t h; simp only [execJoinGo, within_next] at h; obtain ⟨-, rfl⟩ := h; simp

theorem execJoinAdmit_keeps (p : Nat) (c : Cue) (s : State) :
    ∀ t', execJoinAdmit p c s = .next t' → t'.pending = s.pending ∧ t'.ram = s.ram := by
  intro t h; simp only [execJoinAdmit, within_next] at h; obtain ⟨-, rfl⟩ := h; simp [apply_ite State.pending, apply_ite State.ram]

theorem execJoinRefuse_keeps (p : Nat) (c : Cue) (s : State) :
    ∀ t', execJoinRefuse p c s = .next t' → t'.pending = s.pending ∧ t'.ram = s.ram := by
  intro t h; simp only [execJoinRefuse, within_next] at h; obtain ⟨-, rfl⟩ := h; simp [apply_ite State.pending, apply_ite State.ram]

theorem execJoinEntryExpiry_keeps (m : Nat) (s : State) :
    ∀ t', execJoinEntryExpiry m s = .next t' → t'.pending = s.pending ∧ t'.ram = s.ram := by
  intro t h; simp only [execJoinEntryExpiry, within_next] at h; obtain ⟨-, rfl⟩ := h
  (repeat' split) <;> simp [apply_ite State.pending, apply_ite State.ram]

end Sys2Proof.Machine
end

