-- ==== Sys2Proof/Laws/Exec.lean ====
section
/-!
SUPPORT. What every command and every step leave alone: the queue of waiting commands, and the canonical form of memory.
-/
namespace Sys2Proof.Machine

/-- A command that leaves memory alone keeps its canonical form. -/
theorem keeps_of_ram {s t : State} (h : t.pending = s.pending ∧ t.ram = s.ram) :
    t.pending = s.pending ∧ (s.ram.wf = true → t.ram.wf = true) := ⟨h.1, fun hw => h.2 ▸ hw⟩

/-- Every command that answers a next state leaves the queue of commands alone and keeps memory in canonical form. -/
theorem exec_keeps (i : Instr) (s t : State) (h : exec i s = .next t) :
    t.pending = s.pending ∧ (s.ram.wf = true → t.ram.wf = true) := by
  cases i with
  | referenceLoss _ => exact keeps_of_ram (execReferenceLoss_keeps _ _ _ h)
  | downbeatPulse _ _ => exact keeps_of_ram (execDownbeatPulse_keeps _ _ _ _ h)
  | dbDisplaced => exact execDbDisplaced_keeps _ _ h
  | downbeatMissing => exact keeps_of_ram (execDownbeatMissing_keeps _ _ h)
  | timecodeFrame _ => exact execTimecodeFrame_keeps _ _ _ h
  | downbeat => exact execDownbeat_keeps _ _ h
  | holdoverLimit => exact execHoldoverLimit_keeps _ _ h
  | tactCtrlWrite _ _ => exact keeps_of_ram (execTactCtrlWrite_keeps _ _ _ _ h)
  | tailSlotTx _ _ => exact keeps_of_ram (execTailSlotTx_keeps _ _ _ _ h)
  | tailSlotRx _ _ _ _ => exact execTailSlotRx_keeps _ _ _ _ _ _ h
  | slotRx _ _ _ _ => exact execSlotRx_keeps _ _ _ _ _ _ h
  | outOfStep _ => exact execOutOfStep_keeps _ _ _ h
  | portDownbeat _ => exact keeps_of_ram (execPortDownbeat_keeps _ _ _ h)
  | trainingDone _ => exact keeps_of_ram (execTrainingDone_keeps _ _ _ h)
  | portAlign _ _ _ _ => exact execPortAlign_keeps _ _ _ _ _ _ h
  | framingTimeout _ => exact keeps_of_ram (execFramingTimeout_keeps _ _ _ h)
  | portDown _ _ => exact execPortDown_keeps _ _ _ _ h
  | portRetrain _ => exact keeps_of_ram (execPortRetrain_keeps _ _ _ h)
  | slotTx _ => exact execSlotTx_keeps _ _ _ h
  | slotRelease _ => exact execSlotRelease_keeps _ _ _ h
  | cueMessage _ => exact execCueMessage_keeps _ _ _ h
  | rollCall _ _ => exact keeps_of_ram (execRollCall_keeps _ _ _ _ h)
  | here _ _ => exact keeps_of_ram (execHere_keeps _ _ _ _ h)
  | hold _ _ => exact keeps_of_ram (execHold_keeps _ _ _ _ h)
  | bankWrite _ _ _ _ => exact keeps_of_ram (execBankWrite_keeps _ _ _ _ _ _ h)
  | scoreLoad => exact keeps_of_ram (execScoreLoad_keeps _ _ h)
  | scoreDiscard => exact keeps_of_ram (execScoreDiscard_keeps _ _ h)
  | loadCheckDone => exact keeps_of_ram (execLoadCheckDone_keeps _ _ h)
  | scrTargetWrite _ => exact keeps_of_ram (execScrTargetWrite_keeps _ _ _ h)
  | scoreSwitch => exact execScoreSwitch_keeps _ _ h
  | rootstockRelease => exact keeps_of_ram (execRootstockRelease_keeps _ _ h)
  | flitHop _ _ _ _ _ => exact execFlitHop_keeps _ _ _ _ _ _ _ h
  | flitDeliver _ _ _ => exact execFlitDeliver_keeps _ _ _ _ _ h
  | memoryRead _ _ _ => exact execMemoryRead_keeps _ _ _ _ _ h
  | memoryWrite _ _ _ => exact execMemoryWrite_keeps _ _ _ _ _ h
  | pageLockGrant _ => exact execPageLockGrant_keeps _ _ _ h
  | pageService _ => exact execPageService_keeps _ _ _ h
  | pageDecode _ => exact execPageDecode_keeps _ _ _ h
  | rmwWriteDone _ => exact keeps_of_ram (execRmwWriteDone_keeps _ _ _ h)
  | scrubRead _ => exact execScrubRead_keeps _ _ _ h
  | recodeStart _ => exact keeps_of_ram (execRecodeStart_keeps _ _ _ h)
  | recodePage => exact execRecodePage_keeps _ _ h
  | leaseAccount => exact keeps_of_ram (execLeaseAccount_keeps _ _ h)
  | leaseBreach _ => exact keeps_of_ram (execLeaseBreach_keeps _ _ _ h)
  | leaseBreachEnd _ => exact keeps_of_ram (execLeaseBreachEnd_keeps _ _ _ h)
  | regionAttrWrite _ _ => exact keeps_of_ram (execRegionAttrWrite_keeps _ _ _ _ h)
  | regionBoundWrite _ _ _ => exact keeps_of_ram (execRegionBoundWrite_keeps _ _ _ _ _ h)
  | poisonQuery _ => exact keeps_of_ram (execPoisonQuery_keeps _ _ _ h)
  | injectArm _ => exact keeps_of_ram (execInjectArm_keeps _ _ _ h)
  | cxlLinkLost _ => exact execCxlLinkLost_keeps _ _ _ h
  | doorbell _ _ => exact execDoorbell_keeps _ _ _ _ h
  | commandFetch _ => exact execCommandFetch_keeps _ _ _ h
  | commandComplete _ _ => exact execCommandComplete_keeps _ _ _ _ h
  | qCtrlEnable _ _ => exact execQCtrlEnable_keeps _ _ _ _ h
  | qCtrlDisable _ _ => exact execQCtrlDisable_keeps _ _ _ _ h
  | qCtrlSuspend _ _ => exact execQCtrlSuspend_keeps _ _ _ _ h
  | qCtrlResume _ _ => exact execQCtrlResume_keeps _ _ _ _ h
  | qCtrlReset _ _ => exact execQCtrlReset_keeps _ _ _ _ h
  | qFetchWrite _ _ => exact keeps_of_ram (execQFetchWrite_keeps _ _ _ _ h)
  | qWatchdogWrite _ _ => exact keeps_of_ram (execQWatchdogWrite_keeps _ _ _ _ h)
  | crCtrlEnable _ => exact keeps_of_ram (execCrCtrlEnable_keeps _ _ _ h)
  | crCtrlDisable _ => exact keeps_of_ram (execCrCtrlDisable_keeps _ _ _ h)
  | crHeadWrite _ _ => exact keeps_of_ram (execCrHeadWrite_keeps _ _ _ _ h)
  | crIrqDelay _ => exact keeps_of_ram (execCrIrqDelay_keeps _ _ _ h)
  | nop _ => exact execNop_keeps _ _ _ h
  | jump _ => exact execJump_keeps _ _ _ h
  | loop _ => exact execLoop_keeps _ _ _ h
  | call _ => exact execCall_keeps _ _ _ h
  | ret _ => exact execRet_keeps _ _ _ h
  | halt _ => exact execHalt_keeps _ _ _ h
  | sets _ => exact execSets_keeps _ _ _ h
  | adds _ => exact execAdds_keeps _ _ _ h
  | brs _ => exact execBrs_keeps _ _ _ h
  | atBeat _ => exact execAtBeat_keeps _ _ _ h
  | atDownbeat _ => exact execAtDownbeat_keeps _ _ _ h
  | wait _ => exact execWait_keeps _ _ _ h
  | waitTimeout _ => exact execWaitTimeout_keeps _ _ _ h
  | signal _ => exact execSignal_keeps _ _ _ h
  | remoteSignal _ => exact execRemoteSignal_keeps _ _ _ h
  | arrive _ => exact execArrive_keeps _ _ _ h
  | arriveWait _ => exact execArriveWait_keeps _ _ _ h
  | arriveWaitTimeout _ => exact execArriveWaitTimeout_keeps _ _ _ h
  | fence _ => exact execFence_keeps _ _ _ h
  | fenceComplete _ => exact execFenceComplete_keeps _ _ _ h
  | copy _ => exact execCopy_keeps _ _ _ h
  | fill _ => exact execFill_keeps _ _ _ h
  | compare _ => exact execCompare_keeps _ _ _ h
  | gather _ => exact execGather_keeps _ _ _ h
  | scatter _ => exact execScatter_keeps _ _ _ h
  | bcast _ => exact execBcast_keeps _ _ _ h
  | reduce _ => exact execReduce_keeps _ _ _ h
  | harvest _ => exact execHarvest_keeps _ _ _ h
  | dbcast _ => exact execDbcast_keeps _ _ _ h
  | dreduce _ => exact execDreduce_keeps _ _ _ h
  | counts _ => exact execCounts_keeps _ _ _ h
  | loadq _ => exact execLoadq_keeps _ _ _ h
  | score _ => exact execScore_keeps _ _ _ h
  | topk _ => exact execTopk_keeps _ _ _ h
  | quant _ => exact execQuant_keeps _ _ _ h
  | dequant _ => exact execDequant_keeps _ _ _ h
  | launch _ => exact execLaunch_keeps _ _ _ h
  | launchTimeout _ _ => exact execLaunchTimeout_keeps _ _ _ _ h
  | record _ => exact execRecord_keeps _ _ _ h
  | mark _ => exact execMark_keeps _ _ _ h
  | windowReserve _ _ => exact execWindowReserve_keeps _ _ _ _ h
  | windowConfirm _ _ => exact execWindowConfirm_keeps _ _ _ _ h
  | windowRelease _ _ => exact execWindowRelease_keeps _ _ _ _ h
  | segmentRetry _ _ => exact execSegmentRetry_keeps _ _ _ _ h
  | combine _ _ _ _ => exact execCombine_keeps _ _ _ _ _ _ h
  | segmentIncomplete _ _ _ _ => exact execSegmentIncomplete_keeps _ _ _ _ _ _ h
  | retryGiveUp _ _ _ _ => exact execRetryGiveUp_keeps _ _ _ _ _ _ h
  | pitchInject _ _ => exact execPitchInject_keeps _ _ _ _ h
  | rootStagingRelease _ _ => exact keeps_of_ram (execRootStagingRelease_keeps _ _ _ _ h)
  | lateDiscard _ _ => exact keeps_of_ram (execLateDiscard_keeps _ _ _ _ h)
  | neighbourLost _ => exact execNeighbourLost_keeps _ _ _ h
  | memberLost _ _ => exact execMemberLost_keeps _ _ _ _ h
  | ceLostDeclare _ => exact keeps_of_ram (execCeLostDeclare_keeps _ _ _ h)
  | submit => exact execSubmit_keeps _ _ h
  | cancel => exact keeps_of_ram (execCancel_keeps _ _ h)
  | drain => exact execDrain_keeps _ _ h
  | out => exact execOut_keeps _ _ h
  | returnUnit => exact keeps_of_ram (execReturnUnit_keeps _ _ h)
  | unitQuiesced _ => exact execUnitQuiesced_keeps _ _ _ h
  | returnDone _ _ => exact execReturnDone_keeps _ _ _ _ h
  | shadowCompare _ _ => exact execShadowCompare_keeps _ _ _ _ h
  | probationPass _ => exact keeps_of_ram (execProbationPass_keeps _ _ _ h)
  | graftSlotRx _ _ => exact keeps_of_ram (execGraftSlotRx_keeps _ _ _ _ h)
  | prepare _ _ => exact keeps_of_ram (execPrepare_keeps _ _ _ _ h)
  | ack _ _ => exact keeps_of_ram (execAck_keeps _ _ _ _ h)
  | ackDeadline => exact keeps_of_ram (execAckDeadline_keeps _ _ h)
  | graftDecide => exact keeps_of_ram (execGraftDecide_keeps _ _ h)
  | commit _ _ => exact keeps_of_ram (execCommit_keeps _ _ _ _ h)
  | abort _ _ => exact keeps_of_ram (execAbort_keeps _ _ _ _ h)
  | noDecision => exact keeps_of_ram (execNoDecision_keeps _ _ h)
  | wfi _ _ => exact keeps_of_ram (execWfi_keeps _ _ _ _ h)
  | coreWake _ _ => exact keeps_of_ram (execCoreWake_keeps _ _ _ _ h)
  | olspush _ _ _ => exact execOlspush_keeps _ _ _ _ _ h
  | olsdone _ _ => exact execOlsdone_keeps _ _ _ _ h
  | olswpendClear _ _ _ => exact keeps_of_ram (execOlswpendClear_keeps _ _ _ _ _ h)
  | dmaGo _ => exact keeps_of_ram (execDmaGo_keeps _ _ _ h)
  | dmaArm _ => exact keeps_of_ram (execDmaArm_keeps _ _ _ h)
  | dmaDisarm _ => exact keeps_of_ram (execDmaDisarm_keeps _ _ _ h)
  | dmaAbort _ => exact keeps_of_ram (execDmaAbort_keeps _ _ _ h)
  | dmaClear _ => exact keeps_of_ram (execDmaClear_keeps _ _ _ h)
  | dmaChCfgWrite _ _ => exact keeps_of_ram (execDmaChCfgWrite_keeps _ _ _ _ h)
  | dmaStart _ => exact keeps_of_ram (execDmaStart_keeps _ _ _ h)
  | dmaBurst => exact execDmaBurst_keeps _ _ h
  | dmaComplete _ => exact execDmaComplete_keeps _ _ _ h
  | streamLanding _ => exact execStreamLanding_keeps _ _ _ h
  | landingSegmentDone _ _ _ => exact keeps_of_ram (execLandingSegmentDone_keeps _ _ _ _ _ h)
  | streamStall _ => exact execStreamStall_keeps _ _ _ h
  | streamEntryExpiry _ _ => exact keeps_of_ram (execStreamEntryExpiry_keeps _ _ _ _ h)
  | dmaShareWrite _ => exact keeps_of_ram (execDmaShareWrite_keeps _ _ _ h)
  | dmaLandCtrlWrite _ _ => exact keeps_of_ram (execDmaLandCtrlWrite_keeps _ _ _ _ h)
  | tallySet _ _ => exact keeps_of_ram (execTallySet_keeps _ _ _ _ h)
  | tallyCfgWrite _ _ => exact keeps_of_ram (execTallyCfgWrite_keeps _ _ _ _ h)
  | tallyRearm _ _ => exact keeps_of_ram (execTallyRearm_keeps _ _ _ _ h)
  | barrierArm _ => exact keeps_of_ram (execBarrierArm_keeps _ _ _ h)
  | barrierDisarm _ => exact keeps_of_ram (execBarrierDisarm_keeps _ _ _ h)
  | barrierRearm _ => exact keeps_of_ram (execBarrierRearm_keeps _ _ _ h)
  | wakeSrcWrite _ _ => exact keeps_of_ram (execWakeSrcWrite_keeps _ _ _ _ h)
  | wakeThreshWrite _ _ => exact keeps_of_ram (execWakeThreshWrite_keeps _ _ _ _ h)
  | wakeFire _ => exact keeps_of_ram (execWakeFire_keeps _ _ _ h)
  | remoteSignalMsg _ => exact keeps_of_ram (execRemoteSignalMsg_keeps _ _ _ h)
  | rebar _ => exact execRebar_keeps _ _ _ h
  | watchdog _ => exact execWatchdog_keeps _ _ _ h
  | deadlock => exact execDeadlock_keeps _ _ h
  | dlCfgWrite _ _ => exact keeps_of_ram (execDlCfgWrite_keeps _ _ _ _ h)
  | blockResetRelease _ => exact keeps_of_ram (execBlockResetRelease_keeps _ _ _ h)
  | shadowClose _ => exact keeps_of_ram (execShadowClose_keeps _ _ _ h)
  | recovered _ => exact keeps_of_ram (execRecovered_keeps _ _ _ h)
  | fcTgtClear _ => exact keeps_of_ram (execFcTgtClear_keeps _ _ _ h)
  | fcInject _ => exact keeps_of_ram (execFcInject_keeps _ _ _ h)
  | safeRequest _ => exact keeps_of_ram (execSafeRequest_keeps _ _ _ h)
  | mirrorSelect _ => exact keeps_of_ram (execMirrorSelect_keeps _ _ _ h)
  | lockstep _ => exact keeps_of_ram (execLockstep_keeps _ _ _ h)
  | coldReset _ => exact execColdReset_keeps _ _ _ h
  | release => exact execRelease_keeps _ _ h
  | warmReset _ => exact execWarmReset_keeps _ _ _ h
  | flr => exact execFlr_keeps _ _ h
  | pwrgdLost => exact keeps_of_ram (execPwrgdLost_keeps _ _ h)
  | joinRequest _ _ => exact keeps_of_ram (execJoinRequest_keeps _ _ _ _ h)
  | joinGo => exact keeps_of_ram (execJoinGo_keeps _ _ h)
  | joinAdmit _ _ => exact keeps_of_ram (execJoinAdmit_keeps _ _ _ _ h)
  | joinRefuse _ _ => exact keeps_of_ram (execJoinRefuse_keeps _ _ _ _ h)
  | joinEntryExpiry _ => exact keeps_of_ram (execJoinEntryExpiry_keeps _ _ _ h)
  | bar2Read _ _ => exact execBar2Read_keeps _ _ _ _ h
  | bar2Write _ _ _ => exact execBar2Write_keeps _ _ _ _ _ h
  | ptmDialog _ => exact keeps_of_ram (execPtmDialog_keeps _ _ _ h)
  | hostReadCompletion _ _ => exact execHostReadCompletion_keeps _ _ _ _ h
  | cplTimeout _ => exact execCplTimeout_keeps _ _ _ h
  | hostLinkDown => exact execHostLinkDown_keeps _ _ h
  | hostRefclkLoss => exact execHostRefclkLoss_keeps _ _ h
  | msixTableWrite _ _ => exact keeps_of_ram (execMsixTableWrite_keeps _ _ _ _ h)
  | configSpaceWrite _ => exact keeps_of_ram (execConfigSpaceWrite_keeps _ _ _ h)
  | getInfo _ => exact keeps_of_ram (execGetInfo_keeps _ _ _ h)
  | readLastgasp _ => exact keeps_of_ram (execReadLastgasp_keeps _ _ _ h)
  | clearLastgasp _ => exact keeps_of_ram (execClearLastgasp_keeps _ _ _ h)
  | readSensors _ => exact keeps_of_ram (execReadSensors_keeps _ _ _ h)
  | flashWrite _ _ _ => exact execFlashWrite_keeps _ _ _ _ _ h
  | jtagNonce _ _ => exact keeps_of_ram (execJtagNonce_keeps _ _ _ _ h)
  | jtagUnlock _ _ _ => exact keeps_of_ram (execJtagUnlock_keeps _ _ _ _ _ h)
  | advanceRollback _ => exact keeps_of_ram (execAdvanceRollback_keeps _ _ _ h)
  | revokeKey _ _ _ => exact keeps_of_ram (execRevokeKey_keeps _ _ _ _ _ h)
  | pldmFirmwareUpdate _ _ _ _ => exact keeps_of_ram (execPldmFirmwareUpdate_keeps _ _ _ _ _ _ h)
  | spdmRequest _ _ => exact keeps_of_ram (execSpdmRequest_keeps _ _ _ _ h)
  | pldmSensorRefresh _ => exact keeps_of_ram (execPldmSensorRefresh_keeps _ _ _ h)
  | mcWatchdog => exact execMcWatchdog_keeps _ _ h
  | svcAccess _ => exact execSvcAccess_keeps _ _ _ h
  | cxlRetrain _ => exact keeps_of_ram (execCxlRetrain_keeps _ _ _ h)
  | cxlRetrainTimeout _ => exact execCxlRetrainTimeout_keeps _ _ _ h
  | cxlViral _ => exact execCxlViral_keeps _ _ _ h
  | serdesPllUnlock _ => exact execSerdesPllUnlock_keeps _ _ _ h
  | corePllUnlock => exact keeps_of_ram (execCorePllUnlock_keeps _ _ h)
  | crossingErr => exact keeps_of_ram (execCrossingErr_keeps _ _ h)
  | powerSample _ => exact keeps_of_ram (execPowerSample_keeps _ _ _ h)
  | tjMax _ => exact keeps_of_ram (execTjMax_keeps _ _ _ h)
  | thermTrip => exact keeps_of_ram (execThermTrip_keeps _ _ h)
  | sensorFail _ => exact execSensorFail_keeps _ _ _ h
  | railWarn _ => exact keeps_of_ram (execRailWarn_keeps _ _ _ h)
  | railFault _ => exact keeps_of_ram (execRailFault_keeps _ _ _ h)
  | olsBlockReset _ => exact execOlsBlockReset_keeps _ _ _ h
  | vpHoldDown _ _ => exact keeps_of_ram (execVpHoldDown_keeps _ _ _ _ h)
  | ceLateRead _ _ => exact keeps_of_ram (execCeLateRead_keeps _ _ _ _ h)
  | rcRead _ _ => exact keeps_of_ram (execRcRead_keeps _ _ _ _ h)
  | registerWrite _ _ _ => exact execRegisterWrite_keeps _ _ _ _ _ h
  | vstbyUp => exact keeps_of_ram (execVstbyUp_keeps _ _ h)
  | vstbyLoss => exact keeps_of_ram (execVstbyLoss_keeps _ _ h)
  | hostLinkUp _ _ _ => exact keeps_of_ram (execHostLinkUp_keeps _ _ _ _ _ h)
  | cxlRetrainDone _ => exact keeps_of_ram (execCxlRetrainDone_keeps _ _ _ h)
  | expanderFillDone _ _ => exact execExpanderFillDone_keeps _ _ _ _ h
  | hotRefresh _ _ => exact keeps_of_ram (execHotRefresh_keeps _ _ _ _ h)
  | phyRetrain _ _ => exact keeps_of_ram (execPhyRetrain_keeps _ _ _ _ h)
  | thermTripRelease _ => exact keeps_of_ram (execThermTripRelease_keeps _ _ _ h)
  | coreReinitialised _ _ => exact keeps_of_ram (execCoreReinitialised_keeps _ _ _ _ h)
  | mctpControl _ _ => exact keeps_of_ram (execMctpControl_keeps _ _ _ _ h)
  | pldmPlatformRequest _ _ => exact keeps_of_ram (execPldmPlatformRequest_keeps _ _ _ _ h)
  | tapInstruction _ => exact keeps_of_ram (execTapInstruction_keeps _ _ _ h)

/-- A beat of the clock leaves the queue alone and keeps memory in canonical form. -/
theorem tick_wf (s : State) (hw : s.ram.wf = true) : s.tick.ram.wf = true := by simp [hw]

end Sys2Proof.Machine
end

