-- ==== Sys2Proof/Laws/Effects.lean ====
section
/-!
SUPPORT. What the shared operations of the sequencer do, once: the head leaves its queue, issues and finishes.
-/
namespace Sys2Proof
open Sys2Proof.Machine

/-- The head issues: it leaves the queue and is in flight. -/
theorem issue_eq (s : State) (q : Nat) (idx : Word) (c : BitVec 512) (h : isUnitOp (opcodeOf c) = false) :
    s.issue q idx c none = headLeft s q { tok := s.issued, idx := idx, cmd := c, since := s.now } := by
  unfold State.issue headLeft State.advance State.freshHead
  simp only [h, State.modQueue, State.queue_setQueue, State.setQueue_setQueue]
  split <;> simp

theorem headLeft_queue (s : State) (q : Nat) (x : Inflight) : (headLeft s q x).queue q = { s.queue q with
    fetch := (s.queue q).fetch + 1, fetched := (s.queue q).fetched.drop 1, progress := true
    head := if ((s.queue q).fetched.drop 1).isEmpty then none else some { since := s.now }
    inflight := (s.queue q).inflight ++ [x] } := by
  simp [headLeft, State.queue, State.setQueue]

/-- A head that writes a record completes: it is in flight with its outcome, and a failure follows ERR_POLICY. -/
theorem completeHead_eq (s : State) (q : Nat) (idx : Word) (c : BitVec 512) (d : Done)
    (h : isUnitOp (opcodeOf c) = false) (ht : ∀ y ∈ (s.queue q).inflight, y.tok ≠ s.issued) (hr : needsRecord c d = true) :
    s.completeHead q idx c d = (headDone s q idx c d).failPolicy q idx d.status := by
  unfold State.completeHead
  rw [issue_eq s q idx c h]
  unfold State.finish
  rw [headLeft_queue]
  have hf : ((s.queue q).inflight ++ [({ tok := s.issued, idx := idx, cmd := c, since := s.now } : Inflight)]).find?
      (fun x => x.tok == s.issued && x.done.isNone) = some { tok := s.issued, idx := idx, cmd := c, since := s.now } := by
    rw [List.find?_append, List.find?_eq_none.2]
    · simp
    · intro y hy; simp [ht y hy]
  have hm : ∀ d' : Done, (((s.queue q).inflight ++ [({ tok := s.issued, idx := idx, cmd := c, since := s.now } : Inflight)]).map
      fun z => if z.tok == s.issued then { z with done := some d' } else z)
      = (s.queue q).inflight ++ [{ tok := s.issued, idx := idx, cmd := c, since := s.now, done := some d' }] := by
    intro d'
    rw [List.map_append]
    congr 1
    · conv_rhs => rw [← List.map_id (s.queue q).inflight]
      apply List.map_congr_left
      intro y hy; simp [ht y hy]
    · simp
  simp only [hf]
  congr 1
  unfold State.modQueue
  rw [headLeft_queue]
  simp only [hm]
  unfold headDone headLeft
  simp [State.setQueue]
  exact fun hc => absurd (hr.symm.trans hc) (by decide)

/-- A head that completes with a status of the success class. -/
theorem completeHead_ok (s : State) (q : Nat) (idx : Word) (c : BitVec 512) (d : Done)
    (h : isUnitOp (opcodeOf c) = false) (ht : ∀ y ∈ (s.queue q).inflight, y.tok ≠ s.issued) (hr : needsRecord c d = true)
    (hs : St.success d.status = true) : s.completeHead q idx c d = headDone s q idx c d := by
  rw [completeHead_eq s q idx c d h ht hr, State.failPolicy, hs, Bool.true_or, if_pos rfl]

/-- The row of opcode `op` meets the command at the head. -/
theorem runHead_open {s : State} {q op : Nat} {idx : Word} {c : BitVec 512} (check : State → BitVec 512 → Option (Nat × Nat))
    (run : State → Word → BitVec 512 → State) (h : s.viewHead q = .open_ idx c) (ho : opcodeOf c = op) (hc : check s c = none) :
    s.runHead q op check run = run s idx c := by
  unfold State.runHead
  rw [h]
  simp [ho, hc]

theorem rec_ok (c : BitVec 512) (d : Done) (h : quietOf c = false) : needsRecord c d = true := by simp [needsRecord, h]

theorem completeOk_head {s : State} {q : Nat} {idx : Word} {c : BitVec 512} (h : AtHead s q idx c) (hu : isUnitOp (opcodeOf c) = false) :
   s.completeOk q idx c = headDone s q idx c { status := St.ok } :=
  completeHead_ok s q idx c _ hu h.2.2 (rec_ok c _ h.2.1) rfl

@[simp] theorem headLeft_frames (s : State) (q : Nat) (x : Inflight) : (headLeft s q x).now = s.now ∧ (headLeft s q x).issued = s.issued + 1 := by simp [headLeft]

theorem headDone_queue (s : State) (q : Nat) (idx) (c) (d) : (headDone s q idx c d).queue q = (headLeft s q { tok := s.issued, idx := idx, cmd := c, since := s.now, done := some { d with order := s.finished } }).queue q := rfl

theorem viewHead_running {s : State} {q : Nat} {idx : Word} {c : BitVec 512} (h : s.viewHead q = .open_ idx c) : s.released = true ∧ (s.queue q).state = .running := by
  unfold State.viewHead at h
  by_cases h1 : s.released = true <;> by_cases h2 : (s.queue q).state = .running <;> simp_all

theorem exec_of {i : Instr} {s t : State} {b : State} (e : Machine.exec i s = within i.wf b) (hw : i.wf = true) (hb : b = t) : Machine.exec i s = .next t := by
  rw [e, within, if_pos hw, hb]


end Sys2Proof
end

