-- ==== Sys2Proof/Laws/PerInstr.lean ====
section
/-!
SUPPORT. One lemma per command: the operands of a well-formed command lie within what the engine has.
-/
namespace Sys2Proof.Laws.Index
open Sys2Proof Sys2Proof.Machine

/-- The operands of a command that name a port, queue, ring, unit, controller, object or offset, each with the number of
those that the engine has (R11, R199, R220, R370, R397, R405, R412, Tables REG-14 and FLT-4). -/
def named : Instr → List (Nat × Nat)
  | .referenceLoss _ => []
  | .downbeatPulse _ _ => []
  | .dbDisplaced => []
  | .downbeatMissing => []
  | .timecodeFrame _ => []
  | .downbeat => []
  | .holdoverLimit => []
  | .tactCtrlWrite _ _ => []
  | .tailSlotTx p _ => [(p, 16)]
  | .tailSlotRx p _ _ _ => [(p, 16)]
  | .slotRx p _ _ _ => [(p, 16)]
  | .outOfStep p => [(p, 16)]
  | .portDownbeat p => [(p, 16)]
  | .trainingDone p => [(p, 16)]
  | .portAlign p _ _ _ => [(p, 16)]
  | .framingTimeout p => [(p, 16)]
  | .portDown p _ => [(p, 16)]
  | .portRetrain p => [(p, 16)]
  | .slotTx p => [(p, 16)]
  | .slotRelease p => [(p, 16)]
  | .cueMessage p => [(p, 16)]
  | .rollCall p _ => [(p, 16)]
  | .here p _ => [(p, 16)]
  | .hold p _ => [(p, 16)]
  | .bankWrite bank off _ _ => [(bank, 2), (off, 0x100000)]
  | .scoreLoad => []
  | .scoreDiscard => []
  | .loadCheckDone => []
  | .scrTargetWrite _ => []
  | .scoreSwitch => []
  | .rootstockRelease => []
  | .flitHop r _ _ cycle _ => [(r, 64), (cycle, 20)]
  | .flitDeliver r _ _ => [(r, 64)]
  | .memoryRead _ _ _ => []
  | .memoryWrite _ _ _ => []
  | .pageLockGrant k => [(k, 12)]
  | .pageService k => [(k, 12)]
  | .pageDecode k => [(k, 12)]
  | .rmwWriteDone k => [(k, 12)]
  | .scrubRead k => [(k, 12)]
  | .recodeStart _ => []
  | .recodePage => []
  | .leaseAccount => []
  | .leaseBreach k => [(k, 12)]
  | .leaseBreachEnd k => [(k, 12)]
  | .regionAttrWrite n _ => [(n, 16)]
  | .regionBoundWrite n _ _ => [(n, 16)]
  | .poisonQuery _ => []
  | .injectArm _ => []
  | .cxlLinkLost j => [(j, 4)]
  | .doorbell q _ => [(q, 256)]
  | .commandFetch q => [(q, 256)]
  | .commandComplete q _ => [(q, 256)]
  | .qCtrlEnable q _ => [(q, 256)]
  | .qCtrlDisable q _ => [(q, 256)]
  | .qCtrlSuspend q _ => [(q, 256)]
  | .qCtrlResume q _ => [(q, 256)]
  | .qCtrlReset q _ => [(q, 256)]
  | .qFetchWrite q _ => [(q, 256)]
  | .qWatchdogWrite q _ => [(q, 256)]
  | .crCtrlEnable r => [(r, 64)]
  | .crCtrlDisable r => [(r, 64)]
  | .crHeadWrite r _ => [(r, 64)]
  | .crIrqDelay r => [(r, 64)]
  | .nop q => [(q, 256)]
  | .jump q => [(q, 256)]
  | .loop q => [(q, 256)]
  | .call q => [(q, 256)]
  | .ret q => [(q, 256)]
  | .halt q => [(q, 256)]
  | .sets q => [(q, 256)]
  | .adds q => [(q, 256)]
  | .brs q => [(q, 256)]
  | .atBeat q => [(q, 256)]
  | .atDownbeat q => [(q, 256)]
  | .wait q => [(q, 256)]
  | .waitTimeout q => [(q, 256)]
  | .signal q => [(q, 256)]
  | .remoteSignal q => [(q, 256)]
  | .arrive q => [(q, 256)]
  | .arriveWait q => [(q, 256)]
  | .arriveWaitTimeout q => [(q, 256)]
  | .fence q => [(q, 256)]
  | .fenceComplete q => [(q, 256)]
  | .copy q => [(q, 256)]
  | .fill q => [(q, 256)]
  | .compare q => [(q, 256)]
  | .gather q => [(q, 256)]
  | .scatter q => [(q, 256)]
  | .bcast q => [(q, 256)]
  | .reduce q => [(q, 256)]
  | .harvest q => [(q, 256)]
  | .dbcast q => [(q, 256)]
  | .dreduce q => [(q, 256)]
  | .counts q => [(q, 256)]
  | .loadq q => [(q, 256)]
  | .score q => [(q, 256)]
  | .topk q => [(q, 256)]
  | .quant q => [(q, 256)]
  | .dequant q => [(q, 256)]
  | .launch q => [(q, 256)]
  | .launchTimeout q _ => [(q, 256)]
  | .record q => [(q, 256)]
  | .mark q => [(q, 256)]
  | .windowReserve p _ => [(p, 16)]
  | .windowConfirm p _ => [(p, 16)]
  | .windowRelease p _ => [(p, 16)]
  | .segmentRetry p _ => [(p, 16)]
  | .combine part optag _ _ => [(part, 256), (optag, 4096)]
  | .segmentIncomplete part optag _ _ => [(part, 256), (optag, 4096)]
  | .retryGiveUp part optag _ _ => [(part, 256), (optag, 4096)]
  | .pitchInject part optag => [(part, 256), (optag, 4096)]
  | .rootStagingRelease part optag => [(part, 256), (optag, 4096)]
  | .lateDiscard dtree optag => [(dtree, 64), (optag, 4096)]
  | .neighbourLost x => [(x, 1024)]
  | .memberLost p _ => [(p, 16)]
  | .ceLostDeclare _ => []
  | .submit => []
  | .cancel => []
  | .drain => []
  | .out => []
  | .returnUnit => []
  | .unitQuiesced i => [(i, 49)]
  | .returnDone i _ => [(i, 49)]
  | .shadowCompare i _ => [(i, 49)]
  | .probationPass i => [(i, 49)]
  | .graftSlotRx p _ => [(p, 16)]
  | .prepare p _ => [(p, 16)]
  | .ack p _ => [(p, 16)]
  | .ackDeadline => []
  | .graftDecide => []
  | .commit p _ => [(p, 16)]
  | .abort p _ => [(p, 16)]
  | .noDecision => []
  | .wfi cl core => [(cl, 8), (core, 8)]
  | .coreWake cl core => [(cl, 8), (core, 8)]
  | .olspush cl core _ => [(cl, 8), (core, 8)]
  | .olsdone cl core => [(cl, 8), (core, 8)]
  | .olswpendClear cl core _ => [(cl, 8), (core, 8)]
  | .dmaGo ch => [(ch, 64)]
  | .dmaArm ch => [(ch, 64)]
  | .dmaDisarm ch => [(ch, 64)]
  | .dmaAbort ch => [(ch, 64)]
  | .dmaClear ch => [(ch, 64)]
  | .dmaChCfgWrite ch _ => [(ch, 64)]
  | .dmaStart ch => [(ch, 64)]
  | .dmaBurst => []
  | .dmaComplete ch => [(ch, 64)]
  | .streamLanding p => [(p, 16)]
  | .landingSegmentDone source optag seg => [(source, 1024), (optag, 4096), (seg, 65536)]
  | .streamStall ch => [(ch, 64)]
  | .streamEntryExpiry source optag => [(source, 1024), (optag, 4096)]
  | .dmaShareWrite _ => []
  | .dmaLandCtrlWrite w _ => [(w, 64)]
  | .tallySet t _ => [(t, 4096)]
  | .tallyCfgWrite t _ => [(t, 4096)]
  | .tallyRearm t _ => [(t, 4096)]
  | .barrierArm b => [(b, 64)]
  | .barrierDisarm b => [(b, 64)]
  | .barrierRearm b => [(b, 64)]
  | .wakeSrcWrite w _ => [(w, 64)]
  | .wakeThreshWrite w _ => [(w, 64)]
  | .wakeFire _ => []
  | .remoteSignalMsg _ => []
  | .rebar _ => []
  | .watchdog q => [(q, 256)]
  | .deadlock => []
  | .dlCfgWrite _ _ => []
  | .blockResetRelease i => [(i, 48)]
  | .shadowClose i => [(i, 48)]
  | .recovered t => [(t, 384)]
  | .fcTgtClear t => [(t, 384)]
  | .fcInject _ => []
  | .safeRequest _ => []
  | .mirrorSelect _ => []
  | .lockstep _ => []
  | .coldReset _ => []
  | .release => []
  | .warmReset _ => []
  | .flr => []
  | .pwrgdLost => []
  | .joinRequest p _ => [(p, 16)]
  | .joinGo => []
  | .joinAdmit p _ => [(p, 16)]
  | .joinRefuse p _ => [(p, 16)]
  | .joinEntryExpiry m => [(m, 1024)]
  | .bar2Read _ _ => []
  | .bar2Write _ _ _ => []
  | .ptmDialog _ => []
  | .hostReadCompletion _ _ => []
  | .cplTimeout _ => []
  | .hostLinkDown => []
  | .hostRefclkLoss => []
  | .msixTableWrite off _ => [(off, 0x8000)]
  | .configSpaceWrite _ => []
  | .getInfo _ => []
  | .readLastgasp _ => []
  | .clearLastgasp _ => []
  | .readSensors _ => []
  | .flashWrite _ _ _ => []
  | .jtagNonce _ _ => []
  | .jtagUnlock _ _ _ => []
  | .advanceRollback _ => []
  | .revokeKey _ _ _ => []
  | .pldmFirmwareUpdate _ _ _ _ => []
  | .spdmRequest _ _ => []
  | .pldmSensorRefresh _ => []
  | .mcWatchdog => []
  | .svcAccess _ => []
  | .cxlRetrain j => [(j, 4)]
  | .cxlRetrainTimeout j => [(j, 4)]
  | .cxlViral j => [(j, 4)]
  | .serdesPllUnlock p => [(p, 16)]
  | .corePllUnlock => []
  | .crossingErr => []
  | .powerSample _ => []
  | .tjMax _ => []
  | .thermTrip => []
  | .sensorFail id => [(id, 72)]
  | .railWarn rail => [(rail, 6)]
  | .railFault rail => [(rail, 6)]
  | .olsBlockReset _ => []
  | .vpHoldDown p _ => [(p, 16)]
  | .ceLateRead c _ => [(c, 4)]
  | .rcRead off _ => [(off, 0x1000000)]
  | .registerWrite off _ _ => [(off, 0x1000000)]
  | .vstbyUp => []
  | .vstbyLoss => []
  | .hostLinkUp _ _ _ => []
  | .cxlRetrainDone j => [(j, 4)]
  | .expanderFillDone j _ => [(j, 4)]
  | .hotRefresh k _ => [(k, 8)]
  | .phyRetrain slice _ => [(slice, 32)]
  | .thermTripRelease _ => []
  | .coreReinitialised cl core => [(cl, 8), (core, 8)]
  | .mctpControl _ _ => []
  | .pldmPlatformRequest _ _ => []
  | .tapInstruction ir => [(ir, 256)]

/-- Whatever a well-formed command names, the engine has. -/
def Statement (i : Instr) : Prop := i.wf = true → ∀ x ∈ named i, x.1 < x.2

/-- A command that names nothing. -/
theorem nothing {i : Instr} (h : named i = []) : Statement i := by simp [Statement, h]

/-- A command that names one thing. -/
theorem one {i : Instr} {n m : Nat} (h : named i = [(n, m)]) (w : i.wf = decide (n < m)) : Statement i := by
  simp [Statement, h, w]

/-- A command that names one thing and is checked once more. -/
theorem oneAnd {i : Instr} {n m : Nat} {r : Bool} (h : named i = [(n, m)]) (w : i.wf = (decide (n < m) && r)) : Statement i := by
  simp only [Statement, h, w, Bool.and_eq_true, decide_eq_true_eq, List.mem_singleton, forall_eq]
  exact fun x => x.1

/-- A command that names one thing and is checked twice more. -/
theorem oneAndTwo {i : Instr} {n m : Nat} {r r' : Bool} (h : named i = [(n, m)]) (w : i.wf = (decide (n < m) && r && r')) :
    Statement i :=
  oneAnd (r := r && r') h (by rw [w, Bool.and_assoc])

/-- A command that names one thing, which one of two checks admits. -/
theorem oneOf {i : Instr} {n m : Nat} (h : named i = [(n, m)]) (w : i.wf = true → n < m) : Statement i := by
  simpa [Statement, h] using w

/-- A command that names two things. -/
theorem two {i : Instr} {n m n' m' : Nat} (h : named i = [(n, m), (n', m')])
    (w : i.wf = (decide (n < m) && decide (n' < m'))) : Statement i := by
  simp [Statement, h, w]

/-- A command that names two things and is checked otherwise as well. -/
theorem twoOf {i : Instr} {n m n' m' : Nat} (h : named i = [(n, m), (n', m')]) (w : i.wf = true → n < m ∧ n' < m') :
    Statement i := by
  simpa [Statement, h] using w

/-- A command that names three things. -/
theorem three {i : Instr} {a b c d e f : Nat} (h : named i = [(a, b), (c, d), (e, f)])
    (w : i.wf = (decide (a < b) && decide (c < d) && decide (e < f))) : Statement i := by
  simp [Statement, h, w, and_assoc]

theorem referenceLoss (lanes : Bool) : Statement (.referenceLoss lanes) := nothing rfl
theorem downbeatPulse (offset : Int) (phase : Int) : Statement (.downbeatPulse offset phase) := nothing rfl
theorem dbDisplaced : Statement (.dbDisplaced) := nothing rfl
theorem downbeatMissing : Statement (.downbeatMissing) := nothing rfl
theorem timecodeFrame (f : Timecode) : Statement (.timecodeFrame f) := nothing rfl
theorem downbeat : Statement (.downbeat) := nothing rfl
theorem holdoverLimit : Statement (.holdoverLimit) := nothing rfl
theorem tactCtrlWrite (epoch : Bool) (v : DWord) : Statement (.tactCtrlWrite epoch v) := nothing rfl
theorem tailSlotTx (p : Nat) (frac : Nat) : Statement (.tailSlotTx p frac) := one rfl rfl
theorem tailSlotRx (p : Nat) (code : Option (Nat × List Byte)) (arrival : DWord) (phase : Int) : Statement (.tailSlotRx p code arrival phase) := oneAnd rfl rfl
theorem slotRx (p : Nat) (code : Option (Nat × List Byte)) (corr : List Nat) (phase : Int) : Statement (.slotRx p code corr phase) := oneAndTwo rfl rfl
theorem outOfStep (p : Nat) : Statement (.outOfStep p) := one rfl rfl
theorem portDownbeat (p : Nat) : Statement (.portDownbeat p) := one rfl rfl
theorem trainingDone (p : Nat) : Statement (.trainingDone p) := one rfl rfl
theorem portAlign (p : Nat) (spacing : List Nat) (skew : Nat) (phase : Int) : Statement (.portAlign p spacing skew phase) := one rfl rfl
theorem framingTimeout (p : Nat) : Statement (.framingTimeout p) := one rfl rfl
theorem portDown (p : Nat) (signal : Bool) : Statement (.portDown p signal) := one rfl rfl
theorem portRetrain (p : Nat) : Statement (.portRetrain p) := one rfl rfl
theorem slotTx (p : Nat) : Statement (.slotTx p) := one rfl rfl
theorem slotRelease (p : Nat) : Statement (.slotRelease p) := one rfl rfl
theorem cueMessage (p : Nat) : Statement (.cueMessage p) := one rfl rfl
theorem rollCall (p : Nat) (c : Cue) : Statement (.rollCall p c) := oneAnd rfl rfl
theorem here (p : Nat) (c : Cue) : Statement (.here p c) := oneAnd rfl rfl
theorem hold (p : Nat) (c : Cue) : Statement (.hold p c) := oneAnd rfl rfl
theorem bankWrite (bank off len : Nat) (v : DWord) : Statement (.bankWrite bank off len v) := twoOf rfl fun h => by simp only [Instr.wf, Bool.and_eq_true, decide_eq_true_eq] at h; omega
theorem scoreLoad : Statement (.scoreLoad) := nothing rfl
theorem scoreDiscard : Statement (.scoreDiscard) := nothing rfl
theorem loadCheckDone : Statement (.loadCheckDone) := nothing rfl
theorem scrTargetWrite (v : DWord) : Statement (.scrTargetWrite v) := nothing rfl
theorem scoreSwitch : Statement (.scoreSwitch) := nothing rfl
theorem rootstockRelease : Statement (.rootstockRelease) := nothing rfl
theorem flitHop (r : Nat) (input : Link) (inject : Option Flit) (cycle : Nat) (err : FlitError) : Statement (.flitHop r input inject cycle err) := twoOf rfl fun h => by simp only [Instr.wf, okRouter, Bool.and_eq_true, decide_eq_true_eq] at h; omega
theorem flitDeliver (r : Nat) (l : Link) (err : FlitError) : Statement (.flitDeliver r l err) := one rfl rfl
theorem memoryRead (who : Requester) (addr len : Nat) : Statement (.memoryRead who addr len) := nothing rfl
theorem memoryWrite (who : Requester) (addr : Nat) (data : List Byte) : Statement (.memoryWrite who addr data) := nothing rfl
theorem pageLockGrant (k : Nat) : Statement (.pageLockGrant k) := one rfl rfl
theorem pageService (k : Nat) : Statement (.pageService k) := one rfl rfl
theorem pageDecode (k : Nat) : Statement (.pageDecode k) := one rfl rfl
theorem rmwWriteDone (k : Nat) : Statement (.rmwWriteDone k) := one rfl rfl
theorem scrubRead (k : Nat) : Statement (.scrubRead k) := one rfl rfl
theorem recodeStart (v : Word) : Statement (.recodeStart v) := nothing rfl
theorem recodePage : Statement (.recodePage) := nothing rfl
theorem leaseAccount : Statement (.leaseAccount) := nothing rfl
theorem leaseBreach (k : Nat) : Statement (.leaseBreach k) := one rfl rfl
theorem leaseBreachEnd (k : Nat) : Statement (.leaseBreachEnd k) := one rfl rfl
theorem regionAttrWrite (n : Nat) (v : Word) : Statement (.regionAttrWrite n v) := one rfl rfl
theorem regionBoundWrite (n : Nat) (limit : Bool) (v : DWord) : Statement (.regionBoundWrite n limit v) := one rfl rfl
theorem poisonQuery (v : DWord) : Statement (.poisonQuery v) := nothing rfl
theorem injectArm (v : DWord) : Statement (.injectArm v) := nothing rfl
theorem cxlLinkLost (j : Nat) : Statement (.cxlLinkLost j) := one rfl rfl
theorem doorbell (q : Nat) (v : Word) : Statement (.doorbell q v) := one rfl rfl
theorem commandFetch (q : Nat) : Statement (.commandFetch q) := one rfl rfl
theorem commandComplete (q : Nat) (idx : Word) : Statement (.commandComplete q idx) := one rfl rfl
theorem qCtrlEnable (q : Nat) (v : Word) : Statement (.qCtrlEnable q v) := one rfl rfl
theorem qCtrlDisable (q : Nat) (v : Word) : Statement (.qCtrlDisable q v) := one rfl rfl
theorem qCtrlSuspend (q : Nat) (v : Word) : Statement (.qCtrlSuspend q v) := one rfl rfl
theorem qCtrlResume (q : Nat) (v : Word) : Statement (.qCtrlResume q v) := one rfl rfl
theorem qCtrlReset (q : Nat) (v : Word) : Statement (.qCtrlReset q v) := one rfl rfl
theorem qFetchWrite (q : Nat) (v : Word) : Statement (.qFetchWrite q v) := one rfl rfl
theorem qWatchdogWrite (q : Nat) (v : Word) : Statement (.qWatchdogWrite q v) := one rfl rfl
theorem crCtrlEnable (r : Nat) : Statement (.crCtrlEnable r) := one rfl rfl
theorem crCtrlDisable (r : Nat) : Statement (.crCtrlDisable r) := one rfl rfl
theorem crHeadWrite (r : Nat) (v : Word) : Statement (.crHeadWrite r v) := one rfl rfl
theorem crIrqDelay (r : Nat) : Statement (.crIrqDelay r) := one rfl rfl
theorem nop (q : Nat) : Statement (.nop q) := one rfl rfl
theorem jump (q : Nat) : Statement (.jump q) := one rfl rfl
theorem loop (q : Nat) : Statement (.loop q) := one rfl rfl
theorem call (q : Nat) : Statement (.call q) := one rfl rfl
theorem ret (q : Nat) : Statement (.ret q) := one rfl rfl
theorem halt (q : Nat) : Statement (.halt q) := one rfl rfl
theorem sets (q : Nat) : Statement (.sets q) := one rfl rfl
theorem adds (q : Nat) : Statement (.adds q) := one rfl rfl
theorem brs (q : Nat) : Statement (.brs q) := one rfl rfl
theorem atBeat (q : Nat) : Statement (.atBeat q) := one rfl rfl
theorem atDownbeat (q : Nat) : Statement (.atDownbeat q) := one rfl rfl
theorem wait (q : Nat) : Statement (.wait q) := one rfl rfl
theorem waitTimeout (q : Nat) : Statement (.waitTimeout q) := one rfl rfl
theorem signal (q : Nat) : Statement (.signal q) := one rfl rfl
theorem remoteSignal (q : Nat) : Statement (.remoteSignal q) := one rfl rfl
theorem arrive (q : Nat) : Statement (.arrive q) := one rfl rfl
theorem arriveWait (q : Nat) : Statement (.arriveWait q) := one rfl rfl
theorem arriveWaitTimeout (q : Nat) : Statement (.arriveWaitTimeout q) := one rfl rfl
theorem fence (q : Nat) : Statement (.fence q) := one rfl rfl
theorem fenceComplete (q : Nat) : Statement (.fenceComplete q) := one rfl rfl
theorem copy (q : Nat) : Statement (.copy q) := one rfl rfl
theorem fill (q : Nat) : Statement (.fill q) := one rfl rfl
theorem compare (q : Nat) : Statement (.compare q) := one rfl rfl
theorem gather (q : Nat) : Statement (.gather q) := one rfl rfl
theorem scatter (q : Nat) : Statement (.scatter q) := one rfl rfl
theorem bcast (q : Nat) : Statement (.bcast q) := one rfl rfl
theorem reduce (q : Nat) : Statement (.reduce q) := one rfl rfl
theorem harvest (q : Nat) : Statement (.harvest q) := one rfl rfl
theorem dbcast (q : Nat) : Statement (.dbcast q) := one rfl rfl
theorem dreduce (q : Nat) : Statement (.dreduce q) := one rfl rfl
theorem counts (q : Nat) : Statement (.counts q) := one rfl rfl
theorem loadq (q : Nat) : Statement (.loadq q) := one rfl rfl
theorem score (q : Nat) : Statement (.score q) := one rfl rfl
theorem topk (q : Nat) : Statement (.topk q) := one rfl rfl
theorem quant (q : Nat) : Statement (.quant q) := one rfl rfl
theorem dequant (q : Nat) : Statement (.dequant q) := one rfl rfl
theorem launch (q : Nat) : Statement (.launch q) := one rfl rfl
theorem launchTimeout (q : Nat) (idx : Word) : Statement (.launchTimeout q idx) := one rfl rfl
theorem record (q : Nat) : Statement (.record q) := one rfl rfl
theorem mark (q : Nat) : Statement (.mark q) := one rfl rfl
theorem windowReserve (p : Nat) (c : Cue) : Statement (.windowReserve p c) := oneAnd rfl rfl
theorem windowConfirm (p : Nat) (c : Cue) : Statement (.windowConfirm p c) := oneAnd rfl rfl
theorem windowRelease (p : Nat) (c : Cue) : Statement (.windowRelease p c) := oneAnd rfl rfl
theorem segmentRetry (p : Nat) (c : Cue) : Statement (.segmentRetry p c) := oneAnd rfl rfl
theorem combine (part optag seg : Nat) (adderFault : Bool) : Statement (.combine part optag seg adderFault) := two rfl rfl
theorem segmentIncomplete (part optag input seg : Nat) : Statement (.segmentIncomplete part optag input seg) := two rfl rfl
theorem retryGiveUp (part optag input seg : Nat) : Statement (.retryGiveUp part optag input seg) := two rfl rfl
theorem pitchInject (part optag : Nat) : Statement (.pitchInject part optag) := two rfl rfl
theorem rootStagingRelease (part optag : Nat) : Statement (.rootStagingRelease part optag) := two rfl rfl
theorem lateDiscard (dtree optag : Nat) : Statement (.lateDiscard dtree optag) := two rfl rfl
theorem neighbourLost (x : Nat) : Statement (.neighbourLost x) := one rfl rfl
theorem memberLost (p : Nat) (c : Cue) : Statement (.memberLost p c) := oneAnd rfl rfl
theorem ceLostDeclare (v : Word) : Statement (.ceLostDeclare v) := nothing rfl
theorem submit : Statement (.submit) := nothing rfl
theorem cancel : Statement (.cancel) := nothing rfl
theorem drain : Statement (.drain) := nothing rfl
theorem out : Statement (.out) := nothing rfl
theorem returnUnit : Statement (.returnUnit) := nothing rfl
theorem unitQuiesced (i : Nat) : Statement (.unitQuiesced i) := oneOf rfl fun h => by simp only [Instr.wf, okUnit, Bool.or_eq_true, decide_eq_true_eq] at h; omega
theorem returnDone (i : Nat) (pass : Bool) : Statement (.returnDone i pass) := oneOf rfl fun h => by simp only [Instr.wf, okUnit, Bool.or_eq_true, decide_eq_true_eq] at h; omega
theorem shadowCompare (i : Nat) (agree : Bool) : Statement (.shadowCompare i agree) := oneOf rfl fun h => by simp only [Instr.wf, okUnit, Bool.or_eq_true, decide_eq_true_eq] at h; omega
theorem probationPass (i : Nat) : Statement (.probationPass i) := oneOf rfl fun h => by simp only [Instr.wf, okUnit, Bool.or_eq_true, decide_eq_true_eq] at h; omega
theorem graftSlotRx (p : Nat) (s : Slot) : Statement (.graftSlotRx p s) := oneAnd rfl rfl
theorem prepare (p : Nat) (c : Cue) : Statement (.prepare p c) := oneAnd rfl rfl
theorem ack (p : Nat) (c : Cue) : Statement (.ack p c) := oneAnd rfl rfl
theorem ackDeadline : Statement (.ackDeadline) := nothing rfl
theorem graftDecide : Statement (.graftDecide) := nothing rfl
theorem commit (p : Nat) (c : Cue) : Statement (.commit p c) := oneAnd rfl rfl
theorem abort (p : Nat) (c : Cue) : Statement (.abort p c) := oneAnd rfl rfl
theorem noDecision : Statement (.noDecision) := nothing rfl
theorem wfi (cl core : Nat) : Statement (.wfi cl core) := two rfl rfl
theorem coreWake (cl core : Nat) : Statement (.coreWake cl core) := two rfl rfl
theorem olspush (cl core : Nat) (v : DWord) : Statement (.olspush cl core v) := two rfl rfl
theorem olsdone (cl core : Nat) : Statement (.olsdone cl core) := two rfl rfl
theorem olswpendClear (cl core : Nat) (mask : DWord) : Statement (.olswpendClear cl core mask) := two rfl rfl
theorem dmaGo (ch : Nat) : Statement (.dmaGo ch) := one rfl rfl
theorem dmaArm (ch : Nat) : Statement (.dmaArm ch) := one rfl rfl
theorem dmaDisarm (ch : Nat) : Statement (.dmaDisarm ch) := one rfl rfl
theorem dmaAbort (ch : Nat) : Statement (.dmaAbort ch) := one rfl rfl
theorem dmaClear (ch : Nat) : Statement (.dmaClear ch) := one rfl rfl
theorem dmaChCfgWrite (ch : Nat) (v : Word) : Statement (.dmaChCfgWrite ch v) := one rfl rfl
theorem dmaStart (ch : Nat) : Statement (.dmaStart ch) := one rfl rfl
theorem dmaBurst : Statement (.dmaBurst) := nothing rfl
theorem dmaComplete (ch : Nat) : Statement (.dmaComplete ch) := one rfl rfl
theorem streamLanding (p : Nat) : Statement (.streamLanding p) := one rfl rfl
theorem landingSegmentDone (source optag seg : Nat) : Statement (.landingSegmentDone source optag seg) := three rfl rfl
theorem streamStall (ch : Nat) : Statement (.streamStall ch) := one rfl rfl
theorem streamEntryExpiry (source optag : Nat) : Statement (.streamEntryExpiry source optag) := two rfl rfl
theorem dmaShareWrite (v : Word) : Statement (.dmaShareWrite v) := nothing rfl
theorem dmaLandCtrlWrite (w : Nat) (v : DWord) : Statement (.dmaLandCtrlWrite w v) := one rfl rfl
theorem tallySet (t : Nat) (v : DWord) : Statement (.tallySet t v) := one rfl rfl
theorem tallyCfgWrite (t : Nat) (v : Word) : Statement (.tallyCfgWrite t v) := one rfl rfl
theorem tallyRearm (t : Nat) (v : Word) : Statement (.tallyRearm t v) := one rfl rfl
theorem barrierArm (b : Nat) : Statement (.barrierArm b) := one rfl rfl
theorem barrierDisarm (b : Nat) : Statement (.barrierDisarm b) := one rfl rfl
theorem barrierRearm (b : Nat) : Statement (.barrierRearm b) := one rfl rfl
theorem wakeSrcWrite (w : Nat) (v : DWord) : Statement (.wakeSrcWrite w v) := one rfl rfl
theorem wakeThreshWrite (w : Nat) (v : DWord) : Statement (.wakeThreshWrite w v) := one rfl rfl
theorem wakeFire (v : DWord) : Statement (.wakeFire v) := nothing rfl
theorem remoteSignalMsg (c : Cue) : Statement (.remoteSignalMsg c) := nothing rfl
theorem rebar (c : Cue) : Statement (.rebar c) := nothing rfl
theorem watchdog (q : Nat) : Statement (.watchdog q) := one rfl rfl
theorem deadlock : Statement (.deadlock) := nothing rfl
theorem dlCfgWrite (mask : Option Nat) (v : Word) : Statement (.dlCfgWrite mask v) := nothing rfl
theorem blockResetRelease (i : Nat) : Statement (.blockResetRelease i) := one rfl rfl
theorem shadowClose (i : Nat) : Statement (.shadowClose i) := one rfl rfl
theorem recovered (t : Nat) : Statement (.recovered t) := oneOf rfl fun h => by simp only [Instr.wf, okTarget, Bool.or_eq_true, Bool.and_eq_true, decide_eq_true_eq] at h; omega
theorem fcTgtClear (t : Nat) : Statement (.fcTgtClear t) := oneOf rfl fun h => by simp only [Instr.wf, okTarget, Bool.or_eq_true, Bool.and_eq_true, decide_eq_true_eq] at h; omega
theorem fcInject (v : DWord) : Statement (.fcInject v) := nothing rfl
theorem safeRequest (v : Word) : Statement (.safeRequest v) := nothing rfl
theorem mirrorSelect (v : Word) : Statement (.mirrorSelect v) := nothing rfl
theorem lockstep (parity : Bool) : Statement (.lockstep parity) := nothing rfl
theorem coldReset (b : Boot) : Statement (.coldReset b) := nothing rfl
theorem release : Statement (.release) := nothing rfl
theorem warmReset (b : Boot) : Statement (.warmReset b) := nothing rfl
theorem flr : Statement (.flr) := nothing rfl
theorem pwrgdLost : Statement (.pwrgdLost) := nothing rfl
theorem joinRequest (p : Nat) (c : Cue) : Statement (.joinRequest p c) := oneAnd rfl rfl
theorem joinGo : Statement (.joinGo) := nothing rfl
theorem joinAdmit (p : Nat) (c : Cue) : Statement (.joinAdmit p c) := oneAnd rfl rfl
theorem joinRefuse (p : Nat) (c : Cue) : Statement (.joinRefuse p c) := oneAnd rfl rfl
theorem joinEntryExpiry (m : Nat) : Statement (.joinEntryExpiry m) := one rfl rfl
theorem bar2Read (off len : Nat) : Statement (.bar2Read off len) := nothing rfl
theorem bar2Write (off : Nat) (data : List Byte) (poisoned : Bool) : Statement (.bar2Write off data poisoned) := nothing rfl
theorem ptmDialog (time : DWord) : Statement (.ptmDialog time) := nothing rfl
theorem hostReadCompletion (id : Nat) (r : HostCpl) : Statement (.hostReadCompletion id r) := nothing rfl
theorem cplTimeout (id : Nat) : Statement (.cplTimeout id) := nothing rfl
theorem hostLinkDown : Statement (.hostLinkDown) := nothing rfl
theorem hostRefclkLoss : Statement (.hostRefclkLoss) := nothing rfl
theorem msixTableWrite (off : Nat) (v : Word) : Statement (.msixTableWrite off v) := oneAnd rfl rfl
theorem configSpaceWrite (w : CfgWrite) : Statement (.configSpaceWrite w) := nothing rfl
theorem getInfo (r : MReq) : Statement (.getInfo r) := nothing rfl
theorem readLastgasp (r : MReq) : Statement (.readLastgasp r) := nothing rfl
theorem clearLastgasp (r : MReq) : Statement (.clearLastgasp r) := nothing rfl
theorem readSensors (r : MReq) : Statement (.readSensors r) := nothing rfl
theorem flashWrite (r : MReq) (sigOk : Bool) (failAt : Option Nat) : Statement (.flashWrite r sigOk failAt) := nothing rfl
theorem jtagNonce (r : MReq) (nonce : BitVec 256) : Statement (.jtagNonce r nonce) := nothing rfl
theorem jtagUnlock (r : MReq) (keyOk sigOk : Bool) : Statement (.jtagUnlock r keyOk sigOk) := nothing rfl
theorem advanceRollback (r : MReq) : Statement (.advanceRollback r) := nothing rfl
theorem revokeKey (r : MReq) (keyOk sigOk : Bool) : Statement (.revokeKey r keyOk sigOk) := nothing rfl
theorem pldmFirmwareUpdate (object : Nat) (image : List Byte) (sigOk : Bool) (failAt : Option Nat) : Statement (.pldmFirmwareUpdate object image sigOk failAt) := nothing rfl
theorem spdmRequest (code : Nat) (body : List Byte) : Statement (.spdmRequest code body) := nothing rfl
theorem pldmSensorRefresh (readings : List (Nat × Nat)) : Statement (.pldmSensorRefresh readings) := nothing rfl
theorem mcWatchdog : Statement (.mcWatchdog) := nothing rfl
theorem svcAccess (dr : BitVec 128) : Statement (.svcAccess dr) := nothing rfl
theorem cxlRetrain (j : Nat) : Statement (.cxlRetrain j) := one rfl rfl
theorem cxlRetrainTimeout (j : Nat) : Statement (.cxlRetrainTimeout j) := one rfl rfl
theorem cxlViral (j : Nat) : Statement (.cxlViral j) := one rfl rfl
theorem serdesPllUnlock (p : Nat) : Statement (.serdesPllUnlock p) := one rfl rfl
theorem corePllUnlock : Statement (.corePllUnlock) := nothing rfl
theorem crossingErr : Statement (.crossingErr) := nothing rfl
theorem powerSample (eighthWatts : Nat) : Statement (.powerSample eighthWatts) := nothing rfl
theorem tjMax (eighthDegrees : Int) : Statement (.tjMax eighthDegrees) := nothing rfl
theorem thermTrip : Statement (.thermTrip) := nothing rfl
theorem sensorFail (id : Nat) : Statement (.sensorFail id) := one rfl rfl
theorem railWarn (rail : Nat) : Statement (.railWarn rail) := one rfl rfl
theorem railFault (rail : Nat) : Statement (.railFault rail) := one rfl rfl
theorem olsBlockReset (v : Word) : Statement (.olsBlockReset v) := nothing rfl
theorem vpHoldDown (p : Nat) (v : Word) : Statement (.vpHoldDown p v) := one rfl rfl
theorem ceLateRead (c : Nat) (data1 : Bool) : Statement (.ceLateRead c data1) := one rfl rfl
theorem rcRead (off : Nat) (wide : Bool) : Statement (.rcRead off wide) := oneAnd rfl rfl
theorem registerWrite (off : Nat) (wide : Bool) (v : DWord) : Statement (.registerWrite off wide v) := oneAnd rfl rfl
theorem vstbyUp : Statement (.vstbyUp) := nothing rfl
theorem vstbyLoss : Statement (.vstbyLoss) := nothing rfl
theorem hostLinkUp (rate width : Nat) (flit : Bool) : Statement (.hostLinkUp rate width flit) := nothing rfl
theorem cxlRetrainDone (j : Nat) : Statement (.cxlRetrainDone j) := one rfl rfl
theorem expanderFillDone (j : Nat) (ok : Bool) : Statement (.expanderFillDone j ok) := one rfl rfl
theorem hotRefresh (k : Nat) (enter : Bool) : Statement (.hotRefresh k enter) := one rfl rfl
theorem phyRetrain (slice : Nat) (ok : Bool) : Statement (.phyRetrain slice ok) := one rfl rfl
theorem thermTripRelease (eighthDegrees : Int) : Statement (.thermTripRelease eighthDegrees) := nothing rfl
theorem coreReinitialised (cl core : Nat) : Statement (.coreReinitialised cl core) := two rfl rfl
theorem mctpControl (code : Nat) (v : Nat) : Statement (.mctpControl code v) := nothing rfl
theorem pldmPlatformRequest (code : Nat) (arg : Nat) : Statement (.pldmPlatformRequest code arg) := nothing rfl
theorem tapInstruction (ir : Nat) : Statement (.tapInstruction ir) := one rfl rfl

end Sys2Proof.Laws.Index
end

