-- ==== Sys2Proof/Tests/Slice0.lean ====
section
/-!
SUPPORT. Tests: commands that are ill-formed are refused, small steps of each family, and for each statement a state and operands
that meet what it assumes.
-/
namespace Sys2Proof.Tests
open Sys2Proof Sys2Proof.Machine

theorem test_ill_port : exec (.slotTx 16) State.reset = .refused .illFormed := rfl

end Sys2Proof.Tests
end

section
/-!
SUPPORT. Reads of the global block of BAR0 (the first 0x1_0000 bytes, Table REG-1): no window, no counter and no register that a
read clears lies there, so a read gives the register's value and changes nothing else. OLS_IDENT and OLS_SERIAL (R1).
-/
namespace Sys2Proof.Machine

/-! ### Layout: what does not lie in the global block -/

theorem inArr_eq_none_of_lt {o base : Nat} (stride n : Nat) (h : o < base) : inArr o base stride n = none :=
  if_neg fun hb => Nat.not_le_of_lt h hb.1

theorem isCounter_global {a : Nat} (h : a < 0x10000) : isCounter a = false := by
  have arr (base stride n : Nat) (hb : 0x10000 ≤ base) : inArr a base stride n = none :=
    inArr_eq_none_of_lt stride n (h.trans_le hb)
  have range (lo hi : Nat) (hl : 0x10000 ≤ lo) : (decide (lo ≤ a) && decide (a ≤ hi)) = false := by
    rw [decide_eq_false (Nat.not_le_of_lt (h.trans_le hl)), Bool.false_and]
  have off : (a == 0x340034) = false := beq_false_of_ne (by omega)
  simp [isCounter, arr, range, off]

theorem heldBlock_global {a : Nat} (h : a < 0x10000) : heldBlock a = false := by
  have hb : a / 0x40000 = 0 := Nat.div_eq_of_lt (by omega)
  simp [heldBlock, hb]

theorem State.window_global (s : State) {a : Nat} (n : Nat) (h : a < 0x10000) : s.window a n = none := by
  have below (lo hi : Nat) (hl : 0x10000 ≤ lo) : ¬ (lo ≤ a ∧ a < hi) := fun hw => by omega
  simp [State.window, below]

theorem State.reg_global (s : State) {a : Nat} (h : a < 0x10000) : s.reg a = s.globalReg a := by
  have hb : a / 0x40000 = 0 := Nat.div_eq_of_lt (by omega)
  simp [State.reg, State.blockReg, isCounter_global h, heldBlock_global h, hb, h]

theorem State.regRead_global (s : State) {a : Nat} (h : a < 0x10000) : s.regRead a = s := by
  have arr (base stride n : Nat) (hb : 0x10000 ≤ base) : inArr a base stride n = none :=
    inArr_eq_none_of_lt stride n (h.trans_le hb)
  simp [State.regRead, isCounter_global h, arr]

theorem State.consume_global (s : State) {a : Nat} (h : a < 0x10000) : s.consume a = s := by
  simp [State.consume, heldBlock_global h, State.regRead_global s h]

/-! ### Accesses -/

/-- R7: only the address that the latch names reads the latched half. -/
theorem State.read32_of_unlatched {s : State} {a : Nat} (h : ∀ v, s.host.latch ≠ some (a, v)) : s.read32 a = s.readHalf a := by
  unfold State.read32
  split
  next b v hl =>
    have hab : a ≠ b := by rintro rfl; exact h v hl
    exact if_neg hab
  next => rfl

/-- R7: a 32-bit read of a 32-bit register of the global block. -/
theorem State.readHalf_global {s : State} {a v : Nat} (h : a < 0x10000) (hr : s.globalReg a = some (false, v)) :
    s.readHalf a = s.barAnswer (some v) := by
  simp [State.readHalf, State.reg_global s h, hr, State.consume_global _ h]

/-- R7: a 64-bit read of a 64-bit register of the global block. -/
theorem State.read64_global {s : State} {a v : Nat} (h : a < 0x10000) (hr : s.globalReg a = some (true, v)) :
    s.read64 a = s.barAnswer (some v) := by
  simp [State.read64, State.reg_global s h, hr, State.consume_global _ h]

/-- R447: with power good, a read of the global block that the safe state leaves readable is a register access. -/
theorem State.barRead_global {s : State} {a : Nat} (wide : Bool) (h : a < 0x10000) (hp : s.sys.pwrgd = true)
    (hs : s.fc.safe = false ∨ safeRead a = true) : s.barRead a wide = if wide then s.read64 a else s.read32 a := by
  have readable : (!s.sys.pwrgd || (s.fc.safe && !safeRead a)) = false := by
    rcases hs with hs | hs <;> simp [hp, hs]
  simp [State.barRead, readable, State.window_global s _ h]

theorem exec_rcRead (off : Nat) (wide : Bool) (s : State) :
    exec (.rcRead off wide) s = within (Instr.rcRead off wide).wf (s.barRead off wide) := rfl

/-! ### OLS_IDENT and OLS_SERIAL -/

/-- R1, R447: OLS_IDENT reads the same in the safe state. -/
theorem State.barRead_olsIdent {s : State} (hp : s.sys.pwrgd = true) (hl : ∀ v, s.host.latch ≠ some (0, v)) :
    s.barRead 0x0000 false = s.barAnswer (some olsIdent) := by
  have hreg : s.globalReg 0x0000 = some (false, olsIdent) := rfl
  calc s.barRead 0x0000 false
    _ = s.read32 0x0000 := State.barRead_global false (by decide) hp (.inr rfl)
    _ = s.readHalf 0x0000 := State.read32_of_unlatched hl
    _ = s.barAnswer (some olsIdent) := State.readHalf_global (by decide) hreg

theorem State.barRead_olsSerial {s : State} (hp : s.sys.pwrgd = true) (hs : s.fc.safe = false) :
    s.barRead 0x0008 true = s.barAnswer (some s.sys.serial.toNat) := by
  have hreg : s.globalReg 0x0008 = some (true, s.sys.serial.toNat) := rfl
  calc s.barRead 0x0008 true
    _ = s.read64 0x0008 := State.barRead_global true (by decide) hp (.inl hs)
    _ = s.barAnswer (some s.sys.serial.toNat) := State.read64_global (by decide) hreg

end Sys2Proof.Machine

namespace Sys2Proof
open Sys2Proof.Machine

/-- Settles O1: both registers lie in the global block, where a read changes nothing but the reply; OLS_IDENT is readable in the
safe state (R447). -/
theorem identAndSerial : Obligations.IdentAndSerial := by
  intro s hp
  constructor
  · intro hl
    exact exec_of (exec_rcRead 0x0000 false s) rfl (State.barRead_olsIdent hp hl)
  · intro hs
    exact exec_of (exec_rcRead 0x0008 true s) rfl (State.barRead_olsSerial hp hs)

/-- What O1 assumes is met: an engine with power good and no split read begun, in the safe state. -/
theorem olsIdent_read_in_safe_state :
    exec (.rcRead 0x0000 false) { State.reset with sys.pwrgd := true, fc.safe := true } =
      .next { State.reset with sys.pwrgd := true, fc.safe := true,
                               host.barReply := some (some 0x42002100), host.barPoison := false } :=
  (identAndSerial _ rfl).1 fun _ => nofun

/-- What O1 assumes is met: an engine with power good, out of the safe state, whose fuses hold an EUI-64. -/
theorem olsSerial_read_of_fuses :
    exec (.rcRead 0x0008 true) { State.reset with sys.pwrgd := true, sys.serial := 0x0011223344556677 } =
      .next { State.reset with sys.pwrgd := true, sys.serial := 0x0011223344556677,
                               host.barReply := some (some 0x0011223344556677), host.barPoison := false } :=
  (identAndSerial _ rfl).2 rfl

end Sys2Proof
end

section
/-!
SUPPORT. 4-bit elements in bytes (R169): what a byte of two codes holds in each half, and the element that stands at each place of
packed codes.
-/
namespace Sys2Proof.Machine

/-! ### One byte of a structure -/

@[simp] theorem leAt_nil (i n : Nat) : leAt [] i n = 0 := by
  simp [leAt, leNat]

@[simp] theorem leAt_cons_zero_one (b : Byte) (bs : List Byte) : leAt (b :: bs) 0 1 = b.toNat := by
  simp [leAt, leNat]

@[simp] theorem leAt_cons_succ (b : Byte) (bs : List Byte) (i n : Nat) : leAt (b :: bs) (i + 1) n = leAt bs i n := rfl

theorem zero_fld (i w : Nat) : fld 0 i w = 0 := by
  simp [fld]

namespace Num

/-! ### A byte of two codes -/

/-- The byte of R169 that holds the codes `a`, in bits [3:0], and `b`, in bits [7:4]. -/
def nibblePair (a b : Nat) : Byte := BitVec.ofNat 8 (a % 16 + 16 * (b % 16))

theorem nibblePair_toNat (a b : Nat) : (nibblePair a b).toNat = a % 16 + 16 * (b % 16) := by
  have fits : a % 16 + 16 * (b % 16) < 2 ^ 8 := by omega
  rw [nibblePair, BitVec.toNat_ofNat, Nat.mod_eq_of_lt fits]

theorem fld_nibblePair_low (a b : Nat) : fld (nibblePair a b).toNat 0 4 = a % 16 := by
  rw [nibblePair_toNat, fld]
  omega

theorem fld_nibblePair_high (a b : Nat) : fld (nibblePair a b).toNat 4 4 = b % 16 := by
  rw [nibblePair_toNat, fld]
  omega

/-! ### The element at a place -/

/-- Element `i` of a structure of 4-bit elements, where `unpackCodes` reads it. -/
def nibbleAt (bs : List Byte) (i : Nat) : Nat := fld (leAt bs (i / 2) 1) (4 * (i % 2)) 4

@[simp] theorem nibbleAt_nil (i : Nat) : nibbleAt [] i = 0 := by
  rw [nibbleAt, leAt_nil, zero_fld]

@[simp] theorem nibbleAt_pair_zero (a b : Nat) (bs : List Byte) : nibbleAt (nibblePair a b :: bs) 0 = a % 16 := by
  rw [← fld_nibblePair_low a b, ← leAt_cons_zero_one _ bs]
  rfl

@[simp] theorem nibbleAt_pair_one (a b : Nat) (bs : List Byte) : nibbleAt (nibblePair a b :: bs) 1 = b % 16 := by
  rw [← fld_nibblePair_high a b, ← leAt_cons_zero_one _ bs]
  rfl

@[simp] theorem nibbleAt_cons_add_two (y : Byte) (bs : List Byte) (i : Nat) :
    nibbleAt (y :: bs) (i + 2) = nibbleAt bs i := by
  rw [nibbleAt, Nat.add_div_right i (by decide), Nat.add_mod_right, leAt_cons_succ, nibbleAt]

/-! ### Packing -/

/-- An odd last code stands in its byte as if a code 0 followed it. -/
theorem packNibbles_singleton (a : Nat) : packNibbles [a] = [nibblePair a 0] := rfl

theorem packNibbles_cons_cons (a b : Nat) (cs : List Nat) :
    packNibbles (a :: b :: cs) = nibblePair a b :: packNibbles cs := rfl

theorem length_packNibbles (cs : List Nat) : (packNibbles cs).length = (cs.length + 1) / 2 := by
  induction cs using packNibbles.induct with
  | case1 => rfl
  | case2 a => simp [packNibbles_singleton]
  | case3 a b cs ih =>
    rw [packNibbles_cons_cons, List.length_cons, ih, List.length_cons, List.length_cons]
    omega

/-- R169 for codes of any size, of which the low 4 bits are kept, and at any place: past the last code the reading is 0. -/
theorem nibbleAt_packNibbles (cs : List Nat) (i : Nat) : nibbleAt (packNibbles cs) i = cs.getD i 0 % 16 := by
  induction cs using packNibbles.induct generalizing i with
  | case1 => simp [packNibbles]
  | case2 a => match i with
    | 0 | 1 | i + 2 => simp [packNibbles_singleton]
  | case3 a b cs ih => match i with
    | 0 | 1 => simp [packNibbles_cons_cons]
    | i + 2 => simp [packNibbles_cons_cons, ih]

theorem nibbleAt_packNibbles_of_lt {cs : List Nat} (hc : ∀ c ∈ cs, c < 16) {i : Nat} (hi : i < cs.length) :
    nibbleAt (packNibbles cs) i = cs[i] := by
  rw [nibbleAt_packNibbles, List.getD_eq_getElem cs 0 hi, Nat.mod_eq_of_lt (hc _ (List.getElem_mem hi))]

/-! ### Codes of a 4-bit format -/

theorem packCodes_of_bits_four {f : Fmt} (hf : f.bits = 4) (cs : List Nat) : packCodes f cs = packNibbles cs := if_pos hf

theorem unpackCodes_of_bits_four {f : Fmt} (hf : f.bits = 4) (n : Nat) (bs : List Byte) :
    unpackCodes f n bs = (List.range n).map (nibbleAt bs) := if_pos hf

theorem getElem?_unpackCodes_of_bits_four {f : Fmt} (hf : f.bits = 4) {n i : Nat} (hi : i < n) (bs : List Byte) :
    (unpackCodes f n bs)[i]? = some (nibbleAt bs i) := by
  rw [unpackCodes_of_bits_four hf, List.getElem?_map, List.getElem?_range hi, Option.map_some]

theorem unpackCodes_packCodes_of_bits_four {f : Fmt} (hf : f.bits = 4) {cs : List Nat} (hc : ∀ c ∈ cs, c < 16) :
    unpackCodes f cs.length (packCodes f cs) = cs := by
  rw [packCodes_of_bits_four hf, unpackCodes_of_bits_four hf]
  refine List.ext_getElem (by simp) fun i _ hi => ?_
  rw [List.getElem_map, List.getElem_range, nibbleAt_packNibbles_of_lt hc hi]

end Num

end Sys2Proof.Machine

namespace Sys2Proof
open Sys2Proof.Machine

/-- Settles O3: a 4-bit format packs by `packNibbles`, and each place of its bytes reads back the code put there (R169), so
unpacking returns the codes one by one. -/
theorem fourBitElementsPackTwoToAByte : Obligations.FourBitElementsPackTwoToAByte := by
  refine ⟨fun f cs i hf hi hc => ?_, fun f n i bs hf hi => ?_, fun f cs hf hc => ⟨?_, ?_⟩⟩
  · rw [Num.packCodes_of_bits_four hf, List.getD_eq_getElem cs 0 hi]
    exact Num.nibbleAt_packNibbles_of_lt hc hi
  · exact Num.getElem?_unpackCodes_of_bits_four hf hi bs
  · rw [Num.packCodes_of_bits_four hf]
    exact Num.length_packNibbles cs
  · exact Num.unpackCodes_packCodes_of_bits_four hf hc

/-- What O3 assumes is met: three codes of FP4 (format code 0x6), one with every bit set, the last alone in its byte. -/
theorem fp4_codes_unpack_as_packed :
    Num.unpackCodes (Num.Fmt.ofCode 0x6) 3 (Num.packCodes (Num.Fmt.ofCode 0x6) [0x1, 0xF, 0x7]) = [0x1, 0xF, 0x7] :=
  (fourBitElementsPackTwoToAByte.2.2 (Num.Fmt.ofCode 0x6) [0x1, 0xF, 0x7] rfl (by decide)).2

/-- What O3 assumes of a reading is met: INT4 (format code 0x0), and the odd element of the second byte. -/
theorem int4_element_three_is_high_half :
    (Num.unpackCodes (Num.Fmt.ofCode 0x0) 4 [0x21, 0x43])[3]? = some 0x4 :=
  fourBitElementsPackTwoToAByte.2.1 (Num.Fmt.ofCode 0x0) 4 3 [0x21, 0x43] rfl (by decide)

end Sys2Proof
end

section
/-!
SUPPORT. A head that completes in its issue cycle, with its record and without (R209, R231), and what writing HEAD leaves of its
queue (R207). HALT (R240).
-/
namespace Sys2Proof.Machine

theorem State.queue_of_queues {s t : State} (h : t.queues = s.queues) (q : Nat) : t.queue q = s.queue q := by
  simp [State.queue, h]

/-! ### HEAD -/

/-- R207: however its store ends, writing HEAD changes of the queue only the record of HEAD as last written. -/
theorem State.queue_writeHead (s : State) (q : Nat) :
    (s.writeHead q).queue q = { s.queue q with headWritten := (s.queue q).headIdx } := by
  unfold State.writeHead
  dsimp only
  have stored (u : State) (a : Nat) (bs : List Byte) : (u.store a bs).1.queues = u.queues := by simp
  split
  all_goals
    next h =>
      have hq := (congrArg State.queues (congrArg Prod.fst h)).symm.trans (stored _ _ _)
      rw [State.queue_of_queues (s := s.modQueue q _) (by simpa using hq), State.queue_modQueue_self]

theorem State.queue_headDue (s : State) (q : Nat) : ∃ w, (s.headDue q).queue q = { s.queue q with headWritten := w } := by
  unfold State.headDue
  dsimp only
  split
  · exact ⟨_, s.queue_writeHead q⟩
  · exact ⟨_, rfl⟩

/-- R225: a RUNNING queue halts. -/
theorem State.queue_haltQueue_running {s : State} {q : Nat} (h : (s.queue q).state = .running) (cause : HaltCause) (idx : Word)
    (force : Bool) : (s.haltQueue q cause idx force).queue q =
      { s.queue q with state := .halted, haltCause := cause, haltIndex := idx, headWritten := (s.queue q).headIdx } := by
  unfold State.haltQueue
  rw [if_pos (.inl h), State.queue_writeHead, State.queue_setQueue_self]
  rfl

/-! ### Completion without a record -/

/-- R216: the queue once issue `tok` has given up its in-flight place. -/
def Queue.without (y : Queue) (tok : Nat) : Queue :=
  { y with inflight := y.inflight.filter fun z => z.tok != tok, progress := true }

/-- R215: the queue once issue `tok` has finished with outcome `d`. -/
def Queue.finished (y : Queue) (tok : Nat) (d : Done) : Queue :=
  { y with inflight := y.inflight.map fun z => if z.tok == tok then { z with done := some d } else z, progress := true }

/-- R216, R217: the channel, the place, the signal, HEAD. -/
theorem State.retire_eq (s : State) (q : Nat) (x : Inflight) (d : Done) : s.retire q x d =
    (((s.freeChan q x d.status).modQueue q (·.without x.tok)).onlyIf (St.success d.status && sigInc x.cmd != 0)
      (·.addTally (sigTally x.cmd) (sigInc x.cmd))).headDue q := rfl

/-- R216: of its queue a command that retires leaves the rest; its channel and its signal change no queue. -/
theorem State.queue_retire (s : State) (q : Nat) (x : Inflight) (d : Done) :
    ∃ w, (s.retire q x d).queue q = { (s.queue q).without x.tok with headWritten := w } := by
  have freed : (s.freeChan q x d.status).queue q = s.queue q := State.queue_of_queues (by simp) q
  have signalled (u : State) (c : Bool) (t n : Nat) : (u.onlyIf c (·.addTally t n)).queue q = u.queue q :=
    State.queue_of_queues (by cases c <;> simp [State.onlyIf]) q
  rw [State.retire_eq]
  refine (State.queue_headDue _ q).imp fun w hw => hw.trans ?_
  rw [signalled, State.queue_modQueue_self, freed]

/-- The command that issued last finishes and leaves: the others in flight stay as they were. -/
theorem Queue.finished_without {y : Queue} {xs : List Inflight} {x : Inflight} (hy : y.inflight = xs ++ [x])
    (hxs : ∀ z ∈ xs, z.tok ≠ x.tok) (d : Done) :
    (y.finished x.tok d).without x.tok = { y with inflight := xs, progress := true } := by
  have unmarked : xs.map (fun z => if z.tok == x.tok then { z with done := some d } else z) = xs :=
    (List.map_congr_left fun z hz => by simp [hxs z hz]).trans (List.map_id xs)
  have kept : xs.filter (fun z => z.tok != x.tok) = xs := List.filter_eq_self.2 fun z hz => by simp [hxs z hz]
  unfold Queue.without Queue.finished
  simp only [hy, List.map_append, List.filter_append, unmarked, kept]
  simp

/-- R215: `s` once issue `tok` of queue `q` has finished with outcome `d`, before anything comes of it. -/
def State.withOutcome (s : State) (q tok : Nat) (d : Done) : State :=
  { s.modQueue q (·.finished tok d) with finished := s.finished + 1 }

@[simp] theorem State.queue_withOutcome (s : State) (q tok : Nat) (d : Done) :
    (s.withOutcome q tok d).queue q = (s.queue q).finished tok d := State.queue_modQueue_self s q (·.finished tok d)

/-- R215: a command that writes no record retires as it finishes with success. -/
theorem State.finish_unrecorded {s : State} {q tok : Nat} {x : Inflight} {d : Done}
    (hx : (s.queue q).inflight.find? (fun y => y.tok == tok && y.done.isNone) = some x) (hr : needsRecord x.cmd d = false)
    (hs : St.success d.status = true) : s.finish q tok d =
      (s.withOutcome q tok { d with order := s.finished }).retire q x { d with order := s.finished } := by
  have unrecorded : needsRecord x.cmd { d with order := s.finished } = false := hr
  unfold State.finish
  simp only [hx, unrecorded, Bool.false_eq_true, if_false, State.failPolicy, hs, Bool.true_or, if_true]
  rfl

/-- R215, R217: the command that issued last, once it has finished with success and writes no record, has left its queue. -/
theorem State.queue_finish_unrecorded {s : State} {q : Nat} {xs : List Inflight} {x : Inflight} {d : Done}
    (hq : (s.queue q).inflight = xs ++ [x]) (hxs : ∀ z ∈ xs, z.tok ≠ x.tok) (hx : x.done = none)
    (hr : needsRecord x.cmd d = false) (hs : St.success d.status = true) :
    ∃ w, (s.finish q x.tok d).queue q = { s.queue q with inflight := xs, progress := true, headWritten := w } := by
  have older : xs.find? (fun z => z.tok == x.tok && z.done.isNone) = none :=
    List.find?_eq_none.2 fun z hz => by simp [hxs z hz]
  have newest : (s.queue q).inflight.find? (fun z => z.tok == x.tok && z.done.isNone) = some x := by
    simp [hq, older, hx]
  rw [State.finish_unrecorded newest hr hs]
  refine (State.queue_retire _ q x _).imp fun w hw => hw.trans ?_
  rw [State.queue_withOutcome, Queue.finished_without hq hxs]

end Sys2Proof.Machine

namespace Sys2Proof
open Sys2Proof.Machine

/-- R217: the command at the head of a queue as it waits for its record, had it issued and finished with OK in `s`. -/
def awaitingRecord (s : State) (idx : Word) (c : BitVec 512) : Inflight :=
  { tok := s.issued, idx := idx, cmd := c, since := s.now, done := some { status := St.ok, order := s.finished } }

/-- R209, R231: a sequencer command completes with OK: the next command is at the head, and the one that left waits for its record
or, when it writes none, is no longer in flight. -/
theorem queue_completeOk {s : State} {q : Nat} {idx : Word} {c : BitVec 512} (hu : isUnitOp (opcodeOf c) = false)
    (ht : ∀ y ∈ (s.queue q).inflight, y.tok ≠ s.issued) :
    ∃ w, (s.completeOk q idx c).queue q = { (headLeft s q (awaitingRecord s idx c)).queue q with
      inflight := (s.queue q).inflight ++ if needsRecord c { status := St.ok } then [awaitingRecord s idx c] else []
      headWritten := w } := by
  unfold State.completeOk
  cases hr : needsRecord c { status := St.ok } with
  | true =>
    rw [completeHead_ok s q idx c _ hu ht hr rfl, headDone_queue]
    refine ⟨(s.queue q).headWritten, ?_⟩
    simp only [headLeft_queue, if_true]
    rfl
  | false =>
    let x : Inflight := { tok := s.issued, idx := idx, cmd := c, since := s.now }
    have left : ((headLeft s q x).queue q).inflight = (s.queue q).inflight ++ [x] := by rw [headLeft_queue]
    rw [State.completeHead, issue_eq s q idx c hu]
    refine (State.queue_finish_unrecorded left ht rfl hr rfl).imp fun w hw => hw.trans ?_
    simp [headLeft_queue]

/-! ### HALT -/

theorem exec_halt (q : Nat) (s : State) : Machine.exec (.halt q) s = within (Instr.halt q).wf (s.runHead q 0x05 noCheck
    fun s idx c => (s.completeOk q idx c).haltQueue q .haltInsn idx false) := rfl

/-- R240: an earlier command in flight holds a HALT. -/
theorem headFree_halt_eq_false {x : Queue} {c : BitVec 512} (ho : opcodeOf c = 0x05) (hi : x.inflight ≠ []) :
    x.headFree c = false := by
  simp [Queue.headFree, ho, hi]

/-- R210: what is held at the head changes nothing. -/
theorem runHead_held {s : State} {q : Nat} (h : s.viewHead q = .held) (op : Nat)
    (check : State → BitVec 512 → Option (Nat × Nat)) (run : State → Word → BitVec 512 → State) :
    s.runHead q op check run = s := by
  simp [State.runHead, h]

theorem viewHead_held {s : State} {q : Nat} {f : Fetched} {fs : List Fetched} (hl : s.released = true)
    (hs : (s.queue q).state = .running) (hf : (s.queue q).fetched = f :: fs) (hu : f.ue = none)
    (ha : s.headerAbandoned f.cmd = false) (hh : (s.queue q).headFree f.cmd = false) : s.viewHead q = .held := by
  simp [State.viewHead, hl, hs, hf, hu, ha, hh]

/-- R545: a write to Q_CTRL of a queue that is not DISABLED, with one control bit, does what that bit says. -/
theorem writeQCtrl_one_bit {s : State} {q v b : Nat} (hs : (s.queue q).state ≠ .disabled)
    (hb : (List.range 5).filter (bitAt v) = [b]) : s.writeQCtrl q v = s.queueCtrl q b := by
  simp [State.writeQCtrl, hs, hb]

/-- Table QUE-8: RESUME of a HALTED queue whose target is not HELD. -/
theorem queueCtrl_resume_halted {s : State} {q : Nat} (hs : (s.queue q).state = .halted) (hh : s.held (64 + q) = false) :
    s.queueCtrl q 3 = s.setQueue q { s.queue q with state := .running } := by
  simp [State.queueCtrl, hs, hh, State.modQueue]

theorem exec_resume_released {s : State} {q : Nat} (v : Word) (hq : q < 256) (hl : s.released = true) :
    Machine.exec (.qCtrlResume q v) s = .next (s.writeQCtrl q (v ||| 8#32).toNat) :=
  exec_of rfl (decide_eq_true hq) (if_pos hl)

/-- Settles O4: the queue of a HALT is not free while a command is in flight; a HALT that issues completes with OK in a queue that
stays RUNNING, which then halts; RESUME is a bit of Q_CTRL. -/
theorem haltHaltsItsQueue : Obligations.HaltHaltsItsQueue := by
  refine ⟨fun s q f fs hq hl hs hf hu ho ha hi => ?_, fun s q idx c hq hv ho hi => ?_, fun s q hq hl hs hh => ?_⟩
  · have held := viewHead_held hl hs hf hu ha (headFree_halt_eq_false ho hi)
    exact exec_of (exec_halt q s) (decide_eq_true hq) (runHead_held held _ _ _)
  · obtain ⟨-, running⟩ := viewHead_running hv
    have hu : isUnitOp (opcodeOf c) = false := by rw [ho]; rfl
    have recorded : needsRecord c { status := St.ok } = !quietOf c := by simp [needsRecord, ho]
    obtain ⟨w, completed⟩ := queue_completeOk (idx := idx) hu (by simp [hi] : ∀ y ∈ (s.queue q).inflight, y.tok ≠ s.issued)
    rw [headLeft_queue] at completed
    have halted := State.queue_haltQueue_running (s := s.completeOk q idx c) (by rw [completed]; exact running) .haltInsn idx
      false
    rw [completed, hi, recorded] at halted
    refine answers_of (exec_halt q s) (decide_eq_true hq) ?_
    rw [runHead_open noCheck _ hv ho rfl, halted]
    refine ⟨rfl, rfl, rfl, rfl, fun h => ?_, fun h => ?_⟩
    · simp [h, awaitingRecord]
    · simp [h]
  · have enabled : (s.queue q).state ≠ .disabled := by rw [hs]; decide
    rw [exec_resume_released 8 hq hl, writeQCtrl_one_bit enabled (b := 3) (by decide), queueCtrl_resume_halted hs hh]

end Sys2Proof
end

section
/-!
SUPPORT. A narrow write that is taken (R141, R142), a record with its message (R217–R224), and a retirement after which HEAD is not
due (R207, R216). MARK (R269).
-/
namespace Sys2Proof.Machine

/-! ### A narrow write -/

/-- R141: an extent within one page is one part. -/
theorem extent_of_one_page {a n : Nat} (h0 : 0 < n) (h : a % 2048 + n ≤ 2048) : extent a n = [(a, n)] := by
  have whole : min n (2048 - a % 2048) = n := by omega
  simp [extent, pieces, whole, Nat.pos_iff_ne_zero.mp h0]

/-- R139: a page without poison or error is delivered, and only its place in the decoded-page buffer moves. -/
theorem State.fetchPage_clean {s : State} (a k : Nat) {pg : Nat} (hp : pg ∉ s.mem.poison) (he : Tab.find s.mem.errs pg = none) :
    s.fetchPage a k pg = (s.modCtrl k (·.touch pg), none) := by
  simp [State.fetchPage, hp, he]

theorem State.injectOn_unarmed {s : State} (h : s.mem.injArmed = false) (a k pg : Nat) : s.injectOn a k pg = s := by
  simp [State.injectOn, h]

/-- `s` with bytes `bs` written at `ph` of memory, and `m` for what the controllers keep about pages. -/
def State.withBytes (s : State) (ph : Nat) (bs : List Byte) (m : MemCtl) : State := { s with ram := s.ram.writeN ph bs, mem := m }

@[simp] theorem State.withBytes_frame (s : State) (ph : Nat) (bs : List Byte) (m : MemCtl) :
    (s.withBytes ph bs m).queues = s.queues ∧ (s.withBytes ph bs m).rings = s.rings ∧ (s.withBytes ph bs m).host = s.host ∧
      (s.withBytes ph bs m).ram = s.ram.writeN ph bs := ⟨rfl, rfl, rfl, rfl⟩

/-- R142: a narrow part of a clean page is merged; besides the bytes only what the controller keeps about pages changes. -/
theorem State.storeNarrow_clean {s : State} (a k : Nat) {ph : Nat} (bs : List Byte) (hp : ph / 2048 * 2048 ∉ s.mem.poison)
    (he : Tab.find s.mem.errs (ph / 2048 * 2048) = none) (hi : s.mem.injArmed = false) :
    ∃ m, s.storeNarrow a k ph bs = (s.withBytes ph bs m, .ok) := by
  unfold State.storeNarrow
  simp only [State.fetchPage_clean a k hp he]
  rw [State.injectOn_unarmed (by exact hi)]
  exact ⟨_, rfl⟩

end Sys2Proof.Machine

namespace Sys2Proof
open Sys2Proof.Machine

/-- R141, R142: a narrow write that is taken changes its bytes and what the controllers keep about pages. -/
theorem store_writable {s : State} {a n ph : Nat} {bs : List Byte} (hn : bs.length = n) (h : Writable s a n ph) :
    ∃ m, s.store a bs = (s.withBytes ph bs m, .ok) := by
  subst hn
  obtain ⟨⟨k, located, nonempty, inPage, sameOffset, clean, correct⟩, narrow, rmw, unarmed⟩ := h
  obtain ⟨m, stored⟩ := State.storeNarrow_clean a k bs clean correct unarmed
  refine ⟨m, ?_⟩
  have onePart : extent a bs.length = [(a, bs.length)] := extent_of_one_page nonempty (sameOffset ▸ inPage)
  have part : s.storePart a bs = s.storeNarrow a k ph bs := by
    simp [State.storePart, located, rmw, narrow.ne]
  simp [State.store, onePart, State.storeParts, part, stored]

/-! ### The record and its message -/

theorem length_leBytes (v n : Nat) : (leBytes v n).length = n := by
  induction n generalizing v with
  | zero => rfl
  | succ n ih => simp [leBytes, ih]

/-- R218: a record has 32 bytes. -/
theorem length_recordBytes (q : Nat) (x : Inflight) (d : Done) (stamp : Stamp) (phase : Bool) :
    (recordBytes q x d stamp phase).length = 32 := by
  simp [recordBytes, length_leBytes]

theorem ring_of_rings {s t : State} (h : t.rings = s.rings) (r : Nat) : t.ring r = s.ring r := by
  simp [State.ring, h]

theorem msixBlocked_of_host {s t : State} (h : t.host = s.host) (v : Nat) : t.msixBlocked v = s.msixBlocked v := by
  simp [State.msixBlocked, h]

@[simp] theorem ring_modQueue (s : State) (q : Nat) (f : Queue → Queue) (r : Nat) : (s.modQueue q f).ring r = s.ring r := rfl

theorem fire_unblocked {s : State} {v : Nat} (hp : s.host.pba.contains v = false) (hb : s.msixBlocked v = false) :
    s.fire v = s.sendVector v := by
  simp only [State.fire, hp, hb, Bool.false_eq_true, if_false]

/-- R365: wires that fire change only the clusters. -/
theorem forEach_fireWire (ws : List Nat) (s : State) :
    ∃ cs, forEach ws (fun w st => st.fireWire w) s = { s with clusters := cs } := by
  induction ws generalizing s with
  | nil => exact ⟨s.clusters, rfl⟩
  | cons w ws ih => exact ih (s.fireWire w)

/-- R222, R224: `s` after a record has gone into ring `r` and its message with it, the wires leaving the clusters as `cs`. -/
def recordSent (s : State) (r : Nat) (cs : Tab Cluster) : State :=
  ({ s with clusters := cs }.setRing r
    { s.ring r with tail := (s.ring r).tail + 1, unsignalled := 0, oldest := none }).sendVector (s.ring r).vector

@[simp] theorem recordSent_frame (s : State) (r : Nat) (cs : Tab Cluster) :
    (recordSent s r cs).queues = s.queues ∧ (recordSent s r cs).ram = s.ram := ⟨rfl, rfl⟩

@[simp] theorem ring_recordSent (s : State) (r : Nat) (cs : Tab Cluster) : (recordSent s r cs).ring r =
    { s.ring r with tail := (s.ring r).tail + 1, unsignalled := 0, oldest := none } := Tab.get_put_self _ _ _ _

theorem sent_recordSent {s : State} {r v : Nat} (cs : Tab Cluster) (hv : (s.ring r).vector = v) :
    Tab.get 0 (recordSent s r cs).host.sent v = Tab.get 0 s.host.sent v + 1 := by
  subst hv
  exact Tab.get_put_self _ _ _ _

/-- R224, R269: the message that goes at once, whatever COUNT and DELAY say. -/
theorem recordAccepted_forced {s : State} {r : Nat} (hp : s.host.pba.contains (s.ring r).vector = false)
    (hb : s.msixBlocked (s.ring r).vector = false) : ∃ cs, s.recordAccepted r true = recordSent s r cs := by
  let counted : State := s.modRing r fun x => { x with
    tail := x.tail + 1, unsignalled := x.unsignalled + 1, oldest := some (x.oldest.getD s.now) }
  obtain ⟨cs, fired⟩ := forEach_fireWire (counted.wiresOf .ring r) counted
  refine ⟨cs, ?_⟩
  have message : s.recordAccepted r true = { counted with clusters := cs }.ringMessage r := by
    rw [← fired]
    rfl
  have ring : { counted with clusters := cs }.ring r = counted.ring r := rfl
  rw [message, State.ringMessage, ring, State.ring_modRing_self, fire_unblocked (by exact hp) (by exact hb)]
  simp [counted, recordSent, State.modRing, State.setRing, State.ring]

/-- R218, R219: the record that a finished command puts into ring `r`, with the phase of the ring's TAIL. -/
def recordFor (s : State) (q r : Nat) (x : Inflight) (d : Done) : List Byte :=
  recordBytes q x d s.stamp ((s.ring r).tail.toNat / (s.ring r).size % 2 == 0)

theorem length_recordFor (s : State) (q r : Nat) (x : Inflight) (d : Done) : (recordFor s q r x d).length = 32 :=
  length_recordBytes _ _ _ _ _

/-- R217, R222: a record that its ring takes has been accepted; that of a MARK with IRQ forces its message. -/
theorem writeRecord_stored {s u : State} {q r : Nat} {x : Inflight} {d : Done} (he : (s.ring r).enabled = true)
    (hu : s.store ((s.ring r).base.toNat + 32 * ((s.ring r).tail.toNat % (s.ring r).size)) (recordFor s q r x d) = (u, .ok)) :
    s.writeRecord q x d r = u.recordAccepted r (opcodeOf x.cmd == 0x61 && bitAt (cf x.cmd 20 1) 0) := by
  rw [recordFor] at hu
  simp only [State.writeRecord, he, Bool.not_true, Bool.false_eq_true, if_false, hu]

/-- R217, R224, R269: the record of a MARK with IRQ, where its ring takes the write. -/
theorem writeRecord_mark_irq {s : State} {q r ph : Nat} {x : Inflight} (d : Done) (ho : opcodeOf x.cmd = 0x61)
    (hi : bitAt (cf x.cmd 20 1) 0 = true) (he : (s.ring r).enabled = true)
    (hw : Writable s ((s.ring r).base.toNat + 32 * ((s.ring r).tail.toNat % (s.ring r).size)) 32 ph)
    (hp : s.host.pba.contains (s.ring r).vector = false) (hb : s.msixBlocked (s.ring r).vector = false) :
    ∃ m cs, s.writeRecord q x d r = recordSent (s.withBytes ph (recordFor s q r x d) m) r cs := by
  obtain ⟨m, stored⟩ := store_writable (length_recordFor s q r x d) hw
  have ring : (s.withBytes ph (recordFor s q r x d) m).ring r = s.ring r := ring_of_rings (by simp) r
  obtain ⟨cs, accepted⟩ := recordAccepted_forced (s := s.withBytes ph (recordFor s q r x d) m) (r := r)
    (by simpa [ring] using hp) (by rw [ring, msixBlocked_of_host (s := s) (by simp), hb])
  have forced : (opcodeOf x.cmd == 0x61 && bitAt (cf x.cmd 20 1) 0) = true := by simp [ho, hi]
  exact ⟨m, cs, by rw [writeRecord_stored he stored, forced, accepted]⟩

/-! ### The end of the command -/

/-- R207: HEAD of the queue, once nothing is in flight, is not due: no index is pinned, and FETCH has neither reached TAIL nor
advanced by 16 since HEAD was written. -/
def HeadSettled (y : Queue) : Prop := y.pin = [] ∧ y.fetch ≠ y.tail ∧ (y.fetch - y.headWritten).toNat < 16

theorem headDue_settled {s : State} {q : Nat} (hs : HeadSettled (s.queue q)) (hi : (s.queue q).inflight = []) :
    s.headDue q = s := by
  obtain ⟨unpinned, unread, near⟩ := hs
  have head : (s.queue q).headIdx = (s.queue q).fetch := by simp [Queue.headIdx, unpinned, hi]
  have busy : (s.queue q).empty = false := by simp [Queue.empty, unread]
  refine if_neg ?_
  rw [head, busy]
  simpa using near

/-- R216: the only command in flight, without a channel or a signal, retires while HEAD is not due. -/
theorem retire_only {s : State} {q : Nat} {x : Inflight} (d : Done) (hx : (s.queue q).inflight = [x]) (hc : x.chan = none)
    (hi : sigInc x.cmd = 0) (hs : HeadSettled (s.queue q)) : s.retire q x d = s.modQueue q (·.without x.tok) := by
  have free : s.freeChan q x d.status = s := by simp [State.freeChan, hc]
  have silent : (St.success d.status && sigInc x.cmd != 0) = false := by simp [hi]
  have gone : ((s.queue q).without x.tok).inflight = [] := by simp [Queue.without, hx]
  rw [State.retire_eq, free, silent]
  exact headDue_settled (s := s.modQueue q (·.without x.tok)) (by rw [State.queue_modQueue_self]; exact hs)
    (by rw [State.queue_modQueue_self]; exact gone)

/-- R217: the record of a command that completed with OK, in its turn and into a ring with room. -/
theorem completeOne_ok {s : State} {q : Nat} {x : Inflight} {d : Done} (hd : d.status = St.ok)
    (he : (s.ring (ringOf x.cmd)).enabled = true) (hf : (s.ring (ringOf x.cmd)).full = false)
    (ht : s.earlierRecord (ringOf x.cmd) d.order = false) :
    s.completeOne q x d = ((s.writeRecord q x d (ringOf x.cmd)).retire q x d).resetDone q := by
  have toRing : s.recordRing q x d = ringOf x.cmd := by
    simp [State.recordRing, hd, he, St.ok, St.fetchUe, St.badCommand]
  simp [State.completeOne, toRing, ht, hf]

theorem resetDone_running {s : State} {q : Nat} (h : (s.queue q).state = .running) : s.resetDone q = s := by
  simp [State.resetDone, h]

/-- R216, R217: the only command in flight completes, its record written as `u` says; HEAD is not due. -/
theorem completeOne_only {s u : State} {q : Nat} {x : Inflight} {d : Done} (hd : d.status = St.ok)
    (he : (s.ring (ringOf x.cmd)).enabled = true) (hf : (s.ring (ringOf x.cmd)).full = false)
    (ht : s.earlierRecord (ringOf x.cmd) d.order = false) (hu : s.writeRecord q x d (ringOf x.cmd) = u)
    (hq : u.queue q = s.queue q) (hx : (s.queue q).inflight = [x]) (hr : (s.queue q).state = .running) (hc : x.chan = none)
    (hi : sigInc x.cmd = 0) (hs : HeadSettled (s.queue q)) : s.completeOne q x d = u.modQueue q (·.without x.tok) := by
  rw [← hq] at hx hr hs
  have running : ((u.modQueue q (·.without x.tok)).queue q).state = .running := by
    rw [State.queue_modQueue_self]
    exact hr
  rw [completeOne_ok hd he hf ht, hu, retire_only d hx hc hi hs, resetDone_running running]

theorem exec_commandComplete {s : State} {q : Nat} {x : Inflight} {d : Done} (hl : s.live = true)
    (hx : (s.queue q).inflight = [x]) (hd : x.done = some d) :
    Machine.exec (.commandComplete q x.idx) s = within (Instr.commandComplete q x.idx).wf (s.completeOne q x d) := by
  have found : (s.queue q).inflight.find? (fun y => y.idx == x.idx && y.done.isSome) = some x := by simp [hx, hd]
  show execCommandComplete q x.idx s = _
  simp only [execCommandComplete, hl, found, hd]

/-! ### MARK -/

theorem exec_mark (q : Nat) (s : State) : Machine.exec (.mark q) s = within (Instr.mark q).wf (s.runHead q 0x61 noCheck
    fun s idx c => (s.modQueue q fun x => { x with mark := BitVec.ofNat 32 (cf c 16 4) }).completeOk q idx c) := rfl

/-- R269: a MARK at the head of its queue writes Q_MARK and completes; it stays in flight if it writes a record. -/
theorem answers_mark {s : State} {q : Nat} {idx : Word} {c : BitVec 512} (hq : q < 256) (hv : s.viewHead q = .open_ idx c)
    (ho : opcodeOf c = 0x61) (ht : ∀ y ∈ (s.queue q).inflight, y.tok ≠ s.issued) : Answers (.mark q) s fun t =>
      (t.queue q).mark = BitVec.ofNat 32 (cf c 16 4) ∧ (t.queue q).inflight = (s.queue q).inflight ++
        if needsRecord c { status := St.ok } then [awaitingRecord s idx c] else [] := by
  have hu : isUnitOp (opcodeOf c) = false := by rw [ho]; rfl
  obtain ⟨w, completed⟩ := queue_completeOk (s := s.modQueue q fun x => { x with mark := BitVec.ofNat 32 (cf c 16 4) })
    (idx := idx) hu (by rw [State.queue_modQueue_self]; exact ht)
  refine answers_of (exec_mark q s) (decide_eq_true hq) ?_
  rw [runHead_open noCheck _ hv ho rfl, completed, headLeft_queue, State.queue_modQueue_self]
  exact ⟨rfl, rfl⟩

/-- R209, R269: of the MARKs that complete with OK only one that is QUIET and without IRQ writes no record. -/
theorem needsRecord_mark {c : BitVec 512} (ho : opcodeOf c = 0x61) :
    needsRecord c { status := St.ok } = (!quietOf c || bitAt (cf c 20 1) 0) := by
  simp [needsRecord, ho]

/-- Settles O5: a MARK writes Q_MARK and stays in flight when it needs a record; that record is stored whatever follows, since
neither the message nor the command's end writes memory. -/
theorem markAndItsRecord : Obligations.MarkAndItsRecord := by
  refine ⟨fun s q idx c hq hv ho ht => ⟨fun h => ?_, fun hquiet hirq => ?_⟩, ?_⟩
  · have recorded : needsRecord c { status := St.ok } = true := by
      rw [needsRecord_mark ho]
      rcases h with h | h <;> simp [h]
    have answered := answers_mark hq hv ho ht
    rw [recorded] at answered
    exact answered
  · have unrecorded : needsRecord c { status := St.ok } = false := by simp [needsRecord_mark ho, hquiet, hirq]
    have answered := answers_mark hq hv ho ht
    rw [unrecorded] at answered
    simpa using answered
  · rintro s q _ ph x d _ hq hl hx ho hi hs hd hok hc hrun htail hpin hhead rfl rfl he hf hturn hw hwf hp hb
    obtain ⟨m, cs, written⟩ := writeRecord_mark_irq (q := q) d ho hi he hw hp hb
    have ring : (s.withBytes ph (recordFor s q (ringOf x.cmd) x d) m).ring (ringOf x.cmd) = s.ring (ringOf x.cmd) :=
      ring_of_rings (by simp) _
    have completed := completeOne_only hok he hf hturn written (State.queue_of_queues (by simp) q) hx hrun hc hs
      ⟨hpin, htail, hhead⟩
    refine answers_of (exec_commandComplete hl hx hd) (decide_eq_true hq) ?_
    rw [completed]
    refine ⟨?_, by simp [ring], by simp, by simp, ?_⟩
    · have readBack := Mem.readN_writeN (recordFor s q (ringOf x.cmd) x d) s.ram ph hwf
      rw [length_recordFor] at readBack
      simpa [recordFor] using readBack
    · simpa using sent_recordSent cs (congrArg Ring.vector ring)

end Sys2Proof
end

section
/-!
SUPPORT. What O4 and O5 assume is met: a HALT and a MARK at the head of a queue of a released engine, and a MARK whose record is due.
-/
namespace Sys2Proof
open Sys2Proof.Machine

/-- A command whose upper 32 bytes are 0. -/
def lowCommand (c : BitVec 256) : BitVec 512 := c.setWidth' (by decide)

/-- A released engine with ring 0 enabled at address 0, its vector 0 free to be sent, and `y` as queue 0. -/
def withQueueZero (y : Queue) : State :=
  { State.reset with
    sys.pwrgd := true, sys.run := true
    queues := [(0, y)]
    rings := [(0, { size := 64, enabled := true })]
    host.linkUp := true, host.bme := true, host.msixEnable := true
    host.vectors := [(0, { masked := false })] }

/-- A RUNNING queue with command `c` at its head, at index 0. -/
def headedBy (c : BitVec 512) : Queue := { state := .running, tail := 1, fetched := [{ idx := 0, cmd := c }] }

/-! ### HALT -/

def haltCmd : BitVec 512 := lowCommand 0x05
/-- HALT with QUIET. -/
def quietHaltCmd : BitVec 512 := lowCommand 0x80000000_00000005

/-- What O4 assumes is met: a HALT behind a NOP in flight. -/
theorem halt_behind_nop_waits :
    Machine.exec (.halt 0) (withQueueZero { headedBy haltCmd with inflight := [{ tok := 0, idx := 7, cmd := 0, since := 0 }] }) =
      .next (withQueueZero { headedBy haltCmd with inflight := [{ tok := 0, idx := 7, cmd := 0, since := 0 }] }) :=
  haltHaltsItsQueue.1 _ 0 _ [] (by decide) rfl rfl rfl rfl (by decide) (by decide) (by decide)

/-- What O4 assumes is met: a HALT alone in its queue, which waits for its record. -/
theorem halt_alone_halts : Answers (.halt 0) (withQueueZero (headedBy haltCmd)) fun t =>
    (t.queue 0).state = .halted ∧ (t.queue 0).fetch = 1 ∧ (t.queue 0).inflight ≠ [] := by
  obtain ⟨t, ht, halted, -, -, fetch, recorded, -⟩ :=
    haltHaltsItsQueue.2.1 (withQueueZero (headedBy haltCmd)) 0 0 haltCmd (by decide) (by decide) (by decide) rfl
  exact ⟨t, ht, halted, fetch, by rw [recorded (by decide)]; exact List.cons_ne_nil _ _⟩

/-- What O4 assumes is met: a HALT with QUIET, of which nothing stays in flight. -/
theorem quiet_halt_alone_halts : Answers (.halt 0) (withQueueZero (headedBy quietHaltCmd)) fun t =>
    (t.queue 0).state = .halted ∧ (t.queue 0).inflight = [] := by
  obtain ⟨t, ht, halted, -, -, -, -, unrecorded⟩ :=
    haltHaltsItsQueue.2.1 (withQueueZero (headedBy quietHaltCmd)) 0 0 quietHaltCmd (by decide) (by decide) (by decide) rfl
  exact ⟨t, ht, halted, unrecorded (by decide)⟩

/-- What O4 assumes is met: RESUME after a HALT at index 0. -/
theorem halted_queue_resumes :
    Machine.exec (.qCtrlResume 0 8) (withQueueZero { state := .halted, haltCause := .haltInsn, tail := 2, fetch := 1 }) =
      .next (withQueueZero { state := .running, haltCause := .haltInsn, tail := 2, fetch := 1 }) :=
  haltHaltsItsQueue.2.2 _ 0 (by decide) rfl rfl rfl

/-! ### MARK -/

/-- MARK of VALUE 7. -/
def markCmd : BitVec 512 := lowCommand 0x00000007_0000000000000000_0000000000000061
/-- MARK of VALUE 7 with QUIET. -/
def quietMarkCmd : BitVec 512 := lowCommand 0x00000007_0000000000000000_8000000000000061
/-- MARK of VALUE 7 with QUIET and IRQ. -/
def quietMarkIrqCmd : BitVec 512 := lowCommand 0x00000001_00000007_0000000000000000_8000000000000061

/-- What O5 assumes is met: a MARK without QUIET. -/
theorem mark_waits_for_record : Answers (.mark 0) (withQueueZero (headedBy markCmd)) fun t =>
    (t.queue 0).mark = 7 ∧ (t.queue 0).inflight ≠ [] := by
  obtain ⟨t, ht, mark, recorded⟩ := (markAndItsRecord.1 (withQueueZero (headedBy markCmd)) 0 0 markCmd (by decide) (by decide)
    (by decide) (by decide)).1 (.inl (by decide))
  exact ⟨t, ht, mark, recorded ▸ List.cons_ne_nil _ _⟩

/-- What O5 assumes is met: a MARK with QUIET and IRQ. -/
theorem quiet_mark_irq_waits_for_record : Answers (.mark 0) (withQueueZero (headedBy quietMarkIrqCmd)) fun t =>
    (t.queue 0).mark = 7 ∧ (t.queue 0).inflight ≠ [] := by
  obtain ⟨t, ht, mark, recorded⟩ := (markAndItsRecord.1 (withQueueZero (headedBy quietMarkIrqCmd)) 0 0 quietMarkIrqCmd (by decide)
    (by decide) (by decide) (by decide)).1 (.inr (by decide))
  exact ⟨t, ht, mark, recorded ▸ List.cons_ne_nil _ _⟩

/-- What O5 assumes is met: a MARK with QUIET and without IRQ. -/
theorem quiet_mark_leaves_no_record : Answers (.mark 0) (withQueueZero (headedBy quietMarkCmd)) fun t =>
    (t.queue 0).mark = 7 ∧ (t.queue 0).inflight = [] :=
  (markAndItsRecord.1 (withQueueZero (headedBy quietMarkCmd)) 0 0 quietMarkCmd (by decide) (by decide) (by decide) (by decide)).2
    (by decide) (by decide)

/-- A MARK with QUIET and IRQ that has finished with OK. -/
def markFinished : Inflight :=
  { tok := 0, idx := 0, cmd := quietMarkIrqCmd, since := 0, done := some { status := St.ok } }

/-- Queue 0 of a released engine, in which only `markFinished` is in flight and the command after it is not fetched yet. -/
def markDue : State := withQueueZero { state := .running, tail := 2, fetch := 1, inflight := [markFinished] }

theorem writable_markDue : Writable markDue 0 32 0 :=
  ⟨⟨0, by decide, by decide, by decide, rfl, by decide, rfl⟩, by decide, by decide, rfl⟩

/-- What O5 assumes is met: the record of a MARK with QUIET and IRQ goes to address 0, and the message of its ring with it. -/
theorem quiet_mark_irq_record_and_message : Answers (.commandComplete 0 0) markDue fun t =>
    t.ram.readN 0 32 = recordBytes 0 markFinished { status := St.ok } 0 true ∧ (t.ring 0).tail = 1 ∧
      Tab.get 0 t.host.sent 0 = 1 := by
  obtain ⟨t, ht, record, tail, -, -, sent⟩ := markAndItsRecord.2 markDue 0 0 0 markFinished { status := St.ok } (markDue.ring 0)
    (by decide) rfl rfl (by decide) (by decide) (by decide) rfl rfl rfl rfl (by decide) rfl (by decide) (by decide) rfl rfl rfl
    (by decide) writable_markDue rfl rfl rfl
  exact ⟨t, ht, record, tail, sent⟩

end Sys2Proof
end

section
/-!
SUPPORT. Counters of the register blocks that lie between the memory block (0x34_0000) and the fault collector (0x60_0000) in BAR0:
neither a report nor a memory access writes one, and of what a command does as it completes only a dropped signal does (R420).
-/
namespace Sys2Proof
open Sys2Proof.Machine

/-- A counter between the memory block and the fault collector: of a ring, an engine, a cluster, a channel or the sync unit. -/
def UnitCounter (a : Nat) : Prop := 0x380000 ≤ a ∧ a < 0x600000

theorem unitCounter_syn {i : Nat} (h : i ≤ 10) : UnitCounter (Cnt.syn i) := by
  simp only [UnitCounter, Cnt.syn]
  omega

theorem UnitCounter.not_mem_reportCells {a : Nat} (h : UnitCounter a) (det : Nat) : a ∉ reportCells det := by
  simp only [UnitCounter] at h
  simp only [reportCells, Cnt.host, Cnt.det, Cnt.grp, List.mem_cons, List.not_mem_nil, or_false, not_or]
  omega

theorem UnitCounter.not_mem_blockedCells {a : Nat} (h : UnitCounter a) : a ∉ blockedCells :=
  fun m => h.not_mem_reportCells 0 (.tail _ (.tail _ m))

theorem UnitCounter.ne_det {a : Nat} (h : UnitCounter a) (det : Nat) : Cnt.det det ≠ a :=
  fun e => h.not_mem_reportCells det (e ▸ .head _)

theorem UnitCounter.ne_grp {a : Nat} (h : UnitCounter a) (det : Nat) : Cnt.grp (det / 8) ≠ a :=
  fun e => h.not_mem_reportCells det (e ▸ .tail _ (.head _))

theorem UnitCounter.ne_unbacked {a : Nat} (h : UnitCounter a) : Cnt.unbacked ≠ a := by
  simp only [UnitCounter, Cnt.unbacked] at *
  omega

/-- Table REG-14: the counters of the twelve controllers end below 0x34_0700. -/
theorem UnitCounter.ne_memErr {a k off : Nat} (h : UnitCounter a) (hk : k < 12) (ho : off < 0x40) : Cnt.memErr k off ≠ a := by
  simp only [UnitCounter, Cnt.memErr] at *
  omega

theorem counter_of_counters {s t : State} (h : t.counters = s.counters) (a : Nat) : t.counter a = s.counter a := by
  simp [State.counter, h]

theorem counter_countN_ne (s : State) {a b : Nat} (n : Nat) (h : a ≠ b) : (s.countN a n).counter b = s.counter b := by
  rw [State.counter_countN, if_neg h]

theorem counter_setCtrl (s : State) (k : Nat) (v : MemPort) (a : Nat) : (s.setCtrl k v).counter a = s.counter a := rfl

theorem counter_modCtrl (s : State) (k : Nat) (f : MemPort → MemPort) (a : Nat) : (s.modCtrl k f).counter a = s.counter a := rfl

/-! ### Reports -/

theorem UnitCounter.eventC_keeps {a : Nat} (h : UnitCounter a) (s : State) (det : Nat) (u : UnitId) (d : Nat) (via : List Nat) :
    (s.eventC det u d via).counter a = s.counter a :=
  counter_eventC_other s det u d via a (h.not_mem_reportCells det)

theorem UnitCounter.logU_keeps {a : Nat} (h : UnitCounter a) (s : State) (det : Nat) (u : UnitId) (g : Option Nat) (d : Nat) (i : Bool)
    (b : BitVec 6) : (s.logU det u g d i b).counter a = s.counter a := by
  rw [counter_logU _ _ _ _ _ _ _ _ h.not_mem_blockedCells, State.countDet, counter_count_ne _ (h.ne_det det)]

theorem UnitCounter.contain_keeps {a : Nat} (h : UnitCounter a) (s : State) (det : Nat) (u : UnitId) (t d : Nat) (i : Bool) :
    (s.contain det u t d i).1.counter a = s.counter a := by
  have target (v : Target) : (s.setTgt t v).counter a = s.counter a := rfl
  unfold State.contain
  dsimp only
  split
  case h_1 => rw [h.logU_keeps, target]
  all_goals
    split
    · rw [h.logU_keeps, target]
    · rw [h.eventC_keeps, h.logU_keeps, target]

theorem UnitCounter.eventU_keeps {a : Nat} (h : UnitCounter a) (s : State) (det : Nat) (u : UnitId) (g : Option Nat) (d : Nat)
    (via : List Nat) : (s.eventU det u g d via).1.counter a = s.counter a := by
  unfold State.eventU
  split
  · rw [counter_logIrq _ _ _ h.not_mem_blockedCells, counter_eventCN _ _ _ _ _ _ _ _ _ h.not_mem_blockedCells]
    rw [counter_count_ne _ (h.ne_grp det), State.countDet, counter_count_ne _ (h.ne_det det)]
  · split
    · exact h.logU_keeps _ _ _ _ _ _ _
    · exact h.contain_keeps _ _ _ _ _ _

theorem UnitCounter.count_eventC_keeps {a b : Nat} (h : UnitCounter a) (hb : b ≠ a) (s : State) (det : Nat) (u : UnitId) (d : Nat) :
    ((s.count b).eventC det u d).counter a = s.counter a := by
  rw [h.eventC_keeps, counter_count_ne _ hb]

theorem UnitCounter.unbackedEvent_keeps {a : Nat} (h : UnitCounter a) (s : State) (x : Nat) :
    (s.unbackedEvent x).counter a = s.counter a := h.count_eventC_keeps h.ne_unbacked _ _ _ _

/-! ### Memory -/

/-- R126–R128: an address is of one of 12 controllers. -/
theorem controller_lt {s : State} {a k ph : Nat} (h : s.locate a = some (k, ph)) : k < 12 := by
  unfold State.locate State.slice at h
  dsimp only at h
  split at h
  next =>
    split at h <;> split at h
    all_goals
      simp only [Option.map_none, Option.map_some, reduceCtorEq, Option.some.injEq, Prod.mk.injEq] at h
    all_goals omega
  next =>
    split at h
    · simp at h
    · split at h
      · split at h
        · simp only [Option.some.injEq, Prod.mk.injEq] at h
          omega
        · simp at h
      · simp at h

theorem UnitCounter.repairCand_keeps {a : Nat} (h : UnitCounter a) (s : State) (k pg : Nat) :
    (s.repairCand k pg).counter a = s.counter a := by
  unfold State.repairCand
  dsimp only
  split
  · exact h.eventC_keeps _ _ _ _ _
  · rfl

theorem UnitCounter.correct_keeps {a k : Nat} (h : UnitCounter a) (hk : k < 12) (s : State) (x pg n : Nat)
    (left errs : List (Nat × Nat)) : (s.correct k x pg n left errs).counter a = s.counter a := by
  have pages : Cnt.memErr k Cnt.corrPages ≠ a := h.ne_memErr hk (by decide)
  have symbols : Cnt.memErr k Cnt.corrSymbols ≠ a := h.ne_memErr hk (by decide)
  have skips : Cnt.memErr k Cnt.wbSkip ≠ a := h.ne_memErr hk (by decide)
  have counted : ((s.count (Cnt.memErr k Cnt.corrPages)).countN (Cnt.memErr k Cnt.corrSymbols) n).counter a = s.counter a := by
    rw [counter_countN_ne _ _ symbols, counter_count_ne _ pages]
  unfold State.correct
  dsimp only
  rw [h.repairCand_keeps]
  split
  · rw [h.eventC_keeps]
    exact counted
  · split
    · rw [counter_setCtrl, h.eventC_keeps]
      exact counted
    · rw [h.count_eventC_keeps skips, h.eventC_keeps]
      exact counted

theorem UnitCounter.fetchPage_keeps {a k : Nat} (h : UnitCounter a) (hk : k < 12) (s : State) (x pg : Nat) :
    (s.fetchPage x k pg).1.counter a = s.counter a := by
  unfold State.fetchPage
  split
  · exact counter_count_ne _ (h.ne_memErr hk (by decide))
  · split
    · rfl
    · split
      · rfl
      · split
        · rfl
        · rw [counter_modCtrl, h.correct_keeps hk]

theorem UnitCounter.injectOn_keeps {a k : Nat} (h : UnitCounter a) (hk : k < 12) (s : State) (x pg : Nat) :
    (s.injectOn x k pg).counter a = s.counter a := by
  unfold State.injectOn
  split
  · rw [h.count_eventC_keeps (h.ne_memErr hk (by decide))]
    rfl
  · rfl

theorem UnitCounter.storeNarrow_keeps {a k : Nat} (h : UnitCounter a) (hk : k < 12) (s : State) (x ph : Nat) (bs : List Byte) :
    (s.storeNarrow x k ph bs).1.counter a = s.counter a := by
  have fetched := h.fetchPage_keeps hk s x (ph / 2048 * 2048)
  unfold State.storeNarrow
  dsimp only
  split
  next e => rwa [e] at fetched
  next e =>
    rw [e] at fetched
    exact (h.injectOn_keeps hk _ _ _).trans fetched

theorem UnitCounter.storePart_keeps {a : Nat} (h : UnitCounter a) (s : State) (x : Nat) (bs : List Byte) :
    (s.storePart x bs).1.counter a = s.counter a := by
  unfold State.storePart
  split
  next => rfl
  next k ph located =>
    have hk := controller_lt located
    split
    · exact h.injectOn_keeps hk _ _ _
    · split
      · exact h.count_eventC_keeps (h.ne_memErr hk (by decide)) _ _ _ _
      · exact h.storeNarrow_keeps hk _ _ _ _

theorem UnitCounter.storeParts_keeps {a : Nat} (h : UnitCounter a) (s : State) (ps : List (Nat × Nat)) (bs : List Byte) :
    (s.storeParts ps bs).1.counter a = s.counter a := by
  induction ps generalizing s bs with
  | nil => rfl
  | cons p ps ih =>
    have part := h.storePart_keeps s p.1 (bs.take p.2)
    unfold State.storeParts
    split
    next e =>
      rw [e] at part
      exact (ih _ _).trans part
    next e => rwa [e] at part

theorem UnitCounter.store_keeps {a : Nat} (h : UnitCounter a) {s t : State} {x : Nat} {bs : List Byte} {r : Stored}
    (e : s.store x bs = (t, r)) : t.counter a = s.counter a := by
  have kept := h.storeParts_keeps s (extent x bs.length) bs
  rw [State.store] at e
  rwa [e] at kept

/-! ### Completion -/

theorem UnitCounter.writeHead_keeps {a : Nat} (h : UnitCounter a) (s : State) (q : Nat) : (s.writeHead q).counter a = s.counter a := by
  unfold State.writeHead
  dsimp only
  split
  next e => exact (h.store_keeps e :)
  next e => exact (h.store_keeps e :)
  next e => exact (h.eventU_keeps _ _ _ _ _ _).trans (h.store_keeps e :)
  next e => exact (h.unbackedEvent_keeps _ _).trans (h.store_keeps e :)

theorem UnitCounter.headDue_keeps {a : Nat} (h : UnitCounter a) (s : State) (q : Nat) : (s.headDue q).counter a = s.counter a := by
  unfold State.headDue
  dsimp only
  split
  · exact h.writeHead_keeps s q
  · rfl

/-- R398, R420: a signal counts only where its tally is ABANDONED. -/
theorem UnitCounter.putTally_keeps {a : Nat} (h : UnitCounter a) (ha : Cnt.syn 8 ≠ a) (s : State) (t : Nat) (v : DWord) :
    (s.putTally t v).counter a = s.counter a := by
  unfold State.putTally
  dsimp only
  split
  · exact h.count_eventC_keeps ha _ _ _ _
  · exact counter_of_counters (by simp) a

/-- R216, R217: of what a retirement does only the signal can count, as SIG_DROPPED. -/
theorem UnitCounter.retire_keeps {a : Nat} (h : UnitCounter a) (ha : Cnt.syn 8 ≠ a) (s : State) (q : Nat) (x : Inflight) (d : Done) :
    (s.retire q x d).counter a = s.counter a := by
  have freed : ((s.freeChan q x d.status).modQueue q (·.without x.tok)).counter a = s.counter a :=
    counter_of_counters (by simp) a
  rw [State.retire_eq, h.headDue_keeps]
  unfold State.onlyIf
  split
  · exact (h.putTally_keeps ha _ _ _).trans freed
  · exact freed

theorem UnitCounter.failPolicy_keeps {a : Nat} (h : UnitCounter a) (s : State) (q : Nat) (idx : Word) (status : Nat) :
    (s.failPolicy q idx status).counter a = s.counter a := by
  unfold State.failPolicy State.haltQueue
  dsimp only
  split
  · rfl
  · split
    · exact h.writeHead_keeps _ _
    · rfl

theorem UnitCounter.finish_keeps {a : Nat} (h : UnitCounter a) (ha : Cnt.syn 8 ≠ a) (s : State) (q tok : Nat) (d : Done) :
    (s.finish q tok d).counter a = s.counter a := by
  unfold State.finish
  split
  · rfl
  · dsimp only
    rw [h.failPolicy_keeps]
    split
    · rfl
    · exact h.retire_keeps ha _ _ _ _

theorem UnitCounter.completeHead_keeps {a : Nat} (h : UnitCounter a) (ha : Cnt.syn 8 ≠ a) (s : State) (q : Nat) (idx : Word)
    (c : BitVec 512) (d : Done) : (s.completeHead q idx c d).counter a = s.counter a :=
  (h.finish_keeps ha _ _ _ _).trans (counter_of_counters (by simp) a)

end Sys2Proof
end

section
/-!
SUPPORT. REMOTE_SIGNAL to a lost member (R404).
-/
namespace Sys2Proof
open Sys2Proof.Machine

theorem exec_remoteSignal (q : Nat) (s : State) : Machine.exec (.remoteSignal q) s = within (Instr.remoteSignal q).wf
    (s.runHead q 0x22 remoteCheck fun s idx c => s.remoteSend q idx c) := rfl

/-- R404: `s` after the REMOTE_SIGNAL at the head of queue `q` has completed with its message discarded and counted. -/
def remoteDiscarded (s : State) (q : Nat) (idx : Word) (c : BitVec 512) : State :=
  ((s.completeOk q idx c).count (Cnt.syn 4)).eventC Det.remoteToLost .sync (cf c 16 2)

theorem remoteSend_lost {s : State} {q : Nat} {c : BitVec 512} (idx : Word) (ht : s.syncTakes q = true) (hd : cf c 16 2 ≠ s.self)
    (hl : s.ce.lost.contains (cf c 16 2) = true) : s.remoteSend q idx c = remoteDiscarded s q idx c := by
  simp only [State.remoteSend, ht, hd, hl, Bool.not_true, Bool.false_eq_true, if_false, if_true, remoteDiscarded]

/-- R404: the REMOTE_SIGNAL that issues to a lost member. -/
theorem exec_remoteSignal_lost {s : State} {q : Nat} {idx : Word} {c : BitVec 512} (hq : q < 256)
    (hv : s.viewHead q = .open_ idx c) (ho : opcodeOf c = 0x22) (ht : s.syncTakes q = true) (hc : remoteCheck s c = none)
    (hd : cf c 16 2 ≠ s.self) (hl : s.ce.lost.contains (cf c 16 2) = true) :
    Machine.exec (.remoteSignal q) s = .next (remoteDiscarded s q idx c) :=
  exec_of (exec_remoteSignal q s) (decide_eq_true hq)
    ((runHead_open remoteCheck _ hv ho hc).trans (remoteSend_lost idx ht hd hl))

theorem reported_remoteDiscarded (s : State) (q : Nat) (idx : Word) (c : BitVec 512) :
    Reported Det.remoteToLost ((s.completeOk q idx c).count (Cnt.syn 4)) (remoteDiscarded s q idx c) :=
  reported_eventC _ _ _ _ _ (by decide) (by decide)

theorem queue_remoteDiscarded (s : State) (q : Nat) (idx : Word) (c : BitVec 512) :
    (remoteDiscarded s q idx c).queue q = (s.completeOk q idx c).queue q :=
  (reported_remoteDiscarded s q idx c).1.queue_eq q

theorem cueQ_remoteDiscarded (s : State) (q : Nat) (idx : Word) (c : BitVec 512) : (remoteDiscarded s q idx c).cueQ = s.cueQ :=
  (reported_remoteDiscarded s q idx c).1.cueQ.trans (by simp [State.completeOk])

/-- R404: REMOTE_TO_LOST of the sync unit rises by 1, whatever the completion does besides. -/
theorem remoteToLost_remoteDiscarded (s : State) (q : Nat) (idx : Word) (c : BitVec 512) :
    (remoteDiscarded s q idx c).counter (Cnt.syn 4) = risen (s.counter (Cnt.syn 4)) 1 := by
  have unit : UnitCounter (Cnt.syn 4) := unitCounter_syn (by decide)
  rw [remoteDiscarded, unit.eventC_keeps, counter_count_self]
  exact congrArg (risen · 1) (unit.completeHead_keeps (by decide) s q idx c _)

/-- Settles O6: the command completes with OK and the rest is a count and a report. With its record due, it stays in flight; with
QUIET it leaves its queue, and neither its signal nor the write of HEAD sends a message or counts in REMOTE_TO_LOST. -/
theorem remoteSignalToALostMember : Obligations.RemoteSignalToALostMember := by
  intro s q idx c hq hv ho ht hs hc hd hl
  have answer := exec_remoteSignal_lost hq hv ho hs hc hd hl
  have hu : isUnitOp (opcodeOf c) = false := by rw [ho]; rfl
  refine ⟨fun hr => ⟨_, answer, ?_⟩, fun hr => ⟨_, answer, ?_⟩⟩
  · rw [← completeOk_head ⟨hv, hr, ht⟩ hu]
    exact reported_remoteDiscarded s q idx c
  · have unrecorded : needsRecord c { status := St.ok } = false := by simp [needsRecord, hr, ho]
    obtain ⟨w, completed⟩ := queue_completeOk (idx := idx) hu ht
    have left := (queue_remoteDiscarded s q idx c).trans completed
    rw [headLeft_queue, unrecorded] at left
    exact ⟨congrArg Queue.fetch left, by simp [left], cueQ_remoteDiscarded s q idx c, remoteToLost_remoteDiscarded s q idx c⟩

/-! ### What O6 assumes is met -/

/-- An image of which SELF is member 0 and whose roster, at offset 0x1000, gives member 5 the EUI-64 1. -/
def rosterOfFive : Mem := (Mem.write [] 129 0x10).write 0x1028 1

/-- A released engine under the score `rosterOfFive`, with member 5 lost and command `c` at the head of queue 0. -/
def fiveLost (c : BitVec 512) : State :=
  { withQueueZero (headedBy c) with
    score.member := true, score.active := 0, score.bankA := rosterOfFive
    ce.lost := [5] }

/-- REMOTE_SIGNAL of INC 1 to tally 300 of member 5. -/
def signalFive : BitVec 512 := lowCommand 0x00000001_00000000_012C0005_0000000000000000_0000000000000022
/-- The same with QUIET and a header signal of 1 to tally 64. -/
def quietSignalFive : BitVec 512 := lowCommand 0x00000001_00000000_012C0005_0000000000000000_8040040000000022

/-- What O6 assumes is met: a REMOTE_SIGNAL to lost member 5 that waits for its record. -/
theorem remote_signal_to_five_waits_for_record : Answers (.remoteSignal 0) (fiveLost signalFive) fun t =>
    (t.queue 0).inflight ≠ [] ∧ t.counter (Cnt.syn 4) = 1 := by
  obtain ⟨t, ht, reported, -, others⟩ := (remoteSignalToALostMember (fiveLost signalFive) 0 0 signalFive (by decide) (by decide)
    (by decide) (by decide) (by decide) (by decide) (by decide) (by decide)).1 (by decide)
  refine ⟨t, ht, ?_, ?_⟩
  · rw [reported.queue_eq]
    decide
  · rw [others _ ((unitCounter_syn (by decide)).not_mem_reportCells _)]
    decide

/-- What O6 assumes is met: a REMOTE_SIGNAL to lost member 5 that is QUIET leaves its queue, though it signals a tally. -/
theorem quiet_remote_signal_to_five_is_gone : Answers (.remoteSignal 0) (fiveLost quietSignalFive) fun t =>
    (t.queue 0).fetch = 1 ∧ (t.queue 0).inflight = [] ∧ t.cueQ = [] ∧ t.counter (Cnt.syn 4) = 1 :=
  (remoteSignalToALostMember (fiveLost quietSignalFive) 0 0 quietSignalFive (by decide) (by decide) (by decide) (by decide)
    (by decide) (by decide) (by decide) (by decide)).2 (by decide)

end Sys2Proof
end

section
/-!
SUPPORT. What a step keeps of memory and of the queue of waiting commands: the canonical form, the queue, and every byte where the
command stores nothing.
-/
namespace Sys2Proof
open Sys2Proof.Machine

/-- Settles O7: a step is a beat of the clock or the front command, and both keep the canonical form. -/
theorem memoryStaysCanonical : Obligations.MemoryStaysCanonical := by
  intro s t hw hs
  unfold Machine.step at hs
  split at hs
  · obtain rfl := Host.Outcome.next.inj hs
    exact tick_wf s hw
  · exact (exec_keeps _ _ _ hs).2 hw

/-- What O7 assumes is met: the step of a reset engine, on an empty queue. -/
theorem step_of_reset_is_canonical : State.reset.tick.ram.wf = true := memoryStaysCanonical State.reset _ rfl rfl

/-- Settles O13: what `exec_keeps` says of every command. -/
theorem commandsLeaveTheQueue : Obligations.CommandsLeaveTheQueue := fun c s t h => (exec_keeps c s t h).1

/-- What O13 assumes is met: LOAD at the front of a queue in which DISCARD waits. -/
theorem discard_waits_behind_load :
    ∃ t, Machine.exec .scoreLoad { State.reset with pending := [.scoreDiscard] } = .next t ∧ t.pending = [.scoreDiscard] :=
  ⟨_, rfl, commandsLeaveTheQueue .scoreLoad { State.reset with pending := [.scoreDiscard] } _ rfl⟩

/-- The meaning of each command that stores nothing leaves the memory alone. -/
theorem ram_of_storesNothing {c : Instr} {s t : State} (hc : storesNothing c = true) (h : Machine.exec c s = .next t) :
    t.ram = s.ram := by
  cases c with
  | referenceLoss _ => exact (execReferenceLoss_keeps _ _ _ h).2
  | downbeatPulse _ _ => exact (execDownbeatPulse_keeps _ _ _ _ h).2
  | downbeatMissing => exact (execDownbeatMissing_keeps _ _ h).2
  | tactCtrlWrite _ _ => exact (execTactCtrlWrite_keeps _ _ _ _ h).2
  | tailSlotTx _ _ => exact (execTailSlotTx_keeps _ _ _ _ h).2
  | portDownbeat _ => exact (execPortDownbeat_keeps _ _ _ h).2
  | trainingDone _ => exact (execTrainingDone_keeps _ _ _ h).2
  | framingTimeout _ => exact (execFramingTimeout_keeps _ _ _ h).2
  | portRetrain _ => exact (execPortRetrain_keeps _ _ _ h).2
  | rollCall _ _ => exact (execRollCall_keeps _ _ _ _ h).2
  | here _ _ => exact (execHere_keeps _ _ _ _ h).2
  | hold _ _ => exact (execHold_keeps _ _ _ _ h).2
  | bankWrite _ _ _ _ => exact (execBankWrite_keeps _ _ _ _ _ _ h).2
  | scoreLoad => exact (execScoreLoad_keeps _ _ h).2
  | scoreDiscard => exact (execScoreDiscard_keeps _ _ h).2
  | loadCheckDone => exact (execLoadCheckDone_keeps _ _ h).2
  | scrTargetWrite _ => exact (execScrTargetWrite_keeps _ _ _ h).2
  | rootstockRelease => exact (execRootstockRelease_keeps _ _ h).2
  | rmwWriteDone _ => exact (execRmwWriteDone_keeps _ _ _ h).2
  | recodeStart _ => exact (execRecodeStart_keeps _ _ _ h).2
  | leaseAccount => exact (execLeaseAccount_keeps _ _ h).2
  | leaseBreach _ => exact (execLeaseBreach_keeps _ _ _ h).2
  | leaseBreachEnd _ => exact (execLeaseBreachEnd_keeps _ _ _ h).2
  | regionAttrWrite _ _ => exact (execRegionAttrWrite_keeps _ _ _ _ h).2
  | regionBoundWrite _ _ _ => exact (execRegionBoundWrite_keeps _ _ _ _ _ h).2
  | poisonQuery _ => exact (execPoisonQuery_keeps _ _ _ h).2
  | injectArm _ => exact (execInjectArm_keeps _ _ _ h).2
  | qFetchWrite _ _ => exact (execQFetchWrite_keeps _ _ _ _ h).2
  | qWatchdogWrite _ _ => exact (execQWatchdogWrite_keeps _ _ _ _ h).2
  | crCtrlEnable _ => exact (execCrCtrlEnable_keeps _ _ _ h).2
  | crCtrlDisable _ => exact (execCrCtrlDisable_keeps _ _ _ h).2
  | crHeadWrite _ _ => exact (execCrHeadWrite_keeps _ _ _ _ h).2
  | crIrqDelay _ => exact (execCrIrqDelay_keeps _ _ _ h).2
  | rootStagingRelease _ _ => exact (execRootStagingRelease_keeps _ _ _ _ h).2
  | lateDiscard _ _ => exact (execLateDiscard_keeps _ _ _ _ h).2
  | ceLostDeclare _ => exact (execCeLostDeclare_keeps _ _ _ h).2
  | cancel => exact (execCancel_keeps _ _ h).2
  | returnUnit => exact (execReturnUnit_keeps _ _ h).2
  | probationPass _ => exact (execProbationPass_keeps _ _ _ h).2
  | graftSlotRx _ _ => exact (execGraftSlotRx_keeps _ _ _ _ h).2
  | prepare _ _ => exact (execPrepare_keeps _ _ _ _ h).2
  | ack _ _ => exact (execAck_keeps _ _ _ _ h).2
  | ackDeadline => exact (execAckDeadline_keeps _ _ h).2
  | graftDecide => exact (execGraftDecide_keeps _ _ h).2
  | commit _ _ => exact (execCommit_keeps _ _ _ _ h).2
  | abort _ _ => exact (execAbort_keeps _ _ _ _ h).2
  | noDecision => exact (execNoDecision_keeps _ _ h).2
  | wfi _ _ => exact (execWfi_keeps _ _ _ _ h).2
  | coreWake _ _ => exact (execCoreWake_keeps _ _ _ _ h).2
  | olswpendClear _ _ _ => exact (execOlswpendClear_keeps _ _ _ _ _ h).2
  | dmaGo _ => exact (execDmaGo_keeps _ _ _ h).2
  | dmaArm _ => exact (execDmaArm_keeps _ _ _ h).2
  | dmaDisarm _ => exact (execDmaDisarm_keeps _ _ _ h).2
  | dmaAbort _ => exact (execDmaAbort_keeps _ _ _ h).2
  | dmaClear _ => exact (execDmaClear_keeps _ _ _ h).2
  | dmaChCfgWrite _ _ => exact (execDmaChCfgWrite_keeps _ _ _ _ h).2
  | dmaStart _ => exact (execDmaStart_keeps _ _ _ h).2
  | landingSegmentDone _ _ _ => exact (execLandingSegmentDone_keeps _ _ _ _ _ h).2
  | streamEntryExpiry _ _ => exact (execStreamEntryExpiry_keeps _ _ _ _ h).2
  | dmaShareWrite _ => exact (execDmaShareWrite_keeps _ _ _ h).2
  | dmaLandCtrlWrite _ _ => exact (execDmaLandCtrlWrite_keeps _ _ _ _ h).2
  | tallySet _ _ => exact (execTallySet_keeps _ _ _ _ h).2
  | tallyCfgWrite _ _ => exact (execTallyCfgWrite_keeps _ _ _ _ h).2
  | tallyRearm _ _ => exact (execTallyRearm_keeps _ _ _ _ h).2
  | barrierArm _ => exact (execBarrierArm_keeps _ _ _ h).2
  | barrierDisarm _ => exact (execBarrierDisarm_keeps _ _ _ h).2
  | barrierRearm _ => exact (execBarrierRearm_keeps _ _ _ h).2
  | wakeSrcWrite _ _ => exact (execWakeSrcWrite_keeps _ _ _ _ h).2
  | wakeThreshWrite _ _ => exact (execWakeThreshWrite_keeps _ _ _ _ h).2
  | wakeFire _ => exact (execWakeFire_keeps _ _ _ h).2
  | remoteSignalMsg _ => exact (execRemoteSignalMsg_keeps _ _ _ h).2
  | dlCfgWrite _ _ => exact (execDlCfgWrite_keeps _ _ _ _ h).2
  | blockResetRelease _ => exact (execBlockResetRelease_keeps _ _ _ h).2
  | shadowClose _ => exact (execShadowClose_keeps _ _ _ h).2
  | recovered _ => exact (execRecovered_keeps _ _ _ h).2
  | fcTgtClear _ => exact (execFcTgtClear_keeps _ _ _ h).2
  | fcInject _ => exact (execFcInject_keeps _ _ _ h).2
  | safeRequest _ => exact (execSafeRequest_keeps _ _ _ h).2
  | mirrorSelect _ => exact (execMirrorSelect_keeps _ _ _ h).2
  | lockstep _ => exact (execLockstep_keeps _ _ _ h).2
  | pwrgdLost => exact (execPwrgdLost_keeps _ _ h).2
  | joinRequest _ _ => exact (execJoinRequest_keeps _ _ _ _ h).2
  | joinGo => exact (execJoinGo_keeps _ _ h).2
  | joinAdmit _ _ => exact (execJoinAdmit_keeps _ _ _ _ h).2
  | joinRefuse _ _ => exact (execJoinRefuse_keeps _ _ _ _ h).2
  | joinEntryExpiry _ => exact (execJoinEntryExpiry_keeps _ _ _ h).2
  | ptmDialog _ => exact (execPtmDialog_keeps _ _ _ h).2
  | msixTableWrite _ _ => exact (execMsixTableWrite_keeps _ _ _ _ h).2
  | configSpaceWrite _ => exact (execConfigSpaceWrite_keeps _ _ _ h).2
  | getInfo _ => exact (execGetInfo_keeps _ _ _ h).2
  | readLastgasp _ => exact (execReadLastgasp_keeps _ _ _ h).2
  | clearLastgasp _ => exact (execClearLastgasp_keeps _ _ _ h).2
  | readSensors _ => exact (execReadSensors_keeps _ _ _ h).2
  | jtagNonce _ _ => exact (execJtagNonce_keeps _ _ _ _ h).2
  | jtagUnlock _ _ _ => exact (execJtagUnlock_keeps _ _ _ _ _ h).2
  | advanceRollback _ => exact (execAdvanceRollback_keeps _ _ _ h).2
  | revokeKey _ _ _ => exact (execRevokeKey_keeps _ _ _ _ _ h).2
  | pldmFirmwareUpdate _ _ _ _ => exact (execPldmFirmwareUpdate_keeps _ _ _ _ _ _ h).2
  | spdmRequest _ _ => exact (execSpdmRequest_keeps _ _ _ _ h).2
  | pldmSensorRefresh _ => exact (execPldmSensorRefresh_keeps _ _ _ h).2
  | cxlRetrain _ => exact (execCxlRetrain_keeps _ _ _ h).2
  | corePllUnlock => exact (execCorePllUnlock_keeps _ _ h).2
  | crossingErr => exact (execCrossingErr_keeps _ _ h).2
  | powerSample _ => exact (execPowerSample_keeps _ _ _ h).2
  | tjMax _ => exact (execTjMax_keeps _ _ _ h).2
  | thermTrip => exact (execThermTrip_keeps _ _ h).2
  | railWarn _ => exact (execRailWarn_keeps _ _ _ h).2
  | railFault _ => exact (execRailFault_keeps _ _ _ h).2
  | vpHoldDown _ _ => exact (execVpHoldDown_keeps _ _ _ _ h).2
  | ceLateRead _ _ => exact (execCeLateRead_keeps _ _ _ _ h).2
  | rcRead _ _ => exact (execRcRead_keeps _ _ _ _ h).2
  | vstbyUp => exact (execVstbyUp_keeps _ _ h).2
  | vstbyLoss => exact (execVstbyLoss_keeps _ _ h).2
  | hostLinkUp _ _ _ => exact (execHostLinkUp_keeps _ _ _ _ _ h).2
  | cxlRetrainDone _ => exact (execCxlRetrainDone_keeps _ _ _ h).2
  | hotRefresh _ _ => exact (execHotRefresh_keeps _ _ _ _ h).2
  | phyRetrain _ _ => exact (execPhyRetrain_keeps _ _ _ _ h).2
  | thermTripRelease _ => exact (execThermTripRelease_keeps _ _ _ h).2
  | coreReinitialised _ _ => exact (execCoreReinitialised_keeps _ _ _ _ h).2
  | mctpControl _ _ => exact (execMctpControl_keeps _ _ _ _ h).2
  | pldmPlatformRequest _ _ => exact (execPldmPlatformRequest_keeps _ _ _ _ h).2
  | tapInstruction _ => exact (execTapInstruction_keeps _ _ _ h).2
  | _ => exact absurd hc Bool.false_ne_true

/-- Settles O14: the memory is the same, so each byte of it is. -/
theorem commandsThatStoreNothing : Obligations.CommandsThatStoreNothing :=
  fun _ _ _ hc h _ => by rw [ram_of_storesNothing hc h]

/-- What O14 assumes is met: an engine whose address 5 holds 7 raises RAIL_FAULT, a command that stores nothing. -/
theorem rail_fault_leaves_the_byte_at_five :
    ∃ t, Machine.exec (.railFault 0) { State.reset with sys.pwrgd := true, ram := [(5, 7)] } = .next t ∧ t.ram.read 5 = 7 :=
  ⟨_, rfl, commandsThatStoreNothing (.railFault 0) { State.reset with sys.pwrgd := true, ram := [(5, 7)] } _ rfl rfl 5⟩

end Sys2Proof
end

section
/-!
SUPPORT. Beats that pass, and DOWNBEAT of an engine that has not locked since reset (R44, R435, R439, R455).
-/
namespace Sys2Proof.Machine

/-- Reading a table of which every value was changed, where the change keeps the default. -/
theorem Tab.get_mapVals {α : Type} (d : α) (f : Nat → α → α) (hd : ∀ k, f k d = d) (t : Tab α) (k : Nat) :
    Tab.get d (Tab.mapVals f t) k = f k (Tab.get d t k) := by
  induction t with
  | nil => exact (hd k).symm
  | cons x t ih =>
    obtain ⟨k', v⟩ := x
    simp only [Tab.mapVals, Tab.get]
    split
    · next h => rw [h]
    · exact ih

/-- The count moved on to the next downbeat stands at beat 0. -/
theorem toDownbeat_mod (x : Stamp) : (x + BitVec.ofNat 56 (4096 - x.toNat % 4096)).toNat % 4096 = 0 := by
  have hx := x.isLt
  rw [BitVec.toNat_add, BitVec.toNat_ofNat]
  omega

/-- R439: the quiet count of a target at a downbeat. -/
theorem State.tgt_quietDownbeat (s : State) (k : Nat) : s.quietDownbeat.tgt k = { s.tgt k with
    named := false
    quiet := if (s.tgt k).state = .contained then (if (s.tgt k).named then 0 else min 0xFFFF ((s.tgt k).quiet + 1))
      else (s.tgt k).quiet } :=
  Tab.get_mapVals _ _ (fun _ => rfl) _ _

end Sys2Proof.Machine

namespace Sys2Proof
open Sys2Proof.Machine

/-- R221: stalls of full rings are counted and reported. -/
theorem butReports_countStalls (s : State) (n : Nat) : ButReports s (s.countStalls n) :=
  ButReports.forEach _ _ (fun _ _ => by simp) (ButReports.rfl' s)

/-- R221, R427: of beats that pass, the count of beats, the deadlock detector and reports tell. -/
theorem elapse_but (s : State) (n : Nat) : ∃ sy, ButReports { s with now := s.now + n, sync := sy } (s.elapse n) := by
  have stalls := butReports_countStalls { s with now := s.now + n } n
  unfold State.elapse State.dlBeats
  split
  · exact ⟨_, stalls.map (fun u => { u with sync.dlCount := u.sync.dlCount + n }) rfl⟩
  · exact ⟨_, stalls.map (fun u => { u with sync.dlCount := 0, sync.dlDisarmed := false }) rfl⟩

/-- The engine at the downbeat, before anything is done at it. -/
theorem toDownbeat_but (s : State) : ∃ sy, ButReports
    { s with now := s.now + (4096 - s.beat), sync := sy, tact.stamp := s.tact.stamp + BitVec.ofNat 56 (4096 - s.beat) } s.toDownbeat := by
  obtain ⟨sy, h⟩ := elapse_but s (4096 - s.beat)
  exact ⟨sy, h.map (fun u => { u with tact.stamp := s.tact.stamp + BitVec.ofNat 56 (4096 - s.beat) }) rfl⟩

/-- A FREE engine without a score, as it stands before its first lock. -/
def BeforeLock (s : State) : Prop :=
  s.tact.state = .free ∧ s.tact.everLocked = false ∧ s.score.target = none ∧ s.score.member = false ∧ s.graft.pruned = false

/-- Table TAC-5: a FREE Tactus unit stays FREE at a downbeat. -/
theorem tactDownbeat_free {s : State} (h : s.tact.state = .free) :
    s.tactDownbeat.tact.state = .free ∧ s.tactDownbeat.tact.stamp = s.tact.stamp ∧
      s.tactDownbeat.tact.everLocked = s.tact.everLocked ∧ s.tactDownbeat.score = s.score ∧ s.tactDownbeat.fc = s.fc := by
  simp [State.tactDownbeat, State.refDownbeat, State.drawn, h]

/-- R44, R455: before the first lock a downbeat has no score to switch, no member to step out and nothing that is timed. -/
theorem downbeatActions_beforeLock {s : State} (h : BeforeLock s) : s.downbeatActions = s.tactDownbeat := by
  obtain ⟨free, never, noTarget, noMember, notPruned⟩ := h
  have drop : s.dropTarget = s := by
    unfold State.dropTarget
    rw [← noTarget]
    exact ite_self s
  have switch : s.switchScore = s := by simp [State.switchScore, noTarget, notPruned]
  obtain ⟨free', -, never', score', -⟩ := tactDownbeat_free free
  have leave : s.tactDownbeat.leaveChorus = s.tactDownbeat := by unfold State.leaveChorus; rw [free']
  have out : s.tactDownbeat.memberOut = s.tactDownbeat := by rw [State.memberOut, leave, ite_self]
  have image : s.tactDownbeat.img = none := by simp [State.img, score', noMember]
  have enter : s.tactDownbeat.portsEnter = s.tactDownbeat := by rw [State.portsEnter, image]
  simp [State.downbeatActions, drop, switch, out, enter, never', never]

/-- Settles O19: at the downbeat the collector ends its measure; what else an engine before its first lock does changes neither its
count nor the collector. -/
theorem downbeatEndsTheMeasure : Obligations.DownbeatEndsTheMeasure := by
  intro s hp free never noTarget noMember notPruned
  obtain ⟨sy, moved⟩ := toDownbeat_but s
  let u := s.toDownbeat.collectorDownbeat
  have tact : u.tact = { s.tact with stamp := s.tact.stamp + BitVec.ofNat 56 (4096 - s.beat) } := moved.tact
  have now : u.now = s.now + (4096 - s.beat) := moved.now
  have tgt (k : Nat) : s.toDownbeat.tgt k = s.tgt k := moved.tgt_eq k
  have before : BeforeLock u :=
    ⟨by rw [tact]; exact free, by rw [tact]; exact never, (congrArg ScoreCtl.target moved.score).trans noTarget,
      (congrArg ScoreCtl.member moved.score).trans noMember, (congrArg Graft.pruned moved.graft).trans notPruned⟩
  obtain ⟨free', stamp', -, -, fc'⟩ := tactDownbeat_free before.1
  let t := if u.live then u.tactDownbeat else u
  have ht : Machine.exec .downbeat s = within true t := by
    show Machine.execDownbeat s = _
    simp only [execDownbeat, hp, if_true]
    rw [downbeatActions_beforeLock before]
  have unchanged : t.now = u.now ∧ t.tact.stamp = u.tact.stamp ∧ t.tact.state = .free ∧ t.fc = u.fc := by
    by_cases hl : u.live = true
    · simp only [t, hl, if_true]
      exact ⟨State.tactDownbeat_frame u |>.1, stamp', free', fc'⟩
    · simp only [t, hl]
      exact ⟨rfl, rfl, before.1, rfl⟩
  obtain ⟨tNow, tStamp, tState, tFc⟩ := unchanged
  refine answers_of ht rfl ⟨tNow.trans now, ?_, tState, by rw [tFc]; rfl, fun k => ?_⟩
  · rw [State.beat, tStamp, tact]
    exact toDownbeat_mod s.tact.stamp
  · have htgt : t.tgt k = s.toDownbeat.quietDownbeat.tgt k := tgt_of_fc (congrArg Collector.targets tFc) k
    rw [htgt, State.tgt_quietDownbeat, tgt k]
    exact ⟨rfl, rfl, rfl, fun hc => if_pos hc⟩

/-- A FREE engine at beat 4,095 whose target 3 is CONTAINED, quiet for six measures and not named in this one. -/
def quietTargetThree : State :=
  { State.reset with sys.pwrgd := true, tact.stamp := 4095, fc.targets := [(3, { state := .contained, quiet := 6 })] }

/-- What O19 assumes is met: the seventh quiet measure ends at beat 0, one beat later. -/
theorem seventh_quiet_measure_ends : Answers .downbeat quietTargetThree fun t =>
    t.now = 1 ∧ t.beat = 0 ∧ (t.tgt 3).quiet = 7 := by
  obtain ⟨t, ht, now, beat, -, -, targets⟩ := downbeatEndsTheMeasure quietTargetThree rfl rfl rfl rfl rfl rfl
  obtain ⟨-, -, -, quiet⟩ := targets 3
  exact ⟨t, ht, now, beat, quiet rfl⟩

end Sys2Proof
end

section
/-!
SUPPORT. Class-U events that have their reaction (R438), and the states of a voice port (R42, R72, R78, R79, R585).
-/
namespace Sys2Proof
open Sys2Proof.Machine

/-! ### Class-U events that have their reaction -/

/-- What reports write decides no reaction. -/
theorem Reacts.of_but {s u : State} {det : Nat} {unit : UnitId} {t : Nat} (h : Reacts s det unit t) (hu : ButReports s u) :
    Reacts u det unit t :=
  h.of_eq hu.targets hu.resets (hu.read fun v => v.fc.recoveryLimit) (hu.read fun v => v.dma.channels)

/-- R438: an event on a unit that reacts contains its target and is reported. -/
theorem raiseOn_but {s u : State} {det : Nat} {unit : UnitId} {t : Nat} (detail : Nat) (e : unit.target = some t)
    (h : Reacts u det unit t) (hu : ButReports s u) : ButReports (containedBy s det t) (u.raiseOn det unit detail) := by
  rw [raiseOn_reacts _ _ _ _ _ e h, butReports_logU]
  exact hu.map (fun v => containedBy v det t) rfl

theorem counter_raiseOn_other {u : State} {det : Nat} {unit : UnitId} {t : Nat} (detail : Nat) (e : unit.target = some t)
    (h : Reacts u det unit t) {a : Nat} (ha : a ∉ reportCells det) : (u.raiseOn det unit detail).counter a = u.counter a := by
  rw [raiseOn_reacts _ _ _ _ _ e h, counter_logU_other, counter_containedBy]
  simp only [reportCells, blockedCells, List.mem_cons, not_or] at ha ⊢
  exact ⟨ha.1, ha.2.2⟩

/-! ### A port goes out of step or down -/

/-- R46: the loss of a port that a CARRIED engine does not follow starts no holdover. -/
theorem upstreamLost_other {s : State} {p : Nat} (h : s.tact.mode ≠ .carried ∨ s.tact.inUse ≠ p) : s.upstreamLost p = s :=
  if_neg fun hb => h.elim (absurd hb.1) (absurd hb.2)

/-- A port that reads OUT_OF_STEP since `now`. -/
def outOfStepSince (x : Port) (now : Nat) : Port := { x with state := .outOfStep, since := now }

theorem goOutOfStep_inSchedule {s : State} {p : Nat} (h : (s.port p).state = .inSchedule) :
    s.goOutOfStep p = (s.setPort p (outOfStepSince (s.port p) s.now)).upstreamLost p := if_pos h

/-- R46: a LOCKED engine whose lost port is its upstream one enters HOLDOVER; TACT_REF holds. -/
theorem enterHoldover_carried {s : State} (h : s.tact.state = .locked) (hr : s.tact.refLost = false) :
    s.enterHoldover.tact.state = .holdover ∧ s.enterHoldover.tact.stamp = s.tact.stamp ∧ s.enterHoldover.ports = s.ports ∧
      s.enterHoldover.fc.targets = s.fc.targets ∧ s.enterHoldover.fc.resets = s.fc.resets ∧
      s.enterHoldover.fc.recoveryLimit = s.fc.recoveryLimit ∧ s.enterHoldover.dma = s.dma := by
  let held (v : State) : State := { v with
    tact.state := .holdover, tact.holdSince := s.now, tact.holdMeasures := 0, tact.qualified := 0, tact.refGood := 0
    tact.limitReached := false, tact.echoSince := false, tact.frames := [] }
  have but : ButReports (held s) s.enterHoldover := by simp [State.enterHoldover, h, hr, held]
  exact ⟨congrArg Tactus.state but.tact, (congrArg Tactus.stamp but.tact).trans rfl, but.ports, but.targets, but.resets,
    but.read (fun v => v.fc.recoveryLimit), but.dma⟩

theorem port_of_ports {s t : State} (h : t.ports = s.ports) (p : Nat) : t.port p = s.port p := by simp [State.port, h]

theorem exec_outOfStep_due {s : State} {p : Nat} (h : (s.port p).state = .inSchedule)
    (hr : s.tact.redLimitUsed ≤ (s.port p).red) : Machine.exec (.outOfStep p) s =
      within (Instr.outOfStep p).wf (((s.goOutOfStep p).count (Cnt.vp p Cnt.outOfStep)).raiseOn Det.outOfStep (.vp p)) :=
  congrArg (within _) (if_pos ⟨h, hr⟩)

/-- R42: the port goes OUT_OF_STEP, counted and CONTAINED, and nothing else changes where no engine follows it. -/
theorem outOfStep_contains {s : State} {p : Nat} (hp : p < 16) (h : (s.port p).state = .inSchedule)
    (hr : s.tact.redLimitUsed ≤ (s.port p).red) (hm : s.tact.mode ≠ .carried ∨ s.tact.inUse ≠ p)
    (reacts : Reacts s Det.outOfStep (.vp p) p) : Answers (.outOfStep p) s fun t =>
      ButReports (containedBy (s.setPort p (outOfStepSince (s.port p) s.now)) Det.outOfStep p) t ∧
      t.counter (Cnt.vp p Cnt.outOfStep) = risen (s.counter (Cnt.vp p Cnt.outOfStep)) 1 := by
  refine answers_of (exec_outOfStep_due h hr) (decide_eq_true hp) ?_
  rw [goOutOfStep_inSchedule h, upstreamLost_other (s := s.setPort p _) hm]
  have counted : Reacts ((s.setPort p (outOfStepSince (s.port p) s.now)).count (Cnt.vp p Cnt.outOfStep)) Det.outOfStep (.vp p) p :=
    reacts.of_eq rfl rfl rfl rfl
  refine ⟨raiseOn_but 0 rfl counted ((butReports_count _ _ _).mpr (ButReports.rfl' _)), ?_⟩
  rw [counter_raiseOn_other 0 rfl counted (vp_not_report hp (by decide)), counter_count_self]
  rfl

/-- R42, R46: a CARRIED engine that follows the port enters HOLDOVER. -/
theorem outOfStep_holdover {s : State} {p : Nat} (hp : p < 16) (h : (s.port p).state = .inSchedule)
    (hr : s.tact.redLimitUsed ≤ (s.port p).red) (hm : s.tact.mode = .carried) (hu : s.tact.inUse = p)
    (locked : s.tact.state = .locked) (ref : s.tact.refLost = false) (reacts : Reacts s Det.outOfStep (.vp p) p) :
    Answers (.outOfStep p) s fun t =>
      (t.port p).state = .outOfStep ∧ t.tact.state = .holdover ∧ t.tact.stamp = s.tact.stamp := by
  refine answers_of (exec_outOfStep_due h hr) (decide_eq_true hp) ?_
  let w := s.setPort p (outOfStepSince (s.port p) s.now)
  obtain ⟨state, stamp, ports, targets, resets, limit, dma⟩ := enterHoldover_carried (s := w) locked ref
  have gone : s.goOutOfStep p = w.enterHoldover := (goOutOfStep_inSchedule h).trans (if_pos ⟨hm, hu⟩)
  rw [gone]
  have counted : Reacts (w.enterHoldover.count (Cnt.vp p Cnt.outOfStep)) Det.outOfStep (.vp p) p :=
    reacts.of_eq targets resets limit (congrArg Dma.channels dma)
  have but := raiseOn_but (s := w.enterHoldover) 0 rfl counted ((butReports_count _ _ _).mpr (ButReports.rfl' _))
  have port : w.enterHoldover.port p = outOfStepSince (s.port p) s.now := by
    rw [port_of_ports ports, State.port_setPort_self]
  exact ⟨(congrArg Port.state (but.port_eq p)).trans (congrArg Port.state port), (congrArg Tactus.state but.tact).trans state,
    (congrArg Tactus.stamp but.tact).trans stamp⟩

/-- R79: a port that goes DOWN, in an engine that is not CARRIED. -/
theorem portToDown_eq {s : State} (p : Nat) (hm : s.tact.mode ≠ .carried) :
    s.portToDown p = s.setPort p ((s.port p).toDown s.now) := upstreamLost_other (s := s.modPort p _) (.inl hm)

/-! ### Alignment -/

/-- R72: what the landing check does with a port that has just aligned. -/
def landChecked (s : State) (p : Nat) : State :=
  match s.img with
  | some m => if Img.enabled m p && !landOk m (s.port p) p then s.landRange p else s
  | none => s

/-- R78: a framed port whose markers stand as they should, and which knows its delay, is ALIGNED. -/
theorem exec_portAlign_aligns {s : State} {p skew : Nat} {phase : Int} {x : Port} (h : (s.port p).state = .framing)
    (hs : skew ≤ 60000) (hd : (s.port p).delayValid = true)
    (hx : x = { s.port p with
      state := .aligned, since := s.now, centre := phase, slew := 0, hMin := hMinOf (s.port p).delay.toNat
      h := hMinOf (s.port p).delay.toNat, phase := {}, amber := {}, red := 0, uncorr := 0, conflict := false }) :
    Machine.exec (.portAlign p [4096, 4096, 4096, 4096] skew phase) s =
      within (Instr.portAlign p [4096, 4096, 4096, 4096] skew phase).wf (landChecked (s.setPort p x) p) := by
  subst hx
  exact congrArg (within _) (if_pos ⟨h, rfl, hs, hd⟩)

theorem landChecked_ok {s : State} {p : Nat} (h : ∀ m, s.img = some m → Img.enabled m p = true → landOk m (s.port p) p = true) :
    landChecked s p = s := by
  unfold landChecked
  split
  · next m hm =>
    refine if_neg fun hb => ?_
    rw [Bool.and_eq_true, Bool.not_eq_true'] at hb
    rw [h m hm hb.1] at hb
    exact absurd hb.2 (by decide)
  · rfl

theorem landChecked_bad {s : State} {p : Nat} {m : Mem} (hm : s.img = some m) (he : Img.enabled m p = true)
    (hl : landOk m (s.port p) p = false) : landChecked s p = s.landRange p := by
  simp [landChecked, hm, he, hl]

/-- Settles O20: each state of Table VOX-11 is left where its condition holds; what a port's loss does to the Tactus and what a
class-U event does to its target are the lemmas above. -/
theorem portStates : Obligations.PortStates := by
  refine ⟨fun s p hp h hr hm reacts => outOfStep_contains hp h hr hm reacts,
    fun s p hp h hr hm hu locked ref reacts => outOfStep_holdover hp h hr hm hu locked ref reacts, fun s p hp h => ?trained,
    fun s p skew phase x hp h hs hd hx => ⟨fun fits => ?aligned, fun m hm he bad reacts => ?misfit⟩, fun s p hp h hw => ?late,
    fun s p hp h hm reacts => ?down, fun s p hp hl h hh hw ho hr => ?again⟩
  case trained => exact exec_of rfl (decide_eq_true hp) (if_pos h)
  case aligned =>
    refine exec_of (exec_portAlign_aligns h hs hd hx) (decide_eq_true hp) (landChecked_ok ?_)
    rw [State.port_setPort_self]
    exact fits
  case misfit =>
    refine answers_of (exec_portAlign_aligns h hs hd hx) (decide_eq_true hp) ?_
    rw [landChecked_bad (s := s.setPort p x) hm he (by rw [State.port_setPort_self]; exact bad)]
    exact raiseOn_but _ rfl (reacts.of_eq rfl rfl rfl rfl) (ButReports.rfl' _)
  case late =>
    refine answers_of rfl (decide_eq_true hp) ?_
    rw [if_pos ⟨h, hw⟩]
    exact reported_eventC _ _ _ _ _ (by decide) (by decide)
  case down =>
    refine answers_of rfl (decide_eq_true hp) ?_
    rw [if_pos ⟨h, .inl rfl⟩, portToDown_eq p hm]
    exact raiseOn_but 0 rfl (reacts.of_eq rfl rfl rfl rfl) (ButReports.rfl' _)
  case again =>
    refine exec_of rfl (decide_eq_true hp) (if_pos ?_)
    simp [hl, h, hh, hw, ho, hr]

end Sys2Proof
end

section
/-!
SUPPORT. The slot path of a voice port: tail slots (R34, R68, R69), reception with the checks of Table VOX-12 (R74), release (R71,
R73), sending (R55), the port's downbeat (R41) and VP_CTRL (R530).
-/
namespace Sys2Proof
open Sys2Proof.Machine

/-! ### What leaves the ports alone -/

/-- R438: a class-U event without a reaction of its own changes no port, whatever it does to its target. -/
theorem raiseOn_ports (s : State) (det : Nat) (unit : UnitId) (detail : Nat) : (s.raiseOn det unit detail).ports = s.ports := by
  obtain ⟨ts, u, but, h | h | ⟨t, -, h⟩⟩ := raise_writes s det unit unit.target detail [] id
  all_goals rw [State.raiseOn, h]
  · exact but.ports
  · exact but.ports
  · exact (State.holdEffect_frame u t).2.2.2.2.1.trans but.ports

theorem upstreamLost_ports (s : State) (p : Nat) : (s.upstreamLost p).ports = s.ports := by
  unfold State.upstreamLost
  split <;> simp

/-! ### A tail slot that is received -/

/-- From `s` to `t` port `p` keeps the neighbour's tail slot and the count of lost ones. -/
def TailKept (p : Nat) (s t : State) : Prop := (t.port p).nb = (s.port p).nb ∧ (t.port p).tailsLost = (s.port p).tailsLost

theorem TailKept.of_ports {p : Nat} {s t : State} (h : t.ports = s.ports) : TailKept p s t := by
  rw [TailKept, port_of_ports h]
  exact ⟨rfl, rfl⟩

theorem TailKept.trans {p : Nat} {s t u : State} (h : TailKept p s t) (k : TailKept p t u) : TailKept p s u :=
  ⟨k.1.trans h.1, k.2.trans h.2⟩

theorem TailKept.setPort {p : Nat} (s : State) {v : Port} (hn : v.nb = (s.port p).nb) (ht : v.tailsLost = (s.port p).tailsLost) :
    TailKept p s (s.setPort p v) := by
  rw [TailKept, State.port_setPort_self]
  exact ⟨hn, ht⟩

theorem TailKept.of_put {p : Nat} {s t : State} {v : Port} (h : t.ports = Tab.put s.ports p v) (hn : v.nb = (s.port p).nb)
    (ht : v.tailsLost = (s.port p).tailsLost) : TailKept p s t :=
  (TailKept.setPort s hn ht).trans (.of_ports h)

theorem eventC_ports (s : State) (det : Nat) (unit : UnitId) (detail : Nat) (via : List Nat) :
    (s.eventC det unit detail via).ports = s.ports := by simp

theorem noteFallen_tailKept (s : State) (p : Nat) (b : Bool) : TailKept p s (s.noteFallen p b) := by
  unfold State.noteFallen
  split
  · exact .of_put (eventC_ports _ _ _ _ _) rfl rfl
  · exact .of_ports rfl

theorem goOutOfStep_tailKept (s : State) (p : Nat) : TailKept p s (s.goOutOfStep p) := by
  unfold State.goOutOfStep
  split
  · exact .of_put (upstreamLost_ports _ p) rfl rfl
  · exact .of_ports rfl

/-- R45: whatever the comparison of the stamps finds. -/
theorem compareStamp_tailKept (s : State) (p : Nat) (x : TailSlot) : TailKept p s (s.compareStamp p x) := by
  unfold State.compareStamp
  dsimp only
  split
  · exact TailKept.setPort s rfl rfl
  · split
    · exact TailKept.setPort s rfl rfl
    · split
      · exact goOutOfStep_tailKept s p
      · refine TailKept.trans (TailKept.trans ?_ (goOutOfStep_tailKept _ p)) (.of_ports (raiseOn_ports _ _ _ _))
        exact TailKept.setPort s rfl rfl

/-- R33: an echo exchange that completes sets the port's delay and offset. -/
theorem exchange_tailKept (s : State) (p : Nat) (t1 t2 t3 t4 : DWord) : TailKept p s (s.exchange p t1 t2 t3 t4) := by
  refine (TailKept.setPort s (v := { s.port p with
    delay := BitVec.ofInt 32 (halfOf (t4 - t1) (t2 - t3)), offset := BitVec.ofInt 64 (halfOf (t2 - t1) (t3 - t4))
    delayValid := true, echoT1 := none }) rfl rfl).trans (.of_ports ?_)
  unfold State.exchange
  dsimp only
  (repeat' split) <;> simp

theorem echoMiss_tailKept (s : State) (p : Nat) : TailKept p s (s.echoMiss p) := by
  unfold State.echoMiss
  split
  · exact .of_put (eventC_ports _ _ _ _ _) rfl rfl
  · exact .of_ports rfl

/-- R33, R34: after the echo of a tail slot the port knows its arrival and whether it owes an answer. -/
theorem echoIn_port (s : State) (p : Nat) (x : TailSlot) (arrival : DWord) :
    TailKept p s (s.echoIn p x arrival) ∧ ((s.echoIn p x arrival).port p).rxArrival = some arrival ∧
      ((s.echoIn p x arrival).port p).echoDue = x.echoReq := by
  unfold State.echoIn
  dsimp only
  rw [State.port_modPort_self]
  refine ⟨TailKept.trans ?_ (TailKept.setPort _ rfl rfl), rfl, rfl⟩
  split
  · exact exchange_tailKept s p _ _ _ _
  · split
    · exact echoMiss_tailKept s p
    · exact .of_ports rfl
  · exact .of_ports rfl

/-- R69: whatever the Tactus does with it, a tail slot that arrives becomes the neighbour's. -/
theorem tailIn_port (s : State) (p : Nat) (x : TailSlot) (arrival : DWord) (phase : Int) :
    ((s.tailIn p x arrival phase).port p).nb = some x ∧ ((s.tailIn p x arrival phase).port p).tailsLost = 0 ∧
      ((s.tailIn p x arrival phase).port p).rxArrival = some arrival ∧
      ((s.tailIn p x arrival phase).port p).echoDue = x.echoReq := by
  let w := s.setPort p { s.port p with
    nb := some x, tails := runOf (s.port p).tails x.stamp, tailsLost := 0
    tailPhase := some (phase, x.stamp == s.tact.stamp - BitVec.ofNat 56 (s.port p).h)
    matched := s.score.member && (x.pstate == 3 || x.pstate == 4) && x.sequence == s.scoreId.1 && x.fingerprint == s.scoreId.2
    phase := (s.port p).phase.add ((s.port p).err phase), frame := some (x.stamp, s.now) }
  let u := (w.noteFallen p x.fallen).compareStamp p x
  obtain ⟨kept, arrived, due⟩ := echoIn_port u p x arrival
  obtain ⟨nb, lost⟩ := ((noteFallen_tailKept w p x.fallen).trans (compareStamp_tailKept _ p x)).trans kept
  have ports : (s.tailIn p x arrival phase).ports = (u.echoIn p x arrival).ports := by
    unfold State.tailIn
    dsimp only
    split
    · split <;> simp [u, w]
    · rfl
  rw [port_of_ports ports p, nb, lost, arrived, due, State.port_setPort_self]
  exact ⟨rfl, rfl, rfl, rfl⟩

/-! ### A tail slot that is lost -/

/-- R37, R69: a first lost tail slot, with no echo open. -/
theorem reported_tailLost {s : State} {p : Nat} (hl : (s.port p).tailsLost = 0) (he : (s.port p).echoT1 = none) :
    Reported Det.tailLost ((s.setPort p { s.port p with
      tails := [], tailsLost := 1, tailPhase := none, rxArrival := none, echoDue := false, matched := false
      uncorr := (s.port p).uncorr + 1 }).count (Cnt.vp p Cnt.tailLost)) (s.tailLost p true) := by
  let w := s.setPort p { s.port p with
    tails := [], tailsLost := 1, tailPhase := none, rxArrival := none, echoDue := false, matched := false
    uncorr := (s.port p).uncorr + 1 }
  let u := (w.count (Cnt.vp p Cnt.tailLost)).eventC Det.tailLost (.vp p)
  have port : u.port p = w.port p := port_of_ports (by simp [u]) p
  have miss : u.echoMiss p = u := by simp [State.echoMiss, port, w, he]
  have lost : s.modPort p (fun x => { x with
      tails := [], tailsLost := x.tailsLost + 1, tailPhase := none, rxArrival := none, echoDue := false
      matched := false, uncorr := x.uncorr + b2n true }) = w := by
    simp only [State.modPort, hl, w]
    rfl
  have same : s.tailLost p true = u := by
    show (if 2 ≤ ((State.echoMiss _ p).port p).tailsLost then State.upstreamLost _ p else State.echoMiss _ p) = u
    rw [lost, miss, if_neg]
    rw [port, State.port_setPort_self]
    exact (by decide : ¬ 2 ≤ 1)
  rw [same]
  exact reported_eventC _ _ _ _ _ (by decide) (by decide)

/-! ### A slot that arrives (Table VOX-12) -/

theorem exec_slotRx_live {s : State} {p : Nat} (code : Option (Nat × List Byte)) (corr : List Nat) (phase : Int) (hl : s.live = true)
    (hs : (s.port p).state.linked = true) (hb : (s.sentBeat p).any (fun b => b.toNat % 4096 == 4095) = false) :
    Machine.exec (.slotRx p code corr phase) s =
      within (Instr.slotRx p code corr phase).wf (s.slotIn p code corr phase) :=
  congrArg (within _) (if_pos (by rw [hl, hs, hb]; rfl))

/-- The port that has measured a slot's phase. -/
def measured (x : Port) (phase : Int) (lost : Nat) : Port := { x with phase := x.phase.add (x.err phase), uncorr := x.uncorr + lost }

theorem port_pushSlot (s : State) (p : Nat) (sl : Slot) : (s.pushSlot p sl).port p =
    { s.port p with aligner := ((s.port p).aligner ++ [sl]).drop ((s.port p).aligner.length + 1 - 4) } :=
  State.port_modPort_self ..

/-- R74: an uncorrectable slot of an IN_SCHEDULE port is counted, reported and becomes REST. -/
theorem slotIn_uncorrectable {s : State} {p : Nat} (corr : List Nat) (phase : Int) (hs : (s.port p).state = .inSchedule)
    (hu : (s.unit p).state = .in_) : s.slotIn p none corr phase =
      (((((s.setPort p (measured (s.port p) phase 1)).count (Cnt.vp p Cnt.slotLost)).count (Cnt.vp p Cnt.fecUncorr)).eventC
        Det.fecUncorr (.vp p)).pushSlot p {}) := by
  have inStep : ¬ ((s.port p).state = .outOfStep ∨ ((s.setPort p (measured (s.port p) phase 1)).unit p).state.stopped = true) := by
    rw [hs, show (s.setPort p (measured (s.port p) phase 1)).unit p = s.unit p from rfl, hu]
    decide
  have lost (u : State) : u.modPort p (fun x => { x with red := x.red + b2n false }) = u.setPort p (u.port p) := rfl
  have unit (u : State) (h : u.graft = s.graft) : ¬ (u.unit p).state = .probation := by
    rw [State.unit, h]
    exact fun e => by rw [show (Tab.get {} s.graft.units p).state = .in_ from hu] at e; exact absurd e (by decide)
  refine (if_neg inStep).trans ?_
  show State.afterLoss (State.slotLost _ p _ _ false) p = _
  rw [State.slotLost, lost, State.port_setPort_self, State.setPort_setPort, State.afterLoss, if_neg]
  · rfl
  · exact unit _ (by simp)

theorem vp_ne_vp {p a b : Nat} (h : a ≠ b) : Cnt.vp p a ≠ Cnt.vp p b := by
  simp only [Cnt.vp]
  omega

/-- R74: with nothing corrected there is nothing to count. -/
theorem noteCorr_nil (s : State) (p : Nat) : s.noteCorr p [] = s := rfl

/-- Table VOX-12: a slot that passes every check joins the aligner. -/
theorem judgeSlot_passes {s : State} {p : Nat} {sent : Stamp} {sl : Slot} (hs : (s.port p).state = .inSchedule)
    (hc : sl.classOk = true) (hf : s.formatOk sl = true) (ha : entryAdmits (s.imgAt sent) p sl = true)
    (he : epochOk (s.imgAt sent) sl = true) : s.judgeSlot p sent sl true = s.pushSlot p sl := by
  have image : s.rxImg p sent = s.imgAt sent := by simp [State.rxImg, hs, PortState.scheduled]
  simp [State.judgeSlot, image, hc, hf, ha, he]

/-- Table VOX-12: checks 2 to 4 of a slot from an IN_SCHEDULE port that knows its frame, with nothing to note about it. -/
theorem checkSlot_passes {s : State} {p w : Nat} {bs : List Byte} {e : Int} {sent : Stamp} (hsent : s.sentBeat p = some sent)
    (hu : (s.unit p).state = .in_) (hdr : (Slot.decode bs).hdrOk = true) (hw : w = beatWord (sent.toNat % 4096))
    (stamp : (Slot.decode bs).slot.stamp = sent.toNat % 2 ^ 32) (green : zoneOf e = .green)
    (fallen : (Slot.decode bs).slot.fallen = false) (oos : (Slot.decode bs).slot.oos = false)
    (frame : (s.port p).frame.isSome = true) :
    s.checkSlot p w bs e = (s.setPort p (s.port p)).judgeSlot p sent (Slot.decode bs).slot (Slot.decode bs).payOk := by
  have known : (s.port p).frame.isNone = false := by simpa [Option.isNone_iff_eq_none, Option.isSome_iff_ne_none] using frame
  have unit : ((s.setPort p (s.port p)).unit p).state = .in_ := hu
  simp only [State.checkSlot, hsent, hdr, hw, stamp, green, fallen, oos, State.noteAmber, State.noteFallen, State.noteOos,
    Option.getD_some, Bool.not_true, Bool.false_eq_true, ne_eq, not_true_eq_false, or_self, reduceCtorEq, if_false,
    Bool.false_and, State.modPort, known, unit]

/-! ### Release and sending -/

/-- R71: the oldest slot, without a descant operation, is delivered by its class. -/
theorem releaseSlot_cons {s : State} {p : Nat} {sl : Slot} {rest : List Slot} (ha : (s.port p).aligner = sl :: rest)
    (hd : sl.descant.dvalid = false) :
    s.releaseSlot p = (s.setPort p { s.port p with aligner := rest }).deliverSlot p sl := by
  simp [State.releaseSlot, ha, State.descantOf, hd, State.modPort]

/-- R42: an OUT_OF_STEP port sends REST with OOS. -/
theorem exec_slotTx_outOfStep {s : State} {p : Nat} (hp : s.sys.pwrgd = true) (hs : (s.port p).state = .outOfStep)
    (hb : s.beat ≠ 4095) : Machine.exec (.slotTx p) s = within (Instr.slotTx p).wf (s.emit p { source := s.self } none) := by
  refine congrArg (within _) ((if_pos ?_).trans (if_pos (.inr (.inl hs))))
  simp [hp, hs, PortState.framed, hb]

/-! ### The port's downbeat and VP_CTRL -/

/-- R41: the downbeat of an IN_SCHEDULE port slews it and begins its new measure. -/
theorem exec_portDownbeat_inSchedule {s : State} {p : Nat} (hp : p < 16) (hs : (s.port p).state = .inSchedule)
    (hb : (s.sentBeat p).any (fun b => b.toNat % 4096 == 0) = true) :
    Machine.exec (.portDownbeat p) s = .next ((s.slew p).modPort p (·.newMeasure)) := by
  refine exec_of rfl (decide_eq_true hp) ((if_pos ?_).trans ?_)
  · rw [hs, hb]
    rfl
  · rw [if_neg (by rw [hs]; decide)]

theorem slew_up {s : State} {p : Nat} (hn : (s.port p).amber.n ≠ 0) (hsum : 0 < (s.port p).amber.sum) (hlo : -64 ≤ (s.port p).slew)
    (hhi : (s.port p).slew ≤ 60) : s.slew p = s.setPort p { s.port p with slew := (s.port p).slew + 4 } := by
  have sum : ¬ ((s.port p).amber.n = 0 ∨ (s.port p).amber.sum = 0) := by omega
  have up : ¬ (s.port p).amber.sum < 0 := by omega
  have near' : magnitude ((s.port p).slew + 4) ≤ near := by
    unfold magnitude near
    split <;> omega
  simp [State.slew, sum, up, near']

/-- R524, R530: an accepted write of VP_CTRL. -/
def vpCtrlTaken (x : Port) (v : Nat) : Port := { x with pmd := fld v 0 2, holdDown := bitAt v 2, precode := bitAt v 3 }

theorem writeVpCtrl_taken {s : State} {v : Nat} (p : Nat) (h : fld v 0 2 ≠ 3) : s.writeVpCtrl p v =
    if bitAt v 2 ∧ (s.port p).state ≠ .down then (s.setPort p (vpCtrlTaken (s.port p) v)).portToDown p
    else s.setPort p (vpCtrlTaken (s.port p) v) := by
  rw [State.writeVpCtrl, if_neg h]
  show (if bitAt v 2 = true ∧ ((s.setPort p _).port p).state ≠ .down then _ else _) = _
  rw [State.port_setPort_self]
  rfl

theorem port_portToDown (s : State) (p q : Nat) :
    (s.portToDown p).port q = if p = q then (s.port p).toDown s.now else s.port q := by
  rw [State.portToDown, port_of_ports (upstreamLost_ports _ p)]
  exact State.port_setPort ..

theorem exec_vpHoldDown_live {s : State} {p : Nat} (v : Word) (hl : s.live = true) :
    Machine.exec (.vpHoldDown p v) s = within (Instr.vpHoldDown p v).wf (s.writeVpCtrl p v.toNat) :=
  congrArg (within _) (if_pos hl)

/-- R530: HOLD_DOWN takes the port DOWN, and no other. -/
theorem writeVpCtrl_holdDown {s : State} {p v : Nat} (h : fld v 0 2 ≠ 3) (hd : bitAt v 2 = true) :
    ((s.writeVpCtrl p v).port p).state = .down ∧ ((s.writeVpCtrl p v).port p).holdDown = true ∧
      ∀ q, q ≠ p → (s.writeVpCtrl p v).port q = s.port q := by
  rw [writeVpCtrl_taken p h]
  split
  · simp only [port_portToDown, if_true, State.port_setPort_self]
    refine ⟨rfl, hd, fun q hq => ?_⟩
    rw [if_neg hq.symm, State.port_setPort, if_neg hq.symm]
  · next hdown =>
    have down : (s.port p).state = .down := not_not.mp fun hn => hdown ⟨hd, hn⟩
    simp only [State.port_setPort_self]
    exact ⟨down, hd, fun q hq => by rw [State.port_setPort, if_neg hq.symm]⟩

theorem port_setPort_ne (s : State) {p q : Nat} (v : Port) (h : q ≠ p) : (s.setPort p v).port q = s.port q := by
  rw [State.port_setPort, if_neg h.symm]

/-- Settles O21: one lemma above for each path of a slot. The aligner that drops its oldest slot is entry 32 of the assumption log,
and the delivery of local copies at release is entry 36. -/
theorem slotPath : Obligations.SlotPath := by
  refine ⟨fun s p frac hp hf hb => ?sendTail, fun s p arrival phase hp hf hl he => ?loseTail,
    fun s p bs arrival phase x hp hlen hf hx => ?takeTail, fun s p corr phase hp hlen hl hs hb hu => ?uncorrectable,
    fun s p w bs phase sent hp hw hlen hl hs hsent hbeat hu hdr hpay hword stamp green fallen oos frame cls format admits epoch =>
      ?passes, fun s p hp hpw hs hb => ?send, fun s p sl rest hp hl ha hd hc => ?rest, fun s p sl rest hp hl ha hd hc => ?cue,
    fun s p hp hs hb hn => ?quiet, fun s p hp hs hb hn hsum hlo hhi => ?slews, fun s p v hp hl hv hd => ?fields,
    fun s p v hp hl hv hd => ?holdDown⟩
  case sendTail =>
    refine answers_of rfl (decide_eq_true hp) ?_
    rw [if_pos ⟨hf, hb⟩]
    exact ⟨by simp [State.sendTail], by simp [State.sendTail], fun q hq => port_setPort_ne s _ hq, rfl⟩
  case loseTail =>
    refine answers_of rfl (by simp [Instr.wf, okPort, okCode, hp]) ?_
    rw [if_pos hf]
    exact reported_tailLost hl he
  case takeTail =>
    refine answers_of rfl (by simp [Instr.wf, okPort, okCode, hp, hlen]; decide) ?_
    simp only [hf, hx, if_true]
    exact tailIn_port s p x arrival phase
  case uncorrectable =>
    refine answers_of (exec_slotRx_live none corr phase hl (by rw [hs]; rfl) hb) (by simp [Instr.wf, okPort, okCode, hp, hlen]) ?_
    rw [slotIn_uncorrectable corr phase hs hu]
    let w := ((s.setPort p (measured (s.port p) phase 1)).count (Cnt.vp p Cnt.slotLost)).count (Cnt.vp p Cnt.fecUncorr)
    have port (q : Nat) : (w.eventC Det.fecUncorr (.vp p)).port q = (s.setPort p (measured (s.port p) phase 1)).port q :=
      port_of_ports (by simp [w]) q
    have counter (a : Nat) (ha : a ∉ reportCells Det.fecUncorr) :
        ((w.eventC Det.fecUncorr (.vp p)).pushSlot p {}).counter a = w.counter a := counter_eventC_other w _ _ _ _ a ha
    have ne : Cnt.vp p Cnt.fecUncorr ≠ Cnt.vp p Cnt.slotLost := vp_ne_vp (by decide)
    refine ⟨?_, ?_, ?_, ?_, ?_, fun q hq => ?_⟩
    · rw [port_pushSlot, port, State.port_setPort_self]
      rfl
    · rw [port_pushSlot, port, State.port_setPort_self]
      rfl
    · rw [port_pushSlot, port, State.port_setPort_self]
      rfl
    · rw [counter _ (vp_not_report hp (by decide)), counter_count_ne _ ne, counter_count_self]
      rfl
    · rw [counter _ (vp_not_report hp (by decide)), counter_count_self, counter_count_ne _ ne.symm]
      rfl
    · rw [State.pushSlot, State.modPort, port_setPort_ne _ _ hq, port, port_setPort_ne _ _ hq]
  case passes =>
    have notTail : (s.sentBeat p).any (fun b => b.toNat % 4096 == 4095) = false := by simp [hsent, hbeat]
    refine exec_of (exec_slotRx_live (some (w, bs)) [] phase hl (by rw [hs]; rfl) notTail)
      (by simp [Instr.wf, okPort, okCode, hp, hlen]; omega) ?_
    let u := s.setPort p (measured (s.port p) phase 0)
    have port : u.port p = measured (s.port p) phase 0 := State.port_setPort_self ..
    have inStep : ¬ ((s.port p).state = .outOfStep ∨ (u.unit p).state.stopped = true) := by
      rw [hs, show (u.unit p).state = .in_ from hu]
      decide
    have sent' : u.sentBeat p = some sent := by
      rw [← hsent]
      simp only [State.sentBeat, port]
      rfl
    have state : ((u.setPort p (u.port p)).port p).state = .inSchedule := by
      rw [State.port_setPort_self, port]
      exact hs
    show (if (s.port p).state = .outOfStep ∨ (u.unit p).state.stopped = true then u
      else (u.noteCorr p []).checkSlot p w bs ((s.port p).err phase)) = _
    rw [if_neg inStep, noteCorr_nil, checkSlot_passes sent' hu hdr hword stamp green fallen oos (by rw [port]; exact frame), hpay,
      judgeSlot_passes state cls format admits epoch, port, State.pushSlot, State.modPort, State.port_setPort_self,
      State.setPort_setPort, State.setPort_setPort]
    rfl
  case send =>
    refine answers_of (exec_slotTx_outOfStep hpw hs hb) (decide_eq_true hp) ?_
    refine ⟨?_, ?_, ?_, ?_, fun q hq => port_setPort_ne s _ hq, rfl⟩
    · simp [State.emit]
    · simp [State.emit, hs]
    · simp [State.emit]
    · simp [State.emit]
  case rest =>
    refine exec_of rfl (decide_eq_true hp) ((if_pos hl).trans ?_)
    rw [releaseSlot_cons ha hd, State.deliverSlot, hc]
  case cue =>
    refine exec_of rfl (decide_eq_true hp) ((if_pos hl).trans ?_)
    rw [releaseSlot_cons ha hd, State.deliverSlot, hc]
    simp [State.modPort]
  case quiet =>
    rw [exec_portDownbeat_inSchedule hp hs hb, State.slew, if_pos (.inl hn)]
    rfl
  case slews =>
    rw [exec_portDownbeat_inSchedule hp hs hb, slew_up hn hsum hlo hhi]
    simp [State.modPort]
  case fields =>
    refine exec_of (exec_vpHoldDown_live v hl) (decide_eq_true hp) ?_
    rw [writeVpCtrl_taken p hv, if_neg (by simp [hd]), vpCtrlTaken, hd]
  case holdDown => exact answers_of (exec_vpHoldDown_live v hl) (decide_eq_true hp) (writeVpCtrl_holdDown hv hd)

end Sys2Proof
end

section
/-!
SUPPORT. The safe state (R446–R451): which class-F events enter it, what it leaves, and what happens to the ports of an engine that
has lost its core PLL or met a crossing error.
-/
namespace Sys2Proof.Machine

/-- What holds of the default and of every changed value holds at every key. -/
theorem Tab.get_mapVals_of {α : Type} {P : α → Prop} {d : α} {f : Nat → α → α} (hd : P d) (hf : ∀ k v, P (f k v)) (t : Tab α)
    (k : Nat) : P (Tab.get d (Tab.mapVals f t) k) := by
  induction t with
  | nil => exact hd
  | cons x t ih =>
    simp only [Tab.mapVals, Tab.get]
    split
    · exact hf _ _
    · exact ih

theorem State.pwrgd_of_live {s : State} (h : s.live = true) : s.sys.pwrgd = true := by
  simp only [State.live, Bool.and_eq_true] at h
  exact h.1

theorem State.not_safe_of_live {s : State} (h : s.live = true) : s.fc.safe = false := by
  simp only [State.live, Bool.and_eq_true, Bool.not_eq_true'] at h
  exact h.2

end Sys2Proof.Machine

namespace Sys2Proof
open Sys2Proof.Machine

/-- Table FLT-7: the safe state as its entry leaves it, with last-gasp record `g` and voice ports `ports`. -/
def safeWith (s : State) (g : LastGasp) (ports : Tab Port) : State :=
  { s with fc.safe := true, fc.lastGasp := some g, sys.safeN := false, sys.selfRefresh := true, tact.outTc := none, ports := ports }

/-- R446: the detectors after whose events no voice port can go on. -/
abbrev StopsPorts (det : Nat) : Prop := det = Det.corePllUnlock ∨ det = Det.crossingErr

/-- Table FLT-7: every voice port DOWN. -/
def portsDown (s : State) : Tab Port := Tab.mapVals (fun _ p => p.toDown s.now) s.ports

/-- R446, R449: what the entry of the safe state does, for an event that leaves the ports up. -/
theorem enterSafe_enters {s v : State} {det : Nat} (unit : UnitId) (hv : ButReports s v) (hd : ¬ StopsPorts det) :
    EntersSafe det s (v.enterSafe det unit) := by
  have gasp : v.fc.lastGasp = s.fc.lastGasp := hv.read fun u => u.fc.lastGasp
  unfold State.enterSafe State.gasp
  dsimp only
  rw [if_neg (show ¬ (det = Det.corePllUnlock ∨ det = Det.crossingErr) from hd)]
  refine ⟨_, (butReports_irqSet _ _ _).mpr (hv.map (fun u => safeWith u _ u.ports) rfl), fun e => ?_, fun x e => ?_⟩
  · rw [gasp, e]
    exact ⟨rfl, rfl, rfl⟩
  · rw [gasp, e]

/-- Table FLT-7: what the entry of the safe state does where the ports stop too. -/
theorem enterSafe_stopsPorts {s v : State} {det : Nat} (unit : UnitId) (hv : ButReports s v) (hd : StopsPorts det) :
    ∃ g, ButReports (safeWith s g (portsDown s)) (v.enterSafe det unit) := by
  unfold State.enterSafe State.gasp
  dsimp only
  rw [if_pos (show det = Det.corePllUnlock ∨ det = Det.crossingErr from hd)]
  exact ⟨_, (butReports_irqSet _ _ _).mpr (hv.map (fun u => safeWith u _ (portsDown u)) rfl)⟩

/-- R446: a class-F event outside the safe state is reported, and enters it. -/
theorem raiseF_eq_enterSafe {s : State} (det : Nat) (unit : UnitId) (detail : Nat) (h : s.fc.safe = false) :
    ∃ v, ButReports s v ∧ s.raiseF det unit detail = v.enterSafe det unit := by
  refine ⟨_, ?_, if_neg (by rw [h]; decide)⟩
  rw [butReports_logIrq]
  rfl

/-- Table FLT-7: in the safe state memory and queues stand, and the ports are DOWN where the event stops them. -/
theorem raiseF_stopsPorts {s : State} {det : Nat} (unit : UnitId) (detail : Nat) (h : s.fc.safe = false) (hd : StopsPorts det) :
    ∃ g, ButReports (safeWith s g (portsDown s)) (s.raiseF det unit detail) := by
  obtain ⟨v, hv, e⟩ := raiseF_eq_enterSafe det unit detail h
  rw [e]
  exact enterSafe_stopsPorts unit hv hd

theorem port_portsDown (s : State) (p : Nat) : (Tab.get {} (portsDown s) p).state = .down :=
  Tab.get_mapVals_of (P := fun x => x.state = .down) rfl (fun _ _ => rfl) s.ports p

/-- The core PLL or the crossings are lost: what `t` has of `s`. -/
theorem frame_of_stopsPorts {s t : State} {g : LastGasp} (h : ButReports (safeWith s g (portsDown s)) t) :
    t.fc.safe = true ∧ t.sys.safeN = false ∧ t.tact.pllLocked = s.tact.pllLocked ∧ t.ram = s.ram ∧ t.queues = s.queues ∧
      ∀ p, (t.port p).state = .down :=
  ⟨h.safe, congrArg Sys.safeN h.sys, (congrArg Tactus.pllLocked h.tact).trans rfl, h.ram, h.queues,
    fun p => (congrArg Port.state (h.port_eq p)).trans (port_portsDown s p)⟩

/-- Settles O22: each command is its class-F event where its condition holds; entering the safe state is said once. -/
theorem classFEntersSafeState : Obligations.ClassFEntersSafeState := by
  refine ⟨fun s hp hs => ?trip, fun s rail hp hs hw => ?rail, fun s hp hs hl => ?pll, fun s hp hs => ?crossing,
    fun s v hl hk => ?request, fun s parity hs => ?lockstep, fun s hp hs => ?crossingAgain, fun s rail hp hs hw => ?railAgain⟩
  case trip =>
    refine answers_of rfl rfl ?_
    rw [if_pos hp]
    exact raiseF_enters { s with sys.thermTripN := false } _ _ _ hs (by decide)
  case rail =>
    refine answers_of rfl hw ?_
    rw [if_pos hp]
    exact raiseF_enters _ _ _ _ hs (by decide)
  case pll =>
    refine answers_of rfl rfl ?_
    rw [if_pos (by rw [hp, hl]; rfl)]
    obtain ⟨g, but⟩ := raiseF_stopsPorts (s := { s with tact.pllLocked := false }) .engine 0 hs (.inl rfl)
    exact frame_of_stopsPorts but
  case crossing =>
    refine answers_of rfl rfl ?_
    rw [if_pos hp]
    obtain ⟨g, but⟩ := raiseF_stopsPorts (det := Det.crossingErr) .engine 0 hs (.inr rfl)
    obtain ⟨safe, safeN, -, kept⟩ := frame_of_stopsPorts but
    exact ⟨safe, safeN, kept⟩
  case request =>
    refine answers_of rfl rfl ?_
    rw [State.whenLive, if_pos hl, State.writeFcCtrl, if_pos hk]
    exact raiseF_enters { s with fc.vecC := fld v.toNat 0 11, fc.vecU := fld v.toNat 11 11, fc.irqEn := bitAt v.toNat 22 } _ _ _
      (State.not_safe_of_live hl) (by decide)
  case lockstep =>
    refine answers_of rfl rfl ?_
    rw [if_neg (by rw [hs]; decide : ¬ s.fc.safe = true)]
    exact enterSafe_enters (det := if parity then Det.regParity else Det.lockstep) .engine (ButReports.rfl' s)
      (by cases parity <;> decide)
  case crossingAgain =>
    refine answers_of rfl rfl ?_
    rw [if_pos hp]
    exact raiseF_safe s _ _ _ hs
  case railAgain =>
    refine answers_of rfl hw ?_
    rw [if_pos hp]
    exact raiseF_safe s _ _ _ hs

end Sys2Proof
end

section
/-!
SUPPORT. Links of the SERDES, HBM4 and the expanders (R154, R160, R495, R496, R569): what the loss of an expander's link leaves of
its port, and what a fill leaves of memory.
-/
namespace Sys2Proof.Machine

/-- Reading a table from which the entries of some keys were dropped. -/
theorem Tab.get_filter_key {α : Type} (d : α) (keep : Nat → Bool) (t : Tab α) (k : Nat) :
    Tab.get d (t.filter fun x => keep x.1) k = if keep k then Tab.get d t k else d := by
  induction t with
  | nil => exact (ite_self d).symm
  | cons x t ih =>
    obtain ⟨k', v⟩ := x
    rw [List.filter_cons]
    by_cases hk : k' = k
    · subst hk
      cases h : keep k' <;> simp [Tab.get, ih, h]
    · cases h : keep k' <;> simp [Tab.get, ih, hk]

/-- R159, R160: the window of expander `j`. -/
def inWindow (j a : Nat) : Bool := decide (0x10000000000 + j * 2 ^ 39 ≤ a) && decide (a < 0x10000000000 + (j + 1) * 2 ^ 39)

/-- R159: a fill leaves zeros in the expander's window, and every other byte alone. -/
theorem State.read_fillCxl (s : State) (j a : Nat) : (s.fillCxl j).ram.read a = if inWindow j a then 0 else s.ram.read a := by
  refine (Tab.get_filter_key Mem.fill (fun a => !inWindow j a) s.ram a).trans ?_
  cases inWindow j a <;> rfl

end Sys2Proof.Machine

namespace Sys2Proof
open Sys2Proof.Machine

/-- R160: an expander whose link is gone: its window is unbacked and nothing waits at its controller. -/
def LinkLost (j : Nat) (t : State) : Prop :=
  (t.cxl j).linkUp = false ∧ (t.cxl j).backed = false ∧ (t.ctrl (8 + j)).waiting = [] ∧ (t.ctrl (8 + j)).decoding = []

theorem LinkLost.of_mem {j : Nat} {s t : State} (h : LinkLost j s) (e : t.mem = s.mem) : LinkLost j t := by
  simpa only [LinkLost, State.cxl, State.ctrl, e] using h

theorem linkLost_unbackCxl (s : State) (j : Nat) : LinkLost j (s.unbackCxl j) := by
  have cxl : (s.unbackCxl j).cxl j = { s.cxl j with linkUp := false, backed := false } := State.cxl_modCxl_self s j fun x => { x with linkUp := false, backed := false }
  have ctrl := State.ctrl_modCtrl_self (s.modCxl j fun x => { x with linkUp := false, backed := false }) (8 + j) fun c =>
    { c with waiting := [], decoding := [], lockWait := [], locks := [], buffer := [], writeBack := [] }
  rw [LinkLost, cxl]
  exact ⟨rfl, rfl, congrArg MemPort.waiting ctrl, congrArg MemPort.decoding ctrl⟩

/-- R344, Table GRF-8: the DRAIN of an expander that has lost its link loses it again. -/
theorem linkLost_holdEffect {s : State} {j : Nat} (hj : j < 4) (h : LinkLost j s) : LinkLost j (s.holdEffect (44 + j)) := by
  have drain : s.drainWork (44 + j) = s.unbackCxl j := by
    unfold State.drainWork
    rw [if_neg (by omega), if_neg (by omega), if_pos (by omega), Nat.add_sub_cancel_left]
  unfold State.holdEffect State.enterDrain
  rw [if_pos (by omega), drain]
  split
  · exact (linkLost_unbackCxl s j).of_mem (by simp)
  · exact h

/-- R160, R496: the event of a lost link leaves the port as the loss has left it. -/
theorem linkLost_loseCxl (s : State) {j : Nat} (det : Nat) (hj : j < 4) : LinkLost j (s.loseCxl j det) := by
  let w := (s.failWaiting j).unbackCxl j
  have lost : LinkLost j w := linkLost_unbackCxl _ j
  obtain ⟨ts, u, but, h | h | ⟨t, ht, h⟩⟩ := raise_writes w det (.cxl j) (UnitId.cxl j).target 0 [] id
  all_goals
    have reported : LinkLost j u := lost.of_mem but.mem
    show LinkLost j (w.raiseOn det (.cxl j))
    rw [State.raiseOn, h]
  · exact reported
  · exact reported
  · obtain rfl := Option.some.inj ht
    exact linkLost_holdEffect hj reported

/-- Settles O24: the commands of the links, each by what its event, its retrain or its fill does. That PHY_RETRAIN acts whole in one
command is entry 218 of the assumption log; the end of accesses at a lost link is entry 80. -/
theorem linksAndRefresh : Obligations.LinksAndRefresh := by
  refine ⟨fun s p hp hpw hs hm reacts => ?serdes, fun s k hk hl hh => ?hot, fun s k hk hl => ?cool, fun s x hx hl => ?phy,
    fun s x hx hl => ?phyFail, fun s j hj hl hup hr => ?retrain, fun s j hj hl => ?retrained, fun s j hj hl hr hd => ?timeout,
    fun s j hj hl hup => ?viral, fun s j hj hl hup => ?lost, fun s j hj hl hup he hb hu => ?filled, fun s j hj hl hup he hb => ?unfilled⟩
  case serdes =>
    have due : (s.sys.pwrgd && (s.port p).state != .down) = true := by rw [hpw, Bool.true_and]; exact bne_iff_ne.mpr hs
    refine answers_of rfl (decide_eq_true hp) ?_
    rw [if_pos due, portToDown_eq p hm]
    exact raiseOn_but 0 rfl (reacts.of_eq rfl rfl rfl rfl) (ButReports.rfl' _)
  case hot =>
    refine answers_of rfl (decide_eq_true hk) ?_
    simp only [hl, hh, Bool.not_true, Bool.false_eq_true, if_false, Bool.not_false, Bool.and_self, if_true]
    exact reported_eventC _ _ _ _ _ (by decide) (by decide)
  case cool => exact exec_of rfl (decide_eq_true hk) (by simp [hl, State.modCtrl])
  case phy =>
    refine answers_of rfl (decide_eq_true hx) ?_
    simp only [hl, Bool.not_true, Bool.false_eq_true, if_false, if_true]
    exact reported_eventC _ _ _ _ _ (by decide) (by decide)
  case phyFail =>
    refine answers_of rfl (decide_eq_true hx) ?_
    simp only [hl, Bool.not_true, Bool.false_eq_true, if_false]
    have but : ButReports s (s.eventC Det.phyRetrain (.stack (x / 4)) x) := by simp
    exact .of_but but (raiseF_enters _ _ _ _ (but.safe.trans (State.not_safe_of_live hl)) (by decide))
  case retrain =>
    refine answers_of rfl (decide_eq_true hj) ?_
    rw [if_pos (by rw [hl, hup, hr]; rfl)]
    exact reported_eventC _ _ _ _ _ (by decide) (by decide)
  case retrained => exact exec_of rfl (decide_eq_true hj) (if_pos hl)
  case timeout =>
    refine answers_of rfl (decide_eq_true hj) ?_
    rw [if_pos (by rw [hl, hr, decide_eq_true hd]; rfl)]
    exact linkLost_loseCxl _ _ hj
  case viral =>
    refine answers_of rfl (decide_eq_true hj) ?_
    rw [if_pos (by rw [hl, hup]; rfl)]
    exact linkLost_loseCxl s _ hj
  case lost =>
    refine answers_of rfl (decide_eq_true hj) ?_
    rw [if_pos (by rw [hl, hup]; rfl)]
    exact linkLost_loseCxl s _ hj
  case filled =>
    refine answers_of rfl (decide_eq_true hj) ?_
    simp only [hl, hup, he, hb, hu, Bool.not_true, Bool.or_self, Bool.false_eq_true, if_false]
    refine ⟨State.cxl_setCxl_self .., rfl, fun a => ?_⟩
    have read := State.read_fillCxl s j a
    simp only [inWindow, ← Bool.decide_and, decide_eq_true_eq] at read
    exact ⟨fun ha => read.trans (if_pos ha), fun ha => read.trans (if_neg ha)⟩
  case unfilled =>
    refine answers_of rfl (decide_eq_true hj) ?_
    simp only [hl, hup, he, hb, Bool.not_true, Bool.or_self, Bool.false_eq_true, if_false, Bool.not_false, if_true]
    exact raiseF_enters s _ _ _ (State.not_safe_of_live hl) (by decide)

end Sys2Proof
end

section
/-!
SUPPORT. The cue node: messages taken at a port, and answers to a roll call (R70, R80, R468, R514, R581).
-/
namespace Sys2Proof
open Sys2Proof.Machine

/-- R70: the oldest message of a port is taken. -/
theorem exec_cueMessage_cons {s : State} {p : Nat} {c : Cue} {rest : List Cue} (hl : s.live = true)
    (hc : (s.port p).cueIn = c :: rest) : Machine.exec (.cueMessage p) s =
      within (Instr.cueMessage p).wf ((s.setPort p { s.port p with cueIn := rest }).takeCue p c) := by
  show Machine.execCueMessage p s = _
  simp only [execCueMessage, hl, hc]
  rfl

/-- R581: a message of a reserved type. -/
theorem takeCue_reserved {s : State} {c : Cue} (p : Nat) (h : cueTypeOk c.typ = false) : s.takeCue p c = s.badCue p c.typ :=
  if_pos (by rw [h]; rfl)

/-- R80: a HERE from the neighbour, outside a real score. -/
theorem takeCue_here {s : State} {c : Cue} (p : Nat) (ht : c.typ = 0x02) (hn : c.neighbour = true) (hm : s.score.member = false) :
    s.takeCue p c = s.noteHere p c := by
  have order : s.cueOrder p c = s := if_pos (by rw [hm]; rfl)
  have known : cueTypeOk 0x02 = true := rfl
  simp [State.takeCue, known, order, ht, hn, State.consumeCue]

/-- R80: the message to the neighbour of port `p`, numbered for it. -/
def toNeighbour (s : State) (p typ : Nat) (body : List Byte) : Cue :=
  { typ := typ, neighbour := true, dest := s.keyNeighbour (portKey p), src := s.self
    seq := s.nextSeq false (s.keyNeighbour (portKey p)), body := body }

/-- R514: with room in its send queue, a message to the neighbour joins it; nothing but that queue and the number used changes. -/
theorem tellNeighbour_queued {s : State} {p typ : Nat} {body : List Byte} (room : s.cueRoom (portKey p) false = true)
    (ht : (typ == 0x20) = false) :
    ((s.tellNeighbour p typ body).cueQueue (portKey p)).items =
        (s.cueQueue (portKey p)).items ++ [(false, toNeighbour s p typ body)] ∧
      { s.tellNeighbour p typ body with cueQ := s.cueQ, sync := s.sync } = s := by
  have queued : s.tellNeighbour p typ body =
      (s.useSeq false (s.keyNeighbour (portKey p))).enqueueCue (portKey p) false (toNeighbour s p typ body) := by
    simp only [State.tellNeighbour, State.originate, room, if_true, State.numberCue, ht]
    rfl
  rw [queued]
  exact ⟨congrArg CueQueue.items (Tab.get_put_self ..), rfl⟩

/-- Settles O25: a message is taken from its port's list and goes by its type; a roll call is answered through the send queue. Which
neighbour the answer is for is entry 122 of the assumption log. -/
theorem cueNode : Obligations.CueNode := by
  have wf {p : Nat} {c : Cue} (hp : p < 16) (hc : okCue c = true) : (okPort p && okCue c) = true := by
    rw [hc, okPort, decide_eq_true hp]
    rfl
  refine ⟨fun s p c rest hp hl hc ht => ?reserved, fun s p c rest hp hl hc ht hn hm => ?taken,
    fun s p c hp hok hs => ⟨?here, ?hold⟩, fun s p c hp hok hs ready room => ?ready, fun s p c hp hok hs ready room => ?notReady⟩
  case reserved =>
    refine answers_of (exec_cueMessage_cons hl hc) (decide_eq_true hp) ?_
    rw [takeCue_reserved p ht]
    exact reported_eventC _ _ _ _ _ (by decide) (by decide)
  case taken => exact exec_of (exec_cueMessage_cons hl hc) (decide_eq_true hp) (takeCue_here p ht hn hm)
  case here => exact exec_of rfl (wf hp hok) (if_pos hs)
  case hold => exact exec_of rfl (wf hp hok) (if_pos hs)
  case ready =>
    refine answers_of rfl (wf hp hok) ?_
    rw [if_pos hs, State.answerRollCall, if_pos ready]
    exact tellNeighbour_queued room rfl
  case notReady =>
    refine answers_of rfl (wf hp hok) ?_
    rw [if_pos hs, State.answerRollCall, if_neg (by rw [ready]; decide)]
    obtain ⟨queued, kept⟩ := tellNeighbour_queued (body := s.hereBody true) (typ := 0x03) room rfl
    exact ⟨queued, congrArg (fun u => { u with fresh := s.fresh }) kept⟩

end Sys2Proof
end

section
/-!
SUPPORT. The score's banks (R101, R102, R104 to R106, R532) and its switch (R107).
-/
namespace Sys2Proof.Machine

/-! ### The banks -/

@[simp] theorem State.standbyBank_setStandby (s : State) (m : Mem) : (s.setStandby m).standbyBank = m := by
  by_cases h : s.score.active = 0 <;> simp [State.setStandby, State.standbyBank, h]

@[simp] theorem State.activeBank_setStandby (s : State) (m : Mem) : (s.setStandby m).activeBank = s.activeBank := by
  unfold State.setStandby State.activeBank
  split <;> rfl

/-- Of the state only the score changes with the standby bank's bytes, and of the score only the bank. -/
theorem State.setStandby_frame (s : State) (m : Mem) : { s.setStandby m with score := s.score } = s ∧
    (s.setStandby m).score.standby = s.score.standby := by
  unfold State.setStandby
  split <;> exact ⟨rfl, rfl⟩

theorem State.standbyBank_of_score {s t : State} (ha : t.score.active = s.score.active) (h1 : t.score.bankA = s.score.bankA)
    (h2 : t.score.bankB = s.score.bankB) : t.standbyBank = s.standbyBank ∧ t.activeBank = s.activeBank := by
  simp only [State.standbyBank, State.activeBank, ha, h1, h2, and_self]

/-! ### The switch -/

/-- What the switch, once the banks have changed places, does to everything else leaves the score, the espalier and the Tactus. -/
def SwitchKept (s t : State) : Prop := t.score = s.score ∧ t.esp = s.esp ∧ t.tact = s.tact

theorem SwitchKept.refl (s : State) : SwitchKept s s := ⟨rfl, rfl, rfl⟩

theorem SwitchKept.setPort (s : State) (p : Nat) (v : Port) : SwitchKept s (s.setPort p v) := ⟨rfl, rfl, rfl⟩

theorem SwitchKept.trans {s t u : State} (h : SwitchKept s t) (k : SwitchKept t u) : SwitchKept s u :=
  ⟨k.1.trans h.1, k.2.1.trans h.2.1, k.2.2.trans h.2.2⟩

theorem SwitchKept.forEach {α : Type} {s t : State} (xs : List α) (f : α → State → State) (hf : ∀ x u, SwitchKept u (f x u))
    (h : SwitchKept s t) : SwitchKept s (forEach xs f t) := by
  induction xs generalizing t with
  | nil => exact h
  | cons x xs ih => exact ih (h.trans (hf x t))

end Sys2Proof.Machine

namespace Sys2Proof
open Sys2Proof.Machine

theorem ButReports.switchKept {s t : State} (h : ButReports s t) : SwitchKept s t := ⟨h.score, h.esp, h.tact⟩

/-- R438: a class-U event without a reaction of its own. -/
theorem raiseOn_switchKept (s : State) (det : Nat) (unit : UnitId) (detail : Nat) : SwitchKept s (s.raiseOn det unit detail) := by
  obtain ⟨ts, u, but, h | h | ⟨t, -, h⟩⟩ := raise_writes s det unit unit.target detail [] id
  all_goals
    have kept : SwitchKept s u := but.switchKept
    rw [State.raiseOn, h]
  · exact kept
  · exact kept
  · exact kept.trans (by simp [SwitchKept])

theorem stopColl_switchKept (s : State) (c : Coll) (d : Done) : SwitchKept s (s.stopColl c d) := by
  simp [State.stopColl, SwitchKept]

theorem endChanged_switchKept (s : State) (old new : Mem) : SwitchKept s (s.endChanged old new) := by
  simp only [SwitchKept, State.endChanged, State.abandonChorus_frame]
  refine (SwitchKept.forEach _ _ (fun c u => ?_) (.refl s) : SwitchKept _ _)
  split
  · exact stopColl_switchKept u c _
  · exact .refl u

theorem keepLost_switchKept (s : State) (joined : Bool) (new : Mem) : SwitchKept s (s.keepLost joined new) := by
  unfold State.keepLost
  split
  · exact ⟨rfl, rfl, rfl⟩
  · exact .forEach _ _ (fun x u => ButReports.switchKept (by simp)) ⟨rfl, rfl, rfl⟩

theorem applyMasks_switchKept (s : State) : SwitchKept s s.applyMasks := by
  unfold State.applyMasks
  dsimp only
  refine .forEach _ _ (fun i u => by simp [SwitchKept]) (.forEach _ _ (fun i u => ?_) (.refl s))
  split
  · refine SwitchKept.trans (t := (u.modUnit i fun x => { x with passed := false, probCount := 0 }).setUnitState i .in_)
      (by simp [SwitchKept]) ?_
    split <;> split <;> exact ⟨rfl, rfl, rfl⟩
  · exact ButReports.switchKept (by simp)

theorem graftSwitched_switchKept (s : State) : SwitchKept s s.graftSwitched := by
  unfold State.graftSwitched
  split
  · exact (applyMasks_switchKept s).trans ⟨rfl, rfl, rfl⟩
  · exact .refl s

theorem enterSchedule_switchKept (s : State) (m : Mem) (p : Nat) : SwitchKept s (s.enterSchedule m p) := by
  unfold State.enterSchedule
  dsimp only
  split
  · exact .setPort ..
  · exact SwitchKept.trans (.setPort ..) (raiseOn_switchKept _ _ _ _)

theorem adoptPort_switchKept (old : Option Mem) (new : Mem) (p : Nat) (s : State) : SwitchKept s (State.adoptPort old new p s) := by
  unfold State.adoptPort
  dsimp only
  split
  · split
    · exact .setPort ..
    · split
      · exact .setPort ..
      · exact SwitchKept.trans (.setPort ..) (raiseOn_switchKept _ _ _ _)
  · split
    · exact .setPort ..
    · split
      · exact .setPort ..
      · exact SwitchKept.trans (.setPort ..) (raiseOn_switchKept _ _ _ _)
  · split
    · exact enterSchedule_switchKept s new p
    · exact .refl s
  all_goals exact .refl s

/-- R118: the flits in flight are counted and gone. -/
theorem dropFlits_switchKept (s : State) :
    SwitchKept { s with esp.inflight := [], esp.arrived := [] } s.dropFlits :=
  .forEach _ _ (fun _ u => ButReports.switchKept (by simp)) ⟨rfl, rfl, rfl⟩

/-- R105, R107: the switch at its target phrase: the banks change places, and no flit is left. -/
theorem switchScore_switches {s : State} {p : Nat} (ht : s.score.target = some p) (hp : s.atPhrase p = true)
    (hr : s.score.standby = .ready) :
    SwitchKept { s.swapBanks with esp.inflight := [], esp.arrived := [] } s.switchScore := by
  have due : (s.score.target.any s.atPhrase && s.score.standby == .ready) = true := by simp [ht, hp, hr]
  unfold State.switchScore
  rw [if_pos due]
  refine (dropFlits_switchKept s.swapBanks).trans ?_
  refine .forEach _ _ (fun p u => adoptPort_switchKept _ _ p u)
    (SwitchKept.trans (SwitchKept.trans ?_ (keepLost_switchKept _ _ _)) (graftSwitched_switchKept _))
  cases s.img with
  | some o => exact endChanged_switchKept _ o _
  | none => exact .refl _

/-- Settles O27: only the exchange of the banks writes the score; the two clauses of the rootstock are its release and the wait for
it. -/
theorem scoreSwitchesBanks : Obligations.ScoreSwitchesBanks := by
  refine ⟨fun s p hl ht hp hr => ?switch, fun s hh hd => ?landed, fun s hh hd => ?underway⟩
  case switch =>
    obtain ⟨score, esp, tact⟩ := switchScore_switches ht hp hr
    refine answers_of rfl rfl ?_
    rw [if_pos hl]
    rw [score, esp, tact]
    exact ⟨rfl, rfl, rfl, rfl, rfl, rfl, rfl, rfl, rfl, rfl, rfl⟩
  case landed => exact exec_of rfl rfl (if_pos (by rw [hh, decide_eq_true hd]; rfl))
  case underway =>
    refine exec_of rfl rfl (if_neg ?_)
    rw [hh, Bool.true_and, decide_eq_true_eq]
    exact Nat.not_le_of_lt hd

/-! ### Bank writes, LOAD, the load check and targets -/

/-- R101: a write to the standby bank that nothing holds stores its bytes; a READY or FAILED image becomes EMPTY. -/
theorem writeBank_stored {s : State} {bank : Nat} (off len v : Nat) (hh : s.bankHeld = false) (hb : bank ≠ s.score.active) :
    (s.writeBank bank off len v).standbyBank = s.standbyBank.writeN off (leBytes v len) ∧
      (s.writeBank bank off len v).activeBank = s.activeBank ∧
      (s.score.standby = .ready ∨ s.score.standby = .failed → (s.writeBank bank off len v).score.standby = .empty) ∧
      { s.writeBank bank off len v with score := s.score } = s := by
  let u := s.setStandby (s.standbyBank.writeN off (leBytes v len))
  obtain ⟨kept, same⟩ := State.setStandby_frame s (s.standbyBank.writeN off (leBytes v len))
  have standby : u.standbyBank = s.standbyBank.writeN off (leBytes v len) := State.standbyBank_setStandby ..
  have active : u.activeBank = s.activeBank := State.activeBank_setStandby ..
  have open_ : ¬ (s.bankHeld || bank == s.score.active) = true := by simp [hh, hb]
  unfold State.writeBank
  rw [if_neg open_]
  dsimp only
  rw [same]
  cases s.score.standby with
  | ready => exact ⟨standby, active, fun _ => rfl, kept⟩
  | failed => exact ⟨standby, active, fun _ => rfl, kept⟩
  | empty => exact ⟨standby, active, by simp, kept⟩
  | checking => exact ⟨standby, active, by simp, kept⟩

/-- R101: a write to the active bank, or to a held one. -/
theorem reported_writeBank_refused {s : State} {bank : Nat} (off len v : Nat) (h : s.bankHeld = true ∨ bank = s.score.active) :
    Reported Det.writeRefused { s with score.writeRefused := true } (s.writeBank bank off len v) := by
  have refused : (s.bankHeld || bank == s.score.active) = true := by simpa using h
  rw [State.writeBank, if_pos refused]
  exact reported_eventC _ _ _ _ _ (by decide) (by decide)

/-- R102, R104: the first check that fails ends the load check. -/
theorem reported_checkDone_failed {s : State} {code off : Nat} (h : (Img.check s.checkCtx s.standbyBank).2 = some (code, off)) :
    Reported Det.loadErr { s with score.standby := .failed, score.loadErr := code, score.errOffset := off } s.checkDone := by
  simp only [State.checkDone, h]
  exact reported_eventC _ _ _ _ _ (by decide) (by decide)

/-- The score of a standby bank that has passed its checks. -/
def checkedScore (s : State) : ScoreCtl :=
  { (s.setStandby (Img.check s.checkCtx s.standbyBank).1).score with
    standby := .ready, loadErr := 0, errOffset := 0
    deadStandby := min 0xFFFF (Img.deadPaths (Img.check s.checkCtx s.standbyBank).1) }

/-- R102, R104, R116: an image that passes is READY; its dead paths are reported. -/
theorem checkDone_passed {s : State} (h : (Img.check s.checkCtx s.standbyBank).2 = none) :
    ButReports { s with score := checkedScore s } s.checkDone := by
  have kept := (State.setStandby_frame s (Img.check s.checkCtx s.standbyBank).1).1
  have same : { s.setStandby (Img.check s.checkCtx s.standbyBank).1 with score := checkedScore s } =
      { s with score := checkedScore s } := congrArg (fun u : State => { u with score := checkedScore s }) kept
  have start : ButReports { s with score := checkedScore s }
      { s.setStandby (Img.check s.checkCtx s.standbyBank).1 with score := checkedScore s } := same ▸ ButReports.rfl' _
  simp only [State.checkDone, h]
  split
  · rw [butReports_eventC]
    exact start
  · exact start

/-- Settles O26: each register write and the end of the load check, accepted and refused. -/
theorem scoreBank : Obligations.ScoreBank := by
  refine ⟨fun s bank off len v hw hl hh hb => ?write, fun s bank off len v hw hl h => ?refused, fun s hl hh => ⟨?load, ?discard⟩,
    fun s hl hh => ⟨?loadRefused, ?discardRefused⟩, fun s code off hl hc h => ?failed, fun s hl hc h => ?passed,
    fun s v hl hm ht hr hd => ?target, fun s v hl hm => ?targetRefused⟩
  case write =>
    refine answers_of rfl hw ?_
    rw [State.whenLive, if_pos hl]
    exact writeBank_stored off len v.toNat hh hb
  case refused =>
    refine answers_of rfl hw ?_
    rw [State.whenLive, if_pos hl]
    exact reported_writeBank_refused off len v.toNat h
  case load => exact exec_of rfl rfl ((if_pos hl).trans (if_neg (by rw [hh]; decide)))
  case discard => exact exec_of rfl rfl ((if_pos hl).trans (if_neg (by rw [hh]; decide)))
  case loadRefused => exact exec_of rfl rfl ((if_pos hl).trans (if_pos hh))
  case discardRefused => exact exec_of rfl rfl ((if_pos hl).trans (if_pos hh))
  case failed =>
    refine answers_of rfl rfl ?_
    rw [if_pos (by rw [hl, hc]; rfl)]
    exact reported_checkDone_failed h
  case passed =>
    refine answers_of rfl rfl ?_
    rw [if_pos (by rw [hl, hc]; rfl)]
    have but := checkDone_passed h
    have score : s.checkDone.score = checkedScore s := but.score
    obtain ⟨standby, active⟩ := State.standbyBank_of_score (s := s.setStandby (Img.check s.checkCtx s.standbyBank).1)
      (t := s.checkDone) (by rw [score]; rfl) (by rw [score]; rfl) (by rw [score]; rfl)
    rw [State.standbyBank_setStandby] at standby
    rw [State.activeBank_setStandby] at active
    refine ⟨by rw [score]; rfl, by rw [score]; rfl, by rw [score]; rfl, standby, active, ?_⟩
    rw [score]
    exact but
  case target =>
    refine exec_of rfl rfl ((if_pos hl).trans ((if_neg (by rw [hm]; decide)).trans ?_))
    simp [State.setTarget, ht, hr, hd]
  case targetRefused =>
    refine answers_of rfl rfl ?_
    rw [State.whenLive, if_pos hl, State.writeScrTarget, if_pos hm]
    exact reported_eventC _ _ _ _ _ (by decide) (by decide)

end Sys2Proof
end

section
/-!
SUPPORT. Counters that lie below the fault collector's: what reports of class-C and class-U events do not write (R431, R438).
-/
namespace Sys2Proof
open Sys2Proof.Machine

/-- A counter of a block that lies below the fault collector in BAR0 (Table REG-1). -/
def BelowCollector (a : Nat) : Prop := a < 0x600000

theorem BelowCollector.not_mem_reportCells {a : Nat} (h : BelowCollector a) (det : Nat) : a ∉ reportCells det := by
  simp only [BelowCollector] at h
  simp only [reportCells, Cnt.host, Cnt.det, Cnt.grp, Det.msiBlocked, List.mem_cons, List.not_mem_nil, or_false, not_or]
  omega

theorem BelowCollector.not_mem_blockedCells {a : Nat} (h : BelowCollector a) : a ∉ blockedCells :=
  fun hb => h.not_mem_reportCells 0 (List.mem_cons_of_mem _ (List.mem_cons_of_mem _ hb))

theorem BelowCollector.ne_det {a : Nat} (h : BelowCollector a) (det : Nat) : Cnt.det det ≠ a := by
  simp only [BelowCollector] at h
  simp only [Cnt.det]
  omega

theorem BelowCollector.ne_grp {a : Nat} (h : BelowCollector a) (g : Nat) : Cnt.grp g ≠ a := by
  simp only [BelowCollector] at h
  simp only [Cnt.grp]
  omega

theorem BelowCollector.eventC_keeps {a : Nat} (h : BelowCollector a) (s : State) (det : Nat) (u : UnitId) (d : Nat) (via : List Nat) :
    (s.eventC det u d via).counter a = s.counter a :=
  counter_eventC_other s det u d via a (h.not_mem_reportCells det)

theorem BelowCollector.logU_keeps {a : Nat} (h : BelowCollector a) (s : State) (det : Nat) (u : UnitId) (g : Option Nat) (d : Nat)
    (i : Bool) (b : BitVec 6) : (s.logU det u g d i b).counter a = s.counter a := by
  rw [counter_logU _ _ _ _ _ _ _ _ h.not_mem_blockedCells, State.countDet, counter_count_ne _ (h.ne_det det)]

/-- R438: whatever becomes of its target. -/
theorem BelowCollector.contain_keeps {a : Nat} (h : BelowCollector a) (s : State) (det : Nat) (u : UnitId) (t d : Nat) (i : Bool) :
    (s.contain det u t d i).1.counter a = s.counter a := by
  have target (v : Target) : (s.setTgt t v).counter a = s.counter a := rfl
  unfold State.contain
  dsimp only
  split
  · rw [h.logU_keeps, target]
  all_goals
    split
    · rw [h.logU_keeps, target]
    · rw [h.eventC_keeps, h.logU_keeps, target]

theorem BelowCollector.eventU_keeps {a : Nat} (h : BelowCollector a) (s : State) (det : Nat) (u : UnitId) (g : Option Nat) (d : Nat)
    (via : List Nat) : (s.eventU det u g d via).1.counter a = s.counter a := by
  unfold State.eventU
  split
  · rw [counter_logIrq _ _ _ h.not_mem_blockedCells, counter_eventCN _ _ _ _ _ _ _ _ _ h.not_mem_blockedCells,
      counter_count_ne _ (h.ne_grp _), State.countDet, counter_count_ne _ (h.ne_det det)]
  · split
    · exact h.logU_keeps _ _ _ _ _ _ _
    · exact h.contain_keeps _ _ _ _ _ _

/-- Table FLT-4: HELD has an effect of its own on units of the engine only. -/
theorem raise_eq_eventU {s : State} {det : Nat} {unit : UnitId} {tgt : Option Nat} (detail : Nat) (via : List Nat)
    (h : ∀ t ∈ tgt, 48 ≤ t) : s.raise det unit tgt detail via = (s.eventU det unit tgt detail via).1 := by
  unfold State.raise
  split
  · next e => rw [e]
  · next e => rw [e]; rfl
  · next u e =>
    rw [e]
    cases tgt with
    | none => rfl
    | some t => exact if_neg (Nat.not_lt.mpr (h t rfl))

end Sys2Proof
end

section
/-!
SUPPORT. Requests at the memory controllers: reads (R137 to R140, R147, R149, R150, R163) and writes (R141 to R146, R161).
-/
namespace Sys2Proof.Machine

theorem numbered_map_snd {α : Type} (i : Nat) (xs : List α) : (numbered i xs).map (·.2) = xs := by
  induction xs generalizing i with
  | nil => rfl
  | cons x xs ih => exact congrArg (x :: ·) (ih (i + 1))

/-- R131: a page that was read without an error delivers the bytes that were held. -/
theorem flipRead_same (ph : Nat) (bs : List Byte) (m : Mem) : flipRead ph bs m m = bs := by
  simp only [flipRead, if_true]
  exact numbered_map_snd ph bs

/-- `who` is no cluster core: its accesses pass no cache (R360). -/
def Requester.uncached (who : Requester) : Prop := ∀ cl c, who ≠ .core cl c

@[simp] theorem State.ctrl_answer (s : State) (who : Requester) (r : MemReply) (k : Nat) : (s.answer who r).ctrl k = s.ctrl k := rfl

/-! ### Reads -/

/-- R129: a read of an address that nothing backs. -/
theorem State.readRequest_unbacked {s : State} {who : Requester} {a n : Nat} (hw : who.uncached) (hb : s.backed a n = false) :
    s.readRequest who a n = (s.unbackedEvent a).answer who .unbacked := by
  cases who with
  | core cl c => exact absurd rfl (hw cl c)
  | _ => exact if_neg (by rw [hb]; decide)

/-- R138: a read within one page is one part. -/
theorem State.readRequest_page {s : State} {who : Requester} {a n : Nat} (hw : who.uncached) (hn : 0 < n) (hp : a % 2048 + n ≤ 2048)
    (hb : s.backed a n = true) : s.readRequest who a n = s.readPart who a n := by
  have one : extent a n = [(a, n)] := extent_of_one_page hn hp
  cases who with
  | core cl c => exact absurd rfl (hw cl c)
  | _ => exact (if_pos hb).trans (by rw [one]; rfl)

/-- R139: a part of a read, past the caches of cores: what its page's controller does with it. -/
theorem State.readPart_located {s : State} {who : Requester} {a n k ph : Nat} (hw : who.uncached) (hl : s.locate a = some (k, ph))
    (hp : ph / 2048 * 2048 ∉ s.mem.poison) : s.readPart who a n =
      if (s.ctrl k).buffer.contains (ph / 2048 * 2048) then
        (s.modCtrl k (·.touch (ph / 2048 * 2048))).answer who (.data (s.ram.readN ph n))
      else if (s.ctrl k).merged (ph / 2048 * 2048) then s.answer who (.data (s.ram.readN ph n))
      else (s.modCtrl k fun c => { c with waiting := c.waiting ++
        [{ who := who, addr := a, len := n, data := none, lease := s.leaseOf who false a, bytes := s.ram.readN ph n }] }).answer
          who .held := by
  have clean : s.mem.poison.contains (ph / 2048 * 2048) = false := by simpa using hp
  cases who with
  | core cl c => exact absurd rfl (hw cl c)
  | _ => simp only [State.readPart, hl, clean, Bool.false_eq_true, if_false]

/-- R149: the answer to a read whose page is decoded without an error. -/
theorem State.decodeNext_clean {s : State} {k k' ph : Nat} {r : MemReq} {rest : List MemReq} (hd : (s.ctrl k).decoding = r :: rest)
    (hn : r.narrow = false) (hl : s.locate r.addr = some (k', ph)) (hp : ph / 2048 * 2048 ∉ s.mem.poison)
    (he : Tab.find s.mem.errs (ph / 2048 * 2048) = none) :
    s.decodeNext k = ((s.setCtrl k { s.ctrl k with decoding := rest }).modCtrl k' (·.touch (ph / 2048 * 2048))).answer r.who
      (.data r.bytes) := by
  have located : (s.modCtrl k fun c => { c with decoding := rest }).locate r.addr = some (k', ph) := hl
  have fetched : (s.modCtrl k fun c => { c with decoding := rest }).fetchPage r.addr k' (ph / 2048 * 2048) =
      ((s.modCtrl k fun c => { c with decoding := rest }).modCtrl k' (·.touch (ph / 2048 * 2048)), none) :=
    State.fetchPage_clean _ _ hp he
  unfold State.decodeNext
  rw [hd]
  dsimp only
  rw [located]
  dsimp only
  rw [fetched, hn]
  exact congrArg (fun bs => State.answer _ r.who (.data bs)) (flipRead_same ph r.bytes s.ram)

/-- R150: the answer to a read of a poisoned page. -/
theorem State.decodeNext_poisoned {s : State} {k k' ph : Nat} {r : MemReq} {rest : List MemReq}
    (hd : (s.ctrl k).decoding = r :: rest) (hn : r.narrow = false) (hl : s.locate r.addr = some (k', ph))
    (hp : ph / 2048 * 2048 ∈ s.mem.poison) :
    s.decodeNext k = ((s.setCtrl k { s.ctrl k with decoding := rest }).count (Cnt.memErr k' Cnt.poisonReads)).failReader r.who
      Det.poisonRead (r.addr / 2048) false := by
  have located : (s.modCtrl k fun c => { c with decoding := rest }).locate r.addr = some (k', ph) := hl
  have poisoned : (s.modCtrl k fun c => { c with decoding := rest }).mem.poison.contains (ph / 2048 * 2048) = true :=
    show s.mem.poison.contains _ = true by simpa using hp
  have fetched : (s.modCtrl k fun c => { c with decoding := rest }).fetchPage r.addr k' (ph / 2048 * 2048) =
      ((s.modCtrl k fun c => { c with decoding := rest }).count (Cnt.memErr k' Cnt.poisonReads), some Det.poisonRead) :=
    if_pos poisoned
  unfold State.decodeNext
  rw [hd]
  dsimp only
  rw [located]
  dsimp only
  rw [fetched, hn]
  rfl

/-- The touched page changes nothing of a controller but its buffer. -/
theorem MemPort.decoding_touch (c : MemPort) (pg : Nat) : (c.touch pg).decoding = c.decoding := by
  unfold MemPort.touch
  dsimp only
  split
  · rfl
  · split <;> rfl

/-! ### Service -/

/-- Level 6 with one request waiting. -/
theorem MemPort.bestNext_one {c : MemPort} {r : MemReq} (h : c.waiting = [r]) : c.bestNext = some r := by
  simp [MemPort.bestNext, h]

end Sys2Proof.Machine

namespace Sys2Proof
open Sys2Proof.Machine

theorem exec_memoryRead_live {s : State} (who : Requester) (a n : Nat) (hl : s.live = true) :
    Machine.exec (.memoryRead who a n) s = within (Instr.memoryRead who a n).wf (s.readRequest who a n) :=
  congrArg (within _) (if_pos hl)

theorem exec_pageService_may {s : State} {k : Nat} (hk : k < 12) (hm : s.mayServe k = true) :
    Machine.exec (.pageService k) s = .next (s.service k) :=
  exec_of rfl (decide_eq_true hk) (if_pos hm)

/-- Table MEM-7: the scrubber's failed read is answered, and reported without a target. -/
theorem failReader_scrub (s : State) (det page : Nat) : (s.failReader .scrub det page false).mem.reply = some (.scrub, .poisoned page) ∧
    (s.failReader .scrub det page false).ram = s.ram := by
  obtain ⟨ts, but⟩ := eventU_writes (s.answer .scrub (.poisoned page)) det .engine none page []
  have reported : s.failReader .scrub det page false = ((s.answer .scrub (.poisoned page)).eventU det .engine none page []).1 := rfl
  rw [reported]
  exact ⟨(congrArg MemCtl.reply but.mem).trans rfl, but.ram.trans rfl⟩

/-- A controller and the answer of an access are part of the memory. -/
theorem modCtrl_answer_but_mem (s : State) (k : Nat) (f : MemPort → MemPort) (who : Requester) (r : MemReply) (m : MemCtl) :
    { (s.modCtrl k f).answer who r with mem := m } = { s with mem := m } := rfl

/-- Settles O29: a read within one page goes by what its controller holds of the page. The snapshot at acceptance is entry 67 of the
assumption log, the answer from the buffer is entry 69; failed reads are Table MEM-7. -/
theorem memoryReads : Obligations.MemoryReads := by
  refine ⟨fun s who a n k ph hw hc hl hn hp hb hloc hpo hbuf => ?hit, fun s who a n k ph hw hc hl hn hp hb hloc hpo hbuf hm => ?miss,
    fun s who a n hw hc hl hb => ?unbacked, fun s k pg rest hk hm hwb => ?writeBack,
    fun s k r hk hm hwb hlk hle hsc hwt hrl hrd => ?serve, fun s k k' ph r rest hk hl hd hn hloc hpo he hbs => ?decode,
    fun s k k' ph r rest hk hl hd hn hloc hpo hwho => ?poisoned⟩
  case hit =>
    refine answers_of (exec_memoryRead_live who a n hl) hw ?_
    rw [State.readRequest_page hc hn hp hb, State.readPart_located hc hloc hpo, if_pos hbuf]
    exact ⟨rfl, rfl, rfl⟩
  case miss =>
    refine answers_of (exec_memoryRead_live who a n hl) hw ?_
    rw [State.readRequest_page hc hn hp hb, State.readPart_located hc hloc hpo, if_neg (by rw [hbuf]; decide),
      if_neg (by rw [hm]; decide)]
    refine ⟨rfl, ?_, rfl⟩
    rw [State.ctrl_answer, State.ctrl_modCtrl_self]
  case unbacked =>
    refine answers_of (exec_memoryRead_live who a n hl) hw ?_
    rw [State.readRequest_unbacked hc hb]
    have below : BelowCollector Cnt.unbacked := by unfold BelowCollector; decide
    have but : ButReports s (s.unbackedEvent a) := by simp [State.unbackedEvent]
    refine ⟨rfl, ?_, but.map (fun u => u.answer who .unbacked) rfl⟩
    exact (below.eventC_keeps _ _ _ _ _).trans (counter_count_self s Cnt.unbacked)
  case writeBack =>
    rw [exec_pageService_may hk hm, State.service, hwb]
  case serve =>
    rw [exec_pageService_may hk hm]
    simp only [State.service, hwb, hlk, hle, hsc, MemPort.bestNext_one hwt, List.find?_nil, Bool.false_eq_true, if_false,
      State.serve, hrl, hrd, Option.isNone_none, if_true, State.modCtrl, hwt, List.erase_cons_head]
  case decode =>
    refine answers_of rfl (decide_eq_true hk) ?_
    rw [if_pos hl, State.decodeNext_clean hd hn hloc hpo he, hbs]
    refine ⟨rfl, rfl, fun hkk => ?_, modCtrl_answer_but_mem (s.setCtrl k _) k' _ _ _ s.mem⟩
    subst hkk
    rw [State.ctrl_answer, State.ctrl_modCtrl_self, MemPort.decoding_touch, State.ctrl_setCtrl_self]
  case poisoned =>
    refine answers_of rfl (decide_eq_true hk) ?_
    rw [if_pos hl, State.decodeNext_poisoned hd hn hloc hpo, hwho]
    exact failReader_scrub ((s.setCtrl k { s.ctrl k with decoding := rest }).count (Cnt.memErr k' Cnt.poisonReads)) _ _

/-! ### Writes -/

/-- R141: a write within one page, past the caches of cores. -/
theorem writeRequest_page {s : State} {who : Requester} {a : Nat} {bs : List Byte} (hc : who.uncached) (hn : 0 < bs.length)
    (hp : a % 2048 + bs.length ≤ 2048) (hb : s.backed a bs.length = true) : s.writeRequest who a bs =
      match s.strictPart a bs.length with
      | some p => s.strictWrite who p
      | none => s.writePart who a bs := by
  have parts : partsOf a bs = [(a, bs)] := by simp [partsOf, extent_of_one_page hn hp]
  cases who with
  | core cl c => exact absurd rfl (hc cl c)
  | _ =>
    refine (if_pos hb).trans ?_
    rw [parts]
    rfl

/-- R145: a write within one page has a narrow part in a STRICT region if it covers less than the page and the policy is STRICT. -/
theorem strictPart_page {s : State} {a n : Nat} (hn : 0 < n) (hp : a % 2048 + n ≤ 2048) :
    s.strictPart a n = if n < 2048 ∧ s.isStrict a = true then some a else none := by
  unfold State.strictPart narrowParts
  rw [extent_of_one_page hn hp]
  by_cases h1 : n < 2048 <;> cases h2 : s.isStrict a <;> simp [h1, h2]

/-- R142: a narrow part takes its place in the lock table, and its bytes stand. -/
theorem lockPart_stores (s : State) (k ph : Nat) (r : MemReq) : (s.lockPart k ph r).ram = s.ram.writeN ph (r.data.getD []) ∧
    (((s.lockPart k ph r).ctrl k).locks.any fun l => l.page == ph / 2048 * 2048) = true ∧
    ((s.lockPart k ph r).ctrl k).lockWait = (s.ctrl k).lockWait ∧ { s.lockPart k ph r with mem := s.mem, ram := s.ram } = s := by
  have ctrl : ({ s with ram := s.ram.writeN ph (r.data.getD []) } : State).ctrl k = s.ctrl k := rfl
  have touchWait (c : MemPort) (pg : Nat) : (c.touch pg).lockWait = c.lockWait := by
    unfold MemPort.touch
    dsimp only
    split
    · rfl
    · split <;> rfl
  unfold State.lockPart
  dsimp only
  rw [ctrl]
  split
  · next hany =>
    refine ⟨rfl, ?_, by rw [State.ctrl_setCtrl_self], rfl⟩
    obtain ⟨l, hl, page⟩ := List.any_eq_true.mp hany
    rw [State.ctrl_setCtrl_self]
    refine List.any_eq_true.mpr ⟨_, List.mem_map_of_mem hl, ?_⟩
    split <;> exact page
  · split
    · exact ⟨rfl, by rw [State.ctrl_setCtrl_self]; simp, by rw [State.ctrl_setCtrl_self]; exact touchWait _ _, rfl⟩
    · exact ⟨rfl, by rw [State.ctrl_setCtrl_self]; simp, by rw [State.ctrl_setCtrl_self], rfl⟩

/-- R142: a narrow part for which the lock table has room. -/
theorem narrowPart'_locks {s : State} {k ph : Nat} {r : MemReq} (hp : ph / 2048 * 2048 ∉ s.mem.poison)
    (hr : (s.ctrl k).lockRoom (ph / 2048 * 2048) = true) : s.narrowPart' k ph r = (s.lockPart k ph r).answer r.who (.data []) := by
  have clean : ¬ s.mem.poison.contains (ph / 2048 * 2048) = true := by simpa using hp
  unfold State.narrowPart'
  rw [if_neg clean, if_pos hr]

/-- R141, R143: a whole page whose lock is free, with no injection waiting. -/
theorem wholePart_stores {s : State} {k ph : Nat} {r : MemReq} (hl : ((s.ctrl k).locks.any fun l => l.page == ph) = false)
    (hi : s.mem.injArmed = false) :
    (s.wholePart k ph r).mem.reply = some (r.who, .data []) ∧ (s.wholePart k ph r).ram = s.ram.writeN ph (r.data.getD []) ∧
      (s.wholePart k ph r).mem.poison = s.mem.poison.filter (fun x => x != ph) ∧
      { s.wholePart k ph r with mem := s.mem, ram := s.ram } = s := by
  unfold State.wholePart State.storePage
  dsimp only
  rw [if_neg (by rw [hl]; decide), State.injectOn_unarmed (by exact hi)]
  exact ⟨rfl, rfl, rfl, rfl⟩

theorem exec_memoryWrite_live {s : State} (who : Requester) (a : Nat) (bs : List Byte) (hl : s.live = true) :
    Machine.exec (.memoryWrite who a bs) s = within (Instr.memoryWrite who a bs).wf (s.writeRequest who a bs) :=
  congrArg (within _) (if_pos hl)

/-- R145, Table MEM-6: the host's narrow write into a STRICT region. -/
theorem strictWrite_host {s : State} {a k ph : Nat} (hl : s.locate a = some (k, ph)) (hk : k < 12) :
    (s.strictWrite .host a).mem.reply = some (.host, .poisoned (a / 2048)) ∧ (s.strictWrite .host a).ram = s.ram ∧
      (s.strictWrite .host a).counter (Cnt.memErr k Cnt.narrowWrite) = risen (s.counter (Cnt.memErr k Cnt.narrowWrite)) 1 := by
  have below : BelowCollector (Cnt.memErr k Cnt.narrowWrite) := by
    simp only [BelowCollector, Cnt.memErr, Cnt.narrowWrite]
    omega
  let u := ((s.count (Cnt.memErr k Cnt.narrowWrite)).eventC Det.narrowWrite (ctrlUnit k) (a / 2048)).answer .host
    (.poisoned (a / 2048))
  have written : s.strictWrite .host a = (u.eventU Det.strictHostWrite .host (some 50) (a / 2048) (pageVia (a / 2048))).1 := by
    simp only [State.strictWrite, hl]
    exact raise_eq_eventU _ _ (by simp [UnitId.target])
  obtain ⟨ts, but⟩ := eventU_writes u Det.strictHostWrite .host (some 50) (a / 2048) (pageVia (a / 2048))
  rw [written]
  refine ⟨congrArg MemCtl.reply but.mem, but.ram.trans (State.eventC_keeps _ _ _ _ _).2, ?_⟩
  rw [below.eventU_keeps]
  exact (below.eventC_keeps _ _ _ _ _).trans (counter_count_self s _)

/-- Settles O30: a write within one page is one part, whole or narrow. That its bytes stand from its acceptance, and that a narrow
write waits with its data, is entry 67 of the assumption log. -/
theorem memoryWrites : Obligations.MemoryWrites := by
  refine ⟨fun s who a k ph bs hw hc hl hlen ha hb hloc hlk hi hwf => ?whole,
    fun s who a k ph bs hw hc hl hpos hlt hp hb hst hloc hpo hroom hwf => ?narrow,
    fun s a k ph bs hw hl hpos hlt hp hb hst hloc hk => ?strict,
    fun s k k' ph r hk hl hwait hloc hkk hlen hpo hroom => ?granted, fun s k l hk hf => ?done⟩
  case whole =>
    refine answers_of (exec_memoryWrite_live who a bs hl) hw ?_
    have inPage : a % 2048 + bs.length ≤ 2048 := by omega
    have part : s.writeRequest who a bs =
        s.wholePart k ph { who := who, addr := a, len := bs.length, data := some bs, lease := s.leaseOf who true a } := by
      rw [writeRequest_page hc (by omega) inPage (by rw [hlen]; exact hb), strictPart_page (by omega) inPage,
        if_neg (by omega)]
      simp only [State.writePart, hloc, hlen, if_true]
    obtain ⟨reply, ram, poison, kept⟩ := wholePart_stores
      (r := { who := who, addr := a, len := bs.length, data := some bs, lease := s.leaseOf who true a }) hlk hi
    rw [part]
    refine ⟨reply, ?_, fun x hx => ?_, poison, kept⟩
    · rw [ram, ← hlen]
      exact Mem.readN_writeN bs s.ram ph hwf
    · rw [ram]
      exact Mem.read_writeN_other bs s.ram ph x hwf (by omega)
  case narrow =>
    refine answers_of (exec_memoryWrite_live who a bs hl) hw ?_
    have part : s.writeRequest who a bs = (s.lockPart k ph
        { who := who, addr := a, len := bs.length, data := some bs, lease := s.leaseOf who true a }).answer who (.data []) := by
      rw [writeRequest_page hc hpos hp hb, strictPart_page hpos hp, if_neg (by simp [hst])]
      simp only [State.writePart, hloc, if_neg (show ¬ bs.length = 2048 by omega)]
      exact narrowPart'_locks hpo hroom
    obtain ⟨ram, lock, -, kept⟩ := lockPart_stores s k ph
      { who := who, addr := a, len := bs.length, data := some bs, lease := s.leaseOf who true a }
    rw [part]
    refine ⟨rfl, ?_, fun x hx => ?_, lock, kept⟩
    · exact (congrArg (fun m => Mem.readN m ph bs.length) ram).trans (Mem.readN_writeN bs s.ram ph hwf)
    · exact (congrArg (fun m => Mem.read m x) ram).trans (Mem.read_writeN_other bs s.ram ph x hwf hx)
  case strict =>
    refine answers_of (exec_memoryWrite_live .host a bs hl) hw ?_
    have part : s.writeRequest .host a bs = s.strictWrite .host a := by
      rw [writeRequest_page (who := .host) (fun _ _ h => nomatch h) hpos hp hb, strictPart_page hpos hp, if_pos ⟨hlt, hst⟩]
    rw [part]
    exact strictWrite_host hloc hk
  case granted =>
    subst hkk
    let u := s.setCtrl k' { s.ctrl k' with lockWait := [] }
    have granted : s.grantNext k' = (u.lockPart k' ph r).answer r.who (.data []) := by
      have clean : s.mem.poison.contains (ph / 2048 * 2048) = false := by simpa using hpo
      have located : (s.setCtrl k' { s.ctrl k' with lockWait := [] }).locate r.addr = some (k', ph) := hloc
      have part : u.narrowPart' k' ph r = (u.lockPart k' ph r).answer r.who (.data []) :=
        narrowPart'_locks hpo (by rw [State.ctrl_setCtrl_self]; exact hroom)
      simp only [State.grantNext, hwait, List.find?_cons, hloc, hlen, if_false, clean, hroom, Bool.false_or, List.erase_cons_head,
        located]
      exact part
    obtain ⟨ram, lock, wait, -⟩ := lockPart_stores u k' ph r
    refine answers_of rfl (decide_eq_true hk) ?_
    rw [if_pos hl, granted]
    refine ⟨rfl, ram, wait.trans ?_, lock⟩
    rw [State.ctrl_setCtrl_self]
  case done =>
    refine exec_of rfl (decide_eq_true hk) ?_
    dsimp only
    rw [hf]

end Sys2Proof
end

section
/-!
SUPPORT. Patrol scrub, recode, leases and regions (R152 to R158, R160, R164, R165).
-/
namespace Sys2Proof.Machine

/-- A touched page changes a controller's buffer and what waits to be written back. -/
theorem MemPort.touch_eq (c : MemPort) (pg : Nat) : ∃ bf wb, c.touch pg = { c with buffer := bf, writeBack := wb } := by
  unfold MemPort.touch
  dsimp only
  split
  · exact ⟨_, _, rfl⟩
  · split <;> exact ⟨_, _, rfl⟩

theorem State.ctrl_of_mem {s t : State} (h : t.mem = s.mem) (k : Nat) : t.ctrl k = s.ctrl k :=
  congrArg (fun m : MemCtl => Tab.get ({} : MemPort) m.ports k) h

/-- R152: the check of the scrub pace sets its flag, and reports at most. -/
theorem State.scrubLateCheck_but (s : State) (k : Nat) :
    ∃ late, ButReports (s.setCtrl k { s.ctrl k with scrubLate := late }) (s.scrubLateCheck k) := by
  refine ⟨decide (s.pagesOfCtrl k < 100 * (s.scrubGoal k - (s.ctrl k).scrubPage)), ?_⟩
  unfold State.scrubLateCheck
  dsimp only
  split
  · simp
  · exact ButReports.rfl' _

/-- R152: the patrol read of a page without an error. -/
theorem State.patrolPage_clean {s : State} {k ph : Nat} (who : Requester) (hp : ph ∉ s.mem.poison)
    (he : Tab.find s.mem.errs ph = none) : s.patrolPage who k ph = (s.modCtrl k (·.touch ph), true) := by
  unfold State.patrolPage
  dsimp only
  rw [State.fetchPage_clean _ _ hp he]

theorem State.scrubStep_clean {s : State} {k : Nat} (hp : ctrlPage k (s.ctrl k).scrubPage ∉ s.mem.poison)
    (he : Tab.find s.mem.errs (ctrlPage k (s.ctrl k).scrubPage) = none) : s.scrubStep k =
      ((s.modCtrl k (·.touch (ctrlPage k (s.ctrl k).scrubPage))).modCtrl k (if (s.ctrl k).scrubPage + 1 < s.pagesOfCtrl k then
        fun c => { c with scrubPage := (s.ctrl k).scrubPage + 1 }
      else fun c => { c with scrubPage := 0, scrubPasses := satAdd 0xFFFF c.scrubPasses 1, scrubSince := s.now })).scrubLateCheck k := by
  unfold State.scrubStep
  dsimp only
  rw [State.patrolPage_clean .scrub hp he]
  by_cases h : (s.ctrl k).scrubPage + 1 < s.pagesOfCtrl k
  · rw [if_pos h]
    exact congrArg (fun u : State => u.scrubLateCheck k) (if_pos h)
  · rw [if_neg h]
    exact congrArg (fun u : State => u.scrubLateCheck k) (if_neg h)

/-- The part of a controller that the scrubber walks with. -/
def MemPort.walk (c : MemPort) : Nat × Nat × Nat := (c.scrubPage, c.scrubPasses, c.scrubSince)

theorem MemPort.walk_touch (c : MemPort) (pg : Nat) : (c.touch pg).walk = c.walk := by
  obtain ⟨bf, wb, touched⟩ := c.touch_eq pg
  rw [touched]
  rfl

/-- R152: the scrubber's place after a step that checks its pace. -/
theorem State.walk_scrubLateCheck (s : State) (k : Nat) : ((s.scrubLateCheck k).ctrl k).walk = (s.ctrl k).walk ∧
    ButReports { s with mem := (s.scrubLateCheck k).mem } (s.scrubLateCheck k) := by
  obtain ⟨late, but⟩ := s.scrubLateCheck_but k
  have ctrl : (s.scrubLateCheck k).ctrl k = (s.setCtrl k { s.ctrl k with scrubLate := late }).ctrl k :=
    State.ctrl_of_mem but.mem k
  refine ⟨?_, ?_⟩
  · rw [ctrl, State.ctrl_setCtrl_self]
    rfl
  · rw [but.mem]
    exact but

/-- R154: a page that was read for a recode and stands without errors under the new strength. -/
def State.cleaned (s : State) (k ph : Nat) : State :=
  ({ s.modCtrl k (·.touch ph) with mem.errs := Tab.del s.mem.errs ph } : State).modCtrl k fun c =>
    { c with writeBack := c.writeBack.filter fun x => x != ph }

/-- R154: one page of a recode whose page is read without an error. -/
theorem State.recodePage_clean {s : State} {rc : Recode} {k ph : Nat} (hl : s.locate rc.ptr = some (k, ph))
    (hr : s.regionOf rc.ptr = rc.region) (hm : s.mayServe k = true) (hb : (s.ctrl k).breach = false)
    (hk : ((s.ctrl k).locks.any fun l => l.page == ph) = false) (hp : ph ∉ s.mem.poison) (he : Tab.find s.mem.errs ph = none) :
    s.recodePage rc = (s.cleaned k ph).recodeTo rc (rc.ptr + 2048) := by
  have clean : s.mem.poison.contains ph = false := by simpa using hp
  unfold State.recodePage
  rw [hl]
  dsimp only
  rw [if_neg (not_not_intro hr), hm, hb, hk, clean, State.patrolPage_clean .recode hp he]
  rfl

theorem State.recodeTo_next {s : State} (rc : Recode) {a : Nat} (h : a < (s.region rc.region).limit) :
    s.recodeTo rc a = { s with mem.recode := some { rc with ptr := a }, mem.recodePtr := a } := if_pos h

theorem State.recodeTo_last {s : State} (rc : Recode) {a : Nat} (h : ¬ a < (s.region rc.region).limit) : s.recodeTo rc a =
    { s.setRegion rc.region { s.region rc.region with strength := rc.strength } with
      mem.recode := none, mem.recodePtr := (s.region rc.region).limit } := if_neg h

theorem State.recodeTo_but_mem (s : State) (rc : Recode) (a : Nat) (m : MemCtl) : (s.recodeTo rc a).ram = s.ram ∧
    { s.recodeTo rc a with mem := m } = { s with mem := m } := by
  unfold State.recodeTo
  dsimp only
  split <;> exact ⟨rfl, rfl⟩

/-- R154: a page of a recode, read without an error, changes no byte and nothing outside the memory. -/
theorem State.recodeTo_cleaned_keeps (s : State) (rc : Recode) (k ph a : Nat) : ((s.cleaned k ph).recodeTo rc a).ram = s.ram ∧
    { (s.cleaned k ph).recodeTo rc a with mem := s.mem } = s := by
  obtain ⟨ram, kept⟩ := (s.cleaned k ph).recodeTo_but_mem rc a s.mem
  exact ⟨ram, kept⟩

/-! ### Leases -/

/-- A walk over the controllers changes no lease. -/
theorem forEach_modCtrl_leases (ks : List Nat) (f : Nat → MemPort → MemPort) (s : State) :
    (forEach ks (fun k st => st.modCtrl k (f k)) s).mem.leases = s.mem.leases ∧
      { forEach ks (fun k st => st.modCtrl k (f k)) s with mem := s.mem } = s := by
  induction ks generalizing s with
  | nil => exact ⟨rfl, rfl⟩
  | cons k ks ih =>
    obtain ⟨leases, kept⟩ := ih (s.modCtrl k (f k))
    exact ⟨leases, congrArg (fun u : State => { u with mem := s.mem }) kept⟩

/-- R156: the accounts of an engine with one lease. -/
theorem leaseAccount_one {s : State} {l : Nat} {x : Img.Lease} (h : s.leases = [(l, x)]) : Answers .leaseAccount s fun t =>
    t.lease l = (s.accountLease (l, x)).lease l ∧ { t with mem := s.mem } = s := by
  let calmed (u : State) (k : Nat) (c : MemPort) : MemPort := { c with calm := if u.anyBehind k then 0 else c.calm + 1 }
  have run : Machine.exec .leaseAccount s = .next (forEach (List.range 12)
      (fun k st => st.modCtrl k (calmed (forEach s.leases (fun x st => st.accountLease x) s) k))
      (forEach s.leases (fun x st => st.accountLease x) s)) := rfl
  have one : forEach [(l, x)] (fun x st => st.accountLease x) s = s.accountLease (l, x) := rfl
  rw [h, one] at run
  obtain ⟨leases, kept⟩ := forEach_modCtrl_leases (List.range 12) (calmed (s.accountLease (l, x))) (s.accountLease (l, x))
  exact ⟨_, run, congrArg (fun m => Tab.get ({} : LeaseAcct) m l) leases, congrArg (fun u : State => { u with mem := s.mem }) kept⟩

end Sys2Proof.Machine

namespace Sys2Proof
open Sys2Proof.Machine

/-- Settles O31: the walks of the scrubber and of a recode over pages without errors. The pace of the scrub is entry 72 of the
assumption log; what RECODE refuses and skips is entry 76. -/
theorem scrubAndRecode : Obligations.ScrubAndRecode := by
  refine ⟨fun s k hk hd hp he hn => ?page, fun s k hk hd hp he hn => ?pass, fun s v hl h15 h31 hr hv hc => ?start,
    fun s v hl h15 h31 hr => ?busy, fun s rc k ph hl hr hloc hreg hm hb hlk hp he => ⟨fun hlim => ?recode, fun hlim => ?done⟩⟩
  case page =>
    refine answers_of rfl (decide_eq_true hk) ?_
    rw [if_pos hd, State.scrubStep_clean hp he, if_pos hn]
    obtain ⟨walk, but⟩ := State.walk_scrubLateCheck ((s.modCtrl k (·.touch (ctrlPage k (s.ctrl k).scrubPage))).modCtrl k
      fun c => { c with scrubPage := (s.ctrl k).scrubPage + 1 }) k
    have touched := (s.ctrl k).walk_touch (ctrlPage k (s.ctrl k).scrubPage)
    rw [State.ctrl_modCtrl_self, State.ctrl_modCtrl_self] at walk
    exact ⟨congrArg (·.1) walk, (congrArg (·.2.1) walk).trans (congrArg (·.2.1) touched), but⟩
  case pass =>
    refine answers_of rfl (decide_eq_true hk) ?_
    rw [if_pos hd, State.scrubStep_clean hp he, if_neg (by omega)]
    obtain ⟨walk, but⟩ := State.walk_scrubLateCheck ((s.modCtrl k (·.touch (ctrlPage k (s.ctrl k).scrubPage))).modCtrl k
      fun c => { c with scrubPage := 0, scrubPasses := satAdd 0xFFFF c.scrubPasses 1, scrubSince := s.now }) k
    have touched := (s.ctrl k).walk_touch (ctrlPage k (s.ctrl k).scrubPage)
    rw [State.ctrl_modCtrl_self, State.ctrl_modCtrl_self] at walk
    exact ⟨congrArg (·.1) walk, congrArg (·.2.2) walk,
      (congrArg (·.2.1) walk).trans (congrArg (fun w => satAdd 0xFFFF w.2.1 1) touched), but⟩
  case start =>
    refine exec_of rfl rfl ((if_pos hl).trans ?_)
    unfold State.writeRecode
    dsimp only
    rw [if_neg h15, h31, hr, hv]
    exact if_neg (show ¬ ((!true) = true ∨ _ < _) by simpa using hc)
  case busy =>
    refine answers_of rfl rfl ?_
    have busy : s.writeRecode v.toNat = { s with mem.recodeBusy := true }.eventC Det.recodeBusy .engine (fld v.toNat 0 4) := by
      unfold State.writeRecode
      dsimp only
      rw [if_neg h15, h31, hr]
      rfl
    rw [State.whenLive, if_pos hl, busy]
    exact reported_eventC _ Det.recodeBusy _ _ _ (by decide) (by decide)
  case recode =>
    refine answers_of rfl rfl ?_
    rw [hl, hr]
    dsimp only
    rw [State.recodePage_clean hloc hreg hm hb hlk hp he]
    refine ⟨?_, State.recodeTo_cleaned_keeps s rc k ph _⟩
    rw [State.recodeTo_next (s := s.cleaned k ph) rc hlim]
  case done =>
    refine answers_of rfl rfl ?_
    rw [hl, hr]
    dsimp only
    rw [State.recodePage_clean hloc hreg hm hb hlk hp he]
    have last := State.recodeTo_last (s := s.cleaned k ph) rc (Nat.not_lt.mpr hlim)
    refine ⟨?_, ?_, State.recodeTo_cleaned_keeps s rc k ph _⟩
    · rw [last]
    · rw [last]
      exact congrArg Region.strength (Tab.get_put_self _ _ _ _)

/-- R157: a breach begins. -/
theorem beginBreach_but (s : State) (k l : Nat) (hk : k < 12) : ButReports (s.modCtrl k fun c => { c with breach := true, calm := 0 })
      (s.beginBreach k l) ∧
    (s.beginBreach k l).counter (Cnt.memErr k Cnt.leaseBreach) = risen (s.counter (Cnt.memErr k Cnt.leaseBreach)) 1 := by
  have below : BelowCollector (Cnt.memErr k Cnt.leaseBreach) := by
    simp only [BelowCollector, Cnt.memErr, Cnt.leaseBreach]
    omega
  refine ⟨by simp [State.beginBreach], ?_⟩
  unfold State.beginBreach
  rw [below.eventC_keeps, below.eventC_keeps, counter_count_self]
  rfl

/-- Settles O32: leases, regions, the poison query and ARM. BASE and LIMIT taking any value until ATTR is entry 77 of the assumption
log, the calm beats are entry 78, the refused ARM that changes no field is entry 79. -/
theorem leasesAndRegions : Obligations.LeasesAndRegions := by
  refine ⟨fun s l x hls hw hx => ?account, fun s l x hls hw => ?idle, fun s k x hk hb hf => ?breach, fun s k hk hb hc => ?breachEnd,
    fun s n lim v hn hl => ?bound, fun s v hl => ?attr15, fun s n v hn hl hok => ?attr, fun s n v hn hl hok => ?refused,
    fun s v hl => ?query, fun s t v hl h1 h33 ha h63 ht => ⟨fun hm => ?arm, fun hm => ?armRefused⟩⟩
  case account =>
    obtain ⟨t, ht, acct, kept⟩ := leaseAccount_one hls
    have own : (s.accountLease (l, x)).lease l = _ := State.lease_setLease_self s l _
    refine ⟨t, ht, ?_⟩
    dsimp only
    rw [acct, own]
    dsimp only
    rw [hw, if_pos hx]
    exact ⟨rfl, rfl, rfl, kept⟩
  case idle =>
    obtain ⟨t, ht, acct, kept⟩ := leaseAccount_one hls
    have own : (s.accountLease (l, x)).lease l = _ := State.lease_setLease_self s l _
    refine ⟨t, ht, ?_, kept⟩
    rw [acct, own]
    dsimp only
    rw [hw]
    rfl
  case breach =>
    refine answers_of rfl (decide_eq_true hk) ?_
    rw [if_neg (by rw [hb]; decide), hf]
    dsimp only
    obtain ⟨but, count⟩ := beginBreach_but s k x.1 hk
    have ctrl : (s.beginBreach k x.1).ctrl k = { s.ctrl k with breach := true, calm := 0 } :=
      (State.ctrl_of_mem but.mem k).trans (State.ctrl_modCtrl_self s k _)
    rw [ctrl, but.mem]
    exact ⟨rfl, rfl, count, but⟩
  case breachEnd =>
    exact exec_of rfl (decide_eq_true hk) (if_pos ⟨hb, hc⟩)
  case bound =>
    exact exec_of rfl (decide_eq_true hn) (if_pos hl)
  case attr15 =>
    exact exec_of rfl rfl (if_pos hl)
  case attr =>
    refine exec_of rfl (decide_eq_true (by omega)) ((if_pos hl).trans ?_)
    exact (if_neg (by omega)).trans (if_pos hok)
  case refused =>
    refine answers_of rfl (decide_eq_true (by omega)) ?_
    rw [State.whenLive, if_pos hl, State.writeRegionAttr, if_neg (by omega), if_neg (by rw [hok]; decide)]
    exact reported_eventC _ Det.regionRefused _ _ _ (by decide) (by decide)
  case query =>
    refine answers_of rfl rfl ?_
    rw [State.whenLive, if_pos hl]
    refine ⟨rfl, ?_, ?_, fun k ph hloc => ?_, rfl⟩
    · refine (BitVec.toNat_ofNat _ _).trans (Nat.mod_eq_of_lt ?_)
      have := v.isLt
      omega
    · cases h : s.locate (v.toNat / 2048 * 2048) <;> simp [State.queryPoison, h]
    · simp [State.queryPoison, hloc]
  case arm =>
    subst ht
    refine exec_of rfl rfl ((if_pos hl).trans ?_)
    show s.writeInject v.toNat = _
    unfold State.writeInject
    rw [if_neg (by omega), if_neg (by rw [ha]; decide), h63]
    exact if_pos hm
  case armRefused =>
    subst ht
    refine answers_of rfl rfl ?_
    have refused : s.writeInject v.toNat = s.regionRefuse 0xFF := by
      unfold State.writeInject
      rw [if_neg (by omega), if_neg (by rw [ha]; decide), h63]
      exact if_neg (Bool.not_eq_true _ ▸ hm)
    rw [State.whenLive, if_pos hl, refused]
    exact reported_eventC _ Det.regionRefused _ _ _ (by decide) (by decide)

end Sys2Proof
end

section
/-!
SUPPORT. Commands at the head of a queue: how the head completes, by itself and after a change of its queue (R209, R210, R231), and
what the checks of the head look at. The control group (R237 to R240).
-/
namespace Sys2Proof.Machine

/-- R210: of a RUNNING queue, the first command fetched, once its header holds and its encoding is legal. -/
theorem viewHead_open {s : State} {q : Nat} {f : Fetched} {fs : List Fetched} (hl : s.released = true)
    (hs : (s.queue q).state = .running) (hf : (s.queue q).fetched = f :: fs) (hu : f.ue = none)
    (ha : s.headerAbandoned f.cmd = false) (hm : s.headerMet f.cmd = true) (hh : (s.queue q).headFree f.cmd = true)
    (hp : s.plainFault q f.cmd = none) : s.viewHead q = .open_ f.idx (withIdx (s.queue q) f.cmd) := by
  simp [State.viewHead, hl, hs, hf, hu, ha, hm, hh, hp]

/-- The change of queue `y` when its head leaves with `x` in flight, at beat `now`. -/
def Queue.left (y : Queue) (now : Nat) (x : Inflight) : Queue :=
  { y with fetch := y.fetch + 1, fetched := y.fetched.drop 1, progress := true
           head := if (y.fetched.drop 1).isEmpty then none else some { since := now }
           inflight := y.inflight ++ [x] }

end Sys2Proof.Machine

namespace Sys2Proof
open Sys2Proof.Machine

/-- A change of the head's queue that commutes with the head's leaving may come before or after it. -/
theorem headDone_modQueue (s : State) (q : Nat) (idx : Word) (c : BitVec 512) (d : Done) {f : Queue → Queue}
    (hf : ∀ y now x, (f y).left now x = f (y.left now x)) :
    headDone (s.modQueue q f) q idx c d = (headDone s q idx c d).modQueue q f := by
  let x : Inflight := { tok := s.issued, idx := idx, cmd := c, since := s.now, done := some { d with order := s.finished } }
  have before : headDone (s.modQueue q f) q idx c d = { (s.modQueue q f).setQueue q (((s.modQueue q f).queue q).left s.now x) with
      issued := s.issued + 1, finished := s.finished + 1 } := rfl
  have after : (headDone s q idx c d).modQueue q f = { (s.setQueue q ((s.queue q).left s.now x)).setQueue q
      (f ((s.setQueue q ((s.queue q).left s.now x)).queue q)) with issued := s.issued + 1, finished := s.finished + 1 } := rfl
  rw [before, after, State.queue_modQueue_self, State.queue_setQueue_self, State.modQueue, State.setQueue_setQueue,
    State.setQueue_setQueue, hf]

/-- R231: as the head completes with OK in a queue that was changed before, in what its leaving does not touch. -/
theorem completeOk_modQueue {s : State} {q : Nat} {idx : Word} {c : BitVec 512} (h : AtHead s q idx c)
    (hu : isUnitOp (opcodeOf c) = false) {f : Queue → Queue} (hf : ∀ y now x, (f y).left now x = f (y.left now x))
    (hi : (f (s.queue q)).inflight = (s.queue q).inflight) :
    (s.modQueue q f).completeOk q idx c = (headDone s q idx c { status := St.ok }).modQueue q f := by
  rw [← headDone_modQueue s q idx c _ hf]
  refine completeHead_ok _ q idx c _ hu ?_ (rec_ok c _ h.2.1) rfl
  rw [State.queue_modQueue_self, hi]
  exact h.2.2

/-- What an open head does, its checks passed. -/
theorem atHead_runs {s : State} {q op : Nat} {idx : Word} {c : BitVec 512} (h : AtHead s q idx c) (ho : opcodeOf c = op)
    (run : State → Word → BitVec 512 → State) : s.runHead q op noCheck run = run s idx c :=
  runHead_open noCheck run h.1 ho rfl

theorem headDone_queue_pin (s : State) (q : Nat) (idx : Word) (c : BitVec 512) (d : Done) :
    ((headDone s q idx c d).queue q).pin = (s.queue q).pin := by
  rw [headDone_queue, headLeft_queue]

theorem headDone_queue_sregs (s : State) (q : Nat) (idx : Word) (c : BitVec 512) (d : Done) :
    ((headDone s q idx c d).queue q).sregs = (s.queue q).sregs := by
  rw [headDone_queue, headLeft_queue]

theorem headDone_queue_state (s : State) (q : Nat) (idx : Word) (c : BitVec 512) (d : Done) :
    ((headDone s q idx c d).queue q).state = (s.queue q).state := by
  rw [headDone_queue, headLeft_queue]

/-- R208: a branch that completes. -/
theorem branch_ok {s : State} {q : Nat} {idx t : Word} {c : BitVec 512} (h : AtHead s q idx c) (hu : isUnitOp (opcodeOf c) = false)
    (ht : idxLater t (s.queue q).headIdx = false) (o : Nat) :
    s.branch q idx c t o = ((headDone s q idx c { status := St.ok }).branchTo q t).headDue q := by
  have legal : ¬ (s.queue q).badTarget t = true := by simp [Queue.badTarget, ht]
  rw [State.branch, if_neg legal, completeOk_head h hu]

/-- R209, R216: a sequencer command that is QUIET, signals nothing and completes with OK has left its queue. -/
theorem completeOk_quiet {s : State} {q : Nat} {idx : Word} {c : BitVec 512} (hu : isUnitOp (opcodeOf c) = false)
    (hr : needsRecord c { status := St.ok } = false) (hi : sigInc c = 0) (ht : ∀ y ∈ (s.queue q).inflight, y.tok ≠ s.issued) :
    s.completeOk q idx c = ({ s.setQueue q { s.queue q with
            fetch := (s.queue q).fetch + 1, fetched := (s.queue q).fetched.drop 1, progress := true
            head := if ((s.queue q).fetched.drop 1).isEmpty then none else some { since := s.now } } with
          issued := s.issued + 1, finished := s.finished + 1 } : State).headDue q := by
  let x : Inflight := { tok := s.issued, idx := idx, cmd := c, since := s.now }
  let d : Done := { status := St.ok, order := s.finished }
  have left : ((headLeft s q x).queue q).inflight = (s.queue q).inflight ++ [x] := by rw [headLeft_queue]
  have older : (s.queue q).inflight.find? (fun z => z.tok == x.tok && z.done.isNone) = none :=
    List.find?_eq_none.2 fun z hz => by simp [x, ht z hz]
  have newest : ((headLeft s q x).queue q).inflight.find? (fun z => z.tok == x.tok && z.done.isNone) = some x := by
    simp [left, older, x]
  have silent : (St.success d.status && sigInc x.cmd != 0) = false := by simp [x, hi]
  have gone := Queue.finished_without left ht d
  have ends : (headLeft s q x).finish q x.tok { status := St.ok } = ((((headLeft s q x).withOutcome q x.tok d).modQueue q
      (·.without x.tok)).headDue q) := by
    rw [State.finish_unrecorded newest hr rfl, State.retire_eq]
    show ((((headLeft s q x).withOutcome q x.tok d).modQueue q (·.without x.tok)).onlyIf _ _).headDue q = _
    rw [silent]
    rfl
  have first : s.completeOk q idx c = (headLeft s q x).finish q x.tok { status := St.ok } := by
    rw [State.completeOk, State.completeHead, issue_eq s q idx c hu]
  rw [first, ends]
  refine congrArg (fun u : State => u.headDue q) ?_
  unfold State.modQueue
  dsimp only
  rw [State.queue_withOutcome, gone, headLeft_queue]
  unfold State.withOutcome State.modQueue headLeft
  simp [State.setQueue]

/-- Settles O33: an open head of the control group completes and then moves its queue. A full or empty pin stack as cause 6 with
detail 0 is entry 88 of the assumption log. -/
theorem controlGroup : Obligations.ControlGroup := by
  refine ⟨fun s q f fs hl hs hf hu ha hm hh hp => viewHead_open hl hs hf hu ha hm hh hp, fun s q idx c hq h ho => ?nop,
    fun s u q idx c hq hv hquiet hi ht ho hu => ?quiet,
    fun s u q idx t c hq h hu ht hb => ⟨fun ho => ?jump, fun ho hp => ?call⟩,
    fun s u q idx t ts c hq h ho hu hp hb => ?ret,
    fun s q idx c hq h => ⟨fun ⟨ho, hp⟩ => ?callFull, fun ⟨ho, hp⟩ => ?retEmpty⟩,
    fun s u q idx n c hq h ho hb hu hn hn0 hp => ?loopBegin,
    fun s u q idx p ps v c hq h ho hb hu hp hv => ⟨fun hv0 => ?loopOut, fun hv0 hbt => ?loopBack⟩,
    fun s u q idx c hq h ho hu => ?halt⟩
  case nop =>
    have hu : isUnitOp (opcodeOf c) = false := by rw [ho]; rfl
    exact exec_of rfl (decide_eq_true hq) ((atHead_runs h ho _).trans (completeOk_head h hu))
  case quiet =>
    have hun : isUnitOp (opcodeOf c) = false := by rw [ho]; rfl
    have hr : needsRecord c { status := St.ok } = false := by simp [needsRecord, hquiet, ho]
    subst hu
    exact exec_of rfl (decide_eq_true hq) ((runHead_open noCheck _ hv ho rfl).trans (completeOk_quiet hun hr hi ht))
  case jump =>
    have hun : isUnitOp (opcodeOf c) = false := by rw [ho]; rfl
    subst hu ht
    exact exec_of rfl (decide_eq_true hq) ((atHead_runs h ho _).trans (branch_ok h hun hb 16))
  case call =>
    have hun : isUnitOp (opcodeOf c) = false := by rw [ho]; rfl
    have legal : ¬ (s.queue q).badTarget (branchTarget idx c 16) = true := by simp [Queue.badTarget, branchTarget, ← ht, hb]
    refine exec_of rfl (decide_eq_true hq) ((atHead_runs h ho _).trans ((if_neg (by omega)).trans ((if_neg legal).trans ?_)))
    subst hu ht
    rw [completeOk_head h hun]
    unfold State.pushPin State.branchTo State.modQueue
    rw [State.queue_setQueue_self, State.setQueue_setQueue]
    dsimp only
    rw [headDone_queue_pin]
    rfl
  case ret =>
    have hun : isUnitOp (opcodeOf c) = false := by rw [ho]; rfl
    have legal : ¬ (s.queue q).badTarget t = true := by simp [Queue.badTarget, hb]
    refine exec_of rfl (decide_eq_true hq) ((atHead_runs h ho _).trans ?_)
    subst hu
    rw [hp]
    dsimp only
    rw [if_neg legal, completeOk_head h hun]
    unfold State.popPin State.branchTo State.modQueue
    rw [State.queue_setQueue_self, State.setQueue_setQueue]
    dsimp only
    rw [headDone_queue_pin, hp]
    rfl
  case callFull =>
    refine answers_of rfl (decide_eq_true hq) ?_
    exact (atHead_runs h ho _).trans (if_pos (by omega))
  case retEmpty =>
    refine answers_of rfl (decide_eq_true hq) ?_
    refine (atHead_runs h ho _).trans ?_
    rw [hp]
  case loopBegin =>
    have hun : isUnitOp (opcodeOf c) = false := by rw [ho]; rfl
    refine exec_of rfl (decide_eq_true hq) ((atHead_runs h ho _).trans ((if_pos hb).trans ?_))
    subst hu
    unfold State.loopBegin
    dsimp only
    rw [← hn, if_neg hn0, if_neg (by omega), completeOk_head h hun]
    unfold State.pushPin State.setSreg State.modQueue
    rw [State.queue_setQueue_self, State.setQueue_setQueue]
    dsimp only
    rw [headDone_queue_pin, headDone_queue_sregs]
  case loopOut =>
    have hun : isUnitOp (opcodeOf c) = false := by rw [ho]; rfl
    refine exec_of rfl (decide_eq_true hq) ((atHead_runs h ho _).trans ((if_neg hb).trans ?_))
    subst hu
    unfold State.loopEnd
    dsimp only
    rw [hp]
    dsimp only
    rw [← hv, if_pos hv0, completeOk_head h hun]
    unfold State.popPin State.setSreg State.modQueue
    rw [State.queue_setQueue_self, State.setQueue_setQueue]
    dsimp only
    rw [headDone_queue_pin, headDone_queue_sregs, hp]
    rfl
  case loopBack =>
    have hun : isUnitOp (opcodeOf c) = false := by rw [ho]; rfl
    have legal : ¬ (s.queue q).badTarget p = true := by simp [Queue.badTarget, hbt]
    refine exec_of rfl (decide_eq_true hq) ((atHead_runs h ho _).trans ((if_neg hb).trans ?_))
    subst hu
    unfold State.loopEnd
    dsimp only
    rw [hp]
    dsimp only
    have counted : ((s.setSreg q (cf c 17 1) v).queue q).badTarget p = (s.queue q).badTarget p := by
      rw [State.setSreg, State.queue_modQueue_self]
      rfl
    rw [← hv, if_neg hv0, if_neg legal, State.branch, counted, if_neg legal, State.setSreg,
      completeOk_modQueue (f := fun x => { x with sregs := Tab.put x.sregs (cf c 17 1) v }) h hun (fun _ _ _ => rfl) rfl]
    unfold State.branchTo State.modQueue
    rw [State.queue_setQueue_self, State.setQueue_setQueue]
    dsimp only
    rw [headDone_queue_sregs]
  case halt =>
    have hun : isUnitOp (opcodeOf c) = false := by rw [ho]; rfl
    refine exec_of rfl (decide_eq_true hq) ((atHead_runs h ho _).trans ?_)
    subst hu
    rw [completeOk_head h hun]
    exact if_pos (.inl ((headDone_queue_state s q idx c _).trans (viewHead_running h.1).2))

end Sys2Proof
end

section
/-!
SUPPORT. Numbers in bytes, low byte first (R11), the time commands' targets and the scalar group (R241 to R244, R268, R269).
-/
namespace Sys2Proof.Machine

/-! ### Numbers in bytes -/

/-- The low `m` of at least as many bytes of a number give it back modulo 256^m. -/
theorem leNat_take_leBytes (v n m : Nat) (bs : List Byte) (h : m ≤ n) : leNat ((leBytes v n ++ bs).take m) = v % 256 ^ m := by
  induction n generalizing v m with
  | zero =>
    obtain rfl : m = 0 := by omega
    simp [leNat, Nat.mod_one]
  | succ n ih =>
    cases m with
    | zero => simp [leNat, Nat.mod_one]
    | succ m =>
      have rest := ih (v / 256) m (by omega)
      rw [leBytes, List.cons_append, List.take_succ_cons, leNat, rest, BitVec.toNat_ofNat,
        show 256 ^ (m + 1) = 2 ^ 8 * 256 ^ m from Nat.pow_succ', Nat.mod_mul]
      rfl

theorem leAt_leBytes_append (v n m : Nat) (bs : List Byte) (h : m ≤ n) : leAt (leBytes v n ++ bs) 0 m = v % 256 ^ m :=
  leNat_take_leBytes v n m bs h

theorem leAt_append_right {as bs : List Byte} {k : Nat} (hk : as.length = k) (i n : Nat) :
    leAt (as ++ bs) (k + i) n = leAt bs i n := by
  subst hk
  rw [leAt, leAt, ← List.drop_drop, List.drop_left]

/-! ### RECORD -/

/-- R268: each of the four words of a record. -/
theorem leAt_recordData (s : State) (q : Nat) (c : BitVec 512) :
    leAt (s.recordData q c) 0 7 = s.stamp.toNat ∧ leAt (s.recordData q c) 8 8 = ((s.queue q).sreg (cf c 24 1)).toNat ∧
      leAt (s.recordData q c) 16 8 = ((s.queue q).sreg (cf c 25 1)).toNat ∧
      leAt (s.recordData q c) 24 8 = (s.tally (cf c 26 2)).value.toNat := by
  have word (v : DWord) : v.toNat % 256 ^ 8 = v.toNat := Nat.mod_eq_of_lt v.isLt
  have long (v : Nat) (bs : List Byte) (i n : Nat) : leAt (leBytes v 8 ++ bs) (8 + i) n = leAt bs i n :=
    leAt_append_right (length_leBytes v 8) i n
  unfold State.recordData
  simp only [List.append_assoc]
  refine ⟨?_, ?_, ?_, ?_⟩
  · rw [leAt_leBytes_append _ _ _ _ (by decide)]
    have := s.stamp.isLt
    omega
  · rw [long _ _ 0, leAt_leBytes_append _ _ _ _ (by decide), word]
  · rw [long _ _ 8, long _ _ 0, leAt_leBytes_append _ _ _ _ (by decide), word]
  · rw [long _ _ 16, long _ _ 8, long _ _ 0, ← List.append_nil (leBytes _ 8), leAt_leBytes_append _ _ _ _ (by decide), word]

theorem length_recordData (s : State) (q : Nat) (c : BitVec 512) : (s.recordData q c).length = 32 := by
  simp [State.recordData, length_leBytes]

/-! ### Time -/

theorem State.reached_iff (s : State) (t : Stamp) :
    s.reached t = true ↔ (t = s.tact.stamp ∨ 2 ^ 55 ≤ (t - s.tact.stamp).toNat) := by
  have same : (t - s.tact.stamp).toNat = 0 ↔ t = s.tact.stamp := by
    constructor <;> intro h <;> bv_omega
  unfold State.reached
  rw [Bool.or_eq_true, beq_iff_eq, decide_eq_true_iff, same]

/-- R242: each mode of AT_BEAT. -/
theorem atBeatTarget_modes (x : Queue) (base : Stamp) (c : BitVec 512) :
    (cf c 24 1 = 0 → atBeatTarget x base c = BitVec.ofNat 56 (cf c 16 7)) ∧
    (cf c 24 1 = 1 → atBeatTarget x base c = base + BitVec.ofNat 56 (cf c 16 7)) ∧
    (2 ≤ cf c 24 1 → atBeatTarget x base c = BitVec.ofNat 56 (cf c 16 7 + (x.sreg (cf c 25 1)).toNat)) := by
  unfold atBeatTarget
  refine ⟨fun h => by rw [h]; rfl, fun h => by rw [h]; rfl, fun h => ?_⟩
  dsimp only
  split
  · omega
  · omega
  · rw [BitVec.ofNat_add]

/-- R243: with LEVEL 0 each downbeat qualifies, with LEVEL 1 each phrase. -/
theorem atDownbeatTarget_levels (base : Stamp) (c : BitVec 512) (hm : bitAt (cf c 18 1) 0 = false) :
    (cf c 16 1 ≠ 1 → atDownbeatTarget base c = BitVec.ofNat 56 ((base.toNat / 4096 + 1 + cf c 20 4) * 4096)) ∧
    (cf c 16 1 = 1 → atDownbeatTarget base c = BitVec.ofNat 56 ((base.toNat / 2 ^ 18 + 1 + cf c 20 4) * 2 ^ 18)) := by
  unfold atDownbeatTarget
  refine ⟨fun h => ?_, fun h => ?_⟩
  · rw [if_neg (by simp [h, hm])]
  · have later : base.toNat / 2 ^ 18 * 2 ^ 18 + 0 * 4096 ≤ base.toNat := by omega
    rw [if_pos (.inl h), hm]
    dsimp only
    rw [if_neg Bool.false_ne_true, if_pos later, Nat.zero_mul, Nat.add_zero, ← Nat.succ_mul, ← Nat.add_mul]

/-- Table MAM-3. -/
theorem brsHolds_iff (cmp : Nat) (a b : DWord) : brsHolds cmp a b = true ↔
    (cmp = 0 ∧ a = b ∨ cmp = 1 ∧ a ≠ b ∨ cmp = 2 ∧ a.toNat < b.toNat ∨ cmp = 3 ∧ b.toNat ≤ a.toNat ∨
      cmp = 4 ∧ a.toInt < b.toInt ∨ 5 ≤ cmp ∧ b.toInt ≤ a.toInt) := by
  match cmp with
  | 0 | 1 | 2 | 3 | 4 => simp [brsHolds]
  | n + 5 => simp [brsHolds]

end Sys2Proof.Machine

namespace Sys2Proof
open Sys2Proof.Machine

/-- R242, R243: a time command of a timed engine, with its target computed or not. -/
theorem timeHead_timed {s : State} {q : Nat} {idx : Word} {c : BitVec 512} {h : HeadState} {t : Stamp} {target : Stamp → Stamp}
    (ha : AtHead s q idx c) (hu : isUnitOp (opcodeOf c) = false) (htm : s.timed = true) (hh : (s.queue q).head = some h)
    (ht : h.target = some t ∨ (h.target = none ∧ t = target (s.headBase q))) :
    (s.reached t = true → s.timeHead q idx c target = headDone s q idx c { status := St.ok }) ∧
    (s.reached t = false → s.timeHead q idx c target =
      s.setQueue q { s.queue q with head := some { h with target := some t } }) := by
  have fixed : h.target.getD (target (s.headBase q)) = t := by
    rcases ht with ht | ⟨ht, rfl⟩ <;> rw [ht] <;> rfl
  unfold State.timeHead
  dsimp only
  rw [if_pos htm, hh, Option.getD_some, fixed]
  refine ⟨fun hr => ?_, fun hr => ?_⟩
  · rw [if_pos hr, completeOk_head ha hu]
  · exact if_neg (by rw [hr]; decide)

/-- R241: the value of each source of SETS. -/
theorem setsValue_of {s : State} {q : Nat} {c : BitVec 512} {v : DWord}
    (h : (cf c 17 1 = 0 ∧ v = BitVec.ofNat 64 (cf c 24 8)) ∨ (cf c 17 1 = 1 ∧ v = (s.queue q).sreg (cf c 18 1)) ∨
      (cf c 17 1 = 2 ∧ v = (s.tally (cf c 20 2)).value) ∨ (cf c 17 1 = 3 ∧ v = BitVec.ofNat 64 s.stamp.toNat) ∨
      (4 ≤ cf c 17 1 ∧ v = BitVec.ofNat 64 ((s.img.map Img.self).getD 0xFFFF))) : s.setsValue q c = v := by
  unfold State.setsValue
  rcases h with ⟨h, rfl⟩ | ⟨h, rfl⟩ | ⟨h, rfl⟩ | ⟨h, rfl⟩ | ⟨h, rfl⟩
  · rw [h]; rfl
  · rw [h]; rfl
  · rw [h]; rfl
  · rw [h]; rfl
  · split
    case h_5 => rfl
    all_goals omega

/-- R268: RECORD's bytes, at a destination that passes its checks in a region without an error. -/
theorem store_record {s : State} {q k ph : Nat} {c : BitVec 512} (hc : recordCheck s c = none)
    (hl : s.locate (cf c 16 8) = some (k, ph)) (hs : s.isStrict (cf c 16 8) = false) (hi : s.mem.injArmed = false)
    (hp : ph / 2048 * 2048 ∉ s.mem.poison) (he : Tab.find s.mem.errs (ph / 2048 * 2048) = none) :
    ∃ m, s.store (cf c 16 8) (s.recordData q c) = (s.withBytes ph (s.recordData q c) m, .ok) := by
  have aligned : cf c 16 8 % 32 = 0 := by
    by_contra h
    unfold recordCheck at hc
    dsimp only at hc
    rw [if_pos h] at hc
    exact nomatch hc
  obtain ⟨m, stored⟩ := State.storeNarrow_clean (cf c 16 8) k (s.recordData q c) hp he hi
  have inPage : cf c 16 8 % 2048 + (s.recordData q c).length ≤ 2048 := by
    rw [length_recordData]
    omega
  have onePart := extent_of_one_page (by rw [length_recordData]; decide) inPage
  have part : s.storePart (cf c 16 8) (s.recordData q c) = s.storeNarrow (cf c 16 8) k ph (s.recordData q c) := by
    simp [State.storePart, hl, hs, length_recordData]
  exact ⟨m, by simp [State.store, onePart, State.storeParts, part, stored]⟩

/-- Settles O34: scalar commands and MARK change their queue and complete; BRS and the time commands choose whether. The target fixed
when the head is first run is entry 86 of the assumption log; the stamp outside LOCKED and HOLDOVER is entry 6. -/
theorem scalarsTimeAndRecords : Obligations.ScalarsTimeAndRecords := by
  refine ⟨fun s u q idx c hq h hu => ⟨fun ho v hv => ?sets, fun ho => ?adds, fun ho => ?mark⟩,
    fun s u q idx t a b c hq h ho hu ht ha hb => ⟨fun hbt hcmp => ?taken, fun hcmp => ?past⟩,
    fun s u q idx c h t hq ha htm hu hh => ⟨fun ho htt => ?atBeat, fun ho htt => ?atDownbeat⟩,
    fun x base c => ⟨(atBeatTarget_modes x base c).1, (atBeatTarget_modes x base c).2.1, (atBeatTarget_modes x base c).2.2,
      fun hl hm => (atDownbeatTarget_levels base c hm).1 hl, fun hl hm => (atDownbeatTarget_levels base c hm).2 hl⟩,
    fun s t => s.reached_iff t, fun s q k ph idx c hq h ho hc hl hs hi hp he hwf => ?record, fun s q c => leAt_recordData s q c⟩
  case sets =>
    have hun : isUnitOp (opcodeOf c) = false := by rw [ho]; rfl
    subst hu
    refine exec_of rfl (decide_eq_true hq) ((atHead_runs h ho _).trans ?_)
    rw [setsValue_of hv, State.setSreg,
      completeOk_modQueue (f := fun x => { x with sregs := Tab.put x.sregs (cf c 16 1) v }) h hun (fun _ _ _ => rfl) rfl]
    unfold State.modQueue
    dsimp only
    rw [headDone_queue_sregs]
  case adds =>
    have hun : isUnitOp (opcodeOf c) = false := by rw [ho]; rfl
    subst hu
    refine exec_of rfl (decide_eq_true hq) ((atHead_runs h ho _).trans ?_)
    dsimp only
    rw [State.setSreg, completeOk_modQueue (f := fun x => { x with sregs := Tab.put x.sregs (cf c 16 1) _ }) h hun
      (fun _ _ _ => rfl) rfl]
    unfold State.modQueue
    dsimp only
    rw [headDone_queue_sregs]
    rfl
  case mark =>
    have hun : isUnitOp (opcodeOf c) = false := by rw [ho]; rfl
    subst hu
    refine exec_of (exec_mark q s) (decide_eq_true hq) ((atHead_runs h ho _).trans ?_)
    exact completeOk_modQueue (f := fun x => { x with mark := BitVec.ofNat 32 (cf c 16 4) }) h hun (fun _ _ _ => rfl) rfl
  case taken =>
    have hun : isUnitOp (opcodeOf c) = false := by rw [ho]; rfl
    subst hu ha hb ht
    refine exec_of rfl (decide_eq_true hq) ((atHead_runs h ho _).trans ?_)
    exact (if_pos ((brsHolds_iff _ _ _).mpr hcmp)).trans (branch_ok h hun hbt 20)
  case past =>
    have hun : isUnitOp (opcodeOf c) = false := by rw [ho]; rfl
    subst hu ha hb
    refine exec_of rfl (decide_eq_true hq) ((atHead_runs h ho _).trans ?_)
    refine (if_neg fun holds => ?_).trans (completeOk_head h hun)
    have := (brsHolds_iff _ _ _).mp holds
    unfold Queue.orImm at this
    grind
  case atBeat =>
    have hun : isUnitOp (opcodeOf c) = false := by rw [ho]; rfl
    subst hu
    obtain ⟨now, later⟩ := timeHead_timed (target := fun base => atBeatTarget (s.queue q) base c) ha hun htm hh htt
    exact ⟨fun hr => exec_of rfl (decide_eq_true hq) ((atHead_runs ha ho _).trans (now hr)),
      fun hr => exec_of rfl (decide_eq_true hq) ((atHead_runs ha ho _).trans (later hr))⟩
  case atDownbeat =>
    have hun : isUnitOp (opcodeOf c) = false := by rw [ho]; rfl
    subst hu
    obtain ⟨now, later⟩ := timeHead_timed (target := fun base => atDownbeatTarget base c) ha hun htm hh htt
    exact ⟨fun hr => exec_of rfl (decide_eq_true hq) ((atHead_runs ha ho _).trans (now hr)),
      fun hr => exec_of rfl (decide_eq_true hq) ((atHead_runs ha ho _).trans (later hr))⟩
  case record =>
    have hun : isUnitOp (opcodeOf c) = false := by rw [ho]; rfl
    obtain ⟨m, stored⟩ := store_record (q := q) hc hl hs hi hp he
    have done : (s.withBytes ph (s.recordData q c) m).completeOk q idx c =
        headDone (s.withBytes ph (s.recordData q c) m) q idx c { status := St.ok } :=
      completeHead_ok _ q idx c _ hun h.2.2 (rec_ok c _ h.2.1) rfl
    refine answers_of rfl (decide_eq_true hq) ?_
    rw [runHead_open recordCheck _ h.1 ho hc]
    rw [stored]
    dsimp only
    rw [done]
    refine ⟨rfl, fun a ha => ?_, ?_, rfl⟩
    · exact Mem.read_writeN_other _ s.ram ph a hwf (by rw [length_recordData]; omega)
    · have readBack := Mem.readN_writeN (s.recordData q c) s.ram ph hwf
      rw [length_recordData] at readBack
      exact readBack

end Sys2Proof
end

section
/-!
SUPPORT. Tallies as they take a value (R398, R405, R407), barriers as they take an arrival and release (R408, R410), and the sync
instructions (R245 to R248).
-/
namespace Sys2Proof.Machine

/-! ### Tallies -/

theorem State.tally_of_tallies {s t : State} (h : t.sync.tallies = s.sync.tallies) (k : Nat) : t.tally k = s.tally k := by
  simp [State.tally, h]

theorem State.tallies_dlTouch (s : State) (obj : Nat) : (s.dlTouch obj).sync.tallies = s.sync.tallies := by
  unfold State.dlTouch
  split <;> rfl

/-- R405: the wires of a tally fire without changing a tally. -/
theorem State.tallies_wakeTally (s : State) (t : Nat) : (s.wakeTally t).sync.tallies = s.sync.tallies := by
  unfold State.wakeTally
  generalize s.wiresOf .tallyGe t = ws
  induction ws generalizing s with
  | nil => rfl
  | cons w ws ih =>
    refine (ih _).trans ?_
    dsimp only
    split <;> rfl

/-- R398: a tally that is not ABANDONED takes a value, and no other does. -/
theorem State.tally_putTally {s : State} {t : Nat} (h : (s.tally t).abandoned = false) (v : DWord) (k : Nat) :
    (s.putTally t v).tally k = if t = k then { s.tally t with value := v } else s.tally k := by
  have set : ((s.dlTouch t).setTally t { s.tally t with value := v }).tally k =
      if t = k then { s.tally t with value := v } else s.tally k := by
    rw [State.tally_setTally, State.tally_of_tallies (s.tallies_dlTouch t)]
  unfold State.putTally
  dsimp only
  rw [if_neg (by rw [h]; decide)]
  exact (State.tally_of_tallies (State.tallies_wakeTally _ t) k).trans set

/-! ### Barriers -/

/-- R408: an arrival that is not the last. -/
theorem State.arriveAt_more {s : State} {b : Nat} (q : Nat) (h : (s.barrier b).arrivals + 1 < (s.barrier b).expect) :
    s.arriveAt b q = (s.dlTouch (2 ^ 31 + b)).setBarrier b { s.barrier b with
      arrivals := (s.barrier b).arrivals + 1, arrived := insertAsc q (s.barrier b).arrived } := if_pos h

/-- R410: the last arrival at a barrier without CHORUS. -/
theorem State.arriveAt_last {s : State} {b : Nat} (q : Nat) (h : (s.barrier b).expect ≤ (s.barrier b).arrivals + 1)
    (hc : (s.barrier b).chorus = false) : s.arriveAt b q = ((s.dlTouch (2 ^ 31 + b)).setBarrier b { s.barrier b with
      arrivals := (s.barrier b).arrivals + 1, arrived := insertAsc q (s.barrier b).arrived }).releaseBarrier b := by
  refine (if_neg (Nat.not_lt.mpr h)).trans (if_pos ?_)
  rw [hc]
  rfl

theorem Queue.inflight_releaseFrom (y : Queue) (b : Nat) : (y.releaseFrom b).inflight = y.inflight := by
  unfold Queue.releaseFrom
  split
  · split <;> rfl
  · rfl

/-- R410: the head that waits for the barrier is released. -/
theorem Queue.head_releaseFrom {y : Queue} {b : Nat} {h : HeadState} (hh : y.head = some h) (ha : h.arrived = some b) :
    (y.releaseFrom b).head = some { h with released := true } := by
  simp [Queue.releaseFrom, hh, ha]

/-- R410: what a release does to the barrier and to the queues. -/
theorem State.releaseBarrier_eq (s : State) (b : Nat) :
    (s.releaseBarrier b).barrier b = { s.barrier b with gen := (s.barrier b).gen + 1, arrivals := 0, arrived := [] } ∧
      ∀ q, (s.releaseBarrier b).queue q = (s.queue q).releaseFrom b := by
  let fired : State := { (s.dlTouch (2 ^ 31 + b)).setBarrier b { s.barrier b with
    gen := (s.barrier b).gen + 1, arrivals := 0, arrived := [] } with
    queues := Tab.mapVals (fun _ q => q.releaseFrom b) (s.dlTouch (2 ^ 31 + b)).queues }
  obtain ⟨cs, wires⟩ := forEach_fireWire (fired.wiresOf .barrier b) fired
  have released : s.releaseBarrier b = { fired with clusters := cs } := wires
  rw [released]
  refine ⟨State.barrier_setBarrier_self _ b _, fun q => ?_⟩
  have queues : (s.dlTouch (2 ^ 31 + b)).queues = s.queues := by simp
  show Tab.get {} (Tab.mapVals (fun _ q => q.releaseFrom b) (s.dlTouch (2 ^ 31 + b)).queues) q = _
  rw [queues]
  exact Tab.get_mapVals {} (fun _ q => q.releaseFrom b) (fun _ => rfl) s.queues q

/-- The head of `q` notes its arrival; its barrier and what decides the arrival stay. -/
theorem State.noteArrived_eq {s : State} {q b : Nat} {h : HeadState} (hh : (s.queue q).head = some h) :
    s.noteArrived q b = s.setQueue q { s.queue q with head := some { h with arrived := some b } } := by
  unfold State.noteArrived State.modQueue
  dsimp only
  rw [hh]
  rfl

/-! ### WAIT -/

/-- R245, Table MAM-4. -/
theorem State.waitMet_iff (s : State) (c : BitVec 512) : s.waitMet c = true ↔
    (cf c 18 1 = 0 ∧ cf c 24 8 ≤ (s.tally (fld (cf c 16 2) 0 12)).value.toNat ∨
      cf c 18 1 = 1 ∧ (s.tally (fld (cf c 16 2) 0 12)).value.toNat = cf c 24 8 ∨
      cf c 18 1 = 2 ∧ (s.tally (fld (cf c 16 2) 0 12)).value.toNat ≠ cf c 24 8 ∨
      3 ≤ cf c 18 1 ∧ (s.tally (fld (cf c 16 2) 0 12)).value.toNat < cf c 24 8) := by
  unfold State.waitMet
  dsimp only
  match cf c 18 1 with
  | 0 | 1 | 2 => simp
  | n + 3 => simp

/-- The command at the head has waited its TIMEOUT. -/
theorem State.timeIsUp_of {s : State} {q : Nat} {c : BitVec 512} {h : HeadState} (hh : (s.queue q).head = some h) (h0 : cf c 20 4 ≠ 0)
    (ht : h.since + cf c 20 4 ≤ s.now) : s.timeIsUp q c = true := by
  simp [State.timeIsUp, hh, h0, ht]

end Sys2Proof.Machine

namespace Sys2Proof
open Sys2Proof.Machine

/-- R231: the head of `s` completes with OK in a state in which it is still at the head and no other command has issued. -/
theorem completeOk_after {s u : State} {q : Nat} {idx : Word} {c : BitVec 512} (h : AtHead s q idx c)
    (hu : isUnitOp (opcodeOf c) = false) (hf : (u.queue q).inflight = (s.queue q).inflight) (hi : u.issued = s.issued) :
    u.completeOk q idx c = headDone u q idx c { status := St.ok } := by
  refine completeHead_ok u q idx c _ hu ?_ (rec_ok c _ h.2.1) rfl
  rw [hf, hi]
  exact h.2.2

/-- R225: a head that fails in a queue whose policy is CONTINUE. -/
theorem completeHead_continues {s : State} {q : Nat} {idx : Word} {c : BitVec 512} (h : AtHead s q idx c)
    (hu : isUnitOp (opcodeOf c) = false) (he : (s.queue q).errContinue = true) (d : Done) :
    s.completeHead q idx c d = headDone s q idx c d := by
  have policy : ((headDone s q idx c d).queue q).errContinue = true := by
    rw [headDone_queue, headLeft_queue]
    exact he
  rw [completeHead_eq s q idx c d hu h.2.2 (rec_ok c d h.2.1), State.failPolicy, policy, Bool.or_true, if_pos rfl]

/-- R225: a head that fails in a queue whose policy is HALT. -/
theorem completeHead_halts {s : State} {q : Nat} {idx : Word} {c : BitVec 512} (h : AtHead s q idx c)
    (hu : isUnitOp (opcodeOf c) = false) (he : (s.queue q).errContinue = false) {d : Done} (hd : St.success d.status = false) :
    s.completeHead q idx c d = (headDone s q idx c d).haltQueue q .failed idx false := by
  have policy : ((headDone s q idx c d).queue q).errContinue = false := by
    rw [headDone_queue, headLeft_queue]
    exact he
  rw [completeHead_eq s q idx c d hu h.2.2 (rec_ok c d h.2.1), State.failPolicy, policy, hd]
  rfl

/-- CMD_TIMEOUT after the head has completed, where it has its reaction. -/
theorem cmdTimeout_but {s : State} {q : Nat} (idx : Word) (c : BitVec 512) (d : Done) (h : Reacts s Det.cmdTimeout (.queue q) (64 + q)) :
    ButReports (containedBy (headDone s q idx c d) Det.cmdTimeout (64 + q)) ((headDone s q idx c d).cmdTimeout q) := by
  have reacts : Reacts (headDone s q idx c d) Det.cmdTimeout (.queue q) (64 + q) := h.of_eq rfl rfl rfl rfl
  rw [State.cmdTimeout, raiseOn_reacts _ Det.cmdTimeout (.queue q) (64 + q) 0 rfl reacts, butReports_logU]
  exact ButReports.rfl' _

/-- R247, R400: a REMOTE_SIGNAL whose message has joined its send queue is in flight with the message's number. -/
theorem remoteSend_queued {s s' : State} {q : Nat} {idx : Word} {c : BitVec 512} (h : AtHead s q idx c) (ho : opcodeOf c = 0x22)
    (ht : s.syncTakes q = true) (hd : cf c 16 2 ≠ s.self) (hl : s.ce.lost.contains (cf c 16 2) = false)
    (hs : s.sendCue 0x20 (cf c 16 2) (s.remoteBody (fld (cf c 18 2) 0 12) (cf c 24 4)) = (s', true)) :
    s.remoteSend q idx c = headLeft s' q
      { tok := s.issued, idx := idx, cmd := c, since := s.now, msg := some (s.nextSeq true (cf c 16 2)) } := by
  have hun : isUnitOp (opcodeOf c) = false := by rw [ho]; rfl
  obtain ⟨now, -, issued, -, -, -, -, -, -, queues, -⟩ := State.sendCue_frame s 0x20 (cf c 16 2)
    (s.remoteBody (fld (cf c 18 2) 0 12) (cf c 24 4))
  rw [hs] at now issued queues
  dsimp only at now issued queues
  have queue : s'.queue q = s.queue q := State.queue_of_queues queues q
  let y : Inflight := { tok := s.issued, idx := idx, cmd := c, since := s.now }
  have marked : ((s.queue q).inflight ++ [y]).map (fun z => if z.tok == s.issued then
      { z with msg := some (s.nextSeq true (cf c 16 2)) } else z) =
      (s.queue q).inflight ++ [{ y with msg := some (s.nextSeq true (cf c 16 2)) }] := by
    rw [List.map_append]
    refine congrArg₂ _ ((List.map_congr_left fun z hz => ?_).trans (List.map_id _)) ?_
    · exact if_neg (by simp [h.2.2 z hz])
    · simp [y]
  unfold State.remoteSend
  dsimp only
  rw [ht, if_neg hd, hl, hs]
  dsimp only
  rw [issue_eq s' q idx c hun]
  simp only [Bool.not_true, Bool.false_eq_true, if_false]
  unfold State.modQueue
  rw [headLeft_queue]
  dsimp only
  rw [queue, issued, now, marked]
  unfold headLeft
  dsimp only
  rw [queue, now]
  simp [State.setQueue, y]

/-- R408: an ARRIVE that its barrier takes. -/
theorem arrive_runs {s : State} {q : Nat} {idx : Word} {c : BitVec 512} (h : AtHead s q idx c) (ho : opcodeOf c = 0x23)
    (ha : (s.barrier (cf c 16 1)).state = .armed) (ht : s.syncTakes q = true) (hm : s.mayArrive (cf c 16 1) q = true) :
    s.runHead q 0x23 arriveCheck (fun s idx c =>
      let b := cf c 16 1
      if (s.barrier b).state = .abandoned then s.barAbandoned q idx c
      else if s.syncTakes q && s.mayArrive b q then (s.arriveAt b q).completeOk q idx c
      else s) = (s.arriveAt (cf c 16 1) q).completeOk q idx c := by
  have legal : arriveCheck s c = none := by simp [arriveCheck, ha]
  rw [runHead_open arriveCheck _ h.1 ho legal]
  simp [ha, ht, hm]

/-- R408: an ARRIVE_WAIT that its barrier takes, and that is not the last arrival, waits at the head. -/
theorem arriveWaitHead_more {s : State} {q : Nat} {idx : Word} {c : BitVec 512} (h : HeadState) (hh : (s.queue q).head = some h)
    (ha : (s.barrier (cf c 16 1)).state = .armed) (ht : s.syncTakes q = true) (hm : s.mayArrive (cf c 16 1) q = true)
    (hlt : (s.barrier (cf c 16 1)).arrivals + 1 < (s.barrier (cf c 16 1)).expect) (har : h.arrived = none) (hrel : h.released = false) :
    s.arriveWaitHead q idx c = ((s.setQueue q { s.queue q with head := some { h with arrived := some (cf c 16 1) } }).dlTouch
      (2 ^ 31 + cf c 16 1)).setBarrier (cf c 16 1) { s.barrier (cf c 16 1) with
        arrivals := (s.barrier (cf c 16 1)).arrivals + 1, arrived := insertAsc q (s.barrier (cf c 16 1)).arrived } := by
  let u := s.setQueue q { s.queue q with head := some { h with arrived := some (cf c 16 1) } }
  have noted : s.noteArrived q (cf c 16 1) = u := State.noteArrived_eq hh
  have barrier : u.barrier (cf c 16 1) = s.barrier (cf c 16 1) := rfl
  have arrived : u.arriveAt (cf c 16 1) q = (u.dlTouch (2 ^ 31 + cf c 16 1)).setBarrier (cf c 16 1) { s.barrier (cf c 16 1) with
      arrivals := (s.barrier (cf c 16 1)).arrivals + 1, arrived := insertAsc q (s.barrier (cf c 16 1)).arrived } :=
    State.arriveAt_more q hlt
  have waits : (((u.arriveAt (cf c 16 1) q).queue q).head.map (·.released)).getD false = false := by
    rw [arrived, State.queue_of_queues (s := u) (by simp), State.queue_setQueue_self]
    exact hrel
  refine Eq.trans ?_ arrived
  unfold State.arriveWaitHead
  dsimp only
  rw [hh, noted, ha, ht, hm, waits]
  simp [har]

/-- Settles O35: each sync instruction by what its tally or barrier says. -/
theorem syncInstructions : Obligations.SyncInstructions := by
  refine ⟨fun s q t v th idx c hq h ho ht hv hth => ⟨fun ha => ⟨fun hm => ?met, fun hm => ?unmet⟩, fun ha he => ?goesOn, fun ha he => ?halts⟩,
    fun s q idx c h hq ha hh h0 htm he hr => ⟨fun ho hm => ?waitOver, fun ho hrel hw => ?arriveOver⟩,
    fun s q t v idx c hq h ho hs ht ha hv => ?signal,
    fun s s' q idx c hq h ho ht hc hd hl hs => exec_of (exec_remoteSignal q s) (decide_eq_true hq)
      ((runHead_open remoteCheck _ h.1 ho hc).trans (remoteSend_queued h ho ht hd hl hs)),
    fun s q b idx c hq h hb hst hs hm => ⟨fun hlt ho => ?arrive, fun hlt h' hh har hrel ho => ?arriveWait,
      fun hle hch ho => ?last⟩,
    fun s q idx c h hq ha ho hh har hrel => ?released⟩
  case met =>
    have hun : isUnitOp (opcodeOf c) = false := by rw [ho]; rfl
    subst ht hv hth
    refine exec_of rfl (decide_eq_true hq) ((atHead_runs h ho _).trans ?_)
    unfold State.waitHead
    dsimp only
    rw [if_neg (by rw [ha]; decide), if_pos ((s.waitMet_iff c).mpr hm), completeOk_head h hun]
  case unmet =>
    subst ht hv hth
    refine exec_of rfl (decide_eq_true hq) ((atHead_runs h ho _).trans ?_)
    unfold State.waitHead
    dsimp only
    rw [if_neg (by rw [ha]; decide)]
    refine if_neg fun met => ?_
    have := (s.waitMet_iff c).mp met
    omega
  case goesOn =>
    have hun : isUnitOp (opcodeOf c) = false := by rw [ho]; rfl
    subst ht
    exact exec_of rfl (decide_eq_true hq) ((atHead_runs h ho _).trans ((if_pos ha).trans (completeHead_continues h hun he _)))
  case halts =>
    have hun : isUnitOp (opcodeOf c) = false := by rw [ho]; rfl
    subst ht
    exact exec_of rfl (decide_eq_true hq) ((atHead_runs h ho _).trans ((if_pos ha).trans (completeHead_halts h hun he rfl)))
  case waitOver =>
    have hun : isUnitOp (opcodeOf c) = false := by rw [ho]; rfl
    refine answers_of rfl (decide_eq_true hq) ?_
    rw [atHead_runs ha ho, hm, State.timeIsUp_of hh h0 htm, completeHead_continues ha hun he]
    exact cmdTimeout_but idx c _ hr
  case arriveOver =>
    have hun : isUnitOp (opcodeOf c) = false := by rw [ho]; rfl
    have waits : (s.headWaits q).isNone = false := by simpa using hw
    refine answers_of rfl (decide_eq_true hq) ?_
    have unreleased : ((s.queue q).head.map (·.released)).getD false = false := by simp [hh, hrel]
    rw [atHead_runs ha ho, State.timeIsUp_of hh h0 htm, unreleased, waits, completeHead_continues ha hun he]
    exact cmdTimeout_but idx c _ hr
  case signal =>
    have hun : isUnitOp (opcodeOf c) = false := by rw [ho]; rfl
    have taken : s.runHead q 0x21 noCheck (fun s idx c =>
        let t := fld (cf c 16 2) 0 12
        if !s.syncTakes q then s
        else if (s.tally t).abandoned then s.completeHead q idx c { status := St.abandoned, detail := t }
        else
          let s := if cf c 18 1 = 0 then s.addTally t (cf c 24 8) else s.putTally t (BitVec.ofNat 64 (cf c 24 8))
          s.completeOk q idx c) = (s.putTally t v).completeOk q idx c := by
      rw [atHead_runs h ho]
      dsimp only
      rw [hs, ← ht, ha, hv]
      by_cases h0 : cf c 18 1 = 0
      · simp [h0, State.addTally]
      · simp [h0]
    refine answers_of rfl (decide_eq_true hq) ?_
    rw [taken, completeOk_after h hun (congrArg Queue.inflight (State.queue_of_queues (by simp) q)) (by simp)]
    refine ⟨rfl, ?_, fun k hk => ?_⟩
    · exact (State.tally_putTally ha v t).trans (if_pos rfl)
    · exact (State.tally_putTally ha v k).trans (if_neg (Ne.symm hk))
  case arrive =>
    have hun : isUnitOp (opcodeOf c) = false := by rw [ho]; rfl
    subst hb
    refine exec_of rfl (decide_eq_true hq) ((arrive_runs h ho hst hs hm).trans ?_)
    rw [State.arriveAt_more q hlt]
    exact completeOk_after h hun (congrArg Queue.inflight (State.queue_of_queues (by simp) q)) (by simp)
  case arriveWait =>
    subst hb
    refine answers_of rfl (decide_eq_true hq) ?_
    rw [atHead_runs h ho, arriveWaitHead_more _ hh hst hs hm hlt har hrel]
    refine ⟨?_, State.barrier_setBarrier_self _ _ _⟩
    refine (State.queue_of_queues (s := s.setQueue q _) (by simp) q).trans (State.queue_setQueue_self s q _)
  case last =>
    have hun : isUnitOp (opcodeOf c) = false := by rw [ho]; rfl
    subst hb
    refine answers_of rfl (decide_eq_true hq) ?_
    let u := (s.dlTouch (2 ^ 31 + cf c 16 1)).setBarrier (cf c 16 1) { s.barrier (cf c 16 1) with
      arrivals := (s.barrier (cf c 16 1)).arrivals + 1, arrived := insertAsc q (s.barrier (cf c 16 1)).arrived }
    have queue (k : Nat) : u.queue k = s.queue k := State.queue_of_queues (by simp [u]) k
    obtain ⟨barrier, queues⟩ := State.releaseBarrier_eq u (cf c 16 1)
    have released : s.arriveAt (cf c 16 1) q = u.releaseBarrier (cf c 16 1) := State.arriveAt_last q hle hch
    have inflight : ((u.releaseBarrier (cf c 16 1)).queue q).inflight = (s.queue q).inflight := by
      rw [queues, Queue.inflight_releaseFrom, queue]
    rw [arrive_runs h ho hst hs hm, released, completeOk_after h hun inflight (by simp [u])]
    refine ⟨?_, fun k hd hk hh har => ?_⟩
    · refine barrier.trans ?_
      rw [State.barrier_setBarrier_self]
    · have other : (headDone (u.releaseBarrier (cf c 16 1)) q idx c { status := St.ok }).queue k =
          (u.releaseBarrier (cf c 16 1)).queue k := (State.queue_setQueue _ q k _).trans (if_neg (Ne.symm hk))
      rw [other, queues, queue]
      exact Queue.head_releaseFrom hh har
  case released =>
    have hun : isUnitOp (opcodeOf c) = false := by rw [ho]; rfl
    refine exec_of rfl (decide_eq_true hq) ((atHead_runs ha ho _).trans ?_)
    unfold State.arriveWaitHead
    dsimp only
    rw [hh]
    dsimp only [Option.bind_some, Option.map_some, Option.getD_some]
    rw [if_pos har, if_pos hrel, completeOk_head ha hun]

end Sys2Proof
end

section
/-!
SUPPORT. The data group of Mamus as it takes a channel (R254, R371, R372), and FENCE (R249, R383).
-/
namespace Sys2Proof.Machine

/-- R231: a command that issues, with the channel it takes, unless it is one of a unit that issues in turn. -/
theorem issue_chan_eq (s : State) (q : Nat) (idx : Word) (c : BitVec 512) (ch : Option Nat) (h : isUnitOp (opcodeOf c) = false) :
    s.issue q idx c ch = headLeft s q { tok := s.issued, idx := idx, cmd := c, since := s.now, chan := ch } := by
  unfold State.issue headLeft State.advance State.freshHead
  simp only [h, State.modQueue, State.queue_setQueue, State.setQueue_setQueue]
  split <;> simp

/-- R215: the only command in flight finishes and waits for its record. -/
theorem finish_only {s : State} {q : Nat} {x : Inflight} {d : Done} (hx : (s.queue q).inflight = [x]) (hn : x.done = none)
    (hr : needsRecord x.cmd d = true) : s.finish q x.tok d = ({ s.setQueue q { s.queue q with
        inflight := [{ x with done := some { d with order := s.finished } }], progress := true } with
      finished := s.finished + 1 } : State).failPolicy q x.idx d.status := by
  have recorded : needsRecord x.cmd { d with order := s.finished } = true := hr
  unfold State.finish
  simp [hx, hn, recorded, State.modQueue]

/-- The state of a channel as a transfer that has passed its checks takes it up. -/
def Channel.runs (c : Channel) (order : Nat) (scrambled : Bool) (remote : Option RemoteTx) : Channel :=
  { c with progress := 0, met := none, done := none, hostWait := none, hostA := none, hostB := none, state := .running
           entryAt := 0, entryOff := 0, cursor := 0, startedAt := order, mismatch := 0, firstMis := none, breach := false
           scrambled := scrambled, lastHost := none, flushed := false, remote := remote }

/-- `s` with channel `ch` as `v`, and one more transfer started. -/
def State.withRun (s : State) (ch : Nat) (v : Channel) : State := { s.setChan ch v with dma.order := s.dma.order + 1 }

theorem State.chan_setChan_ne (s : State) {ch k : Nat} (v : Channel) (h : k ≠ ch) : (s.setChan ch v).chan k = s.chan k := by
  rw [State.chan_setChan, if_neg (Ne.symm h)]

theorem State.chan_withRun_ne (s : State) {ch k : Nat} (v : Channel) (h : k ≠ ch) : (s.withRun ch v).chan k = s.chan k :=
  s.chan_setChan_ne v h

theorem State.chan_withRun_self (s : State) (ch : Nat) (v : Channel) : (s.withRun ch v).chan ch = v := s.chan_setChan_self ch v

/-- R375: a transfer that moves something, passes its checks and starts. -/
theorem startXfer_runs {s : State} {ch : Nat} {d : DmaSet} (hd : (s.chan ch).active = d) (hx : s.xferFault d = none)
    (hn : s.narrowPart d = none) (hl : d.remote = true → s.ce.lost.contains d.member = false) (hm : s.moves d ≠ 0) :
    s.startXfer ch = (s.withRun ch ((s.chan ch).runs s.dma.order (s.overlaps d)
      (if d.remote = true then some (s.remoteOf ch d ((s.chan ch).cmd.map (·.1))) else none))).sendReserve ch := by
  let restarted (c : Channel) : Channel :=
    { c with progress := 0, met := none, done := none, hostWait := none, hostA := none, hostB := none }
  have chan : (s.modChan ch restarted).chan ch = restarted (s.chan ch) := s.chan_setChan_self ch _
  have fault : (s.modChan ch restarted).xferFault d = none := hx
  have narrow : (s.modChan ch restarted).narrowPart d = none := hn
  have moves : (s.modChan ch restarted).moves d ≠ 0 := hm
  have members : ¬ (d.remote = true ∧ (s.modChan ch restarted).ce.lost.contains d.member = true) :=
    fun h => absurd ((hl h.1).symm.trans h.2) (by decide)
  have run : s.startXfer ch = (s.modChan ch restarted).runXfer ch d := by
    unfold State.startXfer
    dsimp only
    rw [chan, hd, fault]
    dsimp only
    rw [narrow]
    dsimp only
    rw [if_neg members, if_neg fun h => moves h.1]
  rw [run]
  have owner : ((s.modChan ch restarted).chan ch).cmd.map (·.1) = (s.chan ch).cmd.map (·.1) := by rw [chan]
  have remote : (s.modChan ch restarted).remoteOf ch d ((s.chan ch).cmd.map (·.1)) =
      s.remoteOf ch d ((s.chan ch).cmd.map (·.1)) := rfl
  have scrambled : (s.modChan ch restarted).overlaps d = s.overlaps d := rfl
  have asked : (if d.remote = true ∧ (s.modChan ch restarted).moves d ≠ 0 then
      some (s.remoteOf ch d ((s.chan ch).cmd.map (·.1))) else none) =
      if d.remote = true then some (s.remoteOf ch d ((s.chan ch).cmd.map (·.1))) else none := by simp [moves]
  unfold State.runXfer
  dsimp only
  rw [owner, remote, scrambled, asked]
  refine congrArg (fun u : State => u.sendReserve ch) ?_
  unfold State.modChan State.withRun
  rw [State.chan_setChan_self]
  simp [State.setChan, restarted, Channel.runs]

/-- R391: RESERVE goes out, or not, and of the engine only its channel notes it. -/
theorem State.sendReserve_but (s : State) (ch : Nat) : (s.sendReserve ch).ram = s.ram ∧
    (∀ k, k ≠ ch → (s.sendReserve ch).chan k = s.chan k) ∧ ∃ r, (s.sendReserve ch).chan ch = { s.chan ch with remote := r } ∧
      r.map (fun r => (r.total, r.bytes, r.member, r.seg0)) = (s.chan ch).remote.map fun r => (r.total, r.bytes, r.member, r.seg0) := by
  unfold State.sendReserve
  dsimp only
  split
  · next hr => exact ⟨rfl, fun k _ => rfl, none, by rw [← hr], by rw [hr]⟩
  · next r hr =>
    split
    · exact ⟨rfl, fun k _ => rfl, some r, by rw [← hr], by rw [hr]⟩
    · have ram : (s.sendCue 0x10 r.member (streamBody r.optag r.member r.total 0)).1.ram = s.ram := by simp
      have chans (k : Nat) : (s.sendCue 0x10 r.member (streamBody r.optag r.member r.total 0)).1.chan k = s.chan k :=
        congrArg (fun m : Dma => Tab.get ({} : Channel) m.channels k) (by simp)
      split
      · next u hu =>
        rw [hu] at ram chans
        refine ⟨ram, fun k hk => (u.chan_setChan_ne _ hk).trans (chans k), _,
          (u.chan_setChan_self ch _).trans (by rw [chans]), by rw [hr]; rfl⟩
      · next u hu =>
        rw [hu] at ram chans
        exact ⟨ram, fun k _ => chans k, some r, by rw [← hr]; exact chans ch, by rw [hr]⟩

end Sys2Proof.Machine

namespace Sys2Proof
open Sys2Proof.Machine

/-- R250 to R254: the five data commands, with their operation codes. -/
def DataCommand (i : Instr) (q : Nat) (c : BitVec 512) : Prop :=
  i = .copy q ∧ opcodeOf c = 0x30 ∨ i = .fill q ∧ opcodeOf c = 0x31 ∨ i = .compare q ∧ opcodeOf c = 0x32 ∨
    i = .gather q ∧ opcodeOf c = 0x33 ∨ i = .scatter q ∧ opcodeOf c = 0x34

theorem DataCommand.not_unit {i : Instr} {q : Nat} {c : BitVec 512} (h : DataCommand i q c) : isUnitOp (opcodeOf c) = false := by
  rcases h with ⟨-, ho⟩ | ⟨-, ho⟩ | ⟨-, ho⟩ | ⟨-, ho⟩ | ⟨-, ho⟩ <;> rw [ho] <;> rfl

/-- R372: a data command at the head that passes its checks. -/
theorem DataCommand.exec_eq {s : State} {i : Instr} {q : Nat} {idx : Word} {c : BitVec 512} (h : DataCommand i q c) (hq : q < 256)
    (ha : AtHead s q idx c) (hc : dataCheck s c = none) : Machine.exec i s = .next (s.runData q idx c) := by
  rcases h with ⟨rfl, ho⟩ | ⟨rfl, ho⟩ | ⟨rfl, ho⟩ | ⟨rfl, ho⟩ | ⟨rfl, ho⟩
  all_goals exact exec_of rfl (decide_eq_true hq) (runHead_open dataCheck _ ha.1 ho hc)

/-- R254: with no QUEUE channel free, a data command has none to take. -/
theorem channelFor_busy {s : State} {c : BitVec 512} (hb : ∀ ch, ch < 64 → (s.chan ch).state ≠ .idle)
    (hc : cf c 44 1 < 64 ∨ cf c 44 1 = 255) : s.channelFor c = none := by
  unfold State.channelFor
  dsimp only
  split
  · refine List.find?_eq_none.mpr fun ch hch => ?_
    simp [hb ch (List.mem_range.mp hch)]
  · next h => simp [hb _ (hc.resolve_right h)]

/-- R372: what a data command leaves as it starts on its channel. -/
theorem runData_starts {s : State} {q ch : Nat} {idx : Word} {c : BitVec 512} {d : DmaSet} (hu : isUnitOp (opcodeOf c) = false)
    (hd : d = setOfCommand c) (hc : dataCheck s c = none) (hch : s.channelFor c = some ch) (hn : s.narrowPart d = none)
    (hl : d.remote = true → s.ce.lost.contains d.member = false) (hm : s.moves d ≠ 0) :
    ∃ (x : Channel) (o : Bool), x.active = d ∧ x.cmd = some (q, s.issued) ∧ s.runData q idx c =
      (((headLeft s q { tok := s.issued, idx := idx, cmd := c, since := s.now, chan := some ch }).withRun ch
        (x.runs s.dma.order o (if d.remote = true then some (s.remoteOf ch d (some q)) else none))).sendReserve ch) := by
  have fault : s.xferFault d = none := by
    unfold dataCheck at hc
    dsimp only at hc
    split at hc
    · exact nomatch hc
    · exact hd ▸ hc
  let left := headLeft s q { tok := s.issued, idx := idx, cmd := c, since := s.now, chan := some ch }
  let x : Channel := { s.chan ch with active := d, cmd := some (q, s.issued), done := none, remote := none }
  let u := left.setChan ch x
  have taken : s.runData q idx c = u.startXfer ch := by
    unfold State.runData
    rw [hch]
    dsimp only
    rw [issue_chan_eq s q idx c (some ch) hu, ← hd]
    rfl
  have chan : u.chan ch = x := left.chan_setChan_self ch x
  have starts := startXfer_runs (s := u) (ch := ch) (d := d) (congrArg Channel.active chan) fault hn hl hm
  rw [chan] at starts
  refine ⟨x, u.overlaps d, rfl, rfl, taken.trans (starts.trans ?_)⟩
  refine congrArg (fun u : State => u.sendReserve ch) ?_
  unfold State.withRun
  rw [State.setChan_setChan]
  rfl

/-- R249: a FENCE at the head of a queue whose unit has room. -/
theorem exec_fence {s : State} {q : Nat} {idx : Word} {c : BitVec 512} (hq : q < 256) (ha : AtHead s q idx c)
    (ho : opcodeOf c = 0x25) (ht : s.syncTakes q = true) : Machine.exec (.fence q) s = .next (s.runFence q idx c) :=
  exec_of rfl (decide_eq_true hq) ((atHead_runs ha ho _).trans (if_pos ht))

/-- R249: the end of the only command in flight, a FENCE whose scopes have drained. -/
theorem exec_fenceComplete {s : State} {q : Nat} {x : Inflight} (hq : q < 256) (hl : s.live = true) (hx : (s.queue q).inflight = [x])
    (ho : opcodeOf x.cmd = 0x25) (hn : x.done = none) (hf : s.fenceDrained q x.tok (cf x.cmd 16 1) = true) :
    Machine.exec (.fenceComplete q) s = .next (match s.dma.lateFails.find? fun f => f.under q (cf x.cmd 16 1) with
      | some f => ({ s with dma.lateFails := s.dma.lateFails.filter fun f => !f.under q (cf x.cmd 16 1) }).finish q x.tok
          { status := St.dataUe, detail := f.page }
      | none => s.finish q x.tok { status := St.ok }) := by
  have fence : (s.queue q).fence = some x := by simp [Queue.fence, hx, ho, hn]
  refine exec_of rfl (decide_eq_true hq) ?_
  rw [fence]
  dsimp only
  rw [hl, hf]
  rfl

/-- Settles O36: a data command takes its channel or waits for one, and a FENCE waits for its scopes. The late failure that the FENCE
reports and clears is entry 141 of the assumption log. -/
theorem dataCommandsAndFence : Obligations.DataCommandsAndFence := by
  refine ⟨fun s i q ch idx c d hq ha hi hd hc hch hn hm => ⟨fun hr => ?here, fun hr hl => ?remote⟩,
    fun s i q idx c hq ha hi hc hb hch => ?busy,
    fun s q idx c hq ha ho ht => ⟨fun h0 => ?free, fun h0 hh => ?waits, fun a hb hh hopen => ?host⟩,
    fun s q x hq hl hx ho hn hquiet hf => ⟨fun hlate => ?clean, fun f hlate hu he => ?late⟩⟩
  case here =>
    have command : DataCommand i q c := hi
    obtain ⟨x, o, active, cmd, run⟩ := runData_starts (q := q) (idx := idx) command.not_unit hd hc hch hn (by simp [hr]) hm
    rw [if_neg (by simp [hr])] at run
    let left := headLeft s q { tok := s.issued, idx := idx, cmd := c, since := s.now, chan := some ch }
    have chan : (left.withRun ch (x.runs s.dma.order o none)).chan ch = x.runs s.dma.order o none := left.chan_withRun_self ch _
    have silent : (left.withRun ch (x.runs s.dma.order o none)).sendReserve ch = left.withRun ch (x.runs s.dma.order o none) := by
      unfold State.sendReserve
      dsimp only
      rw [chan]
      rfl
    refine ⟨_, command.exec_eq hq ha hc, ?_⟩
    rw [run, silent]
    refine ⟨by rw [chan]; rfl, by rw [chan]; exact active, by rw [chan]; exact cmd, by rw [chan]; rfl, by rw [chan]; rfl,
      by rw [chan]; rfl, fun k hk => left.chan_withRun_ne _ hk, rfl, rfl⟩
  case remote =>
    have command : DataCommand i q c := hi
    obtain ⟨x, o, active, cmd, run⟩ := runData_starts (q := q) (idx := idx) command.not_unit hd hc hch hn (fun _ => hl) hm
    rw [if_pos hr] at run
    let left := headLeft s q { tok := s.issued, idx := idx, cmd := c, since := s.now, chan := some ch }
    let v := x.runs s.dma.order o (some (s.remoteOf ch d (some q)))
    have chan : (left.withRun ch v).chan ch = v := left.chan_withRun_self ch _
    obtain ⟨ram, others, r, own, plan⟩ := (left.withRun ch v).sendReserve_but ch
    rw [chan] at own plan
    refine ⟨_, command.exec_eq hq ha hc, ?_⟩
    rw [run]
    refine ⟨by rw [own]; rfl, by rw [own]; exact active, by rw [own]; exact cmd, ?_, fun k hk => ?_, ram⟩
    · rw [own]
      exact plan
    · exact (others k hk).trans (left.chan_withRun_ne _ hk)
  case busy =>
    have command : DataCommand i q c := hi
    rw [command.exec_eq hq ha hc, State.runData, channelFor_busy hb hch]
  case free =>
    have hun : isUnitOp (opcodeOf c) = false := by rw [ho]; rfl
    rw [exec_fence hq ha ho ht, State.runFence, if_pos h0, completeOk_head ha hun]
  case waits =>
    have hun : isUnitOp (opcodeOf c) = false := by rw [ho]; rfl
    rw [exec_fence hq ha ho ht, State.runFence, if_neg h0]
    dsimp only
    rw [issue_eq s q idx c hun]
    rcases hh with hh | hh
    · rw [hh]
    · rw [hh]
      split
      · next h => exact nomatch h
      · rfl
  case host =>
    have hun : isUnitOp (opcodeOf c) = false := by rw [ho]; rfl
    have h0 : cf c 16 1 ≠ 0 := fun h => by simp [h, bitAt] at hb
    let left := headLeft s q { tok := s.issued, idx := idx, cmd := c, since := s.now }
    have run : s.runFence q idx c =
        (left.modQueue q fun x => { x with lastHost := none }).readHost a 0 none (some (q, s.issued)) true := by
      rw [State.runFence, if_neg h0]
      dsimp only
      rw [issue_eq s q idx c hun, hb, hh]
      exact if_pos hopen
    have queue : ((left.modQueue q fun x => { x with lastHost := none }).readHost a 0 none (some (q, s.issued)) true).queue q =
        { left.queue q with lastHost := none } :=
      State.queue_modQueue_self left q fun x => { x with lastHost := none }
    refine ⟨_, exec_fence hq ha ho ht, ?_⟩
    rw [run]
    dsimp only
    rw [queue, headLeft_queue]
    exact ⟨rfl, rfl, rfl, by simp [State.readHost, left, headLeft, State.modQueue]⟩
  case clean =>
    have none' : (s.dma.lateFails.find? fun f => f.under q (cf x.cmd 16 1)) = none := by
      refine List.find?_eq_none.mpr fun f hf => ?_
      simpa using (List.any_eq_false.mp hlate) f hf
    rw [exec_fenceComplete hq hl hx ho hn hf, none']
    dsimp only
    rw [finish_only hx hn (rec_ok _ _ hquiet)]
    rfl
  case late =>
    rw [exec_fenceComplete hq hl hx ho hn hf, hlate]
    simp only [List.find?_cons, hu, List.filter_cons, Bool.not_true, Bool.false_eq_true, if_false, List.filter_nil]
    have policy (u : State) (h : (u.queue q).errContinue = true) (n : Nat) (i : Word) : u.failPolicy q i n = u := by
      rw [State.failPolicy, h, Bool.or_true, if_pos rfl]
    rw [finish_only (s := { s with dma.lateFails := [] }) hx hn (rec_ok _ _ hquiet)]
    rw [policy _ (by exact (congrArg Queue.errContinue (State.queue_setQueue_self _ _ _)).trans he)]
    rfl

end Sys2Proof
end

section
/-!
SUPPORT. A collective that a reset or an earlier command left in the table of the CEs, under the queue and issue number that the next
command gets: the state that refutes what is said of a leaf's COUNTS.
-/
namespace Sys2Proof
open Sys2Proof.Machine

/-- COUNTS of 8 bytes at address 0 in part 0, with member 1 as ROOT. -/
def countsToOne : BitVec 512 := 0x10000000000000000000000000008#256 ++ 0x45#256

/-- An image of which SELF is member 0, with part 0 (members 0 and 1, root 1) and descant tree 0 (root 1, SELF a leaf). -/
def leafOfOne : Mem :=
  (((((((((Mem.write [] 48 1).write 52 1).write 153 0x10).write 169 0x20).write 0x1000 3).write 0x1088 1).write 0x108A 1).write
    0x2000 1).write 0x2003 3).write 0x2006 1

/-- A collective of queue 0 and issue number 0, of another part than 0, without an algorithm. -/
def staleColl : Coll := { queue := 0, tok := 0, cmd := 0, opcode := 0, part := 1, optag := 0, root := 0, dtree := 0 }

/-- A released engine under `leafOfOne` with `countsToOne` at the head of queue 0, and `staleColl` in the table of its CEs. -/
def staleAtIssue : State :=
  { withQueueZero (headedBy countsToOne) with
    score.member := true, score.active := 0, score.bankA := leafOfOne
    ce.colls := [staleColl] }

/-- The entry of descant tree 0 of `leafOfOne`. -/
def leafEntry : Img.DTree :=
  { root := 1, up := 0, valid := true, member := true, children := 0, arrivals := 1, part := 0, depth := 0 }

theorem countsToOne_atHead : AtHead staleAtIssue 0 0 countsToOne := ⟨by decide, by decide, by decide⟩

/-- The stale collective is found in the new one's stead, and sends nothing. -/
theorem staleAtIssue_sends_nothing : Answers (.counts 0) staleAtIssue fun t => t.ce.dsend = [] :=
  answers_of (t := staleAtIssue.runColl 0 0x45) (ok := (Instr.counts 0).wf) rfl rfl (by decide)

/-- Refutes O37: its clause about a leaf's COUNTS says nothing about the collectives already in the table of the CEs. In
`staleAtIssue` one of another part has the queue and the issue number of the COUNTS at the head; the source that starts is that of
the first collective found under them (`collOf`), so the COUNTS sends no descant operation up. -/
theorem not_collectivesAtIssue : ¬ Obligations.CollectivesAtIssue := by
  unfold Obligations.CollectivesAtIssue
  rintro ⟨-, leaf⟩
  obtain ⟨sent, -⟩ := leaf staleAtIssue 0 0 0 8 0 countsToOne leafEntry
    { dtree := 0, dop := Dop.counts, dseq := 0, dfmt := 8, owner := .command 0 0 } (by decide) countsToOne_atHead (by decide)
    (by decide) (by decide) (by decide) (by decide) (by decide) (by decide) (by decide) rfl rfl (by decide) (by decide) (by decide)
    (by decide) (by decide) (by decide) (by decide)
  obtain ⟨t, ht, some'⟩ := sent (by decide)
  obtain ⟨u, hu, none'⟩ := staleAtIssue_sends_nothing
  obtain rfl : t = u := by rw [ht] at hu; injection hu
  exact absurd (none'.symm.trans some') (by simp)

end Sys2Proof
end

section
/-!
SUPPORT. Reads of one clean page (R139), commands of a unit as they issue and finish (R210, R215, R231), and an ME's SRAM (R350).
-/
namespace Sys2Proof.Machine

theorem Tab.find_put {α : Type} (t : Tab α) (k j : Nat) (v : α) : Tab.find (Tab.put t k v) j = if k = j then some v else Tab.find t j := by
  induction t with
  | nil => rfl
  | cons x t ih =>
    obtain ⟨k', v'⟩ := x
    simp only [Tab.put]
    split
    · rfl
    · split
      · next h =>
        subst h
        simp only [Tab.find]
        split <;> rfl
      · next h =>
        simp only [Tab.find, ih]
        split
        · next e => rw [if_neg (by omega)]
        · rfl

/-! ### Reads of one page -/

/-- R139: a read within a page that is backed, not poisoned and without an error: only the page's controller notes it. -/
theorem load_readable {s : State} {a n ph : Nat} (h : Readable s a n ph) :
    ∃ k, s.load a n = (s.modCtrl k (·.touch (ph / 2048 * 2048)), .data (s.ram.readN ph n)) := by
  obtain ⟨k, located, nonempty, inPage, sameOffset, clean, correct⟩ := h
  have onePart : extent a n = [(a, n)] := extent_of_one_page nonempty (sameOffset ▸ inPage)
  refine ⟨k, ?_⟩
  rw [State.load, onePart]
  unfold State.loadParts
  rw [located]
  dsimp only
  rw [State.fetchPage_clean _ _ clean correct]
  rfl

/-- What a controller notes of pages that it delivered leaves every page writable that was. -/
theorem Writable.modCtrl {s : State} {a n ph : Nat} (h : Writable s a n ph) (k : Nat) (f : MemPort → MemPort) :
    Writable (s.modCtrl k f) a n ph := h

theorem Writable.readable {s : State} {a n ph : Nat} (h : Writable s a n ph) : Readable s a n ph := h.1

/-- R145: a part in a region that is not STRICT is not refused. -/
theorem strictPart_writable {s : State} {a n ph : Nat} (h : Writable s a n ph) : s.strictPart a n = none := by
  obtain ⟨⟨k, located, nonempty, inPage, sameOffset, clean, correct⟩, narrow, rmw, unarmed⟩ := h
  rw [strictPart_page nonempty (sameOffset ▸ inPage), if_neg (by simp [rmw])]

/-! ### Issue and finish of a unit's command -/

/-- R231: a command that issues, of a unit or not: the unit's turn apart. -/
theorem issue_any (s : State) (q : Nat) (idx : Word) (c : BitVec 512) (ch : Option Nat) :
    ∃ l, s.issue q idx c ch = { headLeft s q { tok := s.issued, idx := idx, cmd := c, since := s.now, chan := ch } with
      lastIssued := l } := by
  unfold State.issue headLeft State.advance State.freshHead
  simp only [State.modQueue, State.queue_setQueue_self, State.setQueue_setQueue]
  split
  · split
    · exact ⟨_, rfl⟩
    · exact ⟨s.lastIssued, rfl⟩
  · exact ⟨s.lastIssued, rfl⟩

/-- R215: the command that issued last finishes and waits for its record; the others in flight stay as they were. -/
theorem finish_last {s : State} {q : Nat} {xs : List Inflight} {x : Inflight} {d : Done} (hq : (s.queue q).inflight = xs ++ [x])
    (hxs : ∀ z ∈ xs, z.tok ≠ x.tok) (hn : x.done = none) (hr : needsRecord x.cmd d = true) :
    s.finish q x.tok d = ({ s.setQueue q { s.queue q with
        inflight := xs ++ [{ x with done := some { d with order := s.finished } }], progress := true } with
      finished := s.finished + 1 } : State).failPolicy q x.idx d.status := by
  have older : xs.find? (fun z => z.tok == x.tok && z.done.isNone) = none :=
    List.find?_eq_none.2 fun z hz => by simp [hxs z hz]
  have newest : (s.queue q).inflight.find? (fun z => z.tok == x.tok && z.done.isNone) = some x := by
    simp [hq, older, hn]
  have unmarked (d' : Done) : xs.map (fun z => if z.tok == x.tok then { z with done := some d' } else z) = xs :=
    (List.map_congr_left fun z hz => by simp [hxs z hz]).trans (List.map_id xs)
  have recorded : needsRecord x.cmd { d with order := s.finished } = true := hr
  have marked (d' : Done) : (s.queue q).finished x.tok d' =
      { s.queue q with inflight := xs ++ [{ x with done := some d' }], progress := true } := by
    unfold Queue.finished
    rw [hq, List.map_append, unmarked]
    simp
  unfold State.finish
  rw [newest]
  dsimp only
  rw [recorded, if_pos rfl]
  show ({ s.setQueue q ((s.queue q).finished x.tok { d with order := s.finished }) with
    finished := s.finished + 1 } : State).failPolicy q x.idx d.status = _
  rw [marked]

/-- R225: a command that ended well, or in a queue whose policy is CONTINUE, does not halt its queue. -/
theorem failPolicy_success {s : State} (q : Nat) (idx : Word) {status : Nat} (h : St.success status = true) :
    s.failPolicy q idx status = s := by
  rw [State.failPolicy, h, Bool.true_or, if_pos rfl]

theorem failPolicy_continue {s : State} {q : Nat} (idx : Word) (status : Nat) (h : (s.queue q).errContinue = true) :
    s.failPolicy q idx status = s := by
  rw [State.failPolicy, h, Bool.or_true, if_pos rfl]

end Sys2Proof.Machine

namespace Sys2Proof
open Sys2Proof.Machine

/-- What of the engine a command with its whole effect at issue leaves to its end: queues and the order of outcomes. -/
def EffectOnly (s t : State) : Prop := t.queues = s.queues ∧ t.finished = s.finished

/-- R210, R215: a command that issues, has its effect at once and ends well. -/
theorem issueWith_done {s : State} {q : Nat} {idx : Word} {c : BitVec 512} (h : AtHead s q idx c) (run : State → State × Done) :
    ∃ l, ∀ u d, run { headLeft s q { tok := s.issued, idx := idx, cmd := c, since := s.now } with lastIssued := l } = (u, d) →
      EffectOnly (headLeft s q { tok := s.issued, idx := idx, cmd := c, since := s.now }) u → St.success d.status = true →
      s.issueWith q idx c run = { u.setQueue q ((headDone s q idx c d).queue q) with finished := s.finished + 1 } := by
  obtain ⟨l, issued⟩ := issue_any s q idx c none
  refine ⟨l, fun u d ran effect hd => ?_⟩
  obtain ⟨queues, finished⟩ := effect
  have queue : u.queue q = (headLeft s q { tok := s.issued, idx := idx, cmd := c, since := s.now }).queue q :=
    State.queue_of_queues queues q
  have order : u.finished = s.finished := finished
  rw [headLeft_queue] at queue
  have last := finish_last (s := u) (q := q) (d := d) (congrArg Queue.inflight queue) h.2.2 rfl (rec_ok c d h.2.1)
  unfold State.issueWith
  dsimp only
  rw [issued, ran]
  dsimp only
  rw [last, failPolicy_success _ _ hd, queue, order, headDone_queue, headLeft_queue]

end Sys2Proof

namespace Sys2Proof.Machine

/-! ### SRAM -/

/-- R350: the bytes of a write lie where it put them, and no other changes. -/
theorem MatrixEngine.byte_write (m : MatrixEngine) (a : Nat) (bs : List Byte) (x : Nat) :
    (m.write a bs).byte x = if h : a ≤ x ∧ x < a + bs.length then bs[x - a]'(by omega) else m.byte x := by
  have puts (t : Tab Byte) : Tab.find ((numbered a bs).foldl (fun t y => Tab.put t y.1 y.2) t) x =
      if h : a ≤ x ∧ x < a + bs.length then some (bs[x - a]'(by omega)) else Tab.find t x := by
    induction bs generalizing a t with
    | nil => rw [dif_neg (by simp)]; rfl
    | cons b bs ih =>
      simp only [numbered, List.foldl_cons, ih, Tab.find_put, List.length_cons]
      by_cases h1 : a + 1 ≤ x ∧ x < a + 1 + bs.length
      · have e : x - a = (x - (a + 1)) + 1 := by omega
        rw [dif_pos h1, dif_pos (by omega)]
        simp [e]
      · rw [dif_neg h1]
        by_cases h2 : a = x
        · subst h2
          rw [if_pos rfl, dif_pos (by omega)]
          simp
        · rw [if_neg h2, dif_neg (by omega)]
  unfold MatrixEngine.byte MatrixEngine.write
  dsimp only
  rw [puts]
  by_cases h : a ≤ x ∧ x < a + bs.length
  · rw [dif_pos h, dif_pos h]
  · rw [dif_neg h, dif_neg h]

theorem MatrixEngine.byte_write_other (m : MatrixEngine) {a x : Nat} {bs : List Byte} (h : x < a ∨ a + bs.length ≤ x) :
    (m.write a bs).byte x = m.byte x := by
  rw [MatrixEngine.byte_write, dif_neg (by omega)]

theorem MatrixEngine.read_write (m : MatrixEngine) (a : Nat) (bs : List Byte) : (m.write a bs).read a bs.length = bs := by
  refine List.ext_getElem (by simp [MatrixEngine.read]) fun i _ hi => ?_
  simp only [MatrixEngine.read, List.getElem_map, List.getElem_range]
  rw [MatrixEngine.byte_write, dif_pos (by omega)]
  simp

theorem length_readN (m : Mem) (a n : Nat) : (m.readN a n).length = n := by
  induction n generalizing a with
  | zero => rfl
  | succ n ih => simp [Mem.readN, ih]

end Sys2Proof.Machine
end

section
/-!
SUPPORT. The compute group on the matrix engines as its commands issue (R261 to R266), and LAUNCH on the cores of a cluster (R267,
R366, R367).
-/
namespace Sys2Proof.Machine

/-! ### Matrix engines -/

theorem State.me_setMe_ne (s : State) {m k : Nat} (v : MatrixEngine) (h : k ≠ m) : (s.setMe m v).me k = s.me k := by
  rw [State.me_setMe, if_neg (Ne.symm h)]

/-- R210: a compute command that its ME may start and that stores nothing STRICT. -/
theorem State.issueMe_runs {s : State} {q : Nat} (idx : Word) {c : BitVec 512} (run : State → State × Done)
    (hs : s.strictPart (cf c 24 8) (s.meWrites ((q - 128) / 4) c) = none) (hr : s.meReady ((q - 128) / 4) c = true)
    (hw : s.winsUnit (16 + (q - 128) / 4) q c (fun _ c => s.meReady ((q - 128) / 4) c) = true) :
    s.issueMe q idx c run = s.issueWith q idx c run := by
  unfold State.issueMe
  dsimp only
  rw [hs]
  dsimp only
  rw [hr, hw]
  rfl

theorem computeDone_success (n : Num.Counts) (breach : Bool) : St.success (computeDone n breach).status = true := by
  cases breach <;> rfl

/-- R350, R351: a batch without scales placed in ME `m`. -/
theorem State.placeBatch_plain (s : State) (c : BitVec 512) (bs : List Byte) (m : Nat) : s.placeBatch c bs [] m =
    s.setMe m { (s.me m).write (Me.qoff c) bs with batches := Tab.put (s.me m).batches (Me.qoff c) (Me.lq c, Me.ldim c) } := rfl

/-- R262: LOADQ of an unscaled batch into its own ME. -/
theorem State.loadq_plain {s : State} {q n ph : Nat} {c : BitVec 512} (hf : Me.lfmt c ≠ 6) (ha : Me.allMe c = false)
    (hn : n = Me.lq c * Me.ldim c * (Num.Fmt.ofCode (Me.lfmt c)).bits / 8) (hr : Readable s (cf c 16 8) n ph) :
    ∃ k b, s.loadq q c = ((s.modCtrl k (·.touch (ph / 2048 * 2048))).placeBatch c (s.ram.readN ph n) [] ((q - 128) / 4),
      computeDone {} b) := by
  obtain ⟨k, loaded⟩ := load_readable hr
  have len : matrixLen (Me.lfmt c) (cf c 16 8) (Me.lq c) (Me.ldim c) = n := (if_neg hf).trans hn.symm
  have whole : (s.ram.readN ph n).take n = s.ram.readN ph n := List.take_of_length_le (by rw [length_readN])
  refine ⟨k, s.breached .me ((q - 128) / 4) false (cf c 16 8) n, ?_⟩
  unfold State.loadq
  dsimp only
  rw [len, loaded]
  dsimp only
  rw [if_neg hf, ha, ← hn, whole]
  rfl

/-- R142: a result that is written whole. -/
theorem State.storeResult_ok {s : State} {q a n ph : Nat} {bs : List Byte} (hn : bs.length = n) (hw : Writable s a n ph) (d : Done) :
    ∃ m, s.storeResult q a bs d = (s.withBytes ph bs m, d) := by
  obtain ⟨m, stored⟩ := store_writable hn hw
  refine ⟨m, ?_⟩
  unfold State.storeResult
  rw [stored]

/-! ### Lists of candidates (R264) -/

theorem length_candBytes (cs : List Num.Cand) : (candBytes cs).length = 16 * cs.length := by
  induction cs with
  | nil => rfl
  | cons c cs ih =>
    have bytes : candBytes (c :: cs) = leBytes c.toNat 16 ++ candBytes cs := rfl
    rw [bytes, List.length_append, length_leBytes, ih, List.length_cons]
    omega

theorem length_bestOf_le (order : Bool) (k : Nat) (cs : List Num.Cand) : (Num.bestOf order k cs).length ≤ k := by
  unfold Num.bestOf
  generalize cs.filter Num.Cand.valid = vs
  have all (acc : List Num.Cand) (h : acc.length ≤ k) :
      (vs.foldl (fun acc c => (Num.insertCand order c acc).take k) acc).length ≤ k := by
    induction vs generalizing acc with
    | nil => exact h
    | cons v vs ih => exact ih _ (List.length_take_le _ _)
  exact all [] (Nat.zero_le _)

theorem length_listBytes {k : Nat} {lists : List (List Num.Cand)} (h : ∀ l ∈ lists, l.length ≤ k) :
    (listBytes k lists).length = 16 * lists.length * k := by
  induction lists with
  | nil => simp [listBytes]
  | cons l ls ih =>
    have bytes : listBytes k (l :: ls) = candBytes (Num.padTo k l) ++ listBytes k ls := rfl
    have padded : (Num.padTo k l).length = k := by
      have := h l (by simp)
      simp [Num.padTo]
      omega
    rw [bytes, List.length_append, length_candBytes, padded, ih fun l hl => h l (by simp [hl]), List.length_cons]
    ring

theorem length_selectLists (c : BitVec 512) (member : Nat) (bs : List Byte) :
    (listBytes (Me.k c) (selectLists c member bs)).length = 16 * Me.tq c * Me.k c := by
  rw [length_listBytes]
  · simp [selectLists]
  · intro l hl
    obtain ⟨j, -, rfl⟩ := List.mem_map.mp hl
    exact length_bestOf_le _ _ _

/-! ### Cores -/

theorem State.core_setCore (s : State) (cl k j : Nat) (v : Core) : (s.setCore cl k v).core cl j = if k = j then v else s.core cl j := by
  unfold State.setCore State.core
  rw [State.cl_setCl_self]
  exact Tab.get_put _ _ _ _ _

theorem State.cl_setCl_ne (s : State) {c j : Nat} (v : Cluster) (h : j ≠ c) : (s.setCl c v).cl j = s.cl j := by
  rw [State.cl_setCl, if_neg (Ne.symm h)]

theorem State.cl_of_clusters {s t : State} (h : t.clusters = s.clusters) (c : Nat) : t.cl c = s.cl c := by simp [State.cl, h]

theorem State.core_of_clusters {s t : State} (h : t.clusters = s.clusters) (c k : Nat) : t.core c k = s.core c k := by
  rw [State.core, State.core, State.cl_of_clusters h]

/-- Of a cluster all but its cores. -/
def Cluster.frame (c : Cluster) : Cluster := { c with cores := [] }

theorem State.frame_setCore (s : State) (cl k : Nat) (v : Core) : ((s.setCore cl k v).cl cl).frame = (s.cl cl).frame := by
  unfold State.setCore
  rw [State.cl_setCl_self]
  rfl

/-- What a walk over cores of cluster `cl` does that changes each core `k` it visits by `g k`, and of the rest no cluster's. -/
structure Walks (cl : Nat) (f : Nat → State → State) (g : Nat → Core → Core) : Prop where
  own : ∀ k s, (f k s).core cl k = g k (s.core cl k)
  other : ∀ k j s, j ≠ k → (f k s).core cl j = s.core cl j
  clusters : ∀ k j s, j ≠ cl → (f k s).cl j = s.cl j
  frame : ∀ k s, ((f k s).cl cl).frame = (s.cl cl).frame

theorem Walks.cores {cl : Nat} {f : Nat → State → State} {g : Nat → Core → Core} (h : Walks cl f g) {ks : List Nat} (hn : ks.Nodup)
    (s : State) (j : Nat) : (forEach ks f s).core cl j = if j ∈ ks then g j (s.core cl j) else s.core cl j := by
  induction ks generalizing s with
  | nil => rfl
  | cons k ks ih =>
    obtain ⟨fresh, rest⟩ := List.nodup_cons.mp hn
    have step : (forEach (k :: ks) f s).core cl j = if j ∈ ks then g j ((f k s).core cl j) else (f k s).core cl j := ih rest (f k s)
    rw [step]
    by_cases hj : j = k
    · subst hj
      rw [if_neg fresh, if_pos (by simp), h.own]
    · rw [h.other k j s hj]
      simp [hj]

theorem Walks.others {cl : Nat} {f : Nat → State → State} {g : Nat → Core → Core} (h : Walks cl f g) (ks : List Nat) (s : State) :
    (∀ j, j ≠ cl → (forEach ks f s).cl j = s.cl j) ∧ ((forEach ks f s).cl cl).frame = (s.cl cl).frame :=
  ⟨fun j hj => foldl_keeps (fun u : State => u.cl j) _ (fun s k => h.clusters k j s hj) ks s,
    foldl_keeps (fun u : State => (u.cl cl).frame) _ (fun s k => h.frame k s) ks s⟩

/-- R362, R366: a core as it takes a LAUNCH. -/
def Core.launched (x : Core) (c : BitVec 512) : Core :=
  { x with asleep := false, entry := BitVec.ofNat 64 (cf c 16 8), arg0 := BitVec.ofNat 64 (cf c 24 8)
           arg1 := BitVec.ofNat 64 (cf c 32 8), launchSeq := (x.launchSeq + 1) % 65536, launchPending := true, state := .busy
           dirty := [], dirtyAt := [], dataUe := none }

theorem State.endSleep_eq (s : State) (cl k : Nat) : ∃ cs, s.endSleep cl k =
    { (if (s.core cl k).asleep then s.setCore cl k { s.core cl k with asleep := false } else s) with counters := cs } := by
  unfold State.endSleep
  dsimp only
  split
  · exact ⟨_, rfl⟩
  · exact ⟨s.counters, rfl⟩

/-- R362: what a delivery changes: its core, and a counter. -/
theorem State.deliver_eq (s : State) (cl : Nat) (c : BitVec 512) (k : Nat) :
    ∃ cs u, s.deliver cl c k = ({ u with counters := cs } : State).setCore cl k ((s.core cl k).launched c) ∧
      (u = s ∨ u = s.setCore cl k { s.core cl k with asleep := false }) := by
  obtain ⟨cs, slept⟩ := s.endSleep_eq cl k
  unfold State.deliver State.modCore
  rw [slept]
  by_cases ha : (s.core cl k).asleep = true
  · refine ⟨cs, _, ?_, .inr rfl⟩
    rw [if_pos ha]
    refine congrArg (State.setCore _ cl k) ?_
    have awake : (s.setCore cl k { s.core cl k with asleep := false }).core cl k = { s.core cl k with asleep := false } :=
      (State.core_setCore _ _ _ _ _).trans (if_pos rfl)
    show _ = (s.core cl k).launched c
    have same : ({ s.setCore cl k { s.core cl k with asleep := false } with counters := cs } : State).core cl k =
      { s.core cl k with asleep := false } := awake
    rw [same]
    rfl
  · refine ⟨cs, s, ?_, .inl rfl⟩
    rw [if_neg ha]
    refine congrArg (State.setCore _ cl k) ?_
    have same : ({ s with counters := cs } : State).core cl k = s.core cl k := rfl
    rw [same]
    unfold Core.launched
    simp [ha]

theorem walks_deliver (cl : Nat) (c : BitVec 512) : Walks cl (fun k st => st.deliver cl c k) fun _ x => x.launched c where
  own k s := by
    obtain ⟨cs, u, delivered, -⟩ := s.deliver_eq cl c k
    rw [delivered, State.core_setCore, if_pos rfl]
  other k j s hj := by
    obtain ⟨cs, u, delivered, hu⟩ := s.deliver_eq cl c k
    have before : u.core cl j = s.core cl j := by
      rcases hu with rfl | rfl
      · rfl
      · rw [State.core_setCore, if_neg (Ne.symm hj)]
    rw [delivered, State.core_setCore, if_neg (Ne.symm hj)]
    exact before
  clusters k j s hj := by
    obtain ⟨cs, u, delivered, hu⟩ := s.deliver_eq cl c k
    have before : u.cl j = s.cl j := by
      rcases hu with rfl | rfl
      · rfl
      · exact State.cl_setCl_ne _ _ hj
    rw [delivered]
    exact (State.cl_setCl_ne _ _ hj).trans before
  frame k s := by
    obtain ⟨cs, u, delivered, hu⟩ := s.deliver_eq cl c k
    have before : (u.cl cl).frame = (s.cl cl).frame := by
      rcases hu with rfl | rfl
      · rfl
      · exact State.frame_setCore _ _ _ _
    rw [delivered]
    exact (State.frame_setCore _ _ _ _).trans before

/-- R367: a core that is killed. -/
def Core.killed (x : Core) (sel : Bool) : Core := if sel && x.state == .busy then {} else x

theorem walks_kill (cl : Nat) (sel : Nat → Bool) : Walks cl (fun k st =>
    if sel k && (st.core cl k).state == .busy then
      ((st.setCore cl k resetCore).count (Cnt.cl cl 0)).eventC Det.clKill (.cl cl) k
    else st) fun k x => x.killed (sel k) := by
  have killed (s : State) (k : Nat) : (((s.setCore cl k resetCore).count (Cnt.cl cl 0)).eventC Det.clKill (.cl cl) k).clusters =
      (s.setCore cl k resetCore).clusters := by simp
  refine ⟨fun k s => ?_, fun k j s hj => ?_, fun k j s hj => ?_, fun k s => ?_⟩
  all_goals split
  · next h =>
    rw [State.core_of_clusters (killed s k), State.core_setCore, if_pos rfl]
    exact (if_pos h).symm
  · next h => exact (if_neg h).symm
  · rw [State.core_of_clusters (killed s k), State.core_setCore, if_neg (Ne.symm hj)]
  · rfl
  · rw [State.cl_of_clusters (killed s k)]
    exact State.cl_setCl_ne _ _ hj
  · rfl
  · rw [State.cl_of_clusters (killed s k)]
    exact State.frame_setCore _ _ _ _
  · rfl

theorem mem_coresOf {mask k : Nat} : k ∈ coresOf mask ↔ k < 8 ∧ bitAt mask k = true := by
  simp [coresOf]

theorem nodup_coresOf (mask : Nat) : (coresOf mask).Nodup := List.nodup_range.filter _

end Sys2Proof.Machine

namespace Sys2Proof
open Sys2Proof.Machine

/-- R234: what an open head does, its checks passed. -/
theorem exec_atHead {s : State} {i : Instr} {q op : Nat} {idx : Word} {c : BitVec 512} {ok : Bool}
    {check : State → BitVec 512 → Option (Nat × Nat)} {run : State → Word → BitVec 512 → State}
    (e : Machine.exec i s = within ok (s.runHead q op check run)) (hok : ok = true) (h : AtHead s q idx c) (ho : opcodeOf c = op)
    (hc : check s c = none) : Machine.exec i s = .next (run s idx c) := by
  rw [e, within, if_pos hok, runHead_open check run h.1 ho hc]

end Sys2Proof
end

section
/-!
SUPPORT. LOADQ, TOPK, SCORE, QUANT and DEQUANT at the head of a queue of an ME.
-/
namespace Sys2Proof
open Sys2Proof.Machine

/-- R217: a command that waits for its record is the last in flight. -/
theorem headDone_inflight (s : State) (q : Nat) (idx : Word) (c : BitVec 512) (d : Done) :
    (((headDone s q idx c d).queue q).inflight.map fun x => (x.tok, x.idx)) =
      ((s.queue q).inflight.map fun x => (x.tok, x.idx)) ++ [(s.issued, idx)] := by
  rw [headDone_queue, headLeft_queue]
  simp

theorem firstFault_none {xs : List (Bool × Nat × Nat)} (h : firstFault xs = none) : ∀ x ∈ xs, x.1 = true := by
  induction xs with
  | nil => exact fun x hx => nomatch hx
  | cons y ys ih =>
    obtain ⟨ok, cause, off⟩ := y
    unfold firstFault at h
    split at h
    · next hok => exact List.forall_mem_cons.mpr ⟨hok, ih h⟩
    · exact nomatch h

section ComputeAtHead
variable {s : State} {q ph ph' n : Nat} {idx : Word} {c : BitVec 512}

/-- R262: LOADQ of an unscaled batch at the head of a queue of ME `(q - 128) / 4`. -/
theorem loadq_answers (hq : 128 ≤ q ∧ q < 192) (h : AtHead s q idx c) (ho : opcodeOf c = 0x50)
    (hc : loadqCheck ((q - 128) / 4) s c = none) (hr : s.meReady ((q - 128) / 4) c = true)
    (hw : s.winsUnit (16 + (q - 128) / 4) q c (fun _ c => s.meReady ((q - 128) / 4) c) = true) (hf : Me.lfmt c ≠ 6)
    (ha : Me.allMe c = false) (hn : n = Me.lq c * Me.ldim c * (Num.Fmt.ofCode (Me.lfmt c)).bits / 8)
    (hm : Readable s (cf c 16 8) n ph) : Answers (.loadq q) s fun t =>
      t.me ((q - 128) / 4) = { (s.me ((q - 128) / 4)).write (Me.qoff c) (s.ram.readN ph n) with
        batches := Tab.put (s.me ((q - 128) / 4)).batches (Me.qoff c) (Me.lq c, Me.ldim c) } ∧
      (∀ k, k ≠ (q - 128) / 4 → t.me k = s.me k) ∧ t.ram = s.ram ∧
      ((t.queue q).inflight.map fun x => (x.tok, x.idx)) = ((s.queue q).inflight.map fun x => (x.tok, x.idx)) ++ [(s.issued, idx)] := by
  have nothing : s.meWrites ((q - 128) / 4) c = 0 := by rw [State.meWrites, ho]; rfl
  have plain : s.strictPart (cf c 24 8) (s.meWrites ((q - 128) / 4) c) = none := by rw [nothing]; rfl
  obtain ⟨l, done⟩ := issueWith_done h fun s => s.loadq q c
  obtain ⟨k, b, ran⟩ := State.loadq_plain (s := { headLeft s q { tok := s.issued, idx := idx, cmd := c, since := s.now } with
    lastIssued := l }) (q := q) hf ha hn hm
  refine ⟨_, exec_atHead rfl (decide_eq_true (by omega)) h ho hc, ?_⟩
  rw [State.issueMe_runs idx _ plain hr hw, done _ _ ran ⟨rfl, rfl⟩ (computeDone_success _ _), State.placeBatch_plain]
  refine ⟨State.me_setMe_self _ _ _, fun k hk => State.me_setMe_ne _ _ hk, rfl, ?_⟩
  exact (congrArg (fun y : Queue => y.inflight.map fun x => (x.tok, x.idx)) (State.queue_setQueue_self _ q _)).trans
    (headDone_inflight s q idx c _)

/-- R264: TOPK ARM. -/
theorem topk_arm_answers (hq : 128 ≤ q ∧ q < 192) (h : AtHead s q idx c) (ho : opcodeOf c = 0x52)
    (hc : topkCheck ((q - 128) / 4) s c = none) (hr : s.meReady ((q - 128) / 4) c = true)
    (hw : s.winsUnit (16 + (q - 128) / 4) q c (fun _ c => s.meReady ((q - 128) / 4) c) = true) (hm : Me.mode c = 0) :
    Answers (.topk q) s fun t =>
      (t.me ((q - 128) / 4)).topk = some { q := Me.tq c, k := Me.k c, loff := Me.loff c, order := Num.smaller (Me.numctl c) } ∧
      (∀ k, k ≠ (q - 128) / 4 → t.me k = s.me k) ∧ t.queue q = (headDone s q idx c { status := St.ok }).queue q ∧ t.ram = s.ram ∧
      t.mem = s.mem := by
  have nothing : s.meWrites ((q - 128) / 4) c = 0 := by rw [State.meWrites, ho]; simp [hm]
  have plain : s.strictPart (cf c 24 8) (s.meWrites ((q - 128) / 4) c) = none := by rw [nothing]; rfl
  obtain ⟨l, done⟩ := issueWith_done h fun s => s.topkCmd q c
  let u : State := { headLeft s q { tok := s.issued, idx := idx, cmd := c, since := s.now } with lastIssued := l }
  let armed : MatrixEngine := { s.me ((q - 128) / 4) with
    topk := some { q := Me.tq c, k := Me.k c, loff := Me.loff c, order := Num.smaller (Me.numctl c) } }
  have ran : u.topkCmd q c = (u.setMe ((q - 128) / 4) armed, { status := St.ok }) := by
    unfold State.topkCmd
    dsimp only
    rw [hm]
    rfl
  refine ⟨_, exec_atHead rfl (decide_eq_true (by omega)) h ho hc, ?_⟩
  rw [State.issueMe_runs idx _ plain hr hw, done _ _ ran ⟨rfl, rfl⟩ rfl]
  exact ⟨congrArg MatrixEngine.topk (State.me_setMe_self u _ armed), fun k hk => State.me_setMe_ne u _ hk,
    State.queue_setQueue_self _ q _, rfl, rfl⟩

/-- R264: TOPK SELECT or MERGE of one page of scores into one page of lists. -/
theorem topk_select_answers (hq : 128 ≤ q ∧ q < 192) (h : AtHead s q idx c) (ho : opcodeOf c = 0x52)
    (hc : topkCheck ((q - 128) / 4) s c = none) (hr : s.meReady ((q - 128) / 4) c = true)
    (hw : s.winsUnit (16 + (q - 128) / 4) q c (fun _ c => s.meReady ((q - 128) / 4) c) = true) (hm : 2 ≤ Me.mode c)
    (hs : Readable s (cf c 16 8) (4 * Me.tq c * Me.n c) ph) (hd : Writable s (cf c 24 8) (16 * Me.tq c * Me.k c) ph')
    (hwf : s.ram.wf = true) : Answers (.topk q) s fun t =>
      t.ram.readN ph' (16 * Me.tq c * Me.k c) =
        listBytes (Me.k c) (selectLists c s.candMember (s.ram.readN ph (4 * Me.tq c * Me.n c))) ∧
      (∀ a, a < ph' ∨ ph' + 16 * Me.tq c * Me.k c ≤ a → t.ram.read a = s.ram.read a) := by
  let bs := listBytes (Me.k c) (selectLists c s.candMember (s.ram.readN ph (4 * Me.tq c * Me.n c)))
  have written : s.meWrites ((q - 128) / 4) c = 16 * Me.tq c * Me.k c := by
    unfold State.meWrites
    rw [ho]
    show (match Me.mode c with
      | 0 => 0
      | 1 => ((s.me ((q - 128) / 4)).topk.map fun (u : TopK) => 16 * u.q * u.k).getD 0
      | _ => 16 * Me.tq c * Me.k c) = _
    split
    · omega
    · omega
    · rfl
  have plain : s.strictPart (cf c 24 8) (s.meWrites ((q - 128) / 4) c) = none := by rw [written]; exact strictPart_writable hd
  have len : bs.length = 16 * Me.tq c * Me.k c := length_selectLists _ _ _
  obtain ⟨l, done⟩ := issueWith_done h fun s => s.topkCmd q c
  let u : State := { headLeft s q { tok := s.issued, idx := idx, cmd := c, since := s.now } with lastIssued := l }
  obtain ⟨k, loaded⟩ := load_readable (s := u) hs
  obtain ⟨m, stored⟩ := State.storeResult_ok (s := u.modCtrl k (·.touch (ph / 2048 * 2048))) (q := q) len
    (hd : Writable u (cf c 24 8) (16 * Me.tq c * Me.k c) ph') (computeDone {} (u.breached .me ((q - 128) / 4) false (cf c 16 8)
      (4 * Me.tq c * Me.n c) || u.breached .me ((q - 128) / 4) true (cf c 24 8) (16 * Me.tq c * Me.k c)))
  have ran : u.topkCmd q c = ((u.modCtrl k (·.touch (ph / 2048 * 2048))).withBytes ph' bs m, computeDone {}
      (u.breached .me ((q - 128) / 4) false (cf c 16 8) (4 * Me.tq c * Me.n c) ||
        u.breached .me ((q - 128) / 4) true (cf c 24 8) (16 * Me.tq c * Me.k c))) := by
    unfold State.topkCmd
    dsimp only
    split
    · omega
    · omega
    · rw [loaded]
      exact stored
  refine ⟨_, exec_atHead rfl (decide_eq_true (by omega)) h ho hc, ?_⟩
  rw [State.issueMe_runs idx _ plain hr hw, done _ _ ran ⟨rfl, rfl⟩ (computeDone_success _ _)]
  refine ⟨?_, fun a ha => Mem.read_writeN_other bs s.ram ph' a hwf (by omega)⟩
  rw [← len]
  exact Mem.readN_writeN bs s.ram ph' hwf

/-- R263: the score of one item against one query, with the batch in place. -/
theorem scoreRows_one {u : State} (queries : List Num.Val) (hlen : n = Me.dim c * (Num.Fmt.ofCode (Me.fe c)).bits / 8)
    (hs : Readable u (cf c 16 8) n ph) (ht : Me.toTopk c = false) :
    ∃ k m, u.scoreRows q c none [queries] none [0] [] {} = (u.modCtrl k (·.touch (ph / 2048 * 2048)),
      [[(Num.dot (decide (Me.fe c ≤ 2)) (Num.Fmt.ofCode 0xB) (Me.numctl c) queries
        (Num.valuesOf (Num.Fmt.ofCode (Me.fe c)) none (Num.unpackCodes (Num.Fmt.ofCode (Me.fe c)) (Me.dim c) (u.ram.readN ph n)))).1]],
      m, none) := by
  obtain ⟨k, loaded⟩ := load_readable hs
  refine ⟨k, ?_⟩
  unfold State.scoreRows
  dsimp only
  rw [← hlen, Nat.zero_mul, Nat.add_zero, loaded]
  dsimp only
  rw [ht]
  exact ⟨_, rfl⟩

/-- R263: SCORE of one item against one query, into memory. -/
theorem score_one_answers (hq : 128 ≤ q ∧ q < 192) (h : AtHead s q idx c) (ho : opcodeOf c = 0x51)
    (hc : scoreCheck ((q - 128) / 4) s c = none) (hr : s.meReady ((q - 128) / 4) c = true)
    (hw : s.winsUnit (16 + (q - 128) / 4) q c (fun _ c => s.meReady ((q - 128) / 4) c) = true) (hn : Me.n c = 1) (hq1 : Me.q c = 1)
    (hf : Me.fe c ≠ 6) (ht : Me.toTopk c = false)
    (hb : Tab.find (s.me ((q - 128) / 4)).batches (Me.sqoff c) = some (1, Me.dim c))
    (hlen : n = Me.dim c * (Num.Fmt.ofCode (Me.fe c)).bits / 8) (hs : Readable s (cf c 16 8) n ph) (hd : Writable s (cf c 24 8) 4 ph')
    (hwf : s.ram.wf = true) : Answers (.score q) s fun t =>
      t.ram.readN ph' 4 = leBytes (Num.dot (decide (Me.fe c ≤ 2)) (Num.Fmt.ofCode 0xB) (Me.numctl c)
        ((s.me ((q - 128) / 4)).queryRow c 0) (Num.valuesOf (Num.Fmt.ofCode (Me.fe c)) none
          (Num.unpackCodes (Num.Fmt.ofCode (Me.fe c)) (Me.dim c) (s.ram.readN ph n)))).1 4 ∧
      (∀ a, a < ph' ∨ ph' + 4 ≤ a → t.ram.read a = s.ram.read a) ∧
      (t.me ((q - 128) / 4)).arrayCycles =
        BitVec.ofNat 64 (satAdd (2 ^ 64 - 1) (s.me ((q - 128) / 4)).arrayCycles.toNat (arrayCycles c)) := by
  have writes : Me.writeScores c = true := by
    have asked := firstFault_none hc (Me.toTopk c || Me.writeScores c, 3, 54) (by simp)
    simpa [ht] using asked
  have written : s.meWrites ((q - 128) / 4) c = 4 := by
    unfold State.meWrites
    rw [ho]
    show (if Me.writeScores c = true then 4 * Me.q c * Me.n c else 0) = 4
    rw [if_pos writes, hn, hq1]
  have plain : s.strictPart (cf c 24 8) (s.meWrites ((q - 128) / 4) c) = none := by rw [written]; exact strictPart_writable hd
  obtain ⟨l, done⟩ := issueWith_done h fun s => s.scoreCmd q c
  let u : State := { headLeft s q { tok := s.issued, idx := idx, cmd := c, since := s.now } with lastIssued := l }
  let cycles : DWord := BitVec.ofNat 64 (satAdd (2 ^ 64 - 1) (s.me ((q - 128) / 4)).arrayCycles.toNat (arrayCycles c))
  let v : State := u.setMe ((q - 128) / 4) { s.me ((q - 128) / 4) with arrayCycles := cycles }
  let score : Nat := (Num.dot (decide (Me.fe c ≤ 2)) (Num.Fmt.ofCode 0xB) (Me.numctl c) ((s.me ((q - 128) / 4)).queryRow c 0)
    (Num.valuesOf (Num.Fmt.ofCode (Me.fe c)) none (Num.unpackCodes (Num.Fmt.ofCode (Me.fe c)) (Me.dim c) (s.ram.readN ph n)))).1
  obtain ⟨k, counts, scored⟩ := scoreRows_one (u := v) (q := q) ((s.me ((q - 128) / 4)).queryRow c 0) hlen hs ht
  let d := computeDone counts (u.breached .me ((q - 128) / 4) false (cf c 16 8) (matrixLen (Me.fe c) (cf c 16 8) (Me.n c) (Me.dim c)) ||
    (Me.writeScores c && u.breached .me ((q - 128) / 4) true (cf c 24 8) (4 * Me.q c * Me.n c)))
  have bytes : scoreBytes (Me.q c) [[score]] = leBytes score 4 := by rw [hq1]; simp [scoreBytes]
  obtain ⟨m, stored⟩ := State.storeResult_ok (s := v.modCtrl k (·.touch (ph / 2048 * 2048))) (q := q) (length_leBytes score 4)
    (hd : Writable v (cf c 24 8) 4 ph') d
  have batch : Tab.find (u.me ((q - 128) / 4)).batches (Me.sqoff c) = some (Me.q c, Me.dim c) := by rw [hq1]; exact hb
  have rows : List.range (Me.n c) = [0] := by rw [hn]; rfl
  have rowsOf : (List.range (Me.q c)).map ((u.me ((q - 128) / 4)).queryRow c) = [(s.me ((q - 128) / 4)).queryRow c 0] := by
    rw [hq1]; rfl
  have ran : u.scoreCmd q c = ((v.modCtrl k (·.touch (ph / 2048 * 2048))).withBytes ph' (leBytes score 4) m, d) := by
    unfold State.scoreCmd
    dsimp only
    rw [if_pos batch, if_neg hf]
    dsimp only
    have still : u.onlyIf (none : Option Nat).isSome (·.drawn) = u := rfl
    rw [still, if_neg hf, rows, rowsOf]
    erw [scored]
    dsimp only
    rw [if_pos writes]
    exact (congrArg (fun bs => (v.modCtrl k (·.touch (ph / 2048 * 2048))).storeResult q (cf c 24 8) bs d) bytes).trans stored
  refine ⟨_, exec_atHead rfl (decide_eq_true (by omega)) h ho hc, ?_⟩
  rw [State.issueMe_runs idx _ plain hr hw, done _ _ ran ⟨rfl, rfl⟩ (computeDone_success _ _)]
  refine ⟨?_, fun a ha => Mem.read_writeN_other _ s.ram ph' a hwf (by rw [length_leBytes]; omega), ?_⟩
  · have readBack := Mem.readN_writeN (leBytes score 4) s.ram ph' hwf
    rw [length_leBytes] at readBack
    exact readBack
  · exact congrArg MatrixEngine.arrayCycles (State.me_setMe_self u _ _)

/-- R265, R266: the scales that a conversion without scales writes: none. -/
theorem quantOut_noScales {bs : List Byte} (hout : Qc.outScaled c = false) :
    (quantOut c bs).1.2 = [] := by
  unfold quantOut
  dsimp only
  split
  · next h =>
    have plain : Qc.scaled c = false := by simpa [Qc.outScaled, h] using hout
    rw [plain]
    rfl
  · rfl

/-- R265, R266: QUANT and DEQUANT of unscaled elements. -/
theorem quant_answers {i : Instr} {out : (List Byte × List Byte) × Num.Counts} (hq : 128 ≤ q ∧ q < 192) (h : AtHead s q idx c)
    (hr : s.meReady ((q - 128) / 4) c = true)
    (hw : s.winsUnit (16 + (q - 128) / 4) q c (fun _ c => s.meReady ((q - 128) / 4) c) = true)
    (hi : i = .quant q ∧ opcodeOf c = 0x53 ∨ i = .dequant q ∧ opcodeOf c = 0x54) (hc : quantCheck s c = none)
    (hin : Qc.inScaled c = false) (hout : Qc.outScaled c = false)
    (hn : n = Num.packedLen (Num.Fmt.ofCode (Qc.fin c)) (Qc.count c)) (ho : out = quantOut c (s.ram.readN ph n))
    (hs : Readable s (cf c 16 8) n ph) (hd : Writable s (cf c 24 8) out.1.1.length ph') (hwf : s.ram.wf = true)
    (hstrict : s.quantStrict c = none) : Answers i s fun t =>
      t.ram.readN ph' out.1.1.length = out.1.1 ∧ ∀ a, a < ph' ∨ ph' + out.1.1.length ≤ a → t.ram.read a = s.ram.read a := by
  have ran0 : Machine.exec i s = .next (s.issueQuant q idx c) := by
    obtain ⟨rfl, op⟩ | ⟨rfl, op⟩ := hi
    · exact exec_atHead (i := .quant q) rfl (decide_eq_true (by omega)) h op hc
    · exact exec_atHead (i := .dequant q) rfl (decide_eq_true (by omega)) h op hc
  have noScales : out.1.2 = [] := ho ▸ quantOut_noScales hout
  obtain ⟨l, done⟩ := issueWith_done h fun s => s.quantCmd q c
  let u : State := { headLeft s q { tok := s.issued, idx := idx, cmd := c, since := s.now } with lastIssued := l }
  have len : elemLen (Qc.fin c) (cf c 16 8) (Qc.count c) (Qc.inScaled c) = n := by rw [hin, hn]; rfl
  obtain ⟨k, loaded⟩ := load_readable (s := u) hs
  let breach : Bool := u.breached (Consumer.me, (q - 128) / 4).1 (Consumer.me, (q - 128) / 4).2 false (cf c 16 8) n ||
    u.breached (Consumer.me, (q - 128) / 4).1 (Consumer.me, (q - 128) / 4).2 true (cf c 24 8)
      (elemLen (Qc.fout c) (cf c 24 8) (Qc.count c) (Qc.outScaled c))
  obtain ⟨m, stored⟩ := State.storeResult_ok (s := u.modCtrl k (·.touch (ph / 2048 * 2048))) (q := q) rfl
    (hd : Writable u (cf c 24 8) out.1.1.length ph') (computeDone out.2 breach)
  have ran : u.quantCmd q c = ((u.modCtrl k (·.touch (ph / 2048 * 2048))).withBytes ph' out.1.1 m, computeDone out.2 breach) := by
    have data : quantOut c (u.ram.readN ph n) = out := ho.symm
    unfold State.quantCmd
    dsimp only
    rw [len, loaded, if_neg (by omega)]
    dsimp only
    rw [data, stored, noScales]
    simp
  refine ⟨_, ran0, ?_⟩
  have issued : s.issueQuant q idx c = s.issueWith q idx c fun s => s.quantCmd q c := by
    unfold State.issueQuant
    rw [hstrict]
    dsimp only
    rw [if_neg (by omega : ¬ q < 128), hr, hw]
    rfl
  rw [issued, done _ _ ran ⟨rfl, rfl⟩ (computeDone_success _ _)]
  exact ⟨Mem.readN_writeN out.1.1 s.ram ph' hwf, fun a ha => Mem.read_writeN_other _ s.ram ph' a hwf (by omega)⟩

end ComputeAtHead

/-- A delivery to a core leaves queues and memory as they were. -/
theorem deliver_kept (cl : Nat) (c : BitVec 512) (k : Nat) (s : State) :
    ((s.deliver cl c k).queues, (s.deliver cl c k).ram, (s.deliver cl c k).mem) = (s.queues, s.ram, s.mem) := by
  obtain ⟨cs, u, delivered, hu⟩ := s.deliver_eq cl c k
  rw [delivered]
  obtain rfl | rfl := hu <;> rfl

/-- R267, R362: LAUNCH on cores that are idle. -/
theorem launch_answers {s : State} {q cl : Nat} {idx : Word} {c : BitVec 512} (hq : 208 ≤ q ∧ q < 240) (hcl : cl = (q - 208) / 4)
    (h : AtHead s q idx c) (ho : opcodeOf c = 0x55) (hc : launchCheck cl s c = none) (ht : s.unitTakes (32 + cl) = true)
    (hi : ∀ k, k < 8 → bitAt (cf c 40 1) k = true → (s.core cl k).state = .idle)
    (hw : s.winsUnit (32 + cl) q c
      (fun _ c => s.unitTakes (32 + cl) && (coresOf (cf c 40 1)).all fun k => (s.core cl k).state == .idle) = true) :
    Answers (.launch q) s fun t =>
      (∀ k, k < 8 → bitAt (cf c 40 1) k = true → t.core cl k = (s.core cl k).launched c) ∧
      (∀ k, bitAt (cf c 40 1) k = false → t.core cl k = s.core cl k) ∧ (∀ x, x ≠ cl → t.cl x = s.cl x) ∧
      (t.cl cl).launches = (s.cl cl).launches ++ [{ queue := q, tok := s.issued, mask := cf c 40 1 }] ∧
      t.queue q = (headLeft s q { tok := s.issued, idx := idx, cmd := c, since := s.now }).queue q ∧ t.ram = s.ram ∧
      t.mem = s.mem := by
  have idle : (coresOf (cf c 40 1)).all (fun k => (s.core cl k).state == .idle) = true :=
    List.all_eq_true.mpr fun k hk => by simpa using hi k (mem_coresOf.mp hk).1 (mem_coresOf.mp hk).2
  obtain ⟨l, issued⟩ := issue_any s q idx c none
  let u : State := { headLeft s q { tok := s.issued, idx := idx, cmd := c, since := s.now } with lastIssued := l }
  let v : State := forEach (coresOf (cf c 40 1)) (fun k st => st.deliver cl c k) u
  have ran : s.issueLaunch q idx c = v.setCl cl { v.cl cl with
      launches := (v.cl cl).launches ++ [{ queue := q, tok := s.issued, mask := cf c 40 1 }] } := by
    unfold State.issueLaunch
    dsimp only
    rw [← hcl]
    refine (if_pos ?_).trans ?_
    · exact Bool.and_eq_true_iff.mpr ⟨Bool.and_eq_true_iff.mpr ⟨ht, idle⟩, hw⟩
    · rw [issued]
  have cores (k : Nat) : v.core cl k = if k ∈ coresOf (cf c 40 1) then (s.core cl k).launched c else s.core cl k :=
    (walks_deliver cl c).cores (nodup_coresOf _) u k
  obtain ⟨others, frame⟩ := (walks_deliver cl c).others (coresOf (cf c 40 1)) u
  have kept : (v.queues, v.ram, v.mem) = (u.queues, u.ram, u.mem) :=
    foldl_keeps (fun w : State => (w.queues, w.ram, w.mem)) _ (fun w k => deliver_kept cl c k w) _ u
  obtain ⟨queues, ram, mem⟩ : v.queues = u.queues ∧ v.ram = u.ram ∧ v.mem = u.mem := by simpa using kept
  have after (k : Nat) : (v.setCl cl { v.cl cl with
      launches := (v.cl cl).launches ++ [{ queue := q, tok := s.issued, mask := cf c 40 1 }] }).core cl k = v.core cl k := by
    rw [State.core, State.cl_setCl_self]
    rfl
  refine ⟨_, exec_atHead rfl (decide_eq_true (by omega)) h ho (hcl ▸ hc), ?_⟩
  rw [ran]
  refine ⟨fun k hk hb => ?_, fun k hb => ?_, fun x hx => ?_, ?_, State.queue_of_queues queues q, ram, mem⟩
  · rw [after, cores, if_pos (mem_coresOf.mpr ⟨hk, hb⟩)]
  · rw [after, cores, if_neg fun hk => by simp [(mem_coresOf.mp hk).2] at hb]
  · rw [State.cl_setCl_ne _ _ hx]
    exact others x hx
  · rw [State.cl_setCl_self]
    have before : (v.cl cl).launches = (s.cl cl).launches := (congrArg Cluster.launches frame :)
    exact congrArg (· ++ [_]) before

/-- R367: the cores of a LAUNCH whose TIMEOUT has expired are reset, and the LAUNCH is no longer open in its cluster. -/
theorem stripCommand_launch {s : State} {q cl : Nat} {x : Inflight} (hcl : cl = (q - 208) / 4) (ho : opcodeOf x.cmd = 0x55)
    (hch : x.chan = none) (hl : (s.cl cl).launches = [{ queue := q, tok := x.tok, mask := cf x.cmd 40 1 }]) :
    (∀ k, k < 8 → (s.stripCommand q x).core cl k = (s.core cl k).killed (bitAt (cf x.cmd 40 1) k)) ∧
      (∀ k, bitAt (cf x.cmd 40 1) k = false → (s.stripCommand q x).core cl k = s.core cl k) ∧
      ((s.stripCommand q x).cl cl).launches = [] ∧ (s.stripCommand q x).queues = s.queues ∧
      (s.stripCommand q x).finished = s.finished ∧ (s.stripCommand q x).ram = s.ram := by
  let v : State := s.killCores cl fun k => bitAt (cf x.cmd 40 1) k
  have stripped : s.stripCommand q x = v.setCl cl { v.cl cl with
      launches := (v.cl cl).launches.filter fun l => !(l.queue == q && l.tok == x.tok) } := by
    unfold State.stripCommand
    rw [hch, ho, if_neg (by omega), if_pos rfl, ← hcl]
  have walk := walks_kill cl fun k => bitAt (cf x.cmd 40 1) k
  have cores (k : Nat) : v.core cl k = if k ∈ List.range 8 then (s.core cl k).killed (bitAt (cf x.cmd 40 1) k) else s.core cl k :=
    walk.cores List.nodup_range s k
  have frame : (v.cl cl).frame = (s.cl cl).frame := (walk.others (List.range 8) s).2
  have launches : (v.cl cl).launches = (s.cl cl).launches := (congrArg Cluster.launches frame :)
  have after (k : Nat) : (s.stripCommand q x).core cl k = v.core cl k := by
    rw [stripped, State.core, State.cl_setCl_self]
    rfl
  refine ⟨fun k hk => ?_, fun k hb => ?_, ?_, ?_, ?_, ?_⟩
  · rw [after, cores, if_pos (List.mem_range.mpr hk)]
  · rw [after, cores, hb]
    simp [Core.killed]
  · rw [stripped, State.cl_setCl_self]
    show (v.cl cl).launches.filter _ = []
    rw [launches, hl]
    simp
  all_goals rw [stripped]; simp [v, State.setCl]

/-- R367: LAUNCH_TIMEOUT of the only command in flight. -/
theorem launchTimeout_answers {s : State} {q cl : Nat} {x : Inflight} (hq : 208 ≤ q ∧ q < 240) (hcl : cl = (q - 208) / 4)
    (hlive : s.live = true) (hx : (s.queue q).inflight = [x]) (ho : opcodeOf x.cmd = 0x55) (hn : x.done = none) (hch : x.chan = none)
    (hquiet : quietOf x.cmd = false) (hp : (s.queue q).errContinue = true) (hz : cf x.cmd 44 4 ≠ 0)
    (hdue : x.since + cf x.cmd 44 4 ≤ s.now) (hl : (s.cl cl).launches = [{ queue := q, tok := x.tok, mask := cf x.cmd 40 1 }]) :
    Answers (.launchTimeout q x.idx) s fun t =>
      (∀ k, k < 8 → (s.core cl k).state = .busy → bitAt (cf x.cmd 40 1) k = true → t.core cl k = {}) ∧
      (∀ k, bitAt (cf x.cmd 40 1) k = false → t.core cl k = s.core cl k) ∧ (t.cl cl).launches = [] ∧
      (t.queue q).inflight = [{ x with done := some { status := 0x31, detail := 0xFFFFFFFE, order := s.finished } }] ∧
      t.ram = s.ram := by
  obtain ⟨killed, others, launches, queues, finished, ram⟩ := stripCommand_launch hcl ho hch hl
  have same : (s.stripCommand q x).queue q = s.queue q := State.queue_of_queues queues q
  let d : Done := { status := St.timeout, detail := noObject }
  have ended := finish_only (s := s.stripCommand q x) (d := d) (same ▸ hx) hn (rec_ok x.cmd d hquiet)
  have policy : (({ (s.stripCommand q x).setQueue q { (s.stripCommand q x).queue q with
      inflight := [{ x with done := some { d with order := (s.stripCommand q x).finished } }], progress := true } with
    finished := (s.stripCommand q x).finished + 1 } : State).queue q).errContinue = true :=
    (congrArg Queue.errContinue (State.queue_setQueue_self _ q _)).trans (same ▸ hp)
  rw [failPolicy_continue _ _ policy] at ended
  obtain ⟨ts, but⟩ := eventU_writes ((s.stripCommand q x).finish q x.tok d) Det.cmdTimeout (.queue q) (some (64 + q)) 0 []
  have raised : s.launchTimeout q x = (((s.stripCommand q x).finish q x.tok d).eventU Det.cmdTimeout (.queue q) (some (64 + q)) 0 []).1 :=
    raise_eq_eventU 0 [] fun t ht => by cases ht; omega
  have found : (s.queue q).inflight.find? (fun y => y.idx == x.idx && opcodeOf y.cmd == 0x55 && y.done.isNone) = some x := by
    simp [hx, ho, hn]
  have ran : Machine.exec (.launchTimeout q x.idx) s = .next (s.launchTimeout q x) := by
    refine exec_of rfl (decide_eq_true (by omega)) ?_
    rw [found]
    dsimp only
    rw [hlive, decide_eq_true hdue]
    simp [hz]
  refine ⟨_, ran, ?_⟩
  rw [raised]
  have core (k : Nat) := but.core_eq cl k
  have cluster := but.cl_eq cl
  have queue := but.queue_eq q
  have bytes := but.ram
  rw [ended] at core cluster queue bytes ⊢
  refine ⟨fun k hk hb hm => ?_, fun k hb => (core k).trans (others k hb), (congrArg Cluster.launches cluster).trans launches, ?_,
    bytes.trans ram⟩
  · refine (core k).trans ((killed k hk).trans ?_)
    simp [Core.killed, hm, hb]
  · rw [queue]
    refine (congrArg Queue.inflight (State.queue_setQueue_self _ q _)).trans ?_
    rw [finished]
    rfl

/-- Settles O38: what each command does at its queue's head. That a command of an ME acts whole as it issues is log entry 144 (the batch
of SCORE: entry 147; CL_KILL for each core that a timeout resets: entry 153). -/
theorem computeGroup : Obligations.ComputeGroup := by
  refine ⟨fun s q m ph n idx c h1 h2 hm h hr hw => ?_, fun s q cl idx c h1 h2 hcl h ho hc ht hi hw => ?_,
    fun s q cl x h1 h2 hcl hlive hx ho hn hch hquiet hp hz hdue hl =>
      launchTimeout_answers ⟨h1, h2⟩ hcl hlive hx ho hn hch hquiet hp hz hdue hl⟩
  · subst hm
    refine ⟨fun ho hc hf ha hn hs => ?_, fun ho hc hm => topk_arm_answers ⟨h1, h2⟩ h ho hc hr hw hm,
      fun ho hc hm ph' hs hd hwf => topk_select_answers ⟨h1, h2⟩ h ho hc hr hw hm hs hd hwf,
      fun ho hc hn hq1 hf ht hb ph' hlen hs hd hwf => score_one_answers ⟨h1, h2⟩ h ho hc hr hw hn hq1 hf ht hb hlen hs hd hwf,
      fun i out ph' hi hc hin hout hn ho hs hd hwf hstrict => quant_answers ⟨h1, h2⟩ h hr hw hi hc hin hout hn ho hs hd hwf hstrict⟩
    obtain ⟨t, ran, me, others, ram, inflight⟩ := loadq_answers ⟨h1, h2⟩ h ho hc hr hw hf ha hn hs
    have len : (s.ram.readN ph n).length = n := length_readN _ _ _
    refine ⟨t, ran, ?_, fun a ha => ?_, by rw [me], others, ram, inflight⟩
    · rw [me]
      refine Eq.trans ?_ (MatrixEngine.read_write (s.me ((q - 128) / 4)) (Me.qoff c) (s.ram.readN ph n))
      rw [len]
      rfl
    · rw [me]
      exact MatrixEngine.byte_write_other _ (by rw [len]; exact ha)
  · exact launch_answers ⟨h1, h2⟩ hcl h ho hc ht hi hw

end Sys2Proof
end

section
/-!
O8 ResetMemoryIsCanonical, O9 ResetValues, O10 StepRunsFrontCommand, O11 EmptyQueueTicks, O15 HoldoverBegins, O16 TactusInputs,
O17 MemberStepsOut.
-/
namespace Sys2Proof
open Sys2Proof.Machine

/-- Settles O8: no byte is listed after reset, and an unlisted byte reads 0. That the fill of R159 is the state right after reset is the
model's choice (log entries 10 and 11). -/
theorem resetMemoryIsCanonical : Obligations.ResetMemoryIsCanonical := ⟨rfl, fun _ => rfl⟩

/-- Settles O9: the tables of the state after reset are empty, so that each object reads as its default. -/
theorem resetValues : Obligations.ResetValues :=
  ⟨rfl, rfl, rfl, rfl, rfl, rfl, rfl, rfl, fun _ => ⟨rfl, rfl⟩, fun _ => rfl, fun _ => rfl, fun _ => rfl, fun _ => rfl, fun _ => ⟨rfl, rfl⟩,
    fun _ => rfl⟩

/-- Settles O10: the step takes the front command off the queue and runs it on the rest. -/
theorem stepRunsFrontCommand : Obligations.StepRunsFrontCommand := fun _ _ => rfl

/-- R508: the mailbox as it answers. -/
def mboxAnswered (s : State) (r : Answer) (out : List Byte) : State :=
  { s with mgmt.buffer := s.mgmt.buffer.writeN 0 out, mgmt.result := r.1, mgmt.detail := r.2, mgmt.busy := false }

theorem mboxDone_but (s : State) (r : Answer) (out : List Byte) : ButReports (mboxAnswered s r out) (s.mboxDone r out) := by
  unfold State.mboxDone
  dsimp only
  split
  · rw [butReports_fire]
    exact ButReports.rfl' _
  · exact ButReports.rfl' _

theorem flashDone_kept (s : State) (w : FlashWrite) (failed : Option Nat) : (s.flashDone w failed).now = s.now ∧
    (s.flashDone w failed).tact = s.tact ∧ (s.flashDone w failed).queues = s.queues ∧ (s.flashDone w failed).ports = s.ports := by
  unfold State.flashDone
  (repeat' split) <;> simp [(mboxDone_but _ _ _).now, (mboxDone_but _ _ _).tact, (mboxDone_but _ _ _).queues, (mboxDone_but _ _ _).ports,
    mboxAnswered]

/-- What the step of a flash write leaves. -/
theorem flashStep_kept (s : State) : s.flashStep.now = s.now ∧ s.flashStep.tact = s.tact ∧ s.flashStep.queues = s.queues ∧
    s.flashStep.ports = s.ports := by
  unfold State.flashStep
  (repeat' split) <;> simp [flashDone_kept]

theorem elapse_kept (s : State) (n : Nat) : (s.elapse n).now = s.now + n ∧ (s.elapse n).tact = s.tact ∧ (s.elapse n).queues = s.queues ∧
    (s.elapse n).ports = s.ports := by
  unfold State.elapse State.dlBeats
  split <;> simp [State.countStalls]

/-- Settles O11: one beat passes; the stamp holds at beat 4,095 until DOWNBEAT (log entry 1). -/
theorem emptyQueueTicks : Obligations.EmptyQueueTicks := by
  intro s hp
  obtain ⟨now, tact, queues, ports⟩ := flashStep_kept
    { s.elapse 1 with tact.stamp := if s.beat = 4095 then s.tact.stamp else s.tact.stamp + 1 }
  obtain ⟨now', tact', queues', ports'⟩ := elapse_kept s 1
  have stepped : Machine.step s = .next s.tick := by
    unfold Machine.step
    rw [hp]
  refine ⟨s.tick, stepped, now.trans now', (State.tick_keeps s).1.trans hp, (State.tick_keeps s).2, congrArg Tactus.stamp tact,
    queues.trans queues', ports.trans ports'⟩

/-- R46: a LOCKED engine that enters HOLDOVER at once. -/
def heldOver (s : State) : State :=
  { s with tact.state := .holdover, tact.holdSince := s.now, tact.holdMeasures := 0, tact.qualified := 0, tact.refGood := 0
           tact.limitReached := false, tact.echoSince := false, tact.frames := [] }

theorem enterHoldover_locked {s : State} (hl : s.tact.state = .locked) (hm : ¬ (s.tact.mode = .carried ∧ s.tact.refLost = true)) :
    s.enterHoldover = ((heldOver s).count Cnt.holdover).eventC Det.holdoverEntry .member := by
  unfold State.enterHoldover
  rw [hl]
  exact if_neg hm

theorem enterHoldover_but {s : State} (hl : s.tact.state = .locked) (hm : ¬ (s.tact.mode = .carried ∧ s.tact.refLost = true)) :
    ButReports (heldOver s) s.enterHoldover ∧ s.enterHoldover.counter Cnt.holdover = risen (s.counter Cnt.holdover) 1 ∧
      s.enterHoldover.counter (Cnt.det Det.holdoverEntry) = risen (s.counter (Cnt.det Det.holdoverEntry)) 1 := by
  rw [enterHoldover_locked hl hm]
  refine ⟨by simp, ?_, ?_⟩
  · rw [counter_eventC_other _ _ _ _ _ _ (by decide), counter_count_self]
    rfl
  · rw [counter_eventC_self _ Det.holdoverEntry _ _ _ (by decide) (by decide), counter_count_ne _ (by decide)]
    rfl

/-- Settles O15. The pulses are missed from the second measure without one on (Table TAC-8). -/
theorem holdoverBegins : Obligations.HoldoverBegins := by
  have enters {s : State} (hl : s.tact.state = .locked) (hm : ¬ (s.tact.mode = .carried ∧ s.tact.refLost = true)) :
      s.enterHoldover.tact.state = .holdover ∧ s.enterHoldover.tact.stamp = s.tact.stamp ∧ s.enterHoldover.ports = s.ports ∧
        s.enterHoldover.score = s.score := by
    obtain ⟨but, -, -⟩ := enterHoldover_but hl hm
    exact ⟨congrArg Tactus.state but.tact, (congrArg Tactus.stamp but.tact :), but.ports, but.score⟩
  refine ⟨fun s hm => ?_, fun s hm hl => ?_, fun s hm hl hr => ?_, fun s hm hp hl => ?_⟩
  · refine exec_of rfl rfl ?_
    obtain hm | hm := hm <;> simp [hm]
  · let u : State := { s with tact.refLost := true, tact.refBad := true, tact.refGood := 0 }
    have notCarried : ¬ (u.tact.mode = .carried ∧ u.tact.refLost = true) := by
      obtain hm | hm := hm <;> simp [u, hm]
    refine ⟨u.enterHoldover, exec_of rfl rfl ?_, enterHoldover_but (s := u) hl notCarried⟩
    obtain hm | hm := hm <;> simp [hm, u]
  · exact ⟨s.enterHoldover, exec_of rfl rfl (if_pos hm), enters hl (by simp [hr])⟩
  · exact ⟨s.enterHoldover, exec_of rfl rfl (if_pos ⟨hm, hp⟩), enters hl (by simp [hm])⟩

/-- Settles O16. -/
theorem tactusInputs : Obligations.TactusInputs := by
  refine ⟨fun s phase hm hl => ?_, fun s offset phase hm hl ho => ?_, fun s f hf hm hl ha => ?_, fun s f hf hm hl ha => ?_,
    fun s v hv hl => ?_, fun s e v hv hl => ?_⟩
  · refine ⟨{ s.pulseAt phase true with tact.displacedRun := 0, tact.pulseMissing := 0 }, exec_of rfl rfl ?_, rfl, rfl, rfl, rfl, rfl, rfl⟩
    obtain hl | hl := hl <;> rw [hm, hl] <;> rfl
  · refine ⟨s.slip offset, exec_of rfl rfl ?_, ?_⟩
    · obtain hl | hl := hl <;> rw [hm, hl] <;> exact if_neg ho
    have tact : (s.slip offset).tact = { s.tact with
        displaced := twos offset 12
        displacedRun := if s.tact.displacedRun = 0 ∨ s.tact.displaced ≠ twos offset 12 then 1 else s.tact.displacedRun + 1
        pulseThisMeasure := true, pulseMissing := 0, frames := [] } := by simp [State.slip]
    refine ⟨by rw [tact], by rw [tact], ?_, by rw [tact]; simp [State.slip]⟩
    rw [State.slip]
    dsimp only
    rw [counter_eventC_other _ _ _ _ _ _ (by decide), counter_count_self]
    rfl
  · have untimed : s.timed = false := by rw [State.timed, hl]
    refine ⟨s.frameIn f, exec_of rfl hf (by rw [hm, hl]; exact if_pos ha), ?_⟩
    unfold State.frameIn
    simp [untimed, hl]
  · let u : State := { s with tact.frames := [], tact.frameThisMeasure := true, tact.disagree := 0 }
    refine ⟨(u.count Cnt.tcBad).eventC Det.tcBad .member, exec_of rfl hf ?_, by simp [u], ?_⟩
    · obtain hl | hl | hl := hl <;> rw [hm, hl] <;> exact if_neg (by simp [ha])
    · rw [counter_eventC_other _ _ _ _ _ _ (by decide), counter_count_self]
      rfl
  · refine exec_of rfl rfl ?_
    rw [State.whenLive, hv, State.writeTact]
    obtain hl | hl := hl <;> rw [hl] <;> rfl
  · refine ⟨s.tactRefuse, exec_of rfl rfl ?_, reported_eventC _ Det.ctrlRefused _ _ _ (by decide) (by decide)⟩
    rw [State.whenLive, hv, State.writeTact]
    obtain hl | hl | hl := hl <;> rw [hl] <;> rfl

/-- R50: what a member that leaves the chorus has of its Tactus, its score and its graft. -/
theorem leaveChorus_leaves {s : State} (h : s.timed = true) : s.leaveChorus.tact.state = .steppedOut ∧ s.leaveChorus.score.member = false ∧
    s.leaveChorus.score.target = none ∧ s.leaveChorus.score.standby = s.score.standby ∧ s.leaveChorus.graft.locked = false := by
  unfold State.leaveChorus
  unfold State.timed at h
  split
  · next e => simp [e] at h
  · next e => simp [e] at h
  all_goals simp [Graft.unlock]

/-- Table TAC-11: the event that makes a member step out, where it has its reaction. -/
theorem stepOut_leaves {s : State} {det : Nat} (detail : Nat) (h : s.timed = true) (hr : Reacts s det .member 48) :
    (s.stepOut det detail).tact.state = .steppedOut ∧ (s.stepOut det detail).score.member = false ∧
    (s.stepOut det detail).score.target = none ∧ (s.stepOut det detail).score.standby = s.score.standby ∧
    (s.stepOut det detail).graft.locked = false := by
  have raised : s.stepOut det detail = ((containedBy s det 48).logU det .member (some 48) detail false 0x01#6).leaveChorus := by
    have unfolded := raise_reacts s det .member 48 detail State.leaveChorus hr
    unfold State.stepOut
    unfold State.timed at h
    split
    · next e => simp [e] at h
    · next e => simp [e] at h
    all_goals exact unfolded
  have timed : ((containedBy s det 48).logU det .member (some 48) detail false 0x01#6).timed = true := by
    have same : ((containedBy s det 48).logU det .member (some 48) detail false 0x01#6).tact = s.tact := by simp [containedBy]
    rw [State.timed, same]
    exact h
  have standby : ((containedBy s det 48).logU det .member (some 48) detail false 0x01#6).score = s.score := by simp [containedBy]
  rw [raised, ← standby]
  exact leaveChorus_leaves timed

/-- Settles O17. -/
theorem memberStepsOut : Obligations.MemberStepsOut := by
  refine ⟨fun s ht hd hr => ?_, fun s hh hl hr => ?_⟩
  · exact ⟨_, exec_of rfl rfl (if_pos ⟨ht, hd⟩), stepOut_leaves _ ht hr⟩
  · exact ⟨_, exec_of rfl rfl (if_pos ⟨hh, hl⟩), stepOut_leaves _ (by rw [State.timed, hh]) hr⟩

end Sys2Proof
end

section
/-!
O23 PowerAndTemperature, O28 FlitsFollowTheCycleTables.
-/
namespace Sys2Proof
open Sys2Proof.Machine

/-- R522: the duties as a hold begins. -/
theorem holdTj_begins {s : State} (h : s.power.tjHold = false) : s.holdTj =
    ({ s with power := { s.power.floor with tjHold := true, coolRun := 0 } } : State).eventC Det.tjMax .engine := by
  rw [State.holdTj, h]
  rfl

/-- R438: a class-U event of no target writes reports only. -/
theorem raise_untargeted (s : State) (det : Nat) (unit : UnitId) (detail : Nat) : ButReports s (s.raise det unit none detail) := by
  rw [raise_eq_eventU detail [] (by simp)]
  unfold State.eventU
  split
  · simp
  · simp

/-- Settles O23: POWER_OVER is raised for each sample above 690 W and TJ_MAX when the hold begins (log entry 215); a failed sensor reads as
105 °C (log entry 216). -/
theorem powerAndTemperature : Obligations.PowerAndTemperature := by
  refine ⟨fun s w hl hw => ?_, fun s w hl hw hc => ?_, fun s x hl hx hh => ?_, fun s x hl hx hf => ?_, fun s x hp hx => ?_,
    fun s i hi hl hf hh => ?_, fun s r hr hv => ?_⟩
  · exact exec_of rfl rfl ((if_pos hl).trans (if_neg (Nat.not_lt.mpr hw)))
  · refine ⟨_, exec_of rfl rfl ((if_pos hl).trans (if_pos hw)), ?_⟩
    dsimp only
    rw [hc]
    exact reported_eventC _ Det.powerOver _ _ _ (by decide) (by decide)
  · refine ⟨_, exec_of rfl rfl ((if_pos hl).trans ((if_pos hx).trans (holdTj_begins hh))), ?_⟩
    exact reported_eventC _ Det.tjMax _ _ _ (by decide) (by decide)
  · refine exec_of rfl rfl ((if_pos hl).trans ((if_neg (by omega)).trans (if_pos ⟨hx, ?_⟩)))
    rw [hf]
    rfl
  · exact exec_of rfl rfl (if_pos ⟨by simp [hp], hx⟩)
  · let u : State := { s with power.failed := insertAsc i s.power.failed }
    have but : ButReports u (u.raise Det.sensorFail .engine none i) := raise_untargeted u _ _ _
    have hold : (u.raise Det.sensorFail .engine none i).power.tjHold = false := (congrArg Power.tjHold but.power).trans hh
    have fresh : (s.live && !s.power.failed.contains i) = true := by simp [hl, hf]
    refine ⟨_, exec_of rfl (decide_eq_true hi) ((if_pos fresh).trans (holdTj_begins hold)), ?_⟩
    refine (butReports_eventC _ _ _ _ _ _).mpr ?_
    exact but.map (fun v : State => { v with power := { v.power.floor with tjHold := true, coolRun := 0 } }) rfl
  · exact ⟨_, exec_of rfl (decide_eq_true hr) (if_pos hv), reported_eventC _ Det.railWarn _ _ _ (by decide) (by decide)⟩

/-! ### Flits -/

/-- R111: a flit whose output the cycle table names has an output that names it. -/
theorem named_of_outputs {r e : Nat} {l o : Link} (h : outputsFor r e l = [o]) :
    Link.all.filter (fun o => outField e o == l.code) = [o] := by
  unfold outputsFor at h
  dsimp only at h
  split at h
  · exact nomatch h
  · exact h

/-- R111: a clean flit that is sent one way. -/
theorem hop_driven {s : State} {r cycle : Nat} {l o : Link} {f : Flit} {m : Mem} (via : List Nat) (hm : s.img = some m)
    (ho : outputsFor r (Img.entryAt m r s.beat cycle) l = [o]) : s.hop r l f cycle .clean via = s.drive r f o via := by
  unfold State.hop
  dsimp only [State.secded]
  rw [hm, Option.map_some, Option.getD_some, named_of_outputs ho, ho]
  rfl

/-- R122: without an image a clean flit is dropped. -/
theorem hop_without_image {s : State} {r cycle : Nat} {l : Link} {f : Flit} (via : List Nat) (hm : s.img = none) :
    s.hop r l f cycle .clean via = s.dropFlit r via := by
  have unnamed : Link.all.filter (fun o => outField 0 o == l.code) = [] := by cases l <;> rfl
  unfold State.hop
  dsimp only [State.secded]
  rw [hm, Option.map_none, Option.getD_none, unnamed]
  rfl

/-- R111: what takes a flit off a link. -/
theorem exec_flitHop {s : State} {r cycle : Nat} {l : Link} {f : Flit} (hr : r < 64) (hc : cycle < 20)
    (hf : s.esp.inflight.find? (fun x => x.1 == r && x.2.1 == l) = some (r, l, f)) :
    Machine.exec (.flitHop r l none cycle .clean) s =
      .next (({ s with esp.inflight := s.esp.inflight.erase (r, l, f) } : State).hop r l f cycle .clean
        ((attachAt r l).bind Attach.target).toList) := by
  refine exec_of rfl (by simp [Instr.wf, okRouter, okFlit, hr, hc]) ?_
  dsimp only
  rw [hf]

theorem exec_flitHop_driven {s : State} {r cycle : Nat} {l o : Link} {f : Flit} {m : Mem} (hr : r < 64) (hc : cycle < 20)
    (hf : s.esp.inflight.find? (fun x => x.1 == r && x.2.1 == l) = some (r, l, f)) (hm : s.img = some m)
    (ho : outputsFor r (Img.entryAt m r s.beat cycle) l = [o]) : Machine.exec (.flitHop r l none cycle .clean) s =
      .next (({ s with esp.inflight := s.esp.inflight.erase (r, l, f) } : State).drive r f o
        ((attachAt r l).bind Attach.target).toList) := by
  let u : State := { s with esp.inflight := s.esp.inflight.erase (r, l, f) }
  have driven := hop_driven (s := u) (f := f) ((attachAt r l).bind Attach.target).toList hm ho
  exact (exec_flitHop hr hc hf).trans (congrArg _ driven)

/-- R117, R125: what a flit that has arrived is delivered to. -/
theorem exec_flitDeliver {s t : State} {r : Nat} {l : Link} {f : Flit} {u : Attach} (hr : r < 64) (ha : attachAt r l = some u)
    (hf : s.esp.arrived.find? (fun x => x.1 == r && x.2.1 == l) = some (r, l, f)) (hs : s.attachStopped u = false)
    (ht : (if !u.serves.contains f.kind then
        (({ s with esp.arrived := s.esp.arrived.erase (r, l, f) } : State).count Cnt.espMisroute).eventC Det.espMisroute .espalier r
          u.target.toList
      else if f.poison then ({ s with esp.arrived := s.esp.arrived.erase (r, l, f) } : State).poisonedFlit u f
      else { s with esp.arrived := s.esp.arrived.erase (r, l, f) }) = t) :
    Machine.exec (.flitDeliver r l .clean) s = .next t := by
  refine exec_of rfl (decide_eq_true hr) ?_
  rw [hf, ha]
  exact (if_neg (Bool.not_eq_true _ ▸ (hs : State.attachStopped _ u = false))).trans ht

/-- Settles O28: AGE grows by the latency of each hop (log entry 65). -/
theorem flitsFollowTheCycleTables : Obligations.FlitsFollowTheCycleTables := by
  refine ⟨fun s r cycle l f m o r' l' hr hc hf hm ho hn ha => ?_, fun s r cycle l f m o hr hc hf hm ho hn => ?_,
    fun s r cycle l f hr hc hf hm => ?_, fun s r l f u hr ha hf hs hk hp => ?_, fun s r l f u hr ha hf hs hk => ?_⟩
  · rw [exec_flitHop_driven hr hc hf hm ho]
    unfold State.drive
    dsimp only
    rw [hn]
    exact congrArg _ (if_neg (by omega))
  · rw [exec_flitHop_driven hr hc hf hm ho]
    unfold State.drive
    dsimp only
    rw [hn]
  · let u : State := { s with esp.inflight := s.esp.inflight.erase (r, l, f) }
    have dropped := hop_without_image (s := u) (cycle := cycle) (l := l) (f := f) (r := r) ((attachAt r l).bind Attach.target).toList hm
    refine ⟨_, (exec_flitHop hr hc hf).trans (congrArg _ dropped), ?_⟩
    exact reported_eventC _ Det.espDrop _ _ _ (by decide) (by decide)
  · refine exec_flitDeliver hr ha hf hs ?_
    rw [hk, hp]
    rfl
  · refine ⟨_, exec_flitDeliver hr ha hf hs rfl, ?_⟩
    rw [hk]
    exact reported_eventC _ Det.espMisroute _ _ _ (by decide) (by decide)

end Sys2Proof
end

section
/-!
O39 GraftMailbox.
-/
namespace Sys2Proof
open Sys2Proof.Machine

/-- Table GRF-2: the graft mailbox as it answers. -/
def graftAnswered (s : State) (result detail : Nat) : State :=
  { s with graft.result := result, graft.detail := detail, graft.mboxBusy := false }

theorem mboxEnd_but (s : State) (result detail : Nat) : ButReports (graftAnswered s result detail) (s.mboxEnd result detail) := by
  unfold State.mboxEnd
  rw [butReports_graftMsg]
  exact ButReports.rfl' _

/-- R327: a mailbox command that runs. -/
theorem mailbox_runs {s : State} (f : State → State) (hl : s.live = true) (hb : s.graft.mboxBusy = false) : s.mailbox f = f s := by
  rw [State.mailbox, hl, hb]
  rfl

/-- What a flood leaves: it writes send queues, sequence numbers and counters. -/
theorem flood_kept (s : State) (relayed : Bool) (except avoid : Option Nat) (c : Cue) :
    (s.flood relayed except avoid c).score = s.score ∧ (s.flood relayed except avoid c).graft = s.graft ∧
    (s.flood relayed except avoid c).tact = s.tact ∧ (s.flood relayed except avoid c).queues = s.queues ∧
    (s.flood relayed except avoid c).ce = s.ce ∧ (s.flood relayed except avoid c).sys = s.sys ∧
    (s.flood relayed except avoid c).fc = s.fc ∧ (s.flood relayed except avoid c).ports = s.ports := by
  have kept : (fun u : State => (u.score, u.graft, u.tact, u.queues, u.ce, u.sys, u.fc, u.ports)) (s.flood relayed except avoid c) =
      (s.score, s.graft, s.tact, s.queues, s.ce, s.sys, s.fc, s.ports) := by
    refine foldl_keeps (fun u : State => (u.score, u.graft, u.tact, u.queues, u.ce, u.sys, u.fc, u.ports)) _ (fun u ps => ?_) _ s
    dsimp only
    (repeat' split) <;> simp
  simpa using kept

/-- R334: a flood of the graft writes send queues and its own mark. -/
theorem graftFlood_kept (s : State) (typ : Nat) (body : List Byte) : (s.graftFlood typ body).score = s.score ∧
    (s.graftFlood typ body).graft = { s.graft with flooded := (s.graft.graftId, typ) :: s.graft.flooded } := by
  obtain ⟨score, graft, -⟩ := flood_kept { s with graft.flooded := (s.graft.graftId, typ) :: s.graft.flooded } false none none
    { typ := typ, neighbour := true, dest := 0x3FF, body := body }
  exact ⟨score, graft⟩

/-- R336, R337: an abort at the master. -/
theorem abortGraft_leaves (s : State) (reason status who : Nat) : ∃ u, ButReports u (s.abortGraft reason status who) ∧
    u.graft.outcome = 2 ∧ u.graft.reason = reason ∧ u.graft.phase = .idle ∧ u.graft.locked = false ∧ u.score.active = s.score.active := by
  let body := bodyOf [(0, 2, s.graft.graftId), (2, 2, s.self), (4, 1, reason), (5, 1, status), (6, 2, who)]
  refine ⟨(s.graftFlood 0x33 body).dropGraft 2 reason, ?_, rfl, rfl, rfl, rfl, ?_⟩
  · unfold State.abortGraft
    rw [butReports_graftMsg]
    exact ButReports.rfl' _
  · obtain ⟨score, -⟩ := graftFlood_kept s 0x33 body
    unfold State.dropGraft
    dsimp only
    split
    · exact (congrArg ScoreCtl.active score :)
    · exact (congrArg ScoreCtl.active score :)

theorem setUnitState_but (s : State) (i : Nat) (st : UnitState) :
    ButReports (s.modUnit i fun u => { u with state := st }) (s.setUnitState i st) := by
  unfold State.setUnitState
  rw [butReports_graftMsg]
  exact ButReports.rfl' _

theorem load_kept (s : State) (a n : Nat) : (s.load a n).1.ports = s.ports ∧ (s.load a n).1.tact = s.tact ∧
    (s.load a n).1.score = s.score ∧ (s.load a n).1.graft = s.graft := by simp

/-- R330, R102: the bundle is read without a change of the ports, the Tactus, the score and the graft. -/
theorem readBundle_kept (s : State) (act : Mem) (a len : Nat) : (s.readBundle act a len).1.ports = s.ports ∧
    (s.readBundle act a len).1.tact = s.tact ∧ (s.readBundle act a len).1.score = s.score ∧
    (s.readBundle act a len).1.graft = s.graft := by
  have h0 := load_kept s a 64
  unfold State.readBundle
  split
  · exact ⟨rfl, rfl, rfl, rfl⟩
  · generalize s.load a 64 = r at h0 ⊢
    obtain ⟨u, l⟩ := r
    have first : u.ports = s.ports ∧ u.tact = s.tact ∧ u.score = s.score ∧ u.graft = s.graft := h0
    cases l with
    | data h =>
      dsimp only
      split
      · exact first
      · split
        · exact first
        · obtain ⟨ports, tact, score, graft⟩ := first
          have h1 := load_kept u a len
          rw [ports, tact, score, graft] at h1
          generalize u.load a len = r at h1 ⊢
          obtain ⟨v, l⟩ := r
          cases l with
          | data bs => dsimp only; split <;> exact h1
          | ue p d => exact h1
          | unbacked x => exact h1
    | ue p d => exact first
    | unbacked x => exact first

/-- R104: a load check that ends READY leaves all but the score as it was, and of the score the active bank. -/
theorem checkDone_ready {s : State} (h : s.checkDone.score.standby = .ready) : ∃ sc, ButReports { s with score := sc } s.checkDone ∧
    sc.standby = .ready ∧ sc.active = s.score.active ∧ sc.member = s.score.member ∧
    ({ s with score := sc } : State).activeBank = s.activeBank := by
  cases hc : (Img.check s.checkCtx s.standbyBank).2 with
  | none =>
    refine ⟨checkedScore s, checkDone_passed hc, rfl, ?_⟩
    unfold checkedScore State.activeBank State.setStandby
    split <;> simp_all
  | some x =>
    obtain ⟨code, off⟩ := x
    have failed : s.checkDone.score.standby = .failed := congrArg ScoreCtl.standby (reported_checkDone_failed hc).1.score
    rw [failed] at h
    cases h

/-- The standby bank's bytes are none of the active bank's. -/
theorem setStandby_active (s : State) (m : Mem) : (s.setStandby m).score.active = s.score.active ∧
    (s.setStandby m).score.member = s.score.member ∧ (s.setStandby m).activeBank = s.activeBank := by
  unfold State.setStandby State.activeBank
  split <;> simp_all

/-- R332: the gangs of a route hang on the active image and the ports. -/
theorem onward_of {s t : State} {act : Mem} (dest : Nat) (hs : s.img = some act) (ht : t.img = some act) (hp : t.ports = s.ports) :
    t.onward dest = s.onward dest := by
  have up : t.portUp = s.portUp := by
    funext p
    simp [State.portUp, State.port, hp]
  unfold State.onward State.routeImg
  rw [hs, ht, up]

/-- R343: nothing is skipped while the first transfer has a way. -/
theorem skipTransfers_way {s : State} {e : BundleEntry} {rest : List BundleEntry} (hp : s.graft.phase = .distributing)
    (h0 : s.graft.sent = 0) (he : s.graft.entries = e :: rest) (ho : (s.onward e.member).isEmpty = false) : s.skipTransfers = s := by
  have kept : (e :: rest).dropWhile (fun e => (s.onward e.member).isEmpty) = e :: rest :=
    List.dropWhile_cons_of_neg (by simp [ho])
  unfold State.skipTransfers
  rw [if_pos hp, if_pos h0, he, kept]
  dsimp only
  rw [List.isEmpty_cons, if_neg Bool.false_ne_true, ← he]

/-- R330, R331: an accepted SUBMIT whose first transfer has a way. -/
theorem startGraft_distributes {s : State} {act m : Mem} {a : Nat} {own e : BundleEntry} {rest : List BundleEntry}
    (hi : s.img = some act) (he : (((Bundle.entries m).map (·.2)).filter fun e => e.member != Img.self act) = e :: rest)
    (ho : (s.onward e.member).isEmpty = false)
    (hown : ((Bundle.entries m).map (·.2)).find? (fun e => e.member == Img.self act) = some own)
    (hr : (s.setStandby (Mem.writeN [] 0 (m.readN own.offset own.length))).checkDone.score.standby = .ready) :
    ∃ sc, sc.standby = .ready ∧ sc.active = s.score.active ∧
      ButReports (graftAnswered { s with score := sc, graft := s.graft.submitted m a (Img.self act) } 0 0) (s.startGraft act m a) := by
  let b : State := s.setStandby (Mem.writeN [] 0 (m.readN own.offset own.length))
  obtain ⟨same, -⟩ := State.setStandby_frame s (Mem.writeN [] 0 (m.readN own.offset own.length))
  obtain ⟨sc, but, ready, active, member, bank⟩ := checkDone_ready (s := b) hr
  have fields (sc : ScoreCtl) (g : Graft) : { b with score := sc, graft := g } = { s with score := sc, graft := g } :=
    congrArg (fun u : State => { u with score := sc, graft := g }) same
  have bActive : b.score.active = s.score.active ∧ b.score.member = s.score.member ∧ b.activeBank = s.activeBank :=
    setStandby_active s _
  have bGraft : b.graft = s.graft := (congrArg State.graft same :)
  have bPorts : b.ports = s.ports := (congrArg State.ports same :)
  let v : State := { b.checkDone with graft := b.checkDone.graft.submitted m a (Img.self act) }
  have img : v.img = some act := by
    have score : v.score = sc := but.score
    have image : v.img = if sc.member then some ({ b with score := sc } : State).activeBank else none := by
      unfold State.img State.activeBank
      rw [score]
    rw [image, member, bank, bActive.2.1, bActive.2.2]
    exact hi
  have way : (v.onward e.member).isEmpty = false := (onward_of e.member hi img (but.ports.trans bPorts)) ▸ ho
  have distributing : v.skipTransfers = v := skipTransfers_way rfl rfl he way
  refine ⟨sc, ready, active.trans bActive.1, ?_⟩
  have started : s.startGraft act m a = v.skipTransfers.mboxEnd 0 0 := by
    unfold State.startGraft
    rw [hown]
    exact if_pos hr
  rw [started, distributing]
  refine ButReports.trans ?_ (mboxEnd_but v 0 0)
  have graft : v.graft = s.graft.submitted m a (Img.self act) := congrArg (Graft.submitted · m a (Img.self act)) (but.graft.trans bGraft)
  have answered := but.map (fun u : State => { u with graft := { s.graft.submitted m a (Img.self act) with
    result := 0, detail := 0, mboxBusy := false } }) rfl
  unfold graftAnswered
  rw [graft]
  exact (fields sc _) ▸ answered

/-- R328: an answer of the graft mailbox that comes to nothing else. -/
theorem answers_mailbox {s u : State} {i : Instr} {f : State → State} {result detail : Nat} (e : Machine.exec i s = within true (s.mailbox f))
    (hl : s.live = true) (hb : s.graft.mboxBusy = false) (hf : f s = u.mboxEnd result detail) :
    Answers i s fun t => ButReports (graftAnswered u result detail) t :=
  answers_of e rfl (by rw [mailbox_runs f hl hb, hf]; exact mboxEnd_but _ _ _)

/-- R345: what a unit that goes OUT is. -/
theorem unitOut_state (s : State) (i : Nat) : ((s.unitOut i).unit i).state = .out ∧ ((s.unitOut i).unit i).passed = false := by
  unfold State.unitOut
  dsimp only
  have after (u : State) (h : (u.unit i).passed = false) :
      ((u.setUnitState i .out).unit i).state = .out ∧ ((u.setUnitState i .out).unit i).passed = false := by
    rw [(setUnitState_but u i .out).unit_eq, State.unit_modUnit_self]
    exact ⟨rfl, h⟩
  have cleared (u : State) (h : u.graft = (s.modUnit i fun u => { u with
      passed := false, probCount := 0, patternDone := false, worked := false, agreed := true }).graft) : (u.unit i).passed = false := by
    have same : u.unit i = (s.modUnit i fun u => { u with
        passed := false, probCount := 0, patternDone := false, worked := false, agreed := true }).unit i := by
      simp [State.unit, h]
    rw [same, State.unit_modUnit_self]
  split
  · exact after _ (cleared _ (by simp))
  · exact after _ (cleared _ rfl)

/-- R344: what a unit that drains is. -/
theorem enterDrain_state {s : State} {i : Nat} (h : (s.unit i).state = .in_) : ((s.enterDrain i).unit i).state = .drain := by
  unfold State.enterDrain
  rw [if_pos h, (setUnitState_but _ i .drain).unit_eq, State.unit_modUnit_self]

/-- R345: RETURN of a unit that is no voice port. -/
theorem returnTo_unit {s : State} {i : Nat} (hu : unitOfId (s.mboxArg 0 % 2 ^ 32) = some i) (ho : (s.unit i).state = .out) (h1 : 16 ≤ i)
    (h2 : i < 48) : s.returnTo = (((s.releaseReset i).modUnit i fun u => { u with partner := 0, noPartner := false }).setUnitState i
      .returning).mboxEnd 0 0 := by
  have noPort : ¬ i < 16 := by omega
  unfold State.returnTo
  rw [hu]
  dsimp only
  rw [if_neg (by simp [ho]), if_neg (by omega), if_pos h2]
  simp only [noPort, false_and, if_false, decide_false, Bool.false_and]

/-- Settles O39. The order of SUBMIT's answers is log entry 156, the answer DECIDED for another's graft entry 157, and the refusals of
RETURN and of unit ids entry 165. -/
theorem graftMailbox : Obligations.GraftMailbox := by
  refine ⟨fun s i hi hl hb => ?busy, fun s hl hb hm => ?notMember, fun s act hl hb hm hh => ?held,
    fun s s' u act m own e rest hl hb hm hp hh hr he ho ht hown hu hready => ?starts, fun s s' act o hl hb hm hp hh hr => ?bad,
    fun s hl hb hm hg hd => ?cancel, fun s hl hb hm => ?decided, fun s i hl hb hu => ?unit, fun s i hi hl hb hu => ?noUnit⟩
  case busy =>
    have ignored (f : State → State) : s.mailbox f = s.countN (Cnt.grf 0) 1 := by
      rw [State.mailbox, hl, hb]
      rfl
    obtain rfl | rfl | rfl | rfl | rfl := hi
    all_goals exact exec_of rfl rfl (ignored _)
  case notMember => exact answers_mailbox rfl hl hb (by rw [State.submitGraft, hm])
  case held =>
    refine answers_mailbox rfl hl hb ?_
    unfold State.submitGraft
    rw [hm]
    exact if_pos hh
  case starts =>
    have kept := readBundle_kept s act (s.mboxArg 0) (s.mboxArg 1)
    rw [hr] at kept
    obtain ⟨ports, tact, score, graft⟩ := kept
    have img : s'.img = some act := by
      rw [← hm]
      unfold State.img State.activeBank
      rw [score]
    have way : (s'.onward e.member).isEmpty = false := (onward_of e.member hm img ports) ▸ ho
    obtain ⟨sc, ready, active, but⟩ := startGraft_distributes (a := s'.mboxArg 0) img he way hown (hu ▸ hready)
    have timely : s'.timely (Bundle.target m) (distMeasures (e :: rest) s'.graft.pace) = true := by
      unfold State.timely at ht ⊢
      rw [tact, graft]
      exact ht
    have started : s.submitGraft = s'.startGraft act m (s'.mboxArg 0) := by
      have go : (if s'.timely (Bundle.target m) (distMeasures (e :: rest) s'.graft.pace) then s'.startGraft act m (s'.mboxArg 0)
          else s'.mboxEnd 3 (s'.earliest (distMeasures (e :: rest) s'.graft.pace) % 2 ^ 32)) = s'.startGraft act m (s'.mboxArg 0) :=
        if_pos timely
      unfold State.submitGraft
      rw [hm]
      dsimp only
      rw [if_neg (by simp [hp, hh]), hr]
      dsimp only
      rw [he]
      exact go
    refine answers_of rfl rfl ?_
    rw [mailbox_runs _ hl hb, started]
    rw [but.score, but.graft]
    refine ⟨ready, rfl, rfl, rfl, rfl, rfl, he, rfl, congrArg Graft.pace graft, rfl, rfl, active.trans (congrArg ScoreCtl.active score)⟩
  case bad =>
    refine answers_mailbox rfl hl hb ?_
    unfold State.submitGraft
    rw [hm]
    dsimp only
    rw [if_neg (by simp [hp, hh]), hr]
  case cancel =>
    obtain ⟨u, but, outcome, reason, phase, locked, active⟩ := abortGraft_leaves { s with graft.cancelled := true } 4 0 0
    have cancels : s.cancelGraft = (({ s with graft.cancelled := true } : State).abortGraft 4 0 0).mboxEnd 0 0 := by
      unfold State.cancelGraft
      exact if_pos (by simp [hm, hg, hd])
    obtain ⟨t, ran, ended⟩ := answers_mailbox (i := .cancel) rfl hl hb cancels
    refine ⟨t, ran, ?_⟩
    dsimp only
    rw [ended.score, ended.graft]
    unfold graftAnswered
    rw [but.score, but.graft]
    exact ⟨outcome, reason, phase, locked, rfl, rfl, active⟩
  case decided =>
    refine answers_mailbox rfl hl hb ?_
    unfold State.cancelGraft
    exact if_neg (by simp [hm])
  case unit =>
    refine ⟨fun h => ?_, fun h => ?_, fun h => ?_, fun h => ?_, fun h h1 h2 => ?_, fun h => ?_⟩
    · have drains : s.drainUnit = (s.enterDrain i).mboxEnd 0 0 := by
        rw [State.drainUnit, hu]
        exact if_pos h
      obtain ⟨t, ran, ended⟩ := answers_mailbox (i := .drain) rfl hl hb drains
      refine ⟨t, ran, ?_, ?_⟩
      · rw [ended.unit_eq]
        exact enterDrain_state h
      · rw [ended.graft]
        exact ⟨rfl, rfl⟩
    · refine answers_mailbox rfl hl hb ?_
      rw [State.drainUnit, hu]
      exact if_neg h
    · have goesOut : s.outUnit = (s.unitOut i).mboxEnd 0 0 := by
        rw [State.outUnit, hu]
        exact if_pos h
      obtain ⟨t, ran, ended⟩ := answers_mailbox (i := .out) rfl hl hb goesOut
      refine ⟨t, ran, ?_, ?_⟩
      · rw [ended.unit_eq]
        exact (unitOut_state s i).1
      · rw [ended.graft]
        exact ⟨rfl, rfl⟩
    · refine answers_mailbox rfl hl hb ?_
      rw [State.outUnit, hu]
      exact if_neg h
    · let v : State := (s.releaseReset i).modUnit i fun u => { u with partner := 0, noPartner := false }
      obtain ⟨t, ran, ended⟩ := answers_mailbox (i := .returnUnit) rfl hl hb (returnTo_unit hu h h1 h2)
      have moved := setUnitState_but v i .returning
      refine ⟨t, ran, ?_, ?_, ?_, ?_, ?_, ?_⟩
      · rw [ended.unit_eq]
        refine (congrArg UnitReg.state (moved.unit_eq i)).trans ?_
        rw [State.unit_modUnit_self]
      · rw [ended.resetOf_eq]
        exact (moved.resetOf_eq i).trans (Tab.get_put_self _ _ _ _)
      · rw [ended.graft]
        rfl
      · rw [ended.graft]
        rfl
      · exact ended.ports.trans moved.ports
      · exact ended.ram.trans moved.ram
    · refine answers_mailbox rfl hl hb ?_
      rw [State.returnTo, hu]
      exact if_pos h
  case noUnit =>
    obtain rfl | rfl | rfl := hi
    · exact answers_mailbox rfl hl hb (by rw [State.drainUnit, hu])
    · exact answers_mailbox rfl hl hb (by rw [State.outUnit, hu])
    · exact answers_mailbox rfl hl hb (by rw [State.returnTo, hu])

end Sys2Proof
end

section
/-!
O40 UnitsLeaveAndReturn.
-/
namespace Sys2Proof
open Sys2Proof.Machine

/-- Table FLT-2: the target of the unit with an FC_TGT index up to 48 is that index. -/
theorem unitAt_target {i : Nat} (h : i ≤ 48) : (unitAt i).target = some i := by
  unfold unitAt
  (repeat' split) <;> simp only [UnitId.target] <;> first | omega | (congr 1; omega)

/-- R438, Table FLT-4: a class-U event of a unit that is OUT changes no unit, whatever it finds. -/
theorem raiseOn_unitOut {s : State} {i : Nat} (det detail : Nat) (hi : i ≤ 48) (ho : (s.unit i).state = .out) :
    (s.raiseOn det (unitAt i) detail).unit i = s.unit i := by
  obtain ⟨ts, u, but, result⟩ := raise_writes s det (unitAt i) (some i) detail [] id
  have same : u.unit i = s.unit i := but.unit_eq i
  rw [State.raiseOn, unitAt_target hi]
  obtain e | e | ⟨t, ht, e⟩ := result
  · rw [e, same]
  · rw [e]
    exact same
  · cases ht
    have noDrain : u.holdEffect i = u := by
      rw [State.holdEffect, State.enterDrain, same, ho]
      simp
    rw [e, noDrain]
    exact same

/-- R345: a unit that fails goes OUT, whatever its event finds. -/
theorem unitOut_raised (s : State) {i : Nat} (det : Nat) (hi : i ≤ 48) :
    (((s.unitOut i).raiseOn det (unitAt i)).unit i).state = .out ∧ (((s.unitOut i).raiseOn det (unitAt i)).unit i).passed = false := by
  obtain ⟨out, unpassed⟩ := unitOut_state s i
  rw [raiseOn_unitOut det 0 hi out]
  exact ⟨out, unpassed⟩

/-- Table GRF-9: what the RETURNING work leaves. -/
theorem clearReturned_kept (s : State) (i : Nat) : (16 ≤ i → i < 32 → ((s.clearReturned i).me (i - 16)).sram = [] ∧
      ((s.clearReturned i).me (i - 16)).undef = none) ∧
    (32 ≤ i → i < 40 → ((s.clearReturned i).cl (i - 32)).sram = []) ∧ (i < 44 → (s.clearReturned i).ram = s.ram) ∧
    (s.clearReturned i).ports = s.ports ∧ (s.clearReturned i).queues = s.queues := by
  unfold State.clearReturned
  split
  · exact ⟨by omega, by omega, fun _ => rfl, rfl, rfl⟩
  · split
    · refine ⟨fun _ _ => ?_, by omega, fun _ => rfl, rfl, rfl⟩
      rw [State.me_setMe_self]
      exact ⟨rfl, rfl⟩
    · split
      · refine ⟨by omega, fun _ _ => ?_, fun _ => rfl, rfl, rfl⟩
        rw [State.cl_setCl_self]
      · split
        · exact ⟨by omega, by omega, by omega, rfl, rfl⟩
        · exact ⟨by omega, by omega, fun _ => rfl, rfl, rfl⟩

/-- Settles O40. -/
theorem unitsLeaveAndReturn : Obligations.UnitsLeaveAndReturn := by
  have okU {i : Nat} (hi : i ≤ 48) : (okUnit i || decide (i = 48)) = true := by simp [okUnit]; omega
  refine ⟨fun s i hi hd hq hh => ?quiesced, fun s i hi hd hq => ?busy, fun s i hi hl hr hw => ?returned, fun s i hi hl hr => ?failed,
    fun s i hi hl hp hr => ⟨?agrees, ?differs⟩, fun s i hi hp hn hc hd => ?passes⟩
  case quiesced =>
    have moved := setUnitState_but s i .quiesced
    refine answers_of rfl (okU hi) ?_
    rw [if_pos ⟨hd, hq⟩]
    dsimp only
    have notHeld : ¬ (i < 48 ∧ (s.setUnitState i .quiesced).held i = true) := by
      rw [State.held, moved.tgt_eq]
      rintro ⟨h48, hheld⟩
      obtain rfl | free := hh
      · omega
      · exact Bool.false_ne_true (free.symm.trans hheld)
    rw [if_neg notHeld]
    exact moved
  case busy => exact exec_of rfl (okU hi) (if_neg (by simp [hq]))
  case returned =>
    obtain ⟨meCleared, clCleared, ram, ports, queues⟩ := clearReturned_kept s i
    have moved := setUnitState_but (s.clearReturned i) i .probation
    refine answers_of rfl (okU hi) ?_
    rw [if_neg (by simp [hl, hr]), if_neg (by simp), if_pos hw]
    refine ⟨?_, fun h1 h2 => ?_, fun h1 h2 => ?_, fun h => moved.ram.trans (ram h), moved.ports.trans ports, moved.queues.trans queues⟩
    · rw [moved.unit_eq, State.unit_modUnit_self]
    · rw [moved.me_eq]
      exact meCleared h1 h2
    · rw [moved.cl_eq]
      exact clCleared h1 h2
  case failed =>
    refine answers_of rfl (okU hi) ?_
    rw [if_neg (by simp [hl, hr]), if_pos (by rfl)]
    exact unitOut_raised s _ hi
  case agrees =>
    refine exec_of rfl (okU hi) ?_
    rw [if_neg (by simp [hl, hp, hr]), if_pos rfl]
    rfl
  case differs =>
    refine answers_of rfl (okU hi) ?_
    rw [if_neg (by simp [hl, hp, hr]), if_neg Bool.false_ne_true]
    exact unitOut_raised s _ hi
  case passes =>
    refine exec_of rfl (okU hi) ?_
    exact if_pos ⟨hp, by simp [hn], hc, hd⟩

end Sys2Proof
end

section
/-!
O41 GraftMembers.
-/
namespace Sys2Proof
open Sys2Proof.Machine

/-- R334: a flood that was seen goes no further. -/
theorem relayFlood_seen {s : State} {p : Nat} {c : Cue} (h : s.graft.flooded.contains (fld (c.at 0 2) 0 12, c.typ) = true) :
    s.relayFlood p c = (s, false) := if_pos h

/-- R334: the first sight of a flood, which is marked and goes on. -/
theorem relayFlood_first {s : State} {p : Nat} {c : Cue} (h : s.graft.flooded.contains (fld (c.at 0 2) 0 12, c.typ) = false) :
    ∃ u, s.relayFlood p c = (u, true) ∧ u.score = s.score ∧ u.tact = s.tact ∧
      u.graft = { s.graft with flooded := (fld (c.at 0 2) 0 12, c.typ) :: s.graft.flooded } := by
  obtain ⟨score, graft, tact, -⟩ := flood_kept
    { s with graft.flooded := (fld (c.at 0 2) 0 12, c.typ) :: s.graft.flooded } true (some p) none c
  exact ⟨_, if_neg (by rw [h]; exact Bool.false_ne_true), score, tact, graft⟩

/-- R333: a transfer whose slot 0 has not come is not complete. -/
theorem transfer_headless {g : Graft} (h : Tab.find g.rx 0 = none) : g.transfer = none := by
  rw [Graft.transfer, h]

theorem buildImage_incomplete {s : State} (h : s.graft.transfer = none) : s.buildImage = s := by
  unfold State.buildImage
  rw [h]
  split <;> rfl

/-- R333: the graft of a member that was locked by slot `x`. -/
def graftLockedBy (s : State) (x : Slot) : Graft :=
  { (s.lockGraft x).graft with
    rx := [(128 * x.segment + x.slotInSeg, x.payload)]
    rxTail := if x.last then [(x.segment, (x.slotInSeg + 1, x.check))] else []
    rxFailed := x.payloadBad }

theorem takeGraft_locks {s : State} {x : Slot} (h : s.graft.locked = false) :
    s.takeGraft x = ({ s with graft := graftLockedBy s x } : State).buildImage := by
  unfold State.takeGraft
  rw [h]
  rfl

/-- R62, R333: a transfer of one slot. -/
theorem transfer_one {g : Graft} {bs : List Byte} {check : Nat} (hrx : g.rx = [(0, bs)]) (ht : g.rxTail = [(0, (1, check))])
    (hf : g.rxFailed = false) (hp : bitAt (leAt bs 2 1) 0 = true) (hc : check = (crc64 bs).toNat) : g.transfer = some bs := by
  have found : Tab.find g.rx 0 = some bs := by rw [hrx]; rfl
  have segment : g.segOk 1 0 = true := by
    have tail : Tab.find g.rxTail 0 = some (1, check) := by rw [ht]; rfl
    have bytes : ((List.range 1).map fun i => Tab.get [] g.rx (128 * 0 + i)).flatten = bs := by rw [hrx]; simp [Tab.get]
    unfold Graft.segOk
    rw [tail]
    dsimp only
    rw [bytes, hc]
    simp
  have all : (List.range (ceilDiv 1 128)).all (g.segOk 1) = true := by
    have one : List.range (ceilDiv 1 128) = [0] := by decide
    rw [one, List.all_cons, segment]
    rfl
  have received : g.received 1 = some bs := by
    unfold Graft.received
    have one : List.range 1 = [0] := rfl
    rw [one, List.foldl_cons, List.foldl_nil, Option.bind_some, found]
    rfl
  unfold Graft.transfer
  rw [found]
  dsimp only
  rw [if_pos hp, all, hf, received]
  rfl

/-- R335: an ACK joins a send queue; score and graft stay. -/
theorem sendAck_kept (s : State) (master id status err detail : Nat) : (s.sendAck master id status err detail).1.score = s.score ∧
    (s.sendAck master id status err detail).1.graft = s.graft := by simp [State.sendAck]

/-- R335, Table GRF-6: what the answer of a pruned member leaves. -/
theorem answerPrepare_pruned {s : State} (hp : s.graft.pruned = true) : s.answerPrepare.score = s.score ∧
    ∃ sent reason, s.answerPrepare.graft = { s.graft with ackSent := sent, reason := reason } := by
  unfold State.answerPrepare
  split
  · exact ⟨rfl, s.graft.ackSent, s.graft.reason, rfl⟩
  · next c _ =>
    have status : s.ackStatus c = (5, 0, 0) := by
      unfold State.ackStatus
      rw [hp]
      rfl
    dsimp only
    rw [status]
    obtain ⟨score, graft⟩ := sendAck_kept s (c.at 2 2 % 1024) s.graft.graftId 5 0 0
    split
    · generalize s.sendAck (c.at 2 2 % 1024) s.graft.graftId 5 0 0 = r at score graft ⊢
      obtain ⟨u, sent⟩ := r
      dsimp only at score graft
      cases sent with
      | true =>
        refine ⟨score, true, 5, ?_⟩
        dsimp only
        rw [graft]
        rfl
      | false => exact ⟨score, s.graft.ackSent, s.graft.reason, graft⟩
    · exact ⟨rfl, s.graft.ackSent, s.graft.reason, rfl⟩

/-- R335: a member that is not locked answers nothing yet. -/
theorem answerPrepare_unlocked {s : State} (h : s.graft.locked = false) : s.answerPrepare = s := by
  unfold State.answerPrepare
  split
  · rfl
  · exact if_neg (by simp [h])

/-- R333, R341: a PRUNE transfer is complete as it is. -/
theorem buildImage_prunes {s : State} {bs : List Byte} (hl : s.graft.locked = true) (hd : s.graft.imageDone = false)
    (hm : s.graft.master = false) (ht : s.graft.transfer = some bs) (hp : bitAt (leAt bs 2 1) 0 = true) :
    s.buildImage.score = s.score ∧ s.buildImage.graft.pruned = true ∧ s.buildImage.graft.imageDone = true ∧
      s.buildImage.graft.phase = .ready ∧ s.buildImage.graft.tgt = fld (leAt bs 40 8) 0 38 := by
  let u : State := { s with graft := { s.graft with
    tgt := fld (leAt bs 40 8) 0 38, drainMask := leAt bs 16 8, promoteMask := leAt bs 24 8, pruned := true, imageDone := true
    phase := .ready } }
  have built : s.buildImage = u.answerPrepare := by
    unfold State.buildImage
    rw [hl, hd, hm, ht]
    dsimp only
    rw [hp]
    rfl
  obtain ⟨score, sent, reason, graft⟩ := answerPrepare_pruned (s := u) rfl
  rw [built, graft]
  exact ⟨score, rfl, rfl, rfl, rfl⟩

/-- R336: ADMIT messages leave score and graft as they were. -/
theorem graftAdmit_kept (s : State) (seq : Word) (fp : DWord) (p : Nat) : (s.graftAdmit seq fp p).score = s.score ∧
    (s.graftAdmit seq fp p).graft = s.graft := by
  unfold State.graftAdmit
  split
  · have sent (k : Nat) (u : State) : ((u.sendAdmit k p).score, (u.sendAdmit k p).graft) = (u.score, u.graft) := by
      unfold State.sendAdmit
      split <;> simp
    have kept (u : State) (ks : List Nat) : ((forEach ks (fun k st => st.sendAdmit k p) u).score,
        (forEach ks (fun k st => st.sendAdmit k p) u).graft) = (u.score, u.graft) :=
      foldl_keeps (fun u : State => (u.score, u.graft)) _ (fun u k => sent k u) ks u
    dsimp only
    exact Prod.ext_iff.mp (kept _ _)
  · exact ⟨rfl, rfl⟩

/-- R106, R337: a COMMIT that comes in time sets the target. -/
theorem takeCommit_sets {s : State} {p : Nat} (hp : s.graft.pruned = false) (ht : s.score.target = none) (hs : s.score.standby = .ready)
    (hb : (s.beatsTo p).any (fun d => decide (4096 ≤ d)) = true) :
    s.takeCommit p = { s with score.target := some p, graft.phase := .committed, graft.tgt := p } := by
  have set : s.setTarget p = ({ s with score.target := some p }, .set) := by
    unfold State.setTarget
    rw [ht, hs, hb]
    rfl
  unfold State.takeCommit
  rw [hp, set]
  rfl

theorem sixteenMeasures (x : BitVec 56) : (x - (x - 0x40000#56 + BitVec.ofNat 56 (48 * 4096))).toNat = 65536 := by
  have difference : x - (x - 0x40000#56 + BitVec.ofNat 56 (48 * 4096)) = 0x40000#56 - BitVec.ofNat 56 (48 * 4096) := by ring
  rw [difference]
  decide

/-- R336: at the decision deadline the target phrase lies 16 measures ahead. -/
theorem beatsTo_decision {s : State} {p : Nat} (h : s.tact.stamp = beforePhrase p 48) :
    (s.beatsTo p).any (fun d => decide (4096 ≤ d)) = true := by
  have ahead : (BitVec.ofNat 56 (p * 2 ^ 18) - s.tact.stamp).toNat = 65536 := by
    rw [h, beforePhrase]
    exact sixteenMeasures _
  rw [State.beatsTo, ahead]
  rw [if_pos (by omega)]
  simp

/-- R337: the graft that ends without a switch. -/
theorem dropGraft_leaves (s : State) (outcome reason : Nat) : (s.dropGraft outcome reason).graft =
      { s.graft.unlock with outcome := outcome, reason := reason } ∧ (s.dropGraft outcome reason).score.target = s.score.target ∧
    (s.dropGraft outcome reason).counters = s.counters := by
  unfold State.dropGraft
  dsimp only
  split <;> exact ⟨rfl, rfl, rfl⟩

theorem graftFlood_tact (s : State) (typ : Nat) (body : List Byte) : (s.graftFlood typ body).tact = s.tact :=
  (flood_kept { s with graft.flooded := (s.graft.graftId, typ) :: s.graft.flooded } false none none
    { typ := typ, neighbour := true, dest := 0x3FF, body := body }).2.2.1

/-- R337: an abort leaves a target where one is set. -/
theorem abortGraft_target (s : State) (reason status who : Nat) : (s.abortGraft reason status who).score.target = s.score.target := by
  let body := bodyOf [(0, 2, s.graft.graftId), (2, 2, s.self), (4, 1, reason), (5, 1, status), (6, 2, who)]
  have but : ButReports ((s.graftFlood 0x33 body).dropGraft 2 reason) (s.abortGraft reason status who) :=
    (butReports_graftMsg _ _).mpr (ButReports.rfl' _)
  rw [but.score, (dropGraft_leaves _ _ _).2.1, (graftFlood_kept s 0x33 body).1]

/-- Settles O41. What is kept of floods is log entry 158, that a later ACK of a member takes the place of the earlier one entry 159, and
what ends a graft without a decision entries 160 to 163. -/
theorem graftMembers : Obligations.GraftMembers := by
  refine ⟨fun s p sl hw hl hr ho hn => ?relays, fun s p sl hw hl hr hm hk hg => ?otherGraft, fun s p sl hw hl hr hm hk hs => ?locks,
    fun s p sl hw hl hr hm hk h0 h1 hlast hbad hprune hcrc => ?prunes, fun s p c hw hl hm hd hg => ?ack, fun s i p c hi hw hl hs => ?seen,
    fun s p c hw hl hm hs hk => ?prepare, fun s p c hw hl hk hg hp hd hpr hs => ?abort,
    fun s p c hw hl hm hk hg hpr ht hst hb hs => ?commit, fun s c hl hp ht ha hd => ?deadline,
    fun s hl hm hd ht => ⟨fun x hx => ?aborts, fun hx hp htgt hst => ?commits⟩, fun s q hl hu ht => ?undecided⟩
  case relays =>
    refine exec_of rfl hw ((if_pos hl).trans ((if_neg hr).trans ?_))
    unfold State.relayGraft
    rw [if_neg (by simp [ho]), if_pos hn]
  case otherGraft =>
    refine ⟨_, exec_of rfl hw ((if_pos hl).trans ((if_pos hr).trans ((if_pos hm).trans (if_pos ?_)))), ?_⟩
    · simp [hk, hg]
    · exact reported_eventC _ Det.grfBusyDrop _ _ _ (by decide) (by decide)
  case locks =>
    let g := graftLockedBy s sl
    have headless : Tab.find g.rx 0 = none := if_neg (Ne.symm ?_)
    have took : s.takeGraft sl = { s with graft := g } := by
      rw [takeGraft_locks hk]
      exact buildImage_incomplete (transfer_headless headless)
    refine ⟨_, exec_of rfl hw ((if_pos hl).trans ((if_pos hr).trans ((if_pos hm).trans took))), rfl, rfl, rfl, rfl, rfl, ?_, rfl⟩
    · exact if_pos rfl
    · exact hs.symm
  case prunes =>
    let g := graftLockedBy s sl
    have complete : g.transfer = some sl.payload := by
      refine transfer_one (check := sl.check) ?_ ?_ hbad hprune hcrc
      · show [(128 * sl.segment + sl.slotInSeg, sl.payload)] = _
        rw [h0, h1]
      · show (if sl.last then [(sl.segment, (sl.slotInSeg + 1, sl.check))] else []) = _
        rw [hlast, h0, h1]
        rfl
    obtain ⟨score, pruned, done, phase, tgt⟩ := buildImage_prunes (s := { s with graft := g }) rfl rfl rfl complete hprune
    refine ⟨_, exec_of rfl hw ((if_pos hl).trans ((if_pos hr).trans ((if_pos hm).trans (takeGraft_locks hk)))), ?_⟩
    exact ⟨pruned, done, phase, tgt, score⟩
  case ack => exact exec_of rfl hw ((if_pos hl).trans (if_pos (by simp [hm, hd, hg])))
  case seen =>
    obtain rfl | rfl | rfl := hi
    · exact exec_of rfl hw ((if_pos hl).trans (by rw [State.onPrepare, relayFlood_seen hs]))
    · exact exec_of rfl hw ((if_pos hl).trans (by rw [State.onCommit, relayFlood_seen hs]))
    · exact exec_of rfl hw ((if_pos hl).trans (by rw [State.onAbort, relayFlood_seen hs]))
  case prepare =>
    obtain ⟨u, first, score, tact, graft⟩ := relayFlood_first (p := p) hs
    have unlocked : u.graft.locked = false := by rw [graft]; exact hk
    have held : s.onPrepare p c = { u with graft.prepare := some c } := by
      unfold State.onPrepare
      rw [first]
      dsimp only
      exact (if_neg (by rw [score]; simp [hm])).trans ((if_neg (by simp [unlocked])).trans
        (answerPrepare_unlocked (s := { u with graft.prepare := some c }) unlocked))
    refine ⟨_, exec_of rfl hw ((if_pos hl).trans held), rfl, ?_, ?_, score⟩
    · show _ ∈ u.graft.flooded
      rw [graft]
      exact List.mem_cons_self
    · show u.graft.ackSent = _
      rw [graft]
  case abort =>
    obtain ⟨u, first, score, tact, graft⟩ := relayFlood_first (p := p) hs
    have drops : s.onAbort p c = u.dropGraft 2 (c.at 4 1) := by
      unfold State.onAbort
      rw [first]
      dsimp only
      rw [graft]
      exact if_pos (by simp [hk, hg, hp])
    obtain ⟨dropped, target, -⟩ := dropGraft_leaves u 2 (c.at 4 1)
    refine ⟨_, exec_of rfl hw ((if_pos hl).trans drops), ?_⟩
    dsimp only
    rw [dropped, target, score]
    refine ⟨rfl, rfl, rfl, rfl, ?_, rfl⟩
    unfold State.dropGraft
    dsimp only
    rw [if_pos (by rw [graft]; simp [hk, hd, hpr])]
  case commit =>
    obtain ⟨u, first, score, tact, graft⟩ := relayFlood_first (p := p) hs
    let v : State := { u with score.target := some (fld (c.at 8 8) 0 38), graft.phase := .committed, graft.tgt := fld (c.at 8 8) 0 38 }
    have beats : u.beatsTo (fld (c.at 8 8) 0 38) = s.beatsTo (fld (c.at 8 8) 0 38) := by rw [State.beatsTo, State.beatsTo, tact]
    have sets : u.takeCommit (fld (c.at 8 8) 0 38) = v :=
      takeCommit_sets (by rw [graft]; exact hpr) (by rw [score]; exact ht) (by rw [score]; exact hst) (by rw [beats]; exact hb)
    have commits : s.onCommit p c = v.graftAdmit (BitVec.ofNat 32 (c.at 24 4)) (BitVec.ofNat 64 (c.at 16 8)) (fld (c.at 8 8) 0 38) := by
      have mine : (!u.score.member || u.graft.graftId != fld (c.at 0 2) 0 12) = false := by rw [score, graft]; simp [hm, hg]
      have locked : u.graft.locked = true := by rw [graft]; exact hk
      unfold State.onCommit
      rw [first]
      dsimp only
      rw [mine, locked, sets]
      rfl
    obtain ⟨score', graft'⟩ := graftAdmit_kept v (BitVec.ofNat 32 (c.at 24 4)) (BitVec.ofNat 64 (c.at 16 8)) (fld (c.at 8 8) 0 38)
    refine ⟨_, exec_of rfl hw ((if_pos hl).trans commits), ?_⟩
    dsimp only
    rw [score', graft']
    exact ⟨rfl, rfl, rfl⟩
  case deadline =>
    have answers : s.ackDeadline = { (s.sendAck (c.at 2 2 % 1024) (fld (c.at 0 2) 0 12)
        (if s.graft.locked && s.graft.graftId != fld (c.at 0 2) 0 12 then 3 else 1) 0 0).1 with
        graft.ackSent := true, graft.reason := if s.graft.locked && s.graft.graftId != fld (c.at 0 2) 0 12 then 3 else 1 } := by
      unfold State.ackDeadline Graft.preparedFor
      rw [hp, Option.map_some, Option.any_some, ht, beq_self_eq_true, ha, hd]
      rfl
    refine ⟨_, exec_of rfl rfl ((if_pos hl).trans answers), rfl, rfl, ?_⟩
    simp [State.sendAck]
  case aborts =>
    obtain ⟨u, but, outcome, reason, phase, locked, -⟩ := abortGraft_leaves s x.1 x.2.1 x.2.2
    have decides : s.decideGraft = s.abortGraft x.1 x.2.1 x.2.2 := by rw [State.decideGraft, hx]
    refine ⟨_, exec_of rfl rfl ((if_pos (by simp [hl, hm, hd, ht])).trans decides), ?_⟩
    dsimp only
    rw [abortGraft_target, but.graft]
    exact ⟨outcome, reason, phase, locked, rfl⟩
  case commits =>
    let u : State := { s.graftFlood 0x32 (s.graft.prepareBody s.self) with graft.decided := true }
    let v : State := { u with score.target := some s.graft.tgt, graft.phase := .committed, graft.tgt := s.graft.tgt }
    obtain ⟨score, graft⟩ := graftFlood_kept s 0x32 (s.graft.prepareBody s.self)
    have tact : u.tact = s.tact := graftFlood_tact s 0x32 (s.graft.prepareBody s.self)
    have sets : u.takeCommit s.graft.tgt = v := by
      refine takeCommit_sets ?_ ?_ ?_ (beatsTo_decision (by rw [tact]; exact ht))
      · show (s.graftFlood 0x32 (s.graft.prepareBody s.self)).graft.pruned = false
        rw [graft]
        exact hp
      · exact (congrArg ScoreCtl.target score).trans htgt
      · exact (congrArg ScoreCtl.standby score).trans hst
    have decides : s.decideGraft = (v.graftAdmit s.graft.newSeq s.graft.newFp s.graft.tgt).graftMsg := by
      unfold State.decideGraft
      rw [hx]
      unfold State.commitGraft
      dsimp only
      rw [sets]
    obtain ⟨score', graft'⟩ := graftAdmit_kept v s.graft.newSeq s.graft.newFp s.graft.tgt
    have but : ButReports (v.graftAdmit s.graft.newSeq s.graft.newFp s.graft.tgt)
        (v.graftAdmit s.graft.newSeq s.graft.newFp s.graft.tgt).graftMsg := by simp
    refine ⟨_, exec_of rfl rfl ((if_pos (by simp [hl, hm, hd, ht])).trans decides), ?_⟩
    dsimp only
    rw [but.graft, but.score, score', graft']
    exact ⟨rfl, rfl, rfl⟩
  case undecided =>
    have ends : s.noDecision =
        ((s.dropGraft 3 s.graft.reason).count (Cnt.grf 4)).eventC Det.noDecision .member s.graft.graftId := by
      unfold State.noDecision
      rw [hu, Option.any_some, ht, beq_self_eq_true, if_pos rfl]
    obtain ⟨dropped, target, counters⟩ := dropGraft_leaves s 3 s.graft.reason
    refine ⟨_, exec_of rfl rfl ((if_pos hl).trans ends), ?_⟩
    dsimp only
    have but : ButReports (s.dropGraft 3 s.graft.reason)
        (((s.dropGraft 3 s.graft.reason).count (Cnt.grf 4)).eventC Det.noDecision .member s.graft.graftId) := by simp
    rw [but.graft, but.score, dropped, counter_eventC_other _ _ _ _ _ _ (by decide), counter_count_self]
    refine ⟨rfl, rfl, rfl, ?_, target⟩
    rw [State.counter, counters]
    rfl

end Sys2Proof
end

section
/-!
O42 CoresSleepAndFinish.
-/
namespace Sys2Proof
open Sys2Proof.Machine

/-- R364: what a change of a core's registers keeps of a report. -/
theorem Reported.setCore {det : Nat} {s t : State} (h : Reported det s t) (cl k : Nat) (v : Core) :
    Reported det (s.setCore cl k v) (t.setCore cl k v) := by
  obtain ⟨but, counted, others⟩ := h
  exact ⟨but.map (fun u : State => u.setCore cl k v) rfl, counted, others⟩

theorem bitAt_two_pow {k j : Nat} : bitAt (2 ^ k) j = decide (j = k) := by
  unfold bitAt
  obtain h | rfl | h := lt_trichotomy j k
  · have even : 2 ^ k / 2 ^ j % 2 = 0 := by
      obtain ⟨d, rfl⟩ := Nat.exists_eq_add_of_lt h
      rw [Nat.pow_div (by omega) (by norm_num), show j + d + 1 - j = d + 1 by omega, pow_succ]
      omega
    rw [even]
    simp
    omega
  · rw [Nat.div_self (by positivity)]
    simp
  · rw [Nat.div_eq_of_lt (Nat.pow_lt_pow_right (by norm_num) h)]
    simp
    omega

/-- R366: the core that a LAUNCH of one core selects. -/
theorem coresOf_two_pow {k : Nat} (hk : k < 8) : coresOf (2 ^ k) = [k] := by
  unfold coresOf
  rw [funext (fun j => bitAt_two_pow (k := k) (j := j))]
  interval_cases k <;> decide

theorem setCore_setCore (s : State) (cl k : Nat) (v w : Core) : (s.setCore cl k v).setCore cl k w = s.setCore cl k w := by
  unfold State.setCore
  rw [State.cl_setCl_self, State.setCl_setCl]
  dsimp only
  rw [Tab.put_put]

theorem core_setCore_self (s : State) (cl k : Nat) (v : Core) : (s.setCore cl k v).core cl k = v :=
  (State.core_setCore s cl k k v).trans (if_pos rfl)

/-- R366: a core whose kernel has ended. -/
def coreEnded (c : Core) : Core := { c with dirty := [], dirtyAt := [], state := .idle, launchPending := false }

/-- R361, R362: a core that wrote nothing has nothing to clean. -/
theorem cleanCore_clean {s : State} {cl k : Nat} (h : (s.core cl k).dirtyAt = []) :
    s.cleanCore cl k = s.setCore cl k { s.core cl k with dirty := [], dirtyAt := [] } := by
  unfold State.cleanCore
  dsimp only
  rw [h]
  rfl

/-- R367: the last core of a LAUNCH of one core ends it. -/
theorem launchEnds_alone {s : State} {cl k q tok : Nat} (hk : k < 8) (hs : (s.core cl k).state = .idle) (hu : (s.core cl k).dataUe = none)
    (hl : (s.cl cl).launches = [{ queue := q, tok := tok, mask := 2 ^ k }]) :
    s.launchEnds cl { queue := q, tok := tok, mask := 2 ^ k } =
      (s.setCl cl { s.cl cl with launches := [] }).finish q tok { status := St.ok } := by
  unfold State.launchEnds
  dsimp only
  rw [coresOf_two_pow hk, hl]
  simp [hs, hu]

/-- R361, R366: a kernel that wrote nothing ends on core `k`. -/
theorem kernelDone_clean {s : State} {cl k q tok : Nat} (hk : k < 8) (hb : (s.core cl k).state = .busy)
    (hd : (s.core cl k).dirtyAt = []) (hu : (s.core cl k).dataUe = none)
    (hl : (s.cl cl).launches = [{ queue := q, tok := tok, mask := 2 ^ k }]) :
    s.kernelDone cl k = ((s.setCore cl k (coreEnded (s.core cl k))).setCl cl
      { (s.setCore cl k (coreEnded (s.core cl k))).cl cl with launches := [] }).finish q tok { status := St.ok } := by
  let l : Launch := { queue := q, tok := tok, mask := 2 ^ k }
  let u : State := s.setCore cl k (coreEnded (s.core cl k))
  have quiet : s.coreBreach cl k = false := by rw [State.coreBreach, hd]; rfl
  have cleaned : (s.cleanCore cl k).modCore cl k (fun c => { c with state := .idle, launchPending := false }) = u := by
    rw [cleanCore_clean hd, State.modCore, core_setCore_self, setCore_setCore]
    rfl
  have launches : (u.cl cl).launches = [l] := (congrArg Cluster.launches (State.cl_setCl_self _ _ _)).trans hl
  have mine : [l].find? (fun l => bitAt l.mask k) = some l := List.find?_cons_of_pos (by rw [bitAt_two_pow]; simp)
  have same : u.setCl cl { u.cl cl with launches := [l].map fun x => if x == l then l else x } = u := by
    have unchanged : { u.cl cl with launches := [l].map fun x => if x == l then l else x } = u.cl cl := by
      rw [List.map_cons, List.map_nil, if_pos (beq_self_eq_true l), ← launches]
    rw [unchanged]
    show (s.setCl cl _).setCl cl ((s.setCl cl _).cl cl) = s.setCl cl _
    rw [State.cl_setCl_self, State.setCl_setCl]
  have started : s.kernelDone cl k = u.launchEnds cl l := by
    unfold State.kernelDone
    rw [hb]
    dsimp only
    rw [cleaned, quiet, launches, mine]
    exact congrArg (fun v : State => v.launchEnds cl l) same
  rw [started]
  exact launchEnds_alone hk (by rw [core_setCore_self]; rfl) (by rw [core_setCore_self]; exact hu) launches

/-- Settles O42. CL_SLEEP is counted when a core wakes, 20 cycles for each beat it slept (log entry 152). -/
theorem coresSleepAndFinish : Obligations.CoresSleepAndFinish := by
  have okCore {cl k : Nat} (h1 : cl < 8) (h2 : k < 8) : (decide (cl < 8) && decide (k < 8)) = true := by simp [h1, h2]
  refine ⟨fun s cl k h1 h2 hl hs ha hw hp hi => ?sleeps, fun s cl k h1 h2 hw => ⟨?awake, fun hl ha => ?wakes⟩,
    fun s cl k mask h1 h2 hl hs => ?clear, fun s cl k q v h1 h2 hl hs hq hr => ⟨fun hp hv ht hz => ?push, fun hp => ?foreign⟩,
    fun s cl k h1 h2 hl hs => ?stray, fun s cl k q x h1 h2 hl hs hd hu hla hx hn hquiet => ?done, fun s cl k h1 h2 hr hi hz hs => ?again⟩
  case sleeps => exact exec_of rfl (okCore h1 h2) (if_pos (by simp [hl, hs, ha, Core.wakes, hw, hp, hi]))
  case awake =>
    have wakes : (s.core cl k).wakes = true := by simpa [Core.wakes, or_assoc] using hw
    exact exec_of rfl (okCore h1 h2) (if_neg (by simp [wakes]))
  case wakes =>
    have wakes : (s.core cl k).wakes = true := by simpa [Core.wakes, or_assoc] using hw
    exact exec_of rfl (okCore h1 h2) ((if_pos (by simp [hl, wakes])).trans (if_pos ha))
  case clear => exact exec_of rfl (okCore h1 h2) (if_pos (by simp [hl, hs]))
  case push =>
    subst hq
    have rings : s.bell (fld v.toNat 32 8) (BitVec.ofNat 32 v.toNat) (cl + 1) =
        s.setQueue (fld v.toNat 32 8) { s.queue (fld v.toNat 32 8) with tail := BitVec.ofNat 32 v.toNat } := by
      unfold State.bell
      dsimp only
      rw [if_neg (by simp [hp, hr]), if_neg hv, if_pos (by rw [ht, decide_eq_true hz]; rfl)]
      rfl
    refine exec_of rfl (okCore h1 h2) ((if_pos (by simp [hl, hs])).trans ?_)
    unfold State.push
    dsimp only
    rw [rings, State.queue_setQueue_self, if_neg (by simp [hp, hr]), if_neg (by simp [hr])]
    rfl
  case foreign =>
    subst hq
    have rings : s.bell (fld v.toNat 32 8) (BitVec.ofNat 32 v.toNat) (cl + 1) = s.foreignBell (fld v.toNat 32 8) := if_pos (.inl hp)
    have told := reported_eventC (s.setQueue (fld v.toNat 32 8) { s.queue (fld v.toNat 32 8) with
      foreignBell := satAdd 0xFFFF (s.queue (fld v.toNat 32 8)).foreignBell 1 }) Det.foreignBell (.queue (fld v.toNat 32 8)) 0 []
      (by decide) (by decide)
    refine ⟨_, exec_of rfl (okCore h1 h2) (if_pos (by simp [hl, hs])), ?_⟩
    unfold State.push
    dsimp only
    rw [rings, if_pos (.inl hp)]
    have same : (s.foreignBell (fld v.toNat 32 8)).core cl k = s.core cl k := told.1.core_eq cl k
    rw [State.modCore, same]
    exact told.setCore cl k _
  case stray =>
    refine ⟨_, exec_of rfl (okCore h1 h2) ((if_pos hl).trans ?_), reported_eventC _ Det.strayDone (.cl cl) k [] (by decide) (by decide)⟩
    rw [State.kernelDone, hs]
  case done =>
    let u : State := s.setCore cl k (coreEnded (s.core cl k))
    let v : State := u.setCl cl { u.cl cl with launches := [] }
    have cores (j : Nat) : v.core cl j = if k = j then coreEnded (s.core cl k) else s.core cl j := by
      rw [State.core, State.cl_setCl_self]
      exact State.core_setCore s cl k j _
    have ended := finish_only (s := v) (d := { status := St.ok }) hx hn (rec_ok x.cmd { status := St.ok } hquiet)
    rw [failPolicy_success _ _ rfl] at ended
    refine ⟨_, exec_of rfl (okCore h1 h2) ((if_pos hl).trans ((kernelDone_clean h2 hs hd hu hla).trans ended)), ?_⟩
    refine ⟨congrArg Core.state ((cores k).trans (if_pos rfl)), congrArg Core.launchPending ((cores k).trans (if_pos rfl)),
      fun j hj => (cores j).trans (if_neg (Ne.symm hj)), congrArg Cluster.launches (State.cl_setCl_self u cl _), rfl, ?_⟩
    exact congrArg Queue.inflight (State.queue_setQueue_self _ q _)
  case again => exact exec_of rfl (okCore h1 h2) (if_pos (by simp [hr, hi, hz, hs]))

end Sys2Proof
end

section
/-!
O43 DmaRegisterCommands.
-/
namespace Sys2Proof
open Sys2Proof.Machine

/-- R373: GO of an idle channel whose start condition has not been met arms it. -/
theorem goChan_arms {s : State} {ch : Nat} (hr : (s.ring (s.chan ch).active.ring).enabled = true) (hh : s.held (320 + ch) = false)
    (hs : (s.chan ch).active.start ≠ 0) (hm : s.alreadyMet (s.chan ch).active = false) :
    s.goChan ch = s.setChan ch { s.chan ch with state := .armed, met := none } := by
  unfold State.goChan
  dsimp only
  rw [hr, hh, hm]
  exact (if_neg (by simp)).trans ((if_neg hs).trans (if_neg Bool.false_ne_true))

/-- R373: GO of an idle channel that starts at once. -/
theorem goChan_runs {s : State} {ch : Nat} (hr : (s.ring (s.chan ch).active.ring).enabled = true) (hh : s.held (320 + ch) = false)
    (hs : (s.chan ch).active.start = 0) : s.goChan ch = s.startXfer ch := by
  unfold State.goChan
  dsimp only
  rw [hr, hh]
  exact (if_neg (by simp)).trans (if_pos hs)

/-- R375: a channel of no remote transfer asks for no segments. -/
theorem sendReserve_local {s : State} {ch : Nat} (h : (s.chan ch).remote = none) : s.sendReserve ch = s := by
  unfold State.sendReserve
  dsimp only
  rw [h]

/-- R373: a command of the DMA registers that a channel's state does not allow. -/
theorem reported_setRefused (s : State) (ch : Nat) : Reported Det.setRefused
    (s.setChan ch { s.chan ch with setRefused := satAdd 0xFFFF (s.chan ch).setRefused 1 }) (s.setRefused ch) :=
  reported_eventC _ Det.setRefused _ _ _ (by decide) (by decide)

theorem reported_chanRefused (s : State) (ch : Nat) : Reported Det.setRefused
    (s.setChan ch { s.chan ch with cfgRefused := true }) (s.chanRefused ch) :=
  reported_eventC _ Det.setRefused _ _ _ (by decide) (by decide)

/-- Settles O43. SET_REFUSED is raised for a refused CFG and a refused SHARE too, and no event for LAND_CFG_REFUSED (log entry 139). -/
theorem dmaRegisterCommands : Obligations.DmaRegisterCommands := by
  have okC {ch : Nat} (h : ch < 64) : okChan ch = true := decide_eq_true h
  refine ⟨fun s ch c h1 hr hc hsw hst hen hh => ⟨fun hs hx hn hm hrem => ?goRuns, fun hs hm => ?goArms⟩,
    fun s ch c h1 hr hc hsw => ?goRefused,
    fun s ch c h1 hr hc hsw ha => ⟨fun hen hh hst => ?armShadow, fun hen hh hst hs hm => ?armPromotes, fun hen => ?armRefused,
      ?disarmRefused⟩, fun s ch c h1 hr hc hsw ha => ?disarms, fun s ch c h1 hr hc hsw hst => ?aborts,
    fun s ch c h1 hr hc => ⟨fun hst ha => ?clears, fun hst => ?clearRefused⟩,
    fun s ch c v h1 hr hc => ⟨fun hst ha ht => ?cfg, fun hst => ?cfgRefused⟩,
    fun s v hr => ⟨fun hq => ?share, fun hq => ?shareRefused⟩,
    fun s w v x y h1 hr hx hy => ⟨fun h => ?land, fun hon hen => ?landOpen, fun hon hen hm => ?landRefused⟩⟩
  case goRuns =>
    subst hc
    let v := (s.chan ch).runs s.dma.order (s.overlaps (s.chan ch).active) none
    have runs : s.startXfer ch = s.withRun ch v := by
      rw [startXfer_runs rfl hx hn (by simp [hrem]) hm, if_neg (by simp [hrem])]
      exact sendReserve_local (congrArg Channel.remote (s.chan_withRun_self ch v))
    refine ⟨_, exec_of rfl (okC h1) ((if_pos hr).trans ((if_pos ⟨hsw, hst⟩).trans ((goChan_runs hen hh hs).trans runs))), ?_⟩
    dsimp only
    rw [State.chan_withRun_self]
    exact ⟨rfl, rfl, rfl, rfl, rfl, rfl, fun k hk => State.chan_withRun_ne _ _ hk, rfl⟩
  case goArms =>
    subst hc
    exact exec_of rfl (okC h1) ((if_pos hr).trans ((if_pos ⟨hsw, hst⟩).trans (goChan_arms hen hh hs hm)))
  case goRefused =>
    subst hc
    have notIdle : ¬ ((s.chan ch).software = true ∧ (s.chan ch).state = .idle) := by
      rintro ⟨h, h'⟩
      obtain hsw | hsw := hsw
      · exact Bool.false_ne_true (hsw.symm.trans h)
      · exact hsw h'
    exact ⟨_, exec_of rfl (okC h1) ((if_pos hr).trans (if_neg notIdle)), reported_setRefused s ch⟩
  case armShadow =>
    subst hc
    refine exec_of rfl (okC h1) ((if_pos hr).trans ?_)
    exact (if_neg (by simp [hsw, ha])).trans ((if_neg (by simp [hen, hh])).trans (if_neg hst))
  case armPromotes =>
    subst hc
    let u : State := s.setChan ch { s.chan ch with active := (s.chan ch).shadow, shadowArmed := false }
    have chan : u.chan ch = { s.chan ch with active := (s.chan ch).shadow, shadowArmed := false } := s.chan_setChan_self ch _
    have promotes : s.promote ch = s.setChan ch { s.chan ch with active := (s.chan ch).shadow, state := .armed, met := none } := by
      have active : (u.chan ch).active = (s.chan ch).shadow := congrArg Channel.active chan
      refine (goChan_arms (s := u) (by rw [active]; exact hen) hh (by rw [active]; exact hs) (by rw [active]; exact hm)).trans ?_
      rw [chan, State.setChan_setChan]
      refine congrArg (s.setChan ch) ?_
      rw [← ha]
    refine exec_of rfl (okC h1) ((if_pos hr).trans ?_)
    exact (if_neg (by simp [hsw, ha])).trans ((if_neg (by simp [hen, hh])).trans ((if_pos hst).trans promotes))
  case armRefused =>
    subst hc
    refine ⟨_, exec_of rfl (okC h1) ((if_pos hr).trans ?_), reported_chanRefused s ch⟩
    exact (if_neg (by simp [hsw, ha])).trans (if_pos (by simp [hen]))
  case disarmRefused =>
    subst hc
    exact ⟨_, exec_of rfl (okC h1) ((if_pos hr).trans (if_neg (by simp [ha]))), reported_setRefused s ch⟩
  case disarms =>
    subst hc
    exact exec_of rfl (okC h1) ((if_pos hr).trans (if_pos ⟨hsw, ha⟩))
  case aborts =>
    subst hc
    have stops : (s.stopChan ch).chan ch = (s.chan ch).stop ∧ (∀ k, k ≠ ch → (s.stopChan ch).chan k = s.chan k) ∧
        (s.stopChan ch).dma.holder = (if s.dma.holder = some ch then none else s.dma.holder) ∧
        { s.stopChan ch with dma := s.dma } = s := by
      unfold State.stopChan State.modChan
      have holder : (s.setChan ch (s.chan ch).stop).dma.holder = s.dma.holder := rfl
      dsimp only
      rw [holder]
      split
      · exact ⟨s.chan_setChan_self ch _, fun k hk => s.chan_setChan_ne _ hk, rfl, rfl⟩
      · exact ⟨s.chan_setChan_self ch _, fun k hk => s.chan_setChan_ne _ hk, rfl, rfl⟩
    exact ⟨_, exec_of rfl (okC h1) ((if_pos hr).trans (if_pos ⟨hsw, hst⟩)), stops⟩
  case clears =>
    subst hc
    refine exec_of rfl (okC h1) ((if_pos hr).trans ((if_pos hst).trans (if_neg ?_)))
    rw [State.modChan, State.chan_setChan_self]
    simp [ha]
  case clearRefused =>
    subst hc
    exact ⟨_, exec_of rfl (okC h1) ((if_pos hr).trans (if_neg hst)), reported_setRefused s ch⟩
  case cfg =>
    subst hc
    exact exec_of rfl (okC h1) ((if_pos hr).trans (if_pos ⟨hst, by simp [ha], by simp [ht]⟩))
  case cfgRefused =>
    subst hc
    refine ⟨_, exec_of rfl (okC h1) ((if_pos hr).trans (if_neg ?_)), reported_chanRefused s ch⟩
    rintro ⟨h, h', h''⟩
    obtain hst | hst | hst := hst
    · exact hst h
    · simp [hst] at h'
    · rw [Option.isNone_iff_eq_none] at h''
      simp [h''] at hst
  case share => exact exec_of rfl rfl ((if_pos hr).trans (if_pos hq))
  case shareRefused =>
    exact ⟨_, exec_of rfl rfl ((if_pos hr).trans (if_neg (by simp [hq]))), reported_eventC _ Det.setRefused _ _ _ (by decide) (by decide)⟩
  case land =>
    subst hx hy
    refine exec_of rfl (decide_eq_true h1) ((if_pos hr).trans ?_)
    obtain hoff | ⟨hen, hm⟩ := h
    · exact (if_neg (by simp [hoff])).trans (if_neg (by simp [hoff]))
    · exact (if_neg (by simp [hen])).trans (if_neg (by rw [hm]; simp))
  case landOpen =>
    subst hx hy
    exact exec_of rfl (decide_eq_true h1) ((if_pos hr).trans (if_pos (by simp [hon, hen])))
  case landRefused =>
    subst hx hy
    refine exec_of rfl (decide_eq_true h1) ((if_pos hr).trans ?_)
    exact (if_neg (by simp [hen])).trans (if_pos (by rw [hm, hon]; rfl))

end Sys2Proof
end

section
/-!
SUPPORT. Bursts of local transfers (R377 to R383): what a burst does to its channel, to the others and to memory.
-/
namespace Sys2Proof
open Sys2Proof.Machine

/-- What leaves memory, the other channels and the cursor and progress of channel `ch` as they were. -/
structure SameMoved (ch : Nat) (s t : State) : Prop where
  ram : t.ram = s.ram
  others : ∀ k, k ≠ ch → t.chan k = s.chan k
  cursor : (t.chan ch).cursor = (s.chan ch).cursor
  progress : (t.chan ch).progress = (s.chan ch).progress
  lastIssued : t.dma.lastIssued = s.dma.lastIssued

theorem SameMoved.rfl' (ch : Nat) (s : State) : SameMoved ch s s := ⟨rfl, fun _ _ => rfl, rfl, rfl, rfl⟩

theorem SameMoved.trans {ch : Nat} {s t u : State} (h : SameMoved ch s t) (k : SameMoved ch t u) : SameMoved ch s u :=
  ⟨k.ram.trans h.ram, fun j hj => (k.others j hj).trans (h.others j hj), k.cursor.trans h.cursor, k.progress.trans h.progress,
    k.lastIssued.trans h.lastIssued⟩

/-- A change of channel `ch` that keeps its cursor and its progress. -/
theorem SameMoved.modChan (ch : Nat) (s : State) {f : Channel → Channel} (hc : (f (s.chan ch)).cursor = (s.chan ch).cursor)
    (hp : (f (s.chan ch)).progress = (s.chan ch).progress) : SameMoved ch s (s.modChan ch f) := by
  have chan : (s.modChan ch f).chan ch = f (s.chan ch) := s.chan_setChan_self ch _
  exact ⟨rfl, fun k hk => s.chan_setChan_ne _ hk, by rw [chan, hc], by rw [chan, hp], rfl⟩

theorem SameMoved.holder (ch : Nat) (s : State) (h : Option Nat) : SameMoved ch s { s with dma.holder := h } :=
  ⟨rfl, fun _ _ => rfl, rfl, rfl, rfl⟩

/-- R382: the end of a transfer. -/
theorem endXfer_same (ch : Nat) (s : State) (d : Done) : SameMoved ch s (s.endXfer ch d) := by
  unfold State.endXfer
  dsimp only
  split
  · exact SameMoved.trans (.modChan ch s rfl rfl) (.holder ch _ _)
  · exact .modChan ch s rfl rfl

theorem readHost_same (ch : Nat) (s : State) (a len : Nat) (chan : Option Nat) (cmd : Option (Nat × Nat)) (flush : Bool) :
    SameMoved ch s (s.readHost a len chan cmd flush) := ⟨rfl, fun _ _ => rfl, rfl, rfl, rfl⟩

theorem issuedAll_same (ch : Nat) (s : State) : SameMoved ch s (s.issuedAll ch) := by
  have free : SameMoved ch s (if s.dma.holder = some ch then { s with dma.holder := none } else s) := by
    split
    · exact .holder ch s none
    · exact .rfl' ch s
  refine free.trans ?_
  unfold State.issuedAll
  dsimp only
  generalize (if s.dma.holder = some ch then { s with dma.holder := none } else s) = u
  split
  · exact SameMoved.trans (.modChan ch u rfl rfl) (endXfer_same ch _ _)
  · split
    · split
      · exact SameMoved.trans (.modChan ch u rfl rfl) (readHost_same ch _ _ _ _ _ _)
      · exact endXfer_same ch u _
    · split
      · exact .modChan ch u rfl rfl
      · exact endXfer_same ch u _

theorem ifAll_same (ch : Nat) (s : State) : SameMoved ch s (s.ifAll ch) := by
  unfold State.ifAll
  split
  · exact .rfl' ch s
  · exact issuedAll_same ch s

/-- R166: a transfer under a lease in breach is marked so. -/
def breachMarked (s : State) (ch : Nat) (b : Bool) : State := if b then s.modChan ch fun c => { c with breach := true } else s

theorem breachMarked_same (s : State) (ch : Nat) (b : Bool) : SameMoved ch s (breachMarked s ch b) ∧
    ((breachMarked s ch b).chan ch).scrambled = (s.chan ch).scrambled ∧
    (∀ a n ph, Readable s a n ph → Readable (breachMarked s ch b) a n ph) ∧
    ∀ a n ph, Writable s a n ph → Writable (breachMarked s ch b) a n ph := by
  have chan : (s.modChan ch fun c => { c with breach := true }).chan ch = { s.chan ch with breach := true } := s.chan_setChan_self ch _
  cases b with
  | true => exact ⟨SameMoved.modChan ch s (f := fun c => { c with breach := true }) rfl rfl, (congrArg Channel.scrambled chan :), fun _ _ _ h => h, fun _ _ _ h => h⟩
  | false => exact ⟨.rfl' ch s, rfl, fun _ _ _ h => h, fun _ _ _ h => h⟩

/-- R377: what a burst that moves the bytes `bs` to physical address `ph` leaves. -/
structure Bursts (ch ph : Nat) (bs : List Byte) (s t : State) : Prop where
  ram : t.ram = s.ram.writeN ph bs
  others : ∀ k, k ≠ ch → t.chan k = s.chan k
  cursor : (t.chan ch).cursor = (s.chan ch).cursor + bs.length
  progress : (t.chan ch).progress = (s.chan ch).progress + bs.length
  lastIssued : t.dma.lastIssued = s.dma.lastIssued

/-- R379: bytes that are put at a destination in device memory. -/
theorem putBytes_stores {s : State} {ch a n ph : Nat} {bs : List Byte} (hs : (s.chan ch).scrambled = false) (hn : bs.length = n)
    (hw : Writable s a n ph) : ∃ t, s.putBytes ch false a bs = (t, true) ∧ t.ram = s.ram.writeN ph bs ∧
      (∀ k, k ≠ ch → t.chan k = s.chan k) ∧ (t.chan ch).cursor = (s.chan ch).cursor ∧
      (t.chan ch).progress = (s.chan ch).progress + bs.length ∧ t.dma.lastIssued = s.dma.lastIssued := by
  let u : State := breachMarked s ch (s.breached .dma ch true a bs.length)
  obtain ⟨marked, -, -, writable⟩ := breachMarked_same s ch (s.breached .dma ch true a bs.length)
  obtain ⟨m, stored⟩ := store_writable hn (writable a n ph hw)
  let v : State := u.withBytes ph bs m
  have put : s.putBytes ch false a bs = (v.modChan ch fun c => { c with progress := c.progress + bs.length }, true) := by
    unfold State.putBytes
    simp only [hs, Bool.false_and, Bool.false_eq_true, if_false]
    show (match u.store a bs with
      | (s, .ok) => _
      | (s, .strict page) => _
      | (s, .ue page) => _
      | (s, .unbacked a) => _) = _
    rw [stored]
  have chan : (v.modChan ch fun c => { c with progress := c.progress + bs.length }).chan ch =
      { v.chan ch with progress := (v.chan ch).progress + bs.length } := v.chan_setChan_self ch _
  refine ⟨_, put, ?_, fun k hk => (v.chan_setChan_ne _ hk).trans (marked.others k hk), ?_, ?_, marked.lastIssued⟩
  · show u.ram.writeN ph bs = _
    rw [marked.ram]
  · rw [chan]
    exact marked.cursor
  · rw [chan]
    exact congrArg (· + bs.length) marked.progress

/-- R379: `n` bytes have been moved. -/
theorem moved_ends {s t : State} {ch ph n : Nat} {bs : List Byte} (hn : bs.length = n) (hr : t.ram = s.ram.writeN ph bs)
    (ho : ∀ k, k ≠ ch → t.chan k = s.chan k) (hc : (t.chan ch).cursor = (s.chan ch).cursor)
    (hp : (t.chan ch).progress = (s.chan ch).progress + bs.length) (hl : t.dma.lastIssued = s.dma.lastIssued) :
    Bursts ch ph bs s ((t.moved ch n).ifAll ch) := by
  obtain ⟨ram, others, cursor, progress, lastIssued⟩ := ifAll_same ch (t.moved ch n)
  have chan : (t.moved ch n).chan ch = { t.chan ch with cursor := (t.chan ch).cursor + n, hostA := none, hostB := none } :=
    t.chan_setChan_self ch _
  refine ⟨ram.trans hr, fun k hk => (others k hk).trans ((t.chan_setChan_ne _ hk).trans (ho k hk)), ?_, ?_, lastIssued.trans hl⟩
  · rw [cursor, chan, hn]
    exact congrArg (· + n) hc
  · rw [progress, chan]
    exact hp

/-- R139, R379: `n` bytes of an operand in device memory. -/
theorem operandBytes_reads {s : State} {ch a n ph : Nat} (use : HostUse) (hr : Readable s a n ph) : ∃ t,
    s.operandBytes ch use false a n = (t, .data (s.ram.readN ph n)) ∧ SameMoved ch s t ∧ (t.chan ch).scrambled = (s.chan ch).scrambled ∧
      ∀ a n ph, Writable s a n ph → Writable t a n ph := by
  let u : State := breachMarked s ch (s.breached .dma ch false a n)
  obtain ⟨same, scrambled, readable, writable⟩ := breachMarked_same s ch (s.breached .dma ch false a n)
  obtain ⟨k, loaded⟩ := load_readable (readable a n ph hr)
  refine ⟨u.modCtrl k (·.touch (ph / 2048 * 2048)), ?_, same.trans ⟨rfl, fun _ _ => rfl, rfl, rfl, rfl⟩, scrambled,
    fun a n ph h => Writable.modCtrl (writable a n ph h) k _⟩
  unfold State.operandBytes
  dsimp only
  rw [if_neg Bool.false_ne_true]
  show (match u.load a n with
    | (s, .data bs) => _
    | (s, .ue page det) => _
    | (s, .unbacked a) => _) = _
  rw [loaded, ← same.ram]

end Sys2Proof
end

section
/-!
O44 DmaEngineAndLanding.
-/
namespace Sys2Proof
open Sys2Proof.Machine

/-! ### Bursts -/

theorem burst_plain {s : State} {ch : Nat} (hr : (s.chan ch).remote = none) (ho : (s.chan ch).active.op = 0 ∨ (s.chan ch).active.op = 1) :
    s.burst ch = s.burstPlain ch := by
  unfold State.burst
  dsimp only
  rw [hr]
  obtain ho | ho := ho <;> rw [ho] <;> rfl

theorem length_fillBytes (d : DmaSet) (o n : Nat) : (fillBytes d o n).length = n := by simp [fillBytes]

/-- R251, R379: a burst of a FILL in device memory. -/
theorem burstPlain_fill {s : State} {ch n ph : Nat} {c : Channel} (hc : c = s.chan ch) (hs : c.scrambled = false)
    (hb : c.active.bHost = false) (hn : n = min (c.active.count - c.cursor) (toBoundary (c.active.dst.toNat + c.cursor)))
    (hw : Writable s (c.active.dst.toNat + c.cursor) n ph) (ho : c.active.op = 1) :
    Bursts ch ph (fillBytes c.active c.cursor n) s (s.burstPlain ch) := by
  subst hc
  have len := length_fillBytes (s.chan ch).active (s.chan ch).cursor n
  obtain ⟨t, put, ram, others, cursor, progress, lastIssued⟩ := putBytes_stores hs len hw
  have ran : s.burstPlain ch = (t.moved ch n).ifAll ch := by
    unfold State.burstPlain
    dsimp only
    rw [if_pos ho, ← hn, hb, put]
  rw [ran]
  exact moved_ends len ram others cursor progress lastIssued

/-- R250, R379: a burst of a COPY in device memory. -/
theorem burstPlain_copy {s : State} {ch n ph ph' : Nat} {c : Channel} (hc : c = s.chan ch) (hs : c.scrambled = false)
    (ha : c.active.aHost = false) (hb : c.active.bHost = false)
    (hn : n = min (c.active.count - c.cursor) (toBoundary (c.active.dst.toNat + c.cursor)))
    (hr : Readable s (c.active.src.toNat + c.cursor) n ph) (hw : Writable s (c.active.dst.toNat + c.cursor) n ph')
    (ho : c.active.op = 0) : Bursts ch ph' (s.ram.readN ph n) s (s.burstPlain ch) := by
  subst hc
  obtain ⟨u, read, same, scrambled, writable⟩ := operandBytes_reads (ch := ch) .a hr
  have len : (s.ram.readN ph n).length = n := length_readN _ _ _
  obtain ⟨t, put, ram, others, cursor, progress, lastIssued⟩ := putBytes_stores (scrambled.trans hs) len (writable _ _ _ hw)
  have ran : s.burstPlain ch = (t.moved ch n).ifAll ch := by
    unfold State.burstPlain
    dsimp only
    rw [if_neg (by omega), ← hn, ha, hb]
    dsimp only [hostCap]
    rw [if_neg Bool.false_ne_true, read]
    dsimp only
    rw [put]
  rw [ran]
  refine moved_ends len (ram.trans (by rw [same.ram])) (fun k hk => (others k hk).trans (same.others k hk)) (cursor.trans same.cursor)
    (progress.trans (by rw [same.progress])) (lastIssued.trans same.lastIssued)

/-- R377, R378: the channel that issues, where nothing is to be sent again. -/
theorem dmaTurn_bursts {s : State} {ch : Nat} (hp : s.pickChan = some ch)
    (hr : ∀ k, (s.chan k).canResend true = false ∧ (s.chan k).canResend false = false) :
    s.dmaTurn = ({ s with dma.lastIssued := ch, dma.holder := if s.dma.serial then some ch else s.dma.holder } : State).burst ch := by
  have none : ((List.range 64).flatMap fun c => [(c, true), (c, false)]).find? (fun x => (s.chan x.1).canResend x.2) = none := by
    rw [List.find?_eq_none]
    rintro ⟨c, trail⟩ -
    cases trail
    · simp [(hr c).2]
    · simp [(hr c).1]
  unfold State.dmaTurn
  rw [none, hp]

/-! ### Streams -/

theorem stream_key {s : State} {src tag : Nat} {x : StreamRx} (h : s.stream src tag = some x) : x.source = src ∧ x.optag = tag := by
  have found := List.find?_some h
  simpa [StreamRx.is] using found

/-- R391: a stream that is known is the one that is put in its place. -/
theorem stream_putStream {s : State} {src tag : Nat} {x y : StreamRx} (h : s.stream src tag = some x) (hs : y.source = src)
    (ho : y.optag = tag) : (s.putStream y).stream src tag = some y := by
  subst hs ho
  unfold State.stream at h
  unfold State.stream State.putStream
  dsimp only
  generalize s.dma.streams = zs at h ⊢
  induction zs with
  | nil => exact absurd h (by simp)
  | cons z zs ih =>
    rw [List.find?_cons] at h
    rw [List.map_cons, List.find?_cons]
    by_cases hz : z.is y.source y.optag = true
    · have self : y.is y.source y.optag = true := by simp [StreamRx.is]
      rw [if_pos hz, self]
    · rw [if_neg hz]
      simp only [Bool.not_eq_true] at hz
      rw [hz] at h ⊢
      exact ih h

/-- The slot `j` of segment `k` that a stream holds. -/
def heldSlot (s : State) (src tag k j : Nat) : Option (Option (List Byte)) :=
  (s.stream src tag).map fun y => Tab.find (y.seg k).slots j

theorem heldSlot_of_streams {s t : State} (h : t.dma.streams = s.dma.streams) (src tag k j : Nat) :
    heldSlot t src tag k j = heldSlot s src tag k j := by
  unfold heldSlot State.stream
  rw [h]

theorem seg_setSeg (x : StreamRx) (k j : Nat) (v : SegIn) : (x.setSeg k v).seg j = if k = j then v else x.seg j := Tab.get_put _ _ _ _ _

/-- R393: a segment that is given up keeps its slots. -/
theorem heldSlot_gaveUp (s : State) (src tag k j m : Nat) :
    heldSlot (match s.stream src tag with
      | some y => s.putStream (y.setSeg m { y.seg m with gaveUp := true })
      | none => s) src tag k j = heldSlot s src tag k j := by
  split
  · next y hy =>
    obtain ⟨hs, ho⟩ := stream_key hy
    unfold heldSlot
    rw [stream_putStream (y := y.setSeg m { y.seg m with gaveUp := true }) hy hs ho, hy, Option.map_some, Option.map_some, seg_setSeg]
    split
    · next e => rw [e]
    · rfl
  · rfl

/-- R393: what the landing of a page keeps: the slots of the stream, and the ports. -/
theorem landPage_kept (s : State) (x : StreamRx) (pg k j : Nat) :
    heldSlot (s.landPage x pg) x.source x.optag k j = heldSlot s x.source x.optag k j ∧ (s.landPage x pg).ports = s.ports := by
  unfold State.landPage
  split
  · exact ⟨rfl, rfl⟩
  · next p hp =>
    dsimp only
    split
    · exact ⟨rfl, rfl⟩
    · have stored := State.store_frame { s with dma.landing := Tab.del s.dma.landing pg } pg (p.bytes.map (·.2))
      obtain ⟨-, -, -, -, -, ports, -, -, -, -, -, -, -, -, -, dma, -⟩ := stored
      generalize State.store { s with dma.landing := Tab.del s.dma.landing pg } pg (p.bytes.map (·.2)) = r at ports dma ⊢
      obtain ⟨u, answer⟩ := r
      dsimp only at dma ports
      have streams : u.dma.streams = s.dma.streams := (congrArg Dma.streams dma :)
      have gives (v : State) (hd : v.dma = u.dma) (hv : v.ports = u.ports) :
          heldSlot (match v.stream x.source x.optag with
            | some y => v.putStream (y.setSeg p.seg { y.seg p.seg with gaveUp := true })
            | none => v) x.source x.optag k j = heldSlot s x.source x.optag k j ∧
          (match v.stream x.source x.optag with
            | some y => v.putStream (y.setSeg p.seg { y.seg p.seg with gaveUp := true })
            | none => v).ports = s.ports := by
        refine ⟨?_, ?_⟩
        · rw [heldSlot_gaveUp]
          refine heldSlot_of_streams ?_ _ _ _ _
          rw [hd, streams]
        · split <;> exact hv.trans ports
      cases answer with
      | ok => exact ⟨heldSlot_of_streams streams _ _ _ _, ports⟩
      | strict page => exact gives u rfl rfl
      | ue page => exact gives _ (by simp) (by simp)
      | unbacked a => exact gives _ (by simp) (by simp)

/-- R392, R393: a slot that has a place in the landing buffer is kept in its segment. -/
theorem placeSlot_kept {s : State} {p : Nat} {x : StreamRx} {sl : Slot} (a : Nat) (hx : s.stream x.source x.optag = some x) :
    heldSlot (s.placeSlot p x sl a) x.source x.optag sl.segment sl.slotInSeg = some (some sl.payload) ∧
      (s.placeSlot p x sl a).ports = s.ports := by
  let base : SegIn := if (x.seg sl.segment).passed ∨ (x.seg sl.segment).gaveUp then {} else x.seg sl.segment
  let y : StreamRx := { x.setSeg sl.segment (base.take sl 0 s.now) with
    firstAt := if (Tab.find x.firstAt sl.segment).isSome then x.firstAt else Tab.put x.firstAt sl.segment s.now
    ends := if sl.last then Tab.put x.ends sl.segment (576 * sl.slotInSeg + sl.payload.length) else x.ends }
  have took : heldSlot (s.putStream y) y.source y.optag sl.segment sl.slotInSeg = some (some sl.payload) := by
    have seg : y.seg sl.segment = base.take sl 0 s.now := (seg_setSeg x sl.segment sl.segment _).trans (if_pos rfl)
    unfold heldSlot
    rw [stream_putStream (src := y.source) (tag := y.optag) (y := y) hx rfl rfl, Option.map_some, seg]
    exact congrArg some ((Tab.find_put _ _ _ _).trans (if_pos rfl))
  let keep (z : Nat × Nat × List Byte) (st : State) : State :=
    let pg := (Tab.find st.dma.landing z.1).getD { source := y.source, optag := y.optag, seg := sl.segment, port := p }
    { st with dma.landing := Tab.put st.dma.landing z.1 ({ pg with port := p }.add z.2.1 z.2.2) }
  let pages (u : State) : State := forEach (pagesOf a sl.payload) keep u
  have streams (u : State) : ((pages u).dma.streams, (pages u).ports) = (u.dma.streams, u.ports) :=
    foldl_keeps (fun v : State => (v.dma.streams, v.ports)) (fun st z => keep z st) (fun _ _ => rfl) (pagesOf a sl.payload) u
  have landed (u : State) (ps : List Nat) : (heldSlot (forEach ps (fun pg st => st.landPage y pg) u) y.source y.optag sl.segment
      sl.slotInSeg, (forEach ps (fun pg st => st.landPage y pg) u).ports) =
      (heldSlot u y.source y.optag sl.segment sl.slotInSeg, u.ports) :=
    foldl_keeps (fun v : State => (heldSlot v y.source y.optag sl.segment sl.slotInSeg, v.ports)) _
      (fun v pg => Prod.ext_iff.mpr (landPage_kept v y pg _ _)) ps u
  obtain ⟨held, ports⟩ := Prod.ext_iff.mp (landed (pages (s.putStream y)) (((pages (s.putStream y)).dma.landing.filter fun z =>
    z.2.source == y.source && z.2.optag == y.optag && z.2.seg == sl.segment).map (·.1)))
  obtain ⟨same, samePorts⟩ := Prod.ext_iff.mp (streams (s.putStream y))
  exact ⟨held.trans ((heldSlot_of_streams same _ _ _ _).trans took), ports.trans samePorts⟩

/-! ### Completion of a SOFTWARE transfer -/

/-- R222, R224: a record that a ring has accepted. -/
theorem recordAccepted_tail (s : State) (r : Nat) (force : Bool) : ((s.recordAccepted r force).ring r).tail = (s.ring r).tail + 1 ∧
    (s.recordAccepted r force).queues = s.queues ∧ (s.recordAccepted r force).ram = s.ram ∧ (s.recordAccepted r force).dma = s.dma ∧
    (s.recordAccepted r force).ports = s.ports := by
  let counted : State := s.modRing r fun x => { x with
    tail := x.tail + 1, unsignalled := x.unsignalled + 1, oldest := some (x.oldest.getD s.now) }
  obtain ⟨cs, fired⟩ := forEach_fireWire (counted.wiresOf .ring r) counted
  let u : State := { counted with clusters := cs }
  have tail : (u.ring r).tail = (s.ring r).tail + 1 :=
    congrArg Ring.tail (State.ring_modRing_self s r fun x => { x with
      tail := x.tail + 1, unsignalled := x.unsignalled + 1, oldest := some (x.oldest.getD s.now) })
  have told : ((u.ringMessage r).ring r).tail = (u.ring r).tail ∧ (u.ringMessage r).queues = u.queues ∧
      (u.ringMessage r).ram = u.ram ∧ (u.ringMessage r).dma = u.dma ∧ (u.ringMessage r).ports = u.ports := by
    have but : ButReports (u.modRing r fun x => { x with unsignalled := 0, oldest := none }) (u.ringMessage r) := by
      unfold State.ringMessage
      rw [butReports_fire]
      exact ButReports.rfl' _
    refine ⟨?_, but.queues, but.ram, but.dma, but.ports⟩
    rw [but.ring_eq, State.ring_modRing_self]
  have unfolded : s.recordAccepted r force = (if force || ((u.ring r).irqCount != 0 && decide ((u.ring r).irqCount ≤ (u.ring r).unsignalled))
      then u.ringMessage r else u) := by
    unfold State.recordAccepted
    dsimp only
    rw [fired]
  rw [unfolded]
  obtain ⟨tail', queues, ram, dma, ports⟩ := told
  split
  · exact ⟨tail'.trans tail, queues, ram, dma, ports⟩
  · exact ⟨tail, rfl, rfl, rfl, rfl⟩

/-- R374: what a channel sees of another's end leaves the channel that ended as it is, unless it is armed to wait on itself. -/
theorem chan_seeDone_idle {s : State} {ch status : Nat} (h : (s.chan ch).state = .idle) : (s.seeDone ch status).chan ch = s.chan ch := by
  have seen : (s.seeDone ch status).chan ch = (s.chan ch).seeDone ch (St.success status) :=
    Tab.get_mapVals ({} : Channel) (fun _ c => c.seeDone ch (St.success status)) (fun _ => rfl) _ _
  rw [seen, Channel.seeDone, h]
  rfl

/-- R406: a write of a tally keeps the streams and the memory. -/
theorem putTally_streams (s : State) (n : Nat) (v : DWord) :
    (s.putTally n v).dma.streams = s.dma.streams ∧ (s.putTally n v).ram = s.ram := by
  unfold State.putTally
  dsimp only
  split
  · exact ⟨by simp, by simp⟩
  · exact ⟨by simp, by simp⟩

/-- R395: a RELEASE of a stream is cue traffic. -/
theorem releaseStream_streams (s : State) (x : StreamRx) :
    (s.releaseStream x).dma = s.dma ∧ (s.releaseStream x).ram = s.ram := by
  unfold State.releaseStream
  dsimp only
  split
  · exact ⟨rfl, rfl⟩
  · split
    · exact ⟨by simp, by simp⟩
    · exact ⟨by simp, by simp⟩

/-- R383, R388: a SOFTWARE transfer that ended well leaves its channel IDLE once its record is written. -/
theorem softEnd_idle {s w : State} {ch : Nat} (hr : s.softRecord ch { status := St.ok } = w) (hw : w.chan ch = s.chan ch)
    (hi : (s.chan ch).active.sigInc = 0) (ha : (s.chan ch).shadowArmed = false) : ∃ t, s.softEnd ch { status := St.ok } = t ∧
      t.chan ch = { s.chan ch with state := .idle, lastStatus := 0, done := none, remote := none } ∧ t.ram = w.ram ∧
      t.rings = w.rings ∧ t.queues = w.queues := by
  let v := w.modChan ch fun c => { c with state := .idle, lastStatus := 0, done := none, remote := none }
  have chan : v.chan ch = { s.chan ch with state := .idle, lastStatus := 0, done := none, remote := none } := by
    rw [← hw]
    exact State.chan_setChan_self _ ch _
  have noTally : ¬ ((St.success St.ok && (s.chan ch).active.sigInc != 0) = true) := by simp [hi]
  have ended : s.softEnd ch { status := St.ok } = v.seeDone ch 0 := by
    unfold State.softEnd
    dsimp only
    rw [hr, if_neg noTally]
    refine congrArg (fun u : State => u.seeDone ch 0) (if_neg ?_)
    rintro ⟨-, h⟩
    exact Bool.false_ne_true (ha.symm.trans ((congrArg Channel.shadowArmed chan).symm.trans h))
  exact ⟨_, ended, (chan_seeDone_idle (congrArg Channel.state chan)).trans chan, rfl, rfl, rfl⟩

/-- What a burst in device memory leaves, said of the state before it was issued. -/
theorem Bursts.stored {ch ph n cu pr : Nat} {bs : List Byte} {s t : State} (h : Bursts ch ph bs s t) (hm : s.ram.wf = true)
    (hn : bs.length = n) (hc : cu = (s.chan ch).cursor) (hp : pr = (s.chan ch).progress) :
    t.ram.readN ph n = bs ∧ (∀ a, a < ph ∨ ph + n ≤ a → t.ram.read a = s.ram.read a) ∧ (t.chan ch).cursor = cu + n ∧
      (t.chan ch).progress = pr + n ∧ t.dma.lastIssued = s.dma.lastIssued ∧ ∀ k, k ≠ ch → t.chan k = s.chan k := by
  subst hn hc hp
  refine ⟨?_, fun a ha => ?_, h.cursor, h.progress, h.lastIssued, h.others⟩
  · rw [h.ram]
    exact Mem.readN_writeN bs s.ram ph hm
  · rw [h.ram]
    exact Mem.read_writeN_other bs s.ram ph a hm ha

theorem exec_streamLanding {s : State} {p i : Nat} {sl : Slot} (h : p < 16) (hl : s.live = true) (hs : s.streamAt p = some (i, sl)) :
    Machine.exec (.streamLanding p) s = .next (s.landSlot p i sl) := by
  refine exec_of rfl (decide_eq_true h : okPort p = true) ?_
  rw [hl, hs]

theorem exec_streamStall {s : State} {ch : Nat} (h : ch < 64) (hl : s.live = true) (ht : (s.chan ch).trail = none) :
    Machine.exec (.streamStall ch) s = .next (s.sideStall ch false) := by
  have none : s.sideStall ch true = s := by
    unfold State.sideStall
    rw [show (s.chan ch).side true = none from ht]
  exact exec_of rfl (decide_eq_true h : okChan ch = true) ((if_pos hl).trans (by rw [none]))

/-- Settles O44. DMA_COMPLETE finishes the command of its transfer or writes the record of a SOFTWARE one (log entry 136), and the
writes of a burst stand from its issue (log entry 141). -/
theorem dmaEngineAndLanding : Obligations.DmaEngineAndLanding := by
  have okC {ch : Nat} (h : ch < 64) : okChan ch = true := decide_eq_true h
  have okP {p : Nat} (h : p < 16) : okPort p = true := decide_eq_true h
  refine ⟨fun s ch c h1 hr hc ha => ⟨fun hm => ?abandoned, fun hm hn => ?waits, fun hm hx hn hmv hrem => ?starts⟩,
    fun s ch n ph ph' c hr hp hre hc hrem hscr hb hn hw hram => ⟨fun ho => ?fill, fun ho hah _ hrd => ?copy⟩,
    fun s ch q c d x h1 hl hc hst hd hcmd hx hnd hq hok => ?completes,
    fun s ch ph c g h1 hl hc hst hd hcmd hinc hsh hg hfull hw hram => ?software,
    fun s p i sl h1 hl hs => ⟨fun hx => ?stray, fun x a hx hcp he hlim => ⟨fun hroom => ?noRoom, fun hroom => ?places⟩⟩,
    fun s p h1 hs => ?noSlot,
    fun s src tag k x hwf hl hx hcp hp hg hck hbuf => ?lands,
    fun s ch r n h1 hl ht hrm hgr hra => ⟨fun h => ?stalls, fun h => ?goesOn⟩,
    fun s src tag n x hwf hx hcp => ⟨fun h => ?expires, fun h => ?keeps⟩⟩
  case abandoned =>
    subst hc
    have ran : s.dmaStart ch = s.endXfer ch cancelDone := by
      unfold State.dmaStart
      dsimp only
      rw [if_neg (not_not_intro ha), hm]
    have same := endXfer_same ch s cancelDone
    refine ⟨_, exec_of rfl (okC h1) ((if_pos hr).trans ran), ?_, ?_, same.others, ?_⟩
    all_goals
      unfold State.endXfer
      dsimp only
      split
    · exact congrArg Channel.state (s.chan_setChan_self ch _)
    · exact congrArg Channel.state (s.chan_setChan_self ch _)
    · exact congrArg Channel.done (s.chan_setChan_self ch _)
    · exact congrArg Channel.done (s.chan_setChan_self ch _)
    · rfl
    · rfl
  case waits =>
    subst hc
    have not : ¬ ((s.chan ch).active.start = 1 ∧ s.timed = true ∧ s.reached (s.chan ch).active.eventStamp = true) := by
      rintro ⟨start, timed, reached⟩
      obtain h | h | h := hn
      · exact h start
      · exact Bool.false_ne_true (h.symm.trans timed)
      · exact Bool.false_ne_true (h.symm.trans reached)
    have ran : s.dmaStart ch = s := by
      unfold State.dmaStart
      dsimp only
      rw [if_neg (not_not_intro ha), hm]
      exact if_neg not
    exact exec_of rfl (okC h1) ((if_pos hr).trans ran)
  case starts =>
    subst hc
    let v := (s.chan ch).runs s.dma.order (s.overlaps (s.chan ch).active) none
    have runs : s.startXfer ch = s.withRun ch v := by
      rw [startXfer_runs rfl hx hn (by simp [hrem]) hmv, if_neg (by simp [hrem])]
      exact sendReserve_local (congrArg Channel.remote (s.chan_withRun_self ch v))
    have ran : s.dmaStart ch = s.withRun ch v := by
      unfold State.dmaStart
      dsimp only
      rw [if_neg (not_not_intro ha), ← runs]
      obtain hm | ⟨hm, due⟩ := hm
      · rw [hm]
      · rw [hm]
        exact if_pos due
    refine ⟨_, exec_of rfl (okC h1) ((if_pos hr).trans ran), ?_⟩
    dsimp only
    rw [State.chan_withRun_self]
    exact ⟨rfl, rfl, rfl, rfl, fun k hk => State.chan_withRun_ne _ _ hk, rfl⟩
  case fill =>
    let u : State := { s with dma.lastIssued := ch, dma.holder := if s.dma.serial then some ch else s.dma.holder }
    have plain : u.burst ch = u.burstPlain ch := burst_plain (by subst hc; exact hrem) (.inr (by subst hc; exact ho))
    have bursts := burstPlain_fill (s := u) hc hscr hb hn hw ho
    rw [← plain] at bursts
    exact ⟨_, exec_of rfl rfl ((if_pos hr).trans (dmaTurn_bursts hp hre)),
      bursts.stored hram (length_fillBytes _ _ _) (congrArg Channel.cursor hc) (congrArg Channel.progress hc)⟩
  case copy =>
    let u : State := { s with dma.lastIssued := ch, dma.holder := if s.dma.serial then some ch else s.dma.holder }
    have plain : u.burst ch = u.burstPlain ch := burst_plain (by subst hc; exact hrem) (.inl (by subst hc; exact ho))
    have bursts := burstPlain_copy (s := u) hc hscr hah hb hn hrd hw ho
    rw [← plain] at bursts
    exact ⟨_, exec_of rfl rfl ((if_pos hr).trans (dmaTurn_bursts hp hre)),
      bursts.stored hram (length_readN _ _ _) (congrArg Channel.cursor hc) (congrArg Channel.progress hc)⟩
  case completes =>
    subst hc
    have same : s.answered ch = s := by
      unfold State.answered
      exact if_neg (by simp [hd])
    have ran : s.completeXfer ch = s.finish q x.tok d := by
      unfold State.completeXfer
      dsimp only
      rw [same, hst, hd, hcmd]
    refine exec_of rfl (okC h1) ((if_pos hl).trans (ran.trans ?_))
    rw [finish_only hx hnd (rec_ok _ _ hq), failPolicy_success _ _ hok]
  case software =>
    subst hc hg
    let d : Done := { status := St.ok }
    let a := (s.chan ch).active
    let bs := recordBytes 0xFF (softCommand a) d s.stamp ((s.ring a.ring).tail.toNat / (s.ring a.ring).size % 2 == 0)
    have len : bs.length = 32 := length_recordBytes _ _ _ _ _
    obtain ⟨m, stored⟩ := store_writable len hw
    obtain ⟨tail, queues, ram, dma, -⟩ := recordAccepted_tail (s.withBytes ph bs m) a.ring false
    have same : s.answered ch = s := by
      unfold State.answered
      exact if_neg (by simp [hd])
    have wrote : s.softRecord ch d = (s.withBytes ph bs m).recordAccepted a.ring false := by
      unfold State.softRecord
      dsimp only
      rw [stored]
    have chan : ((s.withBytes ph bs m).recordAccepted a.ring false).chan ch = s.chan ch := by
      unfold State.chan
      rw [dma]
      rfl
    obtain ⟨v, ended, done, ram', rings, queues'⟩ := softEnd_idle wrote chan hinc hsh
    have ran : s.completeXfer ch = v := by
      unfold State.completeXfer
      dsimp only
      rw [same, hst, hd, hcmd]
      exact (if_neg (by simp [hfull])).trans ended
    have mem : v.ram = s.ram.writeN ph bs := ram'.trans ram
    refine ⟨v, exec_of rfl (okC h1) ((if_pos hl).trans ran), ?_, ?_, ?_, ?_, fun k hk => ?_, queues'.trans queues⟩
    · rw [done]
    · rw [done]
    · exact (congrArg Ring.tail (show v.ring a.ring = _ from by unfold State.ring; rw [rings])).trans tail
    · exact (congrArg (fun k => v.ram.readN ph k) len.symm).trans (by rw [mem, Mem.readN_writeN bs s.ram ph hram])
    · rw [mem]
      exact Mem.read_writeN_other bs s.ram ph k hram (by omega)
  case stray =>
    have ran : s.landSlot p i sl = ((s.dropIngress p i).count (Cnt.dma 2)).eventC Det.streamStray .engine (sl.source + sl.optag * 2 ^ 16) := by
      unfold State.landSlot
      rw [hx]
    refine ⟨_, (exec_streamLanding h1 hl hs).trans (congrArg _ ran), reported_eventC _ Det.streamStray _ _ _ (by decide) (by decide)⟩
  case noRoom =>
    subst he
    have ran : s.landSlot p i sl = s := by
      unfold State.landSlot
      rw [hx]
      dsimp only
      rw [if_neg (by simp [hcp])]
      exact (if_neg (by unfold LandWin.addr; omega)).trans (if_pos (by unfold LandWin.addr; simp [hroom]))
    exact (exec_streamLanding h1 hl hs).trans (congrArg _ ran)
  case places =>
    subst he
    obtain ⟨source, optag⟩ := stream_key hx
    let a := (s.landWin x.window).addr sl.segment (576 * sl.slotInSeg)
    have same : a = (s.landWin x.window).base.toNat + sl.segment * 73728 + 576 * sl.slotInSeg := rfl
    have ran : s.landSlot p i sl = (s.dropIngress p i).placeSlot p x sl a := by
      unfold State.landSlot
      rw [hx]
      dsimp only
      rw [if_neg (by simp [hcp])]
      exact (if_neg (by omega)).trans (if_neg (by rw [← same] at hroom; simp [a, hroom]))
    obtain ⟨held, ports⟩ := placeSlot_kept (s := s.dropIngress p i) (p := p) (x := x) (sl := sl) a (by rw [source, optag]; exact hx)
    refine ⟨_, (exec_streamLanding h1 hl hs).trans (congrArg _ ran), ?_, ?_⟩
    · rw [show ((s.dropIngress p i).placeSlot p x sl a).port p = (s.dropIngress p i).port p from by unfold State.port; rw [ports]]
      exact congrArg Port.ingress (s.port_setPort_self p _)
    · rw [source, optag] at held
      exact held
  case noSlot =>
    refine exec_of rfl (okP h1) (show (match s.live, s.streamAt p with | true, some (i, sl) => s.landSlot p i sl | _, _ => s) = _ from ?_)
    rw [hs]
    cases s.live <;> rfl
  case lands =>
    obtain ⟨source, optag⟩ := stream_key hx
    let x' : StreamRx := { x.setSeg k { x.seg k with passed := true } with landed := insertAsc k x.landed }
    let full := decide (x.total ≤ x'.landed.length)
    let y : StreamRx := { x' with completeAt := if full then some s.now else none }
    let u := (s.putStream y).releaseStream x'
    obtain ⟨dma, ram⟩ := releaseStream_streams (s.putStream y) x'
    have put : u.stream src tag = some y := by
      refine (?_ : u.stream src tag = (s.putStream y).stream src tag).trans (stream_putStream hx source optag)
      unfold State.stream
      rw [dma]
    have landed : ∃ t, s.checkLanding x k = t ∧ t.dma.streams = u.dma.streams ∧ t.ram = u.ram := by
      have passes : s.checkLanding x k = s.landed x k := by
        unfold State.checkLanding
        dsimp only
        rw [hp, hck]
        exact (if_neg Bool.false_ne_true).trans (if_neg (by rw [hg, source, optag, hbuf]; decide))
      rw [passes]
      refine ⟨_, rfl, ?_⟩
      rw [show s.landed x k = if full && (u.landWin x'.window).inc != 0 then
        u.addTally (u.landWin x'.window).tally (u.landWin x'.window).inc else u from rfl]
      split
      · exact putTally_streams _ _ _
      · exact ⟨rfl, rfl⟩
    obtain ⟨t, ran, streams, mem⟩ := landed
    refine ⟨t, exec_of rfl hwf ?_, y, ?_, rfl, ?_, mem.trans ram⟩
    · show (match s.live, s.stream src tag with | true, some x => if x.completeAt.isSome then s else s.checkLanding x k | _, _ => s) = _
      rw [hl, hx]
      exact (if_neg (by simp [hcp])).trans ran
    · rw [← put]
      unfold State.stream
      rw [streams]
    · show (if decide (x.total ≤ (insertAsc k x.landed).length) = true then some s.now else none) = _
      simp only [decide_eq_true_eq]
  case stalls =>
    have ran : s.sideStall ch false = s.endXfer ch { status := 0x23, detail := 0xFFFFFFFF } := by
      unfold State.sideStall
      rw [show (s.chan ch).side false = some r from hrm]
      dsimp only
      exact (if_pos hgr).trans (if_pos (by simp [hra, h]))
    have same := endXfer_same ch s { status := 0x23, detail := 0xFFFFFFFF }
    refine ⟨_, (exec_streamStall h1 hl ht).trans (congrArg _ ran), ?_, ?_, ?_, same.others⟩
    all_goals
      unfold State.endXfer
      dsimp only
      split
    · exact congrArg Channel.state (s.chan_setChan_self ch _)
    · exact congrArg Channel.state (s.chan_setChan_self ch _)
    · exact congrArg Channel.done (s.chan_setChan_self ch _)
    · exact congrArg Channel.done (s.chan_setChan_self ch _)
    · exact congrArg Channel.remote (s.chan_setChan_self ch _)
    · exact congrArg Channel.remote (s.chan_setChan_self ch _)
  case goesOn =>
    have ran : s.sideStall ch false = s := by
      unfold State.sideStall
      rw [show (s.chan ch).side false = some r from hrm]
      dsimp only
      exact (if_pos hgr).trans (if_neg (by simp [hra, h]))
    exact (exec_streamStall h1 hl ht).trans (congrArg _ ran)
  case expires =>
    refine ⟨{ s with dma.streams := s.dma.streams.filter fun y => !y.is src tag }, exec_of rfl hwf ?_, ?_, rfl⟩
    · show (match s.stream src tag with | some x => if x.completeAt.any _ then _ else s | none => s) = _
      rw [hx]
      exact if_pos (by simp [hcp, h])
    · unfold State.stream
      rw [List.find?_eq_none]
      intro y hy
      simpa using (List.mem_filter.mp hy).2
  case keeps =>
    refine exec_of rfl hwf (show (match s.stream src tag with | some x => if x.completeAt.any _ then _ else s | none => s) = _ from ?_)
    rw [hx]
    exact if_neg (by simp [hcp, h])

end Sys2Proof
end

section
/-!
O46 WakesRemotesAndWatchdogs.
-/
namespace Sys2Proof
open Sys2Proof.Machine

/-! ### Wake wires -/

theorem State.wake_setWake_self (s : State) (w : Nat) (v : Wake) : (s.setWake w v).wake w = v := Tab.get_put_self _ _ _ _

/-- R365: a wire that fires sets its bit in a core that enables it. -/
theorem core_fireWire {s : State} {w cl k : Nat} (h : bitAt (s.core cl k).wake.toNat w = true) :
    ((s.fireWire w).core cl k).wpend = (s.core cl k).wpend ||| (1#64 <<< w) := by
  have fired : (s.fireWire w).core cl k =
      if bitAt (s.core cl k).wake.toNat w then { s.core cl k with wpend := (s.core cl k).wpend ||| (1#64 <<< w) } else s.core cl k := by
    have cluster : (s.fireWire w).cl cl = { s.cl cl with cores := Tab.mapVals (fun _ k =>
        if bitAt k.wake.toNat w then { k with wpend := k.wpend ||| (1#64 <<< w) } else k) (s.cl cl).cores } :=
      Tab.get_mapVals ({} : Cluster) _ (fun _ => rfl) _ _
    let f (_ : Nat) (c : Core) : Core := if bitAt c.wake.toNat w then { c with wpend := c.wpend ||| (1#64 <<< w) } else c
    unfold State.core
    rw [cluster]
    exact Tab.get_mapVals ({} : Core) f (fun _ => if_neg (by simp [bitAt])) _ _
  rw [fired, if_pos h]

/-- R413: only a TALLY_GE wire is examined by a write of its registers. -/
theorem wakeWritten_other {s : State} {w : Nat} (h : (s.wake w).kind ≠ .tallyGe) : s.wakeWritten w = s := if_neg fun k => h k.1

/-! ### The lists of the sync unit -/

theorem mem_insertAsc {x y : Nat} {l : List Nat} : y ∈ insertAsc x l ↔ y = x ∨ y ∈ l := by
  induction l with
  | nil => simp [insertAsc]
  | cons z zs ih =>
    unfold insertAsc
    split
    · simp
    · split
      · next h => simp [h]
      · rw [List.mem_cons, ih, List.mem_cons]
        exact or_left_comm

theorem mem_foldl_insertAsc {y : Nat} (xs l : List Nat) : y ∈ xs.foldl (fun l q => insertAsc q l) l ↔ y ∈ xs ∨ y ∈ l := by
  induction xs generalizing l with
  | nil => simp
  | cons x xs ih => rw [List.foldl_cons, ih, mem_insertAsc, List.mem_cons, or_left_comm, or_assoc, or_left_comm]

/-! ### Remote signals -/

/-- R402: the number of a message is noted; of the tallies nothing changes. -/
theorem noteRemoteSeq_notes (s : State) (src seq : Nat) : (s.noteRemoteSeq src seq).sync =
    { s.sync with rxSeq := Tab.put s.sync.rxSeq src ((seq + 1) % 65536) } := by
  unfold State.noteRemoteSeq
  dsimp only
  split
  · simp
  · rfl

theorem wakeTally_rxSeq (s : State) (t : Nat) : (s.wakeTally t).sync.rxSeq = s.sync.rxSeq := by
  refine foldl_keeps (fun u : State => u.sync.rxSeq) _ (fun u w => ?_) (s.wiresOf .tallyGe t) s
  dsimp only
  split <;> rfl

theorem putTally_rxSeq (s : State) (n : Nat) (v : DWord) : (s.putTally n v).sync.rxSeq = s.sync.rxSeq := by
  unfold State.putTally
  dsimp only
  split
  · simp [State.sigDropped]
  · refine (wakeTally_rxSeq _ n).trans ?_
    unfold State.dlTouch
    split <;> rfl

/-! ### The watchdog -/

theorem ButReports.modQueue {s t : State} (h : ButReports s t) (q : Nat) (f : Queue → Queue) :
    ButReports (s.modQueue q f) (t.modQueue q f) := h.map (fun v => v.modQueue q f) rfl

theorem counter_modQueue (s : State) (q : Nat) (f : Queue → Queue) (a : Nat) : (s.modQueue q f).counter a = s.counter a := rfl

/-- R423: a queue that waits on no object and has no command in flight is contained, and the count of its stalls restarts. -/
theorem watchdogExpires_contains {s : State} {q : Nat} (hw : s.headWaits q = none) (hi : (s.queue q).inflight = [])
    (hr : Reacts s Det.watchdog (.queue q) (64 + q)) :
    ButReports (containedBy (s.setQueue q { s.queue q with stalled := 0 }) Det.watchdog (64 + q)) (s.watchdogExpires q) ∧
      (s.watchdogExpires q).counter (Cnt.syn 9) = risen (s.counter (Cnt.syn 9)) 1 := by
  let u := (s.count (Cnt.syn 9)).raiseOn Det.watchdog (.queue q)
  have ran : s.watchdogExpires q = u.modQueue q fun x => { x with stalled := 0 } := by
    unfold State.watchdogExpires
    rw [hw, hi]
    rfl
  have same : ButReports s (s.count (Cnt.syn 9)) := ButReports.rfl' s
  have but : ButReports (containedBy s Det.watchdog (64 + q)) u := raiseOn_but 0 rfl (hr.of_but same) same
  have counted : u.counter (Cnt.syn 9) = risen (s.counter (Cnt.syn 9)) 1 :=
    (counter_raiseOn_other 0 rfl (hr.of_but same) (by decide)).trans (counter_count_self s _)
  rw [ran, counter_modQueue]
  exact ⟨(but.modQueue q _ :), counted⟩

/-! ### The rebar -/

/-- R416: a snapshot ahead of the tally by no more than its tolerance. -/
theorem applyRebar_drift {s : State} {i n : Nat} {p : Img.Pair} (ha : (s.tally p.consTally).abandoned = false)
    (hlt : (s.tally p.consTally).value.toNat < n) (hn : n < 2 ^ 62) (ht : n ≤ (s.tally p.consTally).value.toNat + p.tol) :
    s.applyRebar i p (BitVec.ofNat 64 n) = (((({ s with sync.rebarSeen := insertAsc i s.sync.rebarSeen } : State).putTally p.consTally
      (BitVec.ofNat 64 n)).count (Cnt.syn 5)).eventC Det.drift .sync i) := by
  have ahead : (BitVec.ofNat 64 n - (s.tally p.consTally).value).toNat = n - (s.tally p.consTally).value.toNat := by
    rw [BitVec.toNat_sub, BitVec.toNat_ofNat]
    omega
  have positive : (BitVec.ofNat 64 n - (s.tally p.consTally).value).toInt = (n - (s.tally p.consTally).value.toNat : Nat) := by
    rw [BitVec.toInt_eq_toNat_of_lt (by omega), ahead]
  have differs : ((BitVec.ofNat 64 n - (s.tally p.consTally).value) == 0) = false := by
    rw [beq_eq_false_iff_ne]
    intro h
    have := ahead.symm.trans (congrArg BitVec.toNat h)
    simp at this
    omega
  unfold State.applyRebar
  refine (if_neg ?_).trans (if_pos ?_)
  · show ¬ ((s.tally p.consTally).abandoned || (BitVec.ofNat 64 n - (s.tally p.consTally).value == 0)) = true
    rw [ha, differs]
    decide
  · show (if (BitVec.ofNat 64 n - (s.tally p.consTally).value).toInt < 0 then
        (-(BitVec.ofNat 64 n - (s.tally p.consTally).value).toInt).toNat
      else (BitVec.ofNat 64 n - (s.tally p.consTally).value).toInt.toNat) ≤ p.tol
    rw [positive, if_neg (by omega)]
    omega

/-! ### The obligation -/

/-- Settles O46. That a reserved KIND and a WINDOW of 0 are ignored is log entry 126, and the REBAR counted as seen log entry 127. -/
theorem wakesRemotesAndWatchdogs : Obligations.WakesRemotesAndWatchdogs := by
  have okW {w : Nat} (h : w < 64) : decide (w < 64) = true := decide_eq_true h
  have okQ {q : Nat} (h : q < 256) : okQueue q = true := decide_eq_true h
  refine ⟨fun s w v h1 hr => ⟨fun k hk hne => ?source, fun hk hth => ?fires, fun hk => ?reserved, fun hk => ?thresh⟩,
    fun s v w hr hw => ⟨fun hb => ?fire, fun hb => ?noFire⟩,
    fun s c hwf => ⟨fun he => ?otherEpoch, fun he hrem hab => ?signal⟩,
    fun s c i p hwf hp => ⟨fun he => ?stray, fun he hph hv => ?agrees, fun he hph hab hlt hbig htol => ?drifts⟩,
    fun s q h1 hst hne hle hw hi hre => ?expires, fun s q h1 h => ?notDue,
    fun s hb hd hc hbr hre => ?deadlock, fun s v hr hv => ?dlCfg, fun s i v hwf hr => ?dlMask⟩
  case source =>
    refine exec_of rfl (okW h1) ((if_pos hr).trans ?_)
    unfold State.writeWakeSrc
    rw [hk]
    exact wakeWritten_other (by rw [State.wake_setWake_self]; exact hne)
  case fires =>
    let x : Wake := { s.wake w with kind := .tallyGe, object := fld v.toNat 3 12, step := fld v.toNat 16 32 }
    let u := s.setWake w x
    have wire : u.wake w = x := s.wake_setWake_self w x
    have ran : s.writeWakeSrc w v.toNat = u.fireGe w := by
      unfold State.writeWakeSrc
      rw [hk]
      exact if_pos (by rw [wire]; exact ⟨rfl, hth⟩)
    have written : (u.fireGe w).wake w = { x with thresh := x.thresh + BitVec.ofNat 64 x.step } := by
      refine (State.wake_setWake_self u w _).trans ?_
      rw [wire]
    refine ⟨_, exec_of rfl (okW h1) ((if_pos hr).trans ran), ?_, ?_, fun cl k hk => ?_⟩
    · rw [written]
    · rw [written]
    · exact core_fireWire (s := u.setWake w { u.wake w with thresh := (u.wake w).thresh + BitVec.ofNat 64 (u.wake w).step }) hk
  case reserved =>
    refine exec_of rfl (okW h1) ((if_pos hr).trans ?_)
    have none : WakeKind.ofCode (fld v.toNat 0 3) = none := by
      generalize fld v.toNat 0 3 = n at hk
      unfold WakeKind.ofCode
      split <;> first | omega | rfl
    unfold State.writeWakeSrc
    rw [none]
  case thresh =>
    refine exec_of rfl (okW h1) ((if_pos hr).trans ?_)
    exact wakeWritten_other (by rw [State.wake_setWake_self]; exact hk)
  case fire =>
    refine exec_of rfl rfl ((if_pos hr).trans ?_)
    unfold State.writeWakeFire
    dsimp only
    rw [hw, List.filter_cons_of_pos hb]
    rfl
  case noFire =>
    refine exec_of rfl rfl ((if_pos hr).trans ?_)
    unfold State.writeWakeFire
    dsimp only
    rw [hw, List.filter_cons_of_neg (by rw [hb]; decide)]
    rfl
  case otherEpoch =>
    exact ⟨_, exec_of rfl hwf (if_pos he), reported_eventC _ Det.remoteEpoch _ _ _ (by decide) (by decide)⟩
  case signal =>
    let n := fld (c.at 0 2) 0 12
    let u := s.noteRemoteSeq c.src c.seq
    have noted : u.sync = { s.sync with rxSeq := Tab.put s.sync.rxSeq c.src ((c.seq + 1) % 65536) } := noteRemoteSeq_notes s c.src c.seq
    have tallies (k : Nat) : u.tally k = s.tally k := by
      unfold State.tally
      rw [noted]
    have ran : s.onRemote c = u.putTally n ((u.tally n).value + BitVec.ofNat 64 (c.at 4 4)) := by
      have open' : (u.tally n).remote = true ∧ (u.tally n).abandoned = false := by rw [tallies]; exact ⟨hrem, hab⟩
      refine (if_neg (not_not_intro he)).trans ?_
      show u.applyRemote n (c.at 4 4) true = _
      unfold State.applyRemote
      dsimp only
      rw [open'.1, open'.2]
      rfl
    have kept (k : Nat) := State.tally_putTally (s := u) (t := n) (by rw [tallies]; exact hab)
      ((u.tally n).value + BitVec.ofNat 64 (c.at 4 4)) k
    refine ⟨_, exec_of rfl hwf ran, ?_, fun k hk => ?_, ?_⟩
    · rw [show (State.putTally u n _).tally (fld (c.at 0 2) 0 12) = _ from (kept n).trans (if_pos rfl), tallies]
    · rw [show (State.putTally u n _).tally k = _ from (kept k).trans (if_neg (Ne.symm hk)), tallies]
    · rw [putTally_rxSeq, noted]
      exact Tab.get_put_self _ _ _ _
  case stray =>
    have ran : s.onRebar c = (s.count (Cnt.syn 7)).eventC Det.rebarStray .sync c.src := by
      unfold State.onRebar
      rw [hp]
      exact if_neg fun h => he.elim (· h.1) (· h.2)
    exact ⟨_, exec_of rfl hwf ran, reported_eventC _ Det.rebarStray _ _ _ (by decide) (by decide)⟩
  case agrees =>
    refine exec_of rfl hwf ?_
    unfold State.onRebar
    rw [hp]
    refine (if_pos ⟨he, hph⟩).trans (if_pos ?_)
    have same : (State.tally { s with sync.rebarSeen := insertAsc i s.sync.rebarSeen } p.consTally).value = BitVec.ofNat 64 (c.at 8 8) := hv
    simp [same]
  case drifts =>
    let u : State := { s with sync.rebarSeen := insertAsc i s.sync.rebarSeen }
    have ran : s.onRebar c = ((u.putTally p.consTally (BitVec.ofNat 64 (c.at 8 8))).count (Cnt.syn 5)).eventC Det.drift .sync i := by
      unfold State.onRebar
      rw [hp]
      refine (if_pos ⟨he, hph⟩).trans ?_
      exact applyRebar_drift hab hlt hbig htol
    have kept (k : Nat) := State.tally_putTally (s := u) (t := p.consTally) hab (BitVec.ofNat 64 (c.at 8 8)) k
    have reports (w : State) (k : Nat) : ((w.count (Cnt.syn 5)).eventC Det.drift .sync i).tally k = w.tally k := by
      unfold State.tally
      simp
    refine ⟨_, exec_of rfl hwf ran, ?_, fun k hk => ?_, ?_⟩
    · rw [reports, kept, if_pos rfl]
    · rw [reports, kept, if_neg (Ne.symm hk)]
      rfl
    · have unit : UnitCounter (Cnt.syn 5) := by unfold UnitCounter; decide
      rw [counter_eventC_other _ _ _ _ _ _ (by decide), counter_count_self, unit.putTally_keeps (by decide)]
      rfl
  case expires =>
    exact ⟨_, exec_of rfl (okQ h1) (if_pos ⟨hst, hne, hle⟩), watchdogExpires_contains hw hi hre⟩
  case notDue =>
    refine exec_of rfl (okQ h1) (if_neg ?_)
    rintro ⟨running, armed, stalled⟩
    obtain h | h | h := h
    · exact h running
    · exact armed h
    · omega
  case deadlock =>
    let u : State := { s with
      sync.dlReport := s.sync.dlMask
      sync.dlWaitObj := (s.sync.dlMask.filterMap fun q => (s.headWaits q).map fun o => (q, o)).map fun x => (x.1, waitObj x.2)
      sync.dlCount := 0, sync.dlDisarmed := true }
    have ran : s.dlFires = (u.count (Cnt.syn 10)).raise Det.deadlock .sync (some 49) := by
      unfold State.dlFires
      dsimp only
      rw [if_neg (by rw [hbr]; decide), show (!s.sync.dlBreak) = true by rw [hbr]; rfl]
    have due : (s.blocked && !s.sync.dlDisarmed && decide (s.sync.dlWindow * 4096 ≤ s.sync.dlCount)) = true := by
      rw [hb, hd, decide_eq_true hc]
      rfl
    have same : ButReports u (u.count (Cnt.syn 10)) := ButReports.rfl' u
    have react : Reacts u Det.deadlock .sync 49 := hre.of_eq rfl rfl rfl rfl
    exact ⟨_, exec_of rfl rfl ((if_pos due).trans ran), raiseOn_but (unit := .sync) 0 rfl (react.of_but same) same⟩
  case dlCfg =>
    exact exec_of rfl rfl ((if_pos hr).trans (if_neg hv))
  case dlMask =>
    refine ⟨_, exec_of rfl hwf (if_pos hr), fun q => ?_, rfl, rfl⟩
    have bits : q ∈ ((List.range 32).filter (bitAt v.toNat)).map (32 * i + ·) ↔ q / 32 = i ∧ bitAt v.toNat (q % 32) = true := by
      simp only [List.mem_map, List.mem_filter, List.mem_range]
      constructor
      · rintro ⟨b, ⟨hb, set⟩, rfl⟩
        exact ⟨by omega, by rwa [show (32 * i + b) % 32 = b by omega]⟩
      · rintro ⟨hq, set⟩
        exact ⟨q % 32, ⟨by omega, set⟩, by omega⟩
    refine (mem_foldl_insertAsc _ _).trans (or_congr bits ?_)
    rw [List.mem_filter, bne_iff_ne]
    exact and_comm

end Sys2Proof
end

section
/-!
O47 DoorbellFetchAndRecord.
-/
namespace Sys2Proof
open Sys2Proof.Machine

/-! ### Doorbells -/

/-- R206: a queue that neither runs nor is suspended stays as it is when a bell is refused. -/
theorem haltQueue_halted {s : State} {q : Nat} (h : (s.queue q).state = .halted) (cause : HaltCause) (idx : Word) :
    s.haltQueue q cause idx true = s := if_neg (by simp [h])

theorem bell_taken {s : State} {q : Nat} {v : Word} (hp : (s.queue q).producer = 0) (hd : (s.queue q).state ≠ .disabled)
    (hr : (s.queue q).state ≠ .resetting) : s.bell q v 0 = if v = (s.queue q).tail then s
      else if idxLater (s.queue q).tail v && decide ((v - (s.queue q).headIdx).toNat ≤ (s.queue q).size) then
        s.modQueue q fun x => { x with tail := v }
      else (s.haltQueue q .badDoorbell (s.queue q).fetch true).raiseOn Det.badDoorbell (.queue q) := by
  refine if_neg ?_
  rintro (h | h | h)
  · exact h hp
  · exact hd h
  · exact hr h

/-! ### Fetch -/

/-- R207: a fetch from a page that can be read appends the commands of its bytes. -/
theorem fetchAhead_appends {s : State} {q ph n : Nat} {i : Word} {x : Queue} (hx : x = s.queue q)
    (hi : i = x.fetch + BitVec.ofNat 32 x.fetched.length) (hn : n = x.fetchCount i)
    (hr : Readable s (x.base.toNat + 64 * (i.toNat % x.size)) (64 * n) ph) : ∃ k, s.fetchAhead q =
      (s.modCtrl k (·.touch (ph / 2048 * 2048))).setQueue q { x with
        fetched := x.fetched ++ commandsIn n i (s.ram.readN ph (64 * n))
        head := if x.fetched.isEmpty then some { since := s.now } else x.head } := by
  subst hx hi hn
  obtain ⟨k, loaded⟩ := load_readable hr
  refine ⟨k, ?_⟩
  unfold State.fetchAhead Queue.nextFetch
  dsimp only
  rw [loaded]
  rfl

/-! ### Records -/

/-- R222, R224: a record that neither sends a message nor fires a wire. -/
theorem recordAccepted_quiet {s : State} {r : Nat} (hw : s.wiresOf .ring r = []) (hi : (s.ring r).irqCount = 0) :
    s.recordAccepted r false = s.modRing r fun x => { x with
      tail := x.tail + 1, unsignalled := x.unsignalled + 1, oldest := some (x.oldest.getD s.now) } := by
  have wires : (s.modRing r fun x => { x with
      tail := x.tail + 1, unsignalled := x.unsignalled + 1, oldest := some (x.oldest.getD s.now) }).wiresOf .ring r = [] := hw
  unfold State.recordAccepted
  dsimp only
  rw [wires]
  refine if_neg ?_
  show ¬ (false || (((State.modRing s r fun x => { x with
      tail := x.tail + 1, unsignalled := x.unsignalled + 1, oldest := some (x.oldest.getD s.now) }).ring r).irqCount != 0 && _)) = true
  rw [State.ring_modRing_self]
  simp [hi]

/-- R398: an addition changes no other tally. -/
theorem addTally_others (s : State) {n k : Nat} (m : Nat) (h : k ≠ n) : (s.addTally n m).tally k = s.tally k := by
  by_cases ha : (s.tally n).abandoned = true
  · have dropped : s.addTally n m = s.sigDropped n := if_pos ha
    rw [dropped]
    unfold State.tally
    simp [State.sigDropped]
  · exact (State.tally_putTally (by simpa using ha) _ k).trans (if_neg (Ne.symm h))

theorem readN_written {m : Mem} {bs : List Byte} {n : Nat} (a : Nat) (hm : m.wf = true) (hn : bs.length = n) :
    (m.writeN a bs).readN a n = bs := by
  subst hn
  exact Mem.readN_writeN bs m a hm

/-- The signal of a command that has completed: it adds to the tally of the command, and leaves the memory, the rings and the
queues. -/
def signalled (s : State) (c : BitVec 512) (d : Done) : State :=
  if St.success d.status && sigInc c != 0 then s.addTally (sigTally c) (sigInc c) else s

theorem signalled_kept (s : State) (c : BitVec 512) (d : Done) : (signalled s c d).ram = s.ram ∧ (signalled s c d).rings = s.rings ∧
    (signalled s c d).queues = s.queues := by
  unfold signalled
  split <;> simp

theorem signalled_adds {s : State} {c : BitVec 512} {d : Done} (hs : St.success d.status = true) (hi : sigInc c ≠ 0)
    (ha : (s.tally (sigTally c)).abandoned = false) :
    ((signalled s c d).tally (sigTally c)).value = (s.tally (sigTally c)).value + BitVec.ofNat 64 (sigInc c) := by
  have due : (St.success d.status && sigInc c != 0) = true := by simp [hs, hi]
  unfold signalled
  rw [if_pos due]
  exact congrArg Tally.value ((State.tally_putTally ha _ _).trans (if_pos rfl))

theorem signalled_others {s : State} {c : BitVec 512} {d : Done} {k : Nat}
    (h : k ≠ sigTally c ∨ sigInc c = 0 ∨ St.success d.status = false) : (signalled s c d).tally k = s.tally k := by
  unfold signalled
  split
  · next due =>
    simp only [Bool.and_eq_true, bne_iff_ne] at due
    obtain h | h | h := h
    · exact addTally_others s _ h
    · exact absurd h due.2
    · exact absurd (h.symm.trans due.1) (by decide)
  · rfl

/-- R217: the only command of a running queue leaves it, and signals. -/
theorem completeOne_signals {s u : State} {q r : Nat} {x : Inflight} {d : Done} (hr : r = s.recordRing q x d)
    (ht : s.earlierRecord r d.order = false) (hf : (s.ring r).full = false) (hu : s.writeRecord q x d r = u)
    (hq : u.queues = s.queues) (hx : (s.queue q).inflight = [x]) (hc : x.chan = none) (hrun : (s.queue q).state = .running)
    (hs : HeadSettled (s.queue q)) : s.completeOne q x d = signalled (u.modQueue q (·.without x.tok)) x.cmd d := by
  have same : u.queue q = s.queue q := State.queue_of_queues hq q
  have free : u.freeChan q x d.status = u := by simp [State.freeChan, hc]
  have after : (signalled (u.modQueue q (·.without x.tok)) x.cmd d).queue q = (s.queue q).without x.tok := by
    rw [State.queue_of_queues (signalled_kept _ _ _).2.2, State.queue_modQueue_self, same]
  have gone : ((s.queue q).without x.tok).inflight = [] := by simp [Queue.without, hx]
  have retired : u.retire q x d = signalled (u.modQueue q (·.without x.tok)) x.cmd d := by
    rw [State.retire_eq, free]
    exact headDue_settled (s := signalled (u.modQueue q (·.without x.tok)) x.cmd d) (by rw [after]; exact hs) (by rw [after]; exact gone)
  have ran : s.completeOne q x d = ((s.writeRecord q x d r).retire q x d).resetDone q := by
    subst hr
    unfold State.completeOne
    dsimp only
    rw [ht, hf]
    exact (if_neg Bool.false_ne_true).trans (if_neg (by simp))
  rw [ran, hu, retired]
  exact resetDone_running (by rw [after]; exact hrun)

/-- Settles O47. That a fetch takes at most 8 commands of one page and one pass of the ring is log entry 89. -/
theorem doorbellFetchAndRecord : Obligations.DoorbellFetchAndRecord := by
  have okQ {q : Nat} (h : q < 256) : okQueue q = true := decide_eq_true h
  refine ⟨fun s q v x h1 hl hx => ⟨fun hp hd hr => ⟨fun hv => ?same, fun h h' hz => ?moves, fun hv hz hst hre => ?beyond⟩, fun h => ?foreign⟩,
    fun s q ph n i x h1 hr hx hst => ⟨fun hlen hue hi h h' hn hrd => ?fetches, fun h => ?full⟩,
    fun s q r ph idx x d g h1 hl hx hidx hd hc hst hft hpin hnear hr hear hg hen => ⟨fun hf => ?waits, fun hf hirq hop hw hwr hram => ?records⟩⟩
  case same =>
    subst hx
    exact exec_of rfl (okQ h1) ((if_pos hl).trans ((bell_taken hp hd hr).trans (if_pos hv)))
  case moves =>
    subst hx
    have differs : v ≠ (s.queue q).tail := by
      rintro rfl
      simp at h
    refine exec_of rfl (okQ h1) ((if_pos hl).trans ((bell_taken hp hd hr).trans ((if_neg differs).trans (if_pos ?_))))
    unfold idxLater
    rw [decide_eq_true h, decide_eq_true h', decide_eq_true hz]
    rfl
  case beyond =>
    subst hx
    have outside : ¬ (idxLater (s.queue q).tail v && decide ((v - (s.queue q).headIdx).toNat ≤ (s.queue q).size)) = true := by
      rw [decide_eq_false (by omega), Bool.and_false]
      exact Bool.false_ne_true
    refine ⟨_, exec_of rfl (okQ h1) ((if_pos hl).trans ((bell_taken hp hd hr).trans ((if_neg hv).trans (if_neg outside)))), ?_⟩
    dsimp only
    rw [haltQueue_halted hst]
    exact raiseOn_but 0 rfl hre (ButReports.rfl' s)
  case foreign =>
    subst hx
    exact ⟨_, exec_of rfl (okQ h1) ((if_pos hl).trans (if_pos h)), reported_eventC _ Det.foreignBell _ _ _ (by decide) (by decide)⟩
  case fetches =>
    obtain ⟨k, fetched⟩ := fetchAhead_appends hx hi hn hrd
    have due : (s.released && x.state == .running && decide (x.fetched.length < 8) && x.fetched.all (fun f => f.ue.isNone)
        && idxLater x.nextFetch x.tail) = true := by
      have later : idxLater x.nextFetch x.tail = true := by
        unfold Queue.nextFetch idxLater
        rw [← hi, decide_eq_true h, decide_eq_true h']
        rfl
      have clean : x.fetched.all (fun f => f.ue.isNone) = true := by
        rw [List.all_eq_true]
        intro f hf
        rw [hue f hf]
        rfl
      rw [hr, hst, decide_eq_true hlen, later, clean]
      rfl
    subst hx
    refine ⟨_, exec_of rfl (okQ h1) ((if_pos due).trans fetched), ?_, ?_, ?_, fun j hj => ?_, rfl⟩
    · rw [State.queue_setQueue_self]
    · rw [State.queue_setQueue_self]
    · rw [State.queue_setQueue_self]
    · exact (State.queue_setQueue _ _ _ _).trans (if_neg (Ne.symm hj))
  case full =>
    subst hx
    refine exec_of rfl (okQ h1) (if_neg fun due => ?_)
    simp only [Bool.and_eq_true, decide_eq_true_eq] at due
    obtain ⟨⟨⟨-, room⟩, -⟩, later⟩ := due
    obtain h | ⟨none, read⟩ := h
    · omega
    · simp [Queue.nextFetch, none, read, idxLater] at later
  case waits =>
    subst hidx hg hr
    refine (exec_commandComplete hl hx hd).trans ((if_pos (okQ h1)).trans (congrArg _ ?_))
    unfold State.completeOne
    dsimp only
    rw [hear, hf, hen]
    rfl
  case records =>
    subst hidx hg
    obtain ⟨bs, hbs⟩ : ∃ bs, recordBytes q x d s.stamp ((s.ring r).tail.toNat / (s.ring r).size % 2 == 0) = bs := ⟨_, rfl⟩
    have len : bs.length = 32 := hbs ▸ length_recordBytes _ _ _ _ _
    obtain ⟨m, stored⟩ := store_writable len hwr
    rw [hbs]
    let u : State := (s.withBytes ph bs m).modRing r fun x => { x with
      tail := x.tail + 1, unsignalled := x.unsignalled + 1, oldest := some (x.oldest.getD s.now) }
    have hstored : s.store ((s.ring r).base.toNat + 32 * ((s.ring r).tail.toNat % (s.ring r).size)) (recordFor s q r x d) =
        s.store ((s.ring r).base.toNat + 32 * ((s.ring r).tail.toNat % (s.ring r).size)) bs := congrArg _ hbs
    have written : s.writeRecord q x d r = u := by
      have unforced : (opcodeOf x.cmd == 0x61 && bitAt (cf x.cmd 20 1) 0) = false := by simp [hop]
      rw [writeRecord_stored hen (hstored.trans stored), unforced]
      exact recordAccepted_quiet hw hirq
    have ran := completeOne_signals hr hear hf written rfl hx hc hst ⟨hpin, hft, hnear⟩
    obtain ⟨ram, rings, queues⟩ := signalled_kept (u.modQueue q (·.without x.tok)) x.cmd d
    have ring (k : Nat) : (signalled (u.modQueue q (·.without x.tok)) x.cmd d).ring k = u.ring k := by
      unfold State.ring
      rw [rings]
      rfl
    have kept : u.ring r = { s.ring r with
        tail := (s.ring r).tail + 1, unsignalled := (s.ring r).unsignalled + 1, oldest := some ((s.ring r).oldest.getD s.now) } :=
      State.ring_modRing_self (s.withBytes ph bs m) r _
    refine ⟨_, (exec_commandComplete hl hx hd).trans ((if_pos (okQ h1)).trans (congrArg _ ran)), ?_, fun a ha => ?_, ?_, ?_, fun k hk => ?_,
      ?_, fun k hk => ?_, fun hs hi ha => ?_, fun k hk => ?_⟩
    · rw [ram]
      exact readN_written ph hram len
    · rw [ram]
      exact Mem.read_writeN_other bs s.ram ph a hram (by omega)
    · rw [ring, kept]
    · rw [ring, kept]
    · rw [ring]
      exact (Tab.get_put _ _ _ _ _).trans (if_neg (Ne.symm hk))
    · rw [State.queue_of_queues queues, State.queue_modQueue_self]
      exact (by simp [Queue.without, hx] : ((s.queue q).without x.tok).inflight = [])
    · rw [State.queue_of_queues queues]
      exact (Tab.get_put _ _ _ _ _).trans (if_neg (Ne.symm hk))
    · exact signalled_adds (s := u.modQueue q (·.without x.tok)) hs hi ha
    · exact signalled_others (s := u.modQueue q (·.without x.tok)) hk

end Sys2Proof
end

section
/-!
O48 QueueControl and O49 CompletionRings.
-/
namespace Sys2Proof
open Sys2Proof.Machine

/-! ### What the end of other queues' waits leaves to a queue that does not run -/

/-- Queue `k` and the tallies are as they were. -/
structure QueueLeft (k : Nat) (s t : State) : Prop where
  queue : t.queue k = s.queue k
  tallies : t.sync.tallies = s.sync.tallies

theorem QueueLeft.trans {k : Nat} {s t u : State} (h : QueueLeft k s t) (h' : QueueLeft k t u) : QueueLeft k s u :=
  ⟨h'.queue.trans h.queue, h'.tallies.trans h.tallies⟩

theorem QueueLeft.counted {k : Nat} {s t u : State} (h : QueueLeft k s t) (hq : u.queues = t.queues) (hs : u.sync = t.sync) :
    QueueLeft k s u := ⟨(State.queue_of_queues hq k).trans h.queue, (congrArg Sync.tallies hs).trans h.tallies⟩

theorem queueLeft_modQueue {k q : Nat} (s : State) (h : q ≠ k) (f : Queue → Queue) : QueueLeft k s (s.modQueue q f) :=
  ⟨(Tab.get_put _ _ _ _ _).trans (if_neg h), rfl⟩

/-- R207: HEAD of a queue is written; of the queues only its own record of HEAD changes. -/
theorem queues_writeHead (s : State) (q : Nat) :
    (s.writeHead q).queues = (s.modQueue q fun x => { x with headWritten := (s.queue q).headIdx }).queues := by
  unfold State.writeHead
  dsimp only
  have stored (u : State) (a : Nat) (bs : List Byte) : (u.store a bs).1.queues = u.queues := by simp
  split
  all_goals
    next h =>
      have hq := (congrArg State.queues (congrArg Prod.fst h)).symm.trans (stored _ _ _)
      simpa using hq

theorem queueLeft_writeHead {k q : Nat} (s : State) (h : q ≠ k) : QueueLeft k s (s.writeHead q) := by
  refine ⟨?_, by simp⟩
  rw [State.queue_of_queues (queues_writeHead s q)]
  exact (queueLeft_modQueue s h _).queue

theorem queueLeft_haltQueue {k q : Nat} (s : State) (h : q ≠ k) (cause : HaltCause) (idx : Word) (force : Bool) :
    QueueLeft k s (s.haltQueue q cause idx force) := by
  unfold State.haltQueue
  dsimp only
  split
  · exact (queueLeft_modQueue s h fun _ => _).trans (queueLeft_writeHead _ h)
  · exact ⟨rfl, rfl⟩

/-- R215: a command that ends with ABANDONED waits for its record. -/
theorem queueLeft_finish {k q : Nat} (s : State) (h : q ≠ k) (tok : Nat) {d : Done} (hd : d.status = St.abandoned) :
    QueueLeft k s (s.finish q tok d) := by
  unfold State.finish
  split
  · exact ⟨rfl, rfl⟩
  · next x _ =>
    have recorded : needsRecord x.cmd { d with order := s.finished } = true := by
      simp [needsRecord, hd, St.abandoned, St.ok]
    let ended (y : Queue) : Queue := { y with
      inflight := y.inflight.map fun z => if z.tok == tok then { z with done := some { d with order := s.finished } } else z
      progress := true }
    have left : QueueLeft k s { s.modQueue q ended with finished := s.finished + 1 } := (queueLeft_modQueue s h ended).counted rfl rfl
    dsimp only
    rw [if_pos recorded]
    refine left.trans ?_
    unfold State.failPolicy
    split
    · exact ⟨rfl, rfl⟩
    · exact queueLeft_haltQueue _ h _ _ _

theorem queueLeft_issue {k q : Nat} (s : State) (h : q ≠ k) (idx : Word) (c : BitVec 512) (chan : Option Nat) :
    QueueLeft k s (s.issue q idx c chan) := by
  let taken (x : Queue) : Queue := { x with
    inflight := x.inflight ++ [{ tok := s.issued, idx := idx, cmd := c, since := s.now, chan := chan }] }
  have issued : QueueLeft k s { (s.advance q).modQueue q taken with issued := s.issued + 1 } :=
    ((queueLeft_modQueue s h fun _ => _).trans (queueLeft_modQueue (s.advance q) h taken)).counted rfl rfl
  unfold State.issue
  dsimp only
  split
  · split
    · exact issued.counted rfl rfl
    · exact issued
  · exact issued

/-- R425: the end of a wait changes no queue that does not run. -/
theorem queueLeft_endHead {k q obj : Nat} (s : State) (h : (s.queue k).state ≠ .running) :
    QueueLeft k s (s.endHead q St.abandoned obj) := by
  unfold State.endHead
  dsimp only
  split
  · next running head =>
    have other : q ≠ k := fun e => h (e ▸ running)
    split
    · exact (queueLeft_issue s other _ _ _).trans (queueLeft_finish _ other _ rfl)
    · exact queueLeft_haltQueue s other _ _ _
  · exact ⟨rfl, rfl⟩

theorem queueLeft_endHeads {k obj : Nat} (qs : List Nat) {s : State} (h : (s.queue k).state ≠ .running) :
    QueueLeft k s (forEach qs (fun q st => st.endHead q St.abandoned obj) s) := by
  induction qs generalizing s with
  | nil => exact ⟨rfl, rfl⟩
  | cons q qs ih =>
    have first := queueLeft_endHead (q := q) (obj := obj) s h
    exact first.trans (ih (by rw [first.queue]; exact h))

theorem queueLeft_wakeAbandoned (s : State) (k : Nat) (kind : WakeKind) (obj : Nat) : QueueLeft k s (s.wakeAbandoned kind obj) := by
  refine ⟨State.queue_of_queues (by simp) k, ?_⟩
  exact foldl_keeps (fun u : State => u.sync.tallies) _ (fun u w => by simp [State.fireWire]) _ s

/-! ### Objects that a queue's reset abandons -/

/-- R419: a tally that becomes ABANDONED: no other tally changes, and no queue that does not run. -/
theorem abandonTally_left {k : Nat} (n : Nat) {s : State} (h : (s.queue k).state ≠ .running) :
    (s.abandonTally n).queue k = s.queue k ∧
      ∀ j, (s.abandonTally n).tally j = if n = j then { s.tally j with abandoned := true } else s.tally j := by
  unfold State.abandonTally
  dsimp only
  split
  · next ha =>
    refine ⟨rfl, fun j => ?_⟩
    split
    · next e =>
      subst e
      exact ha ▸ rfl
    · rfl
  · let u := s.setTally n { s.tally n with abandoned := true }
    have woken := queueLeft_wakeAbandoned u k .tallyGe n
    have ended := woken.trans (queueLeft_endHeads (obj := n) (s.queueIds.filter fun q => s.headWaits q == some n)
      (by rw [woken.queue]; exact h))
    refine ⟨ended.queue, fun j => ?_⟩
    refine (State.tally_of_tallies ended.tallies j).trans ((State.tally_setTally _ _ _ _).trans ?_)
    split
    · next e => rw [e]
    · rfl

theorem abandonTallies_left {k : Nat} (ts : List Nat) {s : State} (h : (s.queue k).state ≠ .running) :
    (forEach ts (fun t st => st.abandonTally t) s).queue k = s.queue k ∧
      ∀ j, ((forEach ts (fun t st => st.abandonTally t) s).tally j).abandoned = ((s.tally j).abandoned || decide (j ∈ ts)) := by
  induction ts generalizing s with
  | nil => exact ⟨rfl, fun j => by simp [forEach]⟩
  | cons n ts ih =>
    obtain ⟨queue, tallies⟩ := abandonTally_left n h
    obtain ⟨queues, rest⟩ := ih (s := s.abandonTally n) (by rw [queue]; exact h)
    refine ⟨queues.trans queue, fun j => (rest j).trans ?_⟩
    rw [tallies]
    split
    · next e => simp [e]
    · next e => simp [Ne.symm e]

theorem abandonBarriers_left {k : Nat} (bs : List Nat) {s : State} (h : (s.queue k).state ≠ .running) :
    QueueLeft k s (forEach bs (fun b st => st.abandonBarrier b 1) s) := by
  induction bs generalizing s with
  | nil => exact ⟨rfl, rfl⟩
  | cons b bs ih =>
    have first : QueueLeft k s (s.abandonBarrier b 1) := by
      unfold State.abandonBarrier
      dsimp only
      split
      · exact ⟨rfl, rfl⟩
      · have woken := queueLeft_wakeAbandoned (s.setBarrier b { s.barrier b with state := .abandoned, cause := 1 }) k .barrier b
        exact (QueueLeft.mk (s := s) woken.queue woken.tallies).trans (queueLeft_endHeads (obj := 2 ^ 31 + b)
          (s.queueIds.filter fun q => s.headWaits q == some (2 ^ 31 + b)) (by rw [woken.queue]; exact h))
    exact first.trans (ih (by rw [first.queue]; exact h))

theorem mem_of_get {α : Type} {d : α} {t : Tab α} {k : Nat} (h : Tab.get d t k ≠ d) : (k, Tab.get d t k) ∈ t := by
  induction t with
  | nil => exact absurd rfl h
  | cons x t ih =>
    obtain ⟨k', v⟩ := x
    unfold Tab.get at h ⊢
    split
    · next e =>
      subst e
      exact List.mem_cons_self
    · next e =>
      rw [if_neg e] at h
      exact List.mem_cons_of_mem _ (ih h)

/-- R419: every tally of the owners chosen is ABANDONED; a queue that does not run is as it was. -/
theorem abandonOwned_left {k : Nat} {s : State} {o : Owner → Bool} (hn : o .none = false) (h : (s.queue k).state ≠ .running) :
    (s.abandonOwned o).queue k = s.queue k ∧ ∀ j, o (s.tally j).owner = true → ((s.abandonOwned o).tally j).abandoned = true := by
  let ts := (s.sync.tallies.filter fun x => o x.2.owner && !x.2.abandoned).map (·.1)
  obtain ⟨queue, tallies⟩ := abandonTallies_left ts h
  have barriers := abandonBarriers_left ((s.sync.barriers.filter fun x => o x.2.owner && x.2.state != .abandoned).map (·.1))
    (s := forEach ts (fun t st => st.abandonTally t) s) (by rw [queue]; exact h)
  refine ⟨barriers.queue.trans queue, fun j ho => ?_⟩
  have same : (s.abandonOwned o).tally j = (forEach ts (fun t st => st.abandonTally t) s).tally j :=
    State.tally_of_tallies barriers.tallies j
  rw [same, tallies]
  by_cases ha : (s.tally j).abandoned = true
  · simp [ha]
  · have listed : (j, s.tally j) ∈ s.sync.tallies := mem_of_get fun e => by
      rw [State.tally, e] at ho
      exact absurd (hn.symm.trans ho) (by decide)
    have chosen : j ∈ ts := List.mem_map.mpr ⟨_, List.mem_filter.mpr ⟨listed, by simp [ho, ha]⟩, rfl⟩
    simp [chosen]

/-- R227: RESET of a queue that has nothing in flight. -/
theorem resetQueue_empty {s : State} {q : Nat} (hi : (s.queue q).inflight = []) : ∃ t, s.resetQueue q = t ∧
    t.queue q = { s.queue q with
      state := .disabled, sregs := [], pin := [], fetched := [], head := none, headWritten := (s.queue q).fetch } ∧
    ∀ k, (s.tally k).owner = .queue q → (t.tally k).abandoned = true := by
  let u := s.modQueue q fun x => { x with state := .resetting }
  have entered : u.queue q = { s.queue q with state := .resetting } := s.queue_modQueue_self q _
  have nothing : u.spoilQueue q = u ∧ u.cancelQueue q = u := by
    unfold State.spoilQueue State.cancelQueue
    rw [entered]
    show forEach ((s.queue q).inflight.filter _) _ u = u ∧ forEach ((s.queue q).inflight.filter _) _ u = u
    rw [hi]
    exact ⟨rfl, rfl⟩
  obtain ⟨queue, tallies⟩ := abandonOwned_left (k := q) (s := u) (o := fun o => o == .queue q) rfl (by rw [entered]; exact fun h => QState.noConfusion h)
  let v := (u.abandonOwned fun o => o == .queue q).modQueue q fun x => { x with sregs := [], pin := [], fetched := [], head := none }
  have cleared : v.queue q = { s.queue q with state := .resetting, sregs := [], pin := [], fetched := [], head := none } := by
    refine (State.queue_modQueue_self _ q _).trans ?_
    rw [queue, entered]
  have ran : s.resetQueue q = (v.writeHead q).modQueue q fun x => { x with state := .disabled } := by
    have unfolded : s.resetQueue q = ((((u.spoilQueue q).cancelQueue q).abandonOwned fun o => o == .queue q).modQueue q
      fun x => { x with sregs := [], pin := [], fetched := [], head := none }).resetDone q := rfl
    rw [unfolded, nothing.1, nothing.2]
    exact if_pos (by rw [cleared]; exact ⟨rfl, hi⟩)
  refine ⟨_, ran, ?_, fun k ho => ?_⟩
  · rw [State.queue_modQueue_self, State.queue_writeHead, cleared]
    simp [Queue.headIdx, hi]
  · have kept : ((v.writeHead q).modQueue q fun x => { x with state := .disabled }).tally k = (u.abandonOwned fun o => o == .queue q).tally k := by
      unfold State.tally
      show Tab.get {} (v.writeHead q).sync.tallies k = _
      simp [v, State.modQueue]
    rw [kept]
    exact tallies k (beq_iff_eq.mpr ho)

/-! ### Control bits -/

theorem bitAt_mod_32 {n i : Nat} (h : i < 5) : bitAt n i = bitAt (n % 32) i := by
  unfold bitAt
  have : i = 0 ∨ i = 1 ∨ i = 2 ∨ i = 3 ∨ i = 4 := by omega
  obtain rfl | rfl | rfl | rfl | rfl := this
  all_goals
    refine congrArg (· == 1) ?_
    omega

/-- R545: the low five bits of a write name one control bit. -/
theorem one_bit_of {v : Word} {b : Nat} (hb : b < 5) (h : v.toNat % 32 = 2 ^ b) :
    (List.range 5).filter (bitAt (v ||| BitVec.twoPow 32 b).toNat) = [b] ∧ v ||| BitVec.twoPow 32 b = v := by
  have set : v.getLsbD b = true := by
    have low : (v.toNat % 2 ^ 5).testBit b = true := by rw [show (2 : Nat) ^ 5 = 32 from rfl, h, Nat.testBit_two_pow_self]
    rw [Nat.testBit_mod_two_pow] at low
    simp only [Bool.and_eq_true] at low
    exact low.2
  have same : v ||| BitVec.twoPow 32 b = v := by
    refine BitVec.eq_of_getLsbD_eq fun i hi => ?_
    rw [BitVec.getLsbD_or, BitVec.getLsbD_twoPow]
    by_cases e : i = b
    · simp [e, set]
    · simp [Ne.symm e]
  refine ⟨?_, same⟩
  rw [same]
  have bits : (List.range 5).filter (bitAt v.toNat) = (List.range 5).filter (bitAt (2 ^ b)) :=
    List.filter_congr fun i hi => by rw [bitAt_mod_32 (List.mem_range.mp hi), h]
  rw [bits]
  have : b = 0 ∨ b = 1 ∨ b = 2 ∨ b = 3 ∨ b = 4 := by omega
  obtain rfl | rfl | rfl | rfl | rfl := this <;> decide

/-- R545: a write with one control bit to a queue that is not DISABLED. -/
theorem writeQCtrl_bit {s : State} {q b : Nat} {v : Word} (hs : (s.queue q).state ≠ .disabled) (hb : b < 5)
    (h : v.toNat % 32 = 2 ^ b) : s.writeQCtrl q (v ||| BitVec.twoPow 32 b).toNat = s.queueCtrl q b :=
  writeQCtrl_one_bit hs (one_bit_of hb h).1

/-- R545: a control bit that names no transition is counted. -/
theorem reported_badCtrl (s : State) (q : Nat) : Reported Det.badCtrl
    (s.setQueue q { s.queue q with badCtrl := satAdd 0xFFFF (s.queue q).badCtrl 1 }) (s.badCtrl q) :=
  reported_eventC _ Det.badCtrl _ _ _ (by decide) (by decide)

theorem reported_refuseQueue (s : State) (q : Nat) : Reported Det.qCfgRefused
    (s.setQueue q { s.queue q with cfgRefused := true }) (s.refuseQueue q) :=
  reported_eventC _ Det.qCfgRefused _ _ _ (by decide) (by decide)

/-- R544: the configuration that ENABLE of a DISABLED queue takes. -/
theorem writeQCtrl_enable {s : State} {q : Nat} {v : Word} (hs : (s.queue q).state = .disabled) (hp : fld v.toNat 8 4 ≤ 8)
    (h : v.toNat % 32 = 1) : s.writeQCtrl q (v ||| 1#32).toNat = (s.setQueue q { s.queue q with
      producer := fld v.toNat 8 4, errRing := fld v.toNat 16 6, errContinue := bitAt v.toNat 24 }).enableQueue q := by
  obtain ⟨one, same⟩ := one_bit_of (b := 0) (by decide) h
  rw [same] at one
  have same' : v ||| 1#32 = v := same
  rw [same']
  have disabled : ((s.queue q).state == .disabled) = true := by rw [hs]; rfl
  have legal : (true && decide (8 < fld v.toNat 8 4)) = false := by simp [hp]
  unfold State.writeQCtrl
  dsimp only
  rw [disabled, one, legal]
  refine (if_neg Bool.false_ne_true).trans ?_
  show State.queueCtrl (s.setQueue q _) q 0 = _
  unfold State.queueCtrl
  dsimp only
  rw [State.queue_setQueue_self]
  dsimp only
  rw [hs]
  rfl

/-- Table QUE-8: RESUME and RESET of a queue that is SUSPENDED or HALTED. -/
theorem queueCtrl_resume {s : State} {q : Nat} (h : (s.queue q).state = .suspended ∨ (s.queue q).state = .halted) :
    s.queueCtrl q 3 = if s.held (64 + q) then s.refuseQueue q else s.modQueue q fun x => { x with state := .running } := by
  unfold State.queueCtrl
  dsimp only
  obtain h | h := h
  all_goals
    rw [h]
    rfl

theorem queueCtrl_reset {s : State} {q : Nat} (h : (s.queue q).state = .suspended ∨ (s.queue q).state = .halted) :
    s.queueCtrl q 4 = if (s.queue q).hasCollective then
      (s.modQueue q fun x => { x with resetRefused := true }).eventC Det.resetRefused (.queue q) else s.resetQueue q := by
  unfold State.queueCtrl
  dsimp only
  obtain h | h := h
  all_goals
    rw [h]
    rfl

theorem stopped_not_disabled {x : Queue} (h : x.state = .suspended ∨ x.state = .halted) : x.state ≠ .disabled := by
  intro e
  obtain h | h := h
  all_goals exact QState.noConfusion (h.symm.trans e)

/-- R226: SUSPEND of a RUNNING queue writes HEAD. -/
theorem suspendQueue_writes {s : State} {q ph : Nat} (hst : (s.queue q).state = .running)
    (hw : Writable s (s.queue q).headAddr.toNat 8 ph) : ∃ m, s.suspendQueue q =
      (s.setQueue q { s.queue q with state := .suspended, headWritten := (s.queue q).headIdx }).withBytes ph
        (leBytes (s.queue q).headIdx.toNat 8) m := by
  let y : Queue := { s.queue q with state := .suspended, headWritten := (s.queue q).headIdx }
  obtain ⟨m, stored⟩ := store_writable (s := s.setQueue q y) (bs := leBytes (s.queue q).headIdx.toNat 8) (length_leBytes _ _) hw
  have suspended : s.suspendQueue q = (s.setQueue q { s.queue q with state := .suspended }).writeHead q := if_pos hst
  refine ⟨m, ?_⟩
  rw [suspended]
  unfold State.writeHead State.modQueue
  dsimp only
  rw [State.queue_setQueue_self, State.setQueue_setQueue, State.queue_setQueue_self]
  show (match (s.setQueue q y).store (s.queue q).headAddr.toNat (leBytes (s.queue q).headIdx.toNat 8) with
    | (s', .ok) => s'
    | (s', .strict _) => s'
    | (s', .ue page) => (s'.eventU Det.rmwUe (.queue q) (some (64 + q)) page []).1
    | (s', .unbacked a) => s'.unbackedEvent a) = _
  rw [stored]

/-- Settles O48. PRODUCER above 8 is ignored (log entry 97), RESET in the other states is BAD_CTRL (94), ENABLE clears the pin stack
(95) and RESET acts at once (96). -/
theorem queueControl : Obligations.QueueControl := by
  have okQ {q : Nat} (h : q < 256) : okQueue q = true := decide_eq_true h
  refine ⟨fun s q v x y h1 hr hx hv hy => ⟨fun hst hp hm => ?enables, fun hst hp hm => ?refusesEnable, fun hst hp => ?producer, fun hst => ?notDisabled⟩,
    fun s q v x h1 hr hx hv => ⟨fun hst he => ?disables, fun hst => ?notDisable⟩,
    fun s q ph v x h1 hr hx hv => ⟨fun hst hw hram => ?suspends, fun hst hd => ?notSuspend⟩,
    fun s q v x h1 hr hx hv hst => ⟨fun hh => ?resumes, fun hh => ?refusesResume⟩,
    fun s q v x h1 hr hx hv hst => ⟨fun hc => ?refusesReset, fun hi => ?resets⟩,
    fun s q v x h1 hr hx => ⟨fun hst h h' => ?moves, fun h => ?refusesMove, ?watchdog⟩⟩
  case enables =>
    subst hx hy
    refine exec_of rfl (okQ h1) ((if_pos hr).trans ((writeQCtrl_enable hst hp hv).trans ((if_pos hm).trans ?_)))
    unfold State.modQueue
    rw [State.queue_setQueue_self, State.setQueue_setQueue]
  case refusesEnable =>
    subst hx hy
    refine ⟨_, exec_of rfl (okQ h1) ((if_pos hr).trans ((writeQCtrl_enable hst hp hv).trans (if_neg (by rw [hm]; decide)))), ?_⟩
    have reported := reported_refuseQueue (s.setQueue q { s.queue q with
      producer := fld v.toNat 8 4, errRing := fld v.toNat 16 6, errContinue := bitAt v.toNat 24 }) q
    rw [State.queue_setQueue_self, State.setQueue_setQueue] at reported
    exact reported
  case producer =>
    subst hx
    refine exec_of rfl (okQ h1) ((if_pos hr).trans (if_pos ?_))
    rw [show (v ||| 1#32) = v from (one_bit_of (b := 0) (by decide) hv).2, hst, decide_eq_true hp]
    rfl
  case notDisabled =>
    subst hx
    refine ⟨_, exec_of rfl (okQ h1) ((if_pos hr).trans ((writeQCtrl_bit (b := 0) hst (by decide) hv).trans ?_)), reported_badCtrl s q⟩
    unfold State.queueCtrl
    dsimp only
    generalize (s.queue q).state = st at hst
    cases st
    case disabled => exact absurd rfl hst
    all_goals rfl
  case disables =>
    subst hx
    refine exec_of rfl (okQ h1) ((if_pos hr).trans ((writeQCtrl_bit (b := 1) (by rw [hst]; exact fun h => QState.noConfusion h) (by decide) hv).trans ?_))
    unfold State.queueCtrl
    dsimp only
    rw [hst]
    exact if_pos he
  case notDisable =>
    subst hx
    refine ⟨_, exec_of rfl (okQ h1) ((if_pos hr).trans ((writeQCtrl_bit (b := 1) ?_ (by decide) hv).trans ?_)), reported_badCtrl s q⟩
    · obtain ⟨h, -⟩ | h | h | h := hst
      all_goals exact fun e => QState.noConfusion (h.symm.trans e)
    · unfold State.queueCtrl
      dsimp only
      obtain ⟨h, he⟩ | h | h | h := hst
      · rw [h, he]
        rfl
      all_goals
        rw [h]
        rfl
  case suspends =>
    subst hx
    obtain ⟨m, suspended⟩ := suspendQueue_writes hst hw
    have ran : s.queueCtrl q 2 = s.suspendQueue q := by
      unfold State.queueCtrl
      dsimp only
      rw [hst]
      rfl
    refine ⟨_, exec_of rfl (okQ h1) ((if_pos hr).trans ((writeQCtrl_bit (b := 2) (by rw [hst]; exact fun h => QState.noConfusion h)
      (by decide) hv).trans (ran.trans suspended))), ?_, fun k hk => ?_, ?_, fun a ha => ?_⟩
    · exact State.queue_setQueue_self _ _ _
    · exact (State.queue_setQueue _ _ _ _).trans (if_neg (Ne.symm hk))
    · exact readN_written ph hram (length_leBytes _ _)
    · exact Mem.read_writeN_other _ s.ram ph a hram (by rw [length_leBytes]; omega)
  case notSuspend =>
    subst hx
    refine ⟨_, exec_of rfl (okQ h1) ((if_pos hr).trans ((writeQCtrl_bit (b := 2) hd (by decide) hv).trans ?_)), reported_badCtrl s q⟩
    unfold State.queueCtrl
    dsimp only
    generalize (s.queue q).state = st at hst
    cases st
    case running => exact absurd rfl hst
    all_goals rfl
  case resumes =>
    subst hx
    exact exec_of rfl (okQ h1) ((if_pos hr).trans ((writeQCtrl_bit (b := 3) (stopped_not_disabled hst) (by decide) hv).trans
      ((queueCtrl_resume hst).trans (if_neg (by rw [hh]; decide)))))
  case refusesResume =>
    subst hx
    exact ⟨_, exec_of rfl (okQ h1) ((if_pos hr).trans ((writeQCtrl_bit (b := 3) (stopped_not_disabled hst) (by decide) hv).trans
      ((queueCtrl_resume hst).trans (if_pos hh)))), reported_refuseQueue s q⟩
  case refusesReset =>
    subst hx
    exact ⟨_, exec_of rfl (okQ h1) ((if_pos hr).trans ((writeQCtrl_bit (b := 4) (stopped_not_disabled hst) (by decide) hv).trans
      ((queueCtrl_reset hst).trans (if_pos hc)))), reported_eventC _ Det.resetRefused _ _ _ (by decide) (by decide)⟩
  case resets =>
    subst hx
    obtain ⟨t, reset, queue, tallies⟩ := resetQueue_empty hi
    have none : ¬ (s.queue q).hasCollective = true := by simp [Queue.hasCollective, hi]
    refine ⟨t, exec_of rfl (okQ h1) ((if_pos hr).trans ((writeQCtrl_bit (b := 4) (stopped_not_disabled hst) (by decide) hv).trans
      ((queueCtrl_reset hst).trans ((if_neg none).trans reset)))), ?_⟩
    dsimp only
    rw [queue]
    exact ⟨rfl, rfl, rfl, rfl, hi, rfl, tallies⟩
  case moves =>
    subst hx
    exact exec_of rfl (okQ h1) ((if_pos hr).trans (if_pos ⟨hst, h, h'⟩))
  case refusesMove =>
    subst hx
    refine ⟨_, exec_of rfl (okQ h1) ((if_pos hr).trans (if_neg ?_)), reported_refuseQueue s q⟩
    rintro ⟨stopped, late, early⟩
    obtain ⟨h, h'⟩ | h | h := h
    · exact stopped.elim h h'
    · exact Bool.false_ne_true (h.symm.trans late)
    · exact Bool.false_ne_true (h.symm.trans early)
  case watchdog =>
    subst hx
    exact exec_of rfl (okQ h1) (if_pos hr)

/-! ### Completion rings -/

/-- Settles O49. That ENABLE of an enabled ring changes nothing is the model's reading. -/
theorem completionRings : Obligations.CompletionRings := by
  have okR {r : Nat} (h : r < 64) : okRing r = true := decide_eq_true h
  refine ⟨fun s r g h1 hr hg => ⟨fun he => ?enabled, fun he h h' h'' => ?enables, fun he h => ?refused, fun hn => ?disables,
      fun hn => ?named, fun v => ⟨fun h h' => ?moves, fun h => ?headRefused⟩⟩,
    fun s r b g h1 hl hg ho => ⟨fun hc hd hb => ?sends, fun h => ?notYet⟩, fun s r h1 ho => ?noRecord⟩
  case enabled =>
    subst hg
    exact exec_of rfl (okR h1) ((if_pos hr).trans (if_pos he))
  case enables =>
    subst hg
    have legal : s.mayEnableRing { s.ring r with tail := 0, head := 0 } = true := by
      unfold State.mayEnableRing
      rw [show pow2Between (s.ring r).size 64 65536 = true from h, decide_eq_true h', show s.oneRmwRegion _ _ = true from h'']
      rfl
    exact exec_of rfl (okR h1) ((if_pos hr).trans ((if_neg (by rw [he]; decide)).trans (if_pos legal)))
  case refused =>
    subst hg
    have illegal : ¬ s.mayEnableRing { s.ring r with tail := 0, head := 0 } = true := by
      unfold State.mayEnableRing
      simp only [Bool.and_eq_true, decide_eq_true_eq]
      rintro ⟨⟨size, base⟩, region⟩
      obtain h | h | h := h
      · exact Bool.false_ne_true (h.symm.trans size)
      · exact h base
      · exact Bool.false_ne_true (h.symm.trans region)
    exact exec_of rfl (okR h1) ((if_pos hr).trans ((if_neg (by rw [he]; decide)).trans (if_neg illegal)))
  case disables =>
    subst hg
    exact exec_of rfl (okR h1) ((if_pos hr).trans (if_neg (by rw [hn]; decide)))
  case named =>
    subst hg
    exact exec_of rfl (okR h1) ((if_pos hr).trans (if_pos hn))
  case moves =>
    subst hg
    exact exec_of rfl (okR h1) ((if_pos hr).trans (if_neg (by rw [h, h']; decide)))
  case headRefused =>
    subst hg
    refine exec_of rfl (okR h1) ((if_pos hr).trans (if_pos ?_))
    rw [Bool.or_eq_true]
    exact h
  case sends =>
    subst hg
    have due : (s.live && (s.ring r).irqCount != 0 && (s.ring r).irqDelay != 0 && decide (b + 64 * (s.ring r).irqDelay ≤ s.now)) = true := by
      simp [hl, hc, hd, hb]
    exact exec_of rfl (okR h1) (by dsimp only; rw [ho]; exact if_pos due)
  case notYet =>
    subst hg
    have early : ¬ (s.live && (s.ring r).irqCount != 0 && (s.ring r).irqDelay != 0 && decide (b + 64 * (s.ring r).irqDelay ≤ s.now)) = true := by
      simp only [Bool.and_eq_true, bne_iff_ne, decide_eq_true_eq]
      rintro ⟨⟨⟨-, count⟩, delay⟩, waited⟩
      obtain h | h | h := h
      · exact count h
      · exact delay h
      · omega
    exact exec_of rfl (okR h1) (by dsimp only; rw [ho]; exact if_neg early)
  case noRecord => exact exec_of rfl (okR h1) (by dsimp only; rw [ho])

end Sys2Proof
end

section
/-!
O50 WindowMessages.
-/
namespace Sys2Proof
open Sys2Proof.Machine

/-! ### Collectives -/

theorem numbered_mem {α : Type} {xs : List α} {i n : Nat} {x : α} (h : (n, x) ∈ numbered i xs) : i ≤ n ∧ xs[n - i]? = some x := by
  induction xs generalizing i with
  | nil => simp [numbered] at h
  | cons y ys ih =>
    obtain e | h := List.mem_cons.mp h
    · obtain ⟨rfl, rfl⟩ := Prod.ext_iff.mp e
      simp
    · obtain ⟨le, found⟩ := ih h
      refine ⟨by omega, ?_⟩
      rw [show n - i = (n - (i + 1)) + 1 by omega]
      exact found

theorem outputOf_get {c : Coll} {g n : Nat} {m : Cue} {o : COutput} (h : c.outputOf g m = some (n, o)) : c.outputs[n]? = some o :=
  (numbered_mem (List.mem_of_find?_eq_some h)).2

/-- A collective that is put back is found by its command. -/
theorem collOf_putColl {s : State} {c d : Coll} (h : c ∈ s.ce.colls) (hq : c.queue = d.queue) (ht : c.tok = d.tok) :
    (s.putColl d).collOf d.queue d.tok = some d := by
  unfold State.collOf State.putColl
  dsimp only
  generalize s.ce.colls = cs at h
  induction cs with
  | nil => simp at h
  | cons x xs ih =>
    rw [List.map_cons, List.find?_cons]
    by_cases e : (x.queue == d.queue && x.tok == d.tok) = true
    · rw [if_pos e]
      simp
    · rw [if_neg e]
      simp only [Bool.not_eq_true] at e
      rw [e]
      obtain rfl | h := List.mem_cons.mp h
      · simp [hq, ht] at e
      · exact ih h

theorem coll_mem {s : State} {part optag : Nat} {c : Coll} (h : s.coll part optag = some c) : c ∈ s.ce.colls := List.mem_of_find?_eq_some h

/-- R280.4: nothing follows a RELEASE while the collective has no input and no size. -/
theorem settle_idle {s : State} {c : Coll} (h : s.collOf c.queue c.tok = some c) (hi : c.inputs = []) (hk : c.keep = none)
    (hs : c.sized = false) : s.settle c.queue c.tok = s := by
  have none : s.releaseAll c = s := by
    unfold State.releaseAll
    rw [hi]
    rfl
  unfold State.settle
  rw [h]
  dsimp only
  rw [none, h]
  dsimp only
  rw [hk, hs]
  exact (if_neg (by simp)).trans (if_pos (by simp))

/-! ### Whom a window message concerns -/

theorem windowMsg_neighbour {s : State} {p : Nat} {m : Cue} (h : m.neighbour = true) (f g : State → State) :
    s.windowMsg p m f g = f s := if_pos h

theorem windowFor_coll {s : State} {p g : Nat} {m : Cue} {c : Coll} (hg : s.gangOf p = some g)
    (hm : s.ce.muted.contains (m.at 0 1, fld (m.at 2 2) 0 12) = false) (hc : s.coll (m.at 0 1) (fld (m.at 2 2) 0 12) = some c) :
    s.windowFor p m = .coll c g := by
  unfold State.windowFor
  dsimp only
  rw [hg]
  dsimp only
  rw [hm, hc]
  rfl

theorem windowFor_muted {s : State} {p g : Nat} {m : Cue} (hg : s.gangOf p = some g)
    (hm : s.ce.muted.contains (m.at 0 1, fld (m.at 2 2) 0 12) = true) : s.windowFor p m = .drop := by
  unfold State.windowFor
  dsimp only
  rw [hg]
  dsimp only
  rw [hm]
  rfl

theorem windowFor_early {s : State} {p g : Nat} {m : Cue} (hg : s.gangOf p = some g)
    (hm : s.ce.muted.contains (m.at 0 1, fld (m.at 2 2) 0 12) = false) (hc : s.coll (m.at 0 1) (fld (m.at 2 2) 0 12) = none)
    (hp : s.inPart (m.at 0 1) s.self = true) : s.windowFor p m = .early := by
  unfold State.windowFor
  dsimp only
  rw [hg]
  dsimp only
  rw [hm, hc, hp]
  rfl

/-! ### The messages -/

/-- R280.2: a CONFIRM that sets the window of an output of the sender is answered with RESERVE. -/
theorem confirmIn_sends {s : State} {c : Coll} {n w : Nat} {o : COutput} (h0 : w ≠ 0) (h : w ≤ 64) (hs : s.sends c o = true)
    (hr : s.cueRoom o.gang false = true) :
    (s.confirmIn c n o w).ce = (s.putColl { c with outputs := modAt (fun o => { o with granted := some w }) n c.outputs }).ce ∧
      ∃ r, ((s.confirmIn c n o w).cueQueue o.gang).items = (s.cueQueue o.gang).items ++ [(false, r)] ∧ r.typ = 0x10 ∧
        r.neighbour = true ∧ r.body = windowBody c o.route o.down (s.outTotal c o) 0 := by
  let d : Coll := { c with outputs := modAt (fun o => { o with granted := some w }) n c.outputs }
  let u := s.putColl d
  let b := windowBody d o.route o.down (u.outTotal d o) 0
  let r := u.numberCue o.gang { typ := 0x10, neighbour := true, dest := 0x3FF, body := b }
  have room : u.cueRoom o.gang false = true := hr
  have ran : s.confirmIn c n o w = r.1.enqueueCue o.gang false r.2 := by
    have sent : (u.sendWindow d 0x10 o.gang o.route o.down (u.outTotal d o)).1 = r.1.enqueueCue o.gang false r.2 := by
      unfold State.sendWindow
      dsimp only
      rw [if_neg (by decide)]
      dsimp only
      unfold State.originate
      rw [if_pos room]
    exact (if_neg (by omega)).trans ((if_pos hs).trans sent)
  rw [ran]
  refine ⟨by simp [r, u, d], r.2, ?_, rfl, rfl, rfl⟩
  have queue : r.1.cueQueue o.gang = s.cueQueue o.gang := rfl
  exact (congrArg CueQueue.items (Tab.get_put_self _ _ _ _)).trans (congrArg (fun x : CueQueue => x.items ++ [(false, r.2)]) queue)

theorem filterMap_only {xs : List Nat} {k : Nat} (hn : xs.Nodup) (hk : k ∈ xs) :
    xs.filterMap (fun y => if y = k then some y else none) = [k] := by
  induction xs with
  | nil => simp at hk
  | cons x xs ih =>
    obtain ⟨fresh, hn⟩ := List.nodup_cons.mp hn
    by_cases e : x = k
    · subst e
      have rest : xs.filterMap (fun y => if y = x then some y else none) = [] := by
        rw [List.filterMap_eq_nil_iff]
        intro y hy
        exact if_neg (fun h : y = x => fresh (h ▸ hy))
      rw [List.filterMap_cons, if_pos rfl, rest]
    · rw [List.filterMap_cons, if_neg e]
      exact ih hn ((List.mem_cons.mp hk).resolve_left (Ne.symm e))

/-- R310: a damaged segment is sent again alone. -/
theorem resendFrom_damaged {s : State} {c : Coll} {o : COutput} {k : Nat} (hk : k ∈ c.segsOn (s.streamsOf c) o.stream) :
    s.resendFrom c o k false = [k] := by
  have alone : (c.segsOn (s.streamsOf c) o.stream).filterMap (fun y => if y = k then some y else none) = [k] :=
    filterMap_only (List.nodup_range.filter _) hk
  unfold State.resendFrom
  dsimp only
  rw [← alone]
  generalize c.segsOn (s.streamsOf c) o.stream = segs
  conv_rhs => rw [← numbered_map_snd 0 segs, List.filterMap_map]
  refine List.filterMap_congr fun x _ => ?_
  simp

/-- R310: a retry of a segment that was sent queues it again, and is counted. -/
theorem retryFor_queues {s : State} {c : Coll} {n k cause : Nat} {o : COutput} (ho : c.outputs[n]? = some o) (hd : o.down = false)
    (hc : cause ≠ 3) (hk : k ∈ c.segsOn (s.streamsOf c) o.stream) (hs : k / s.streamsOf c < o.seg)
    (hr : (o.resend.any fun r => r.1 == k) = false) (hf : s.collOf c.queue c.tok = some c) :
    ButReports (s.putColl { c with outputs := modAt (fun o => { o with resend := o.resend ++ [(k, 0)] }) n c.outputs })
        (s.retryFor c n o k cause) ∧
      (s.retryFor c n o k cause).counter (Cnt.ce (c.part % 4) 7) = risen (s.counter (Cnt.ce (c.part % 4) 7)) 1 := by
  let u := s.ceEvent c.part 7 Det.segmentRetryRx k
  have unit : UnitCounter (Cnt.ce (c.part % 4) 7) := by
    unfold UnitCounter Cnt.ce
    omega
  have counted : u.counter (Cnt.ce (c.part % 4) 7) = risen (s.counter (Cnt.ce (c.part % 4) 7)) 1 := by
    refine (counter_eventC_other _ _ _ _ _ _ (unit.not_mem_reportCells _)).trans (counter_count_self s _)
  have but : ButReports s u := by simp [u, State.ceEvent, ButReports.rfl']
  have streams : u.streamsOf c = s.streamsOf c := but.read fun v => v.streamsOf c
  have found : u.collOf c.queue c.tok = some c := (but.read fun v => v.collOf c.queue c.tok).trans hf
  have again : u.addResend c n k false = (u.putColl { c with
      outputs := modAt (fun o => { o with resend := o.resend ++ [(k, 0)] }) n c.outputs }).eventC Det.retryResend (.ce c.ceOf) k := by
    have fresh : [k].filter (fun j => !(o.resend.any fun r => r.1 == j)) = [k] := List.filter_cons_of_pos (by rw [hr]; rfl)
    have due : ¬ (([k] : List Nat).isEmpty || !decide (k / u.streamsOf c < o.seg)) = true := by
      rw [streams, decide_eq_true hs]
      simp
    unfold State.addResend
    rw [ho]
    dsimp only
    rw [resendFrom_damaged (streams ▸ hk), fresh]
    exact if_neg due
  have ran : s.retryFor c n o k cause = u.addResend c n k false := by
    have sends : s.sends c o = true := by simp [State.sends, hd]
    have damaged : (cause == 3) = false := by simpa using hc
    unfold State.retryFor
    dsimp only
    rw [if_pos sends, hd, damaged]
    show (match u.collOf c.queue c.tok with | some c => u.addResend c n k false | none => u) = _
    rw [found]
  rw [ran, again, counter_eventC_other _ _ _ _ _ _ (unit.not_mem_reportCells _), butReports_eventC]
  exact ⟨but.map (fun v => v.putColl _) rfl, counted⟩

theorem outputMsg_output {s : State} {p g n : Nat} {m : Cue} {c : Coll} {o : COutput} (hw : s.windowFor p m = .coll c g)
    (ho : c.outputOf g m = some (n, o)) (f : State → Coll → Nat → COutput → State) : s.outputMsg p m f = f s c n o := by
  unfold State.outputMsg
  rw [hw]
  dsimp only
  rw [ho]

theorem outputMsg_none {s : State} {p g : Nat} {m : Cue} {c : Coll} (hw : s.windowFor p m = .coll c g)
    (ho : c.outputOf g m = none) (f : State → Coll → Nat → COutput → State) : s.outputMsg p m f = s := by
  unfold State.outputMsg
  rw [hw]
  dsimp only
  rw [ho]

theorem outputMsg_drop {s : State} {p : Nat} {m : Cue} (hw : s.windowFor p m = .drop) (f : State → Coll → Nat → COutput → State) :
    s.outputMsg p m f = s := by
  unfold State.outputMsg
  rw [hw]

/-- Settles O50: a message from a neighbour concerns the collective that its PART and OPTAG name, unless that is muted or not issued
here yet. -/
theorem windowMessages : Obligations.WindowMessages := by
  have wf {p : Nat} {c : Cue} (hp : p < 16) (hc : okCue c = true) : (okPort p && okCue c) = true := by
    rw [hc, okPort, decide_eq_true hp]
    rfl
  refine ⟨fun s p g n m c h1 hok hl hnb hg hm hc => ⟨fun i hf hd => ?reserves, fun hf => ?noInput,
      fun o ho => ⟨fun hw => ?confirmOutside, fun h0 hw hs hr => ?confirms, fun hv => ?releaseOutside,
        fun hv hv' hi hk hs => ?releases, fun hd hca hk hsent hre hf => ?retries⟩, fun ho => ?noOutput⟩,
    fun s p g m h1 hok hl hnb hg hm => ?muted, fun s p g m h1 hok hl hnb hg hm hc hp he h0 hw => ?early⟩
  case reserves =>
    refine exec_of rfl (wf h1 hok) ((if_pos hl).trans ((windowMsg_neighbour hnb _ _).trans ?_))
    rw [windowFor_coll hg hm hc]
    show s.reserveIn c g m = _
    unfold State.reserveIn
    rw [hf]
    exact if_neg (by rw [hd]; decide)
  case noInput =>
    refine exec_of rfl (wf h1 hok) ((if_pos hl).trans ((windowMsg_neighbour hnb _ _).trans ?_))
    rw [windowFor_coll hg hm hc]
    show s.reserveIn c g m = _
    unfold State.reserveIn
    rw [hf]
  case confirmOutside =>
    have proto : Reported Det.windowProto s (s.windowProto c.part c.optag) :=
      reported_eventC _ Det.windowProto _ _ _ (by decide) (by decide)
    refine ⟨s.windowProto c.part c.optag, exec_of rfl (wf h1 hok) ((if_pos hl).trans ((windowMsg_neighbour hnb _ _).trans ?_)), proto⟩
    rw [windowFor_coll hg hm hc]
    dsimp only
    rw [ho]
    exact if_pos hw
  case confirms =>
    refine ⟨_, exec_of rfl (wf h1 hok) ((if_pos hl).trans ((windowMsg_neighbour hnb _ _).trans ?_)), confirmIn_sends h0 hw hs hr⟩
    rw [windowFor_coll hg hm hc]
    dsimp only
    rw [ho]
  case releaseOutside =>
    refine ⟨_, exec_of rfl (wf h1 hok) ((if_pos hl).trans ((windowMsg_neighbour hnb _ _).trans
      ((outputMsg_output (windowFor_coll hg hm hc) ho _).trans (if_pos hv)))), ?_⟩
    exact reported_eventC _ Det.windowProto (.ce (c.part % 4)) c.optag [] (by decide) (by decide)
  case releases =>
    refine exec_of rfl (wf h1 hok) ((if_pos hl).trans ((windowMsg_neighbour hnb _ _).trans
      ((outputMsg_output (windowFor_coll hg hm hc) ho _).trans ((if_neg (by omega)).trans ?_))))
    exact settle_idle (c := { c with outputs := modAt (fun o => { o with released := m.at 8 4 }) n c.outputs })
      (collOf_putColl (d := { c with outputs := modAt (fun o => { o with released := m.at 8 4 }) n c.outputs })
      (coll_mem hc) rfl rfl) hi hk hs
  case retries =>
    exact ⟨_, exec_of rfl (wf h1 hok) ((if_pos hl).trans ((windowMsg_neighbour hnb _ _).trans
      (outputMsg_output (windowFor_coll hg hm hc) ho _))), retryFor_queues (outputOf_get ho) hd hca hk hsent hre hf⟩
  case noOutput =>
    refine ⟨exec_of rfl (wf h1 hok) ((if_pos hl).trans ((windowMsg_neighbour hnb _ _).trans ?_)),
      exec_of rfl (wf h1 hok) ((if_pos hl).trans ((windowMsg_neighbour hnb _ _).trans (outputMsg_none (windowFor_coll hg hm hc) ho _))),
      exec_of rfl (wf h1 hok) ((if_pos hl).trans ((windowMsg_neighbour hnb _ _).trans (outputMsg_none (windowFor_coll hg hm hc) ho _)))⟩
    rw [windowFor_coll hg hm hc]
    dsimp only
    rw [ho]
  case muted =>
    have drop := windowFor_muted hg hm
    refine ⟨exec_of rfl (wf h1 hok) ((if_pos hl).trans ((windowMsg_neighbour hnb _ _).trans ?_)),
      exec_of rfl (wf h1 hok) ((if_pos hl).trans ((windowMsg_neighbour hnb _ _).trans ?_)),
      exec_of rfl (wf h1 hok) ((if_pos hl).trans ((windowMsg_neighbour hnb _ _).trans (outputMsg_drop drop _))),
      exec_of rfl (wf h1 hok) ((if_pos hl).trans ((windowMsg_neighbour hnb _ _).trans (outputMsg_drop drop _)))⟩
    · rw [drop]
    · rw [drop]
  case early =>
    have kept := windowFor_early hg hm hc hp
    refine ⟨exec_of rfl (wf h1 hok) ((if_pos hl).trans ((windowMsg_neighbour hnb _ _).trans ?_)),
      exec_of rfl (wf h1 hok) ((if_pos hl).trans ((windowMsg_neighbour hnb _ _).trans ?_))⟩
    · rw [kept]
    · rw [kept]
      refine (if_neg (by omega)).trans ?_
      unfold State.keepEarly
      dsimp only
      rw [he, hg]
      rfl

end Sys2Proof
end

section
/-!
O51 CollectiveEvents.
-/
namespace Sys2Proof
open Sys2Proof.Machine

/-! ### What follows a change of a collective that is not done -/

theorem collOf_key {s : State} {q tok : Nat} {c : Coll} (h : s.collOf q tok = some c) : c.queue = q ∧ c.tok = tok := by
  have found := List.find?_some h
  simpa using found

theorem collOf_put {s : State} {c d : Coll} (h : s.collOf d.queue d.tok = some c) : (s.putColl d).collOf d.queue d.tok = some d := by
  obtain ⟨hq, ht⟩ := collOf_key h
  exact collOf_putColl (List.mem_of_find?_eq_some h) hq ht

/-- Of the collective of `c` only the inputs may differ; nothing outside the CE, the send queues and the cue numbers does. -/
structure InputsMoved (c : Coll) (s t : State) : Prop where
  coll : ∃ ins, t.collOf c.queue c.tok = some { c with inputs := ins }
  rest : { t with ce := s.ce, cueQ := s.cueQ, sync := s.sync } = s

theorem InputsMoved.read {α : Type} {c : Coll} {s t : State} (h : InputsMoved c s t) (f : State → α)
    (hf : ∀ u : State, f { u with ce := s.ce, cueQ := s.cueQ, sync := s.sync } = f u) : f t = f s :=
  (hf t).symm.trans (congrArg f h.rest)

theorem sendWindow_moves (s : State) (c : Coll) (typ g route : Nat) (down : Bool) (v cause : Nat) :
    (s.sendWindow c typ g route down v cause).1.ce = s.ce ∧
      { (s.sendWindow c typ g route down v cause).1 with ce := s.ce, cueQ := s.cueQ, sync := s.sync } = s := by
  unfold State.sendWindow
  dsimp only
  split
  · exact ⟨rfl, rfl⟩
  · unfold State.originate
    split
    · dsimp only [State.numberCue, State.useSeq]
      split
      · exact ⟨rfl, rfl⟩
      · exact ⟨rfl, rfl⟩
    · exact ⟨rfl, rfl⟩

/-- R280.5: RELEASE moves the released count of an input. -/
theorem releaseInput_moves {c d : Coll} {s t : State} (h : InputsMoved c s t) (hq : d.queue = c.queue) (ht : d.tok = c.tok) (n : Nat)
    (i : CInput) : InputsMoved c s (t.releaseInput d n i) := by
  obtain ⟨ce, rest⟩ := sendWindow_moves t d 0x12 i.gang i.route i.down n 0
  obtain ⟨ins, found⟩ := h.coll
  unfold State.releaseInput
  generalize t.sendWindow d 0x12 i.gang i.route i.down n = r at ce rest ⊢
  obtain ⟨u, sent⟩ := r
  dsimp only at ce rest
  have same : u.collOf c.queue c.tok = some { c with inputs := ins } := by
    rw [← found]
    unfold State.collOf
    rw [ce]
  have kept : { u with ce := s.ce, cueQ := s.cueQ, sync := s.sync } = s := by
    rw [← h.rest, ← rest]
  cases sent
  case false => exact ⟨⟨ins, same⟩, kept⟩
  case true =>
    dsimp only
    rw [hq, ht, same]
    exact ⟨⟨_, collOf_put (d := { c with inputs := ins.map fun x =>
      if x.gang == i.gang && x.route == i.route && x.down == i.down then { x with released := n } else x }) same⟩, kept⟩

theorem releaseAll_moves {c d : Coll} {s t : State} (h : InputsMoved c s t) (hq : d.queue = c.queue) (ht : d.tok = c.tok) :
    InputsMoved c s (t.releaseAll d) := by
  unfold State.releaseAll
  generalize d.inputs = is
  induction is generalizing t with
  | nil => exact h
  | cons i is ih =>
    refine ih (t := if i.released < t.releasedOf d i then t.releaseInput d (t.releasedOf d i) i else t) ?_
    split
    · exact releaseInput_moves h hq ht _ i
    · exact h

/-- R260: a collective that is not done goes on. -/
theorem settle_goes_on {c : Coll} {s : State} (h : s.collOf c.queue c.tok = some c) (hk : c.keep = none) (hd : s.collDone c = false) :
    InputsMoved c s (s.settle c.queue c.tok) := by
  have released := releaseAll_moves (c := c) (d := c) (s := s) ⟨⟨c.inputs, h⟩, rfl⟩ rfl rfl
  obtain ⟨ins, found⟩ := released.coll
  have notDone : (s.releaseAll c).collDone { c with inputs := ins } = false :=
    (released.read (fun u => u.collDone { c with inputs := ins }) fun _ => rfl).trans hd
  have ran : s.settle c.queue c.tok = s.releaseAll c := by
    have unkept : ({ c with inputs := ins } : Coll).keep = none := hk
    generalize ({ c with inputs := ins } : Coll) = d at found notDone unkept
    unfold State.settle
    rw [h]
    dsimp only
    rw [found]
    dsimp only
    rw [unkept, notDone]
    refine (if_neg (by simp)).trans ?_
    split
    · rfl
    · rfl
  rw [ran]
  exact released

/-- R260: a contributor that has a segment of its up half still to send is not done. -/
theorem collDone_sending {s : State} {c : Coll} (hr : c.root ≠ s.self)
    (ho : ∃ o ∈ c.outputs, o.down = false ∧ o.seg < s.outTotal c o)
    (hw : c.opcode ≠ 0x40 ∨ ∃ k, k < c.segCount ∧ c.written.contains k = false) : s.collDone c = false := by
  have notMe : (c.root == s.self) = false := by simpa using hr
  have left : ((c.outputs.filter fun o => o.down == false).all fun o =>
      decide (s.outTotal c o ≤ o.seg) && o.resend.isEmpty) = false := by
    obtain ⟨o, mem, up, short⟩ := ho
    rw [List.all_eq_false]
    exact ⟨o, List.mem_filter.mpr ⟨mem, by simp [up]⟩, by simp; omega⟩
  unfold State.collDone
  dsimp only
  rw [notMe, left]
  by_cases h40 : c.opcode = 0x40
  · rw [if_pos h40]
    obtain h | ⟨k, hk, hnot⟩ := hw
    · exact absurd h40 h
    · refine (if_neg Bool.false_ne_true).trans ?_
      rw [List.all_eq_false]
      exact ⟨k, List.mem_range.mpr hk, by rw [hnot]; decide⟩
  · rw [if_neg h40, if_neg Bool.false_ne_true, Bool.and_false]
    exact ite_self _

/-! ### Combination -/

/-- R284, R182: the NATIVE combination of SELF's own bytes and those of the inputs, in the order drawn. -/
theorem combined_native {s : State} {c : Coll} {k ph : Nat} {own : List Byte} (hk : Cc.kind c.cmd = .native) (ho : Cc.op c.cmd = 0)
    (hs : c.hostSrc = none)
    (hr : Readable s (Cc.src c.cmd + k * Cc.perSeg c.cmd * Cc.inBytes c.cmd) (c.itemsOf k * Cc.inBytes c.cmd) ph)
    (hown : own = Num.packCodes (Num.Fmt.ofCode (Cc.fin c.cmd)) (Num.unpackCodes (Num.Fmt.ofCode (Cc.fin c.cmd)) (c.itemsOf k)
      (s.ram.readN ph (c.itemsOf k * Cc.inBytes c.cmd)))) :
    ∃ j n, s.combined c k = ((s.modCtrl j (·.touch (ph / 2048 * 2048))).drawn, .inl ((c.combineAll k (shuffle s.fresh
      ((s.upInputs c k).length + 1) (own :: (s.upInputs c k).map (·.payload k)))).1, n)) := by
  obtain ⟨j, loaded⟩ := load_readable hr
  let u := s.modCtrl j (·.touch (ph / 2048 * 2048))
  have plain : Cc.isLoc c.cmd = false := by simp [Cc.isLoc, ho]
  have mine : s.ownSegment c k = (u, .inl (own, {})) := by
    unfold State.ownSegment State.collRead
    dsimp only
    rw [hk]
    dsimp only
    rw [if_neg (by decide), hs]
    dsimp only
    rw [loaded]
    dsimp only
    unfold Coll.ownPlain nativeOwn
    dsimp only
    rw [hk]
    dsimp only
    rw [plain, if_neg Bool.false_ne_true, if_neg (by omega), hown]
  have parts : (own :: (s.upInputs c k).map (·.payload k)).length = (s.upInputs c k).length + 1 := by simp
  have merged : u.combineSegment c k own (s.upInputs c k) = (u.drawn, c.combineAll k (shuffle s.fresh
      ((s.upInputs c k).length + 1) (own :: (s.upInputs c k).map (·.payload k)))) := by
    unfold State.combineSegment
    dsimp only
    rw [hk, parts]
    rfl
  refine ⟨j, Num.Counts.plus {} (c.combineAll k (shuffle s.fresh ((s.upInputs c k).length + 1)
    (own :: (s.upInputs c k).map (·.payload k)))).2, ?_⟩
  unfold State.combined
  rw [if_neg (by rw [hk]; decide), mine]
  show ((u.combineSegment c k own (s.upInputs c k)).1, Sum.inl ((u.combineSegment c k own (s.upInputs c k)).2.1,
    Num.Counts.plus {} (u.combineSegment c k own (s.upInputs c k)).2.2)) = _
  rw [merged]

/-- R284: a contributor that still sends keeps the segment that it has formed. -/
theorem place_forms {s : State} {c : Coll} {k : Nat} {bs : List Byte} (h : (s.collOf c.queue c.tok).isSome = true) (hr : c.root ≠ s.self)
    (hk : c.keep = none) (hd : s.collDone c = false) : ∃ d, (s.place c k bs).collOf c.queue c.tok = some d ∧
      Tab.find d.ready k = some (formSeg (c.typeOf k) (c.fallsBack k) bs) ∧ (s.place c k bs).ram = s.ram := by
  let d : Coll := { c with
    ready := Tab.put c.ready k (formSeg (c.typeOf k) (c.fallsBack k) bs), fallback := c.fallback || c.fallsBack k }
  let u := s.noteFallback d k
  have but : ButReports s u := by
    unfold u State.noteFallback State.ceEvent
    split
    · simp [ButReports.rfl']
    · exact ButReports.rfl' s
  have ran : s.place c k bs = (u.putColl d).settle c.queue c.tok := by
    have root : ¬ c.root = u.self := fun e => hr (e.trans (but.read State.self))
    exact if_neg root
  obtain ⟨c0, found⟩ := Option.isSome_iff_exists.mp h
  have put : (u.putColl d).collOf d.queue d.tok = some d := collOf_put ((but.read fun v => v.collOf c.queue c.tok).trans found)
  have notDone : (u.putColl d).collDone d = false := (but.read fun v => v.collDone d).trans hd
  have moved := settle_goes_on put hk notDone
  obtain ⟨ins, last⟩ := moved.coll
  rw [ran]
  refine ⟨_, last, (Tab.find_put _ _ _ _).trans (if_pos rfl), ?_⟩
  exact (moved.read State.ram fun _ => rfl).trans but.ram

/-! ### Segments that are given up -/

/-- R314: a contributor that gives up on a segment of its up half sends it poisoned, with the status of the cause. -/
theorem giveUp_poisons {s : State} {c : Coll} {k status : Nat} (h : s.collOf c.queue c.tok = some c) (hr : c.root ≠ s.self)
    (hk : c.keep = none) (h40 : c.opcode ≠ 0x40) (ho : ∃ o ∈ c.outputs, o.down = false ∧ o.seg < s.outTotal c o) :
    ∃ d x, (s.giveUp c false k status).collOf c.queue c.tok = some d ∧ d.failure = c.failure.or (some (status, k)) ∧
      Tab.find d.ready k = some x ∧ x.poisoned = true ∧ (s.giveUp c false k status).fresh = s.fresh + 1 := by
  let mark (i : CInput) : CInput :=
    if i.down = false ∧ (Tab.find i.segs k).isSome then i.setSeg k { i.seg k with gaveUp := true, asked := none } else i
  let marked : Coll := { c.fail status k with inputs := c.inputs.map mark }
  let r := s.poisonSeg (marked.itemsOf k * marked.carried k)
  let d : Coll := { marked with ready := Tab.put marked.ready k r.2 }
  let u := (s.drawn.putColl d).count (Cnt.ce c.ceOf 2)
  have but : ButReports (s.drawn.putColl d) (u.raise Det.chkGiveUp (.ce c.ceOf) none k) :=
    ButReports.trans (t := u) (ButReports.rfl' (s.drawn.putColl d)) (raise_untargeted u _ _ _)
  have ran : s.giveUp c false k status = (u.raise Det.chkGiveUp (.ce c.ceOf) none k).settle c.queue c.tok := by
    have poisoned : s.poisonUp marked k = (s.drawn, d) := if_neg hr
    unfold State.giveUp
    dsimp only
    rw [if_neg Bool.false_ne_true]
    show State.settle (State.raise (((s.poisonUp marked k).1.putColl (s.poisonUp marked k).2).count _) _ _ _ _) _ _ = _
    rw [poisoned]
    rfl
  have put : (u.raise Det.chkGiveUp (.ce c.ceOf) none k).collOf d.queue d.tok = some d :=
    (but.read fun v => v.collOf d.queue d.tok).trans (collOf_put (s := s.drawn) (d := d) h)
  have notDone : (u.raise Det.chkGiveUp (.ce c.ceOf) none k).collDone d = false :=
    (but.read fun v => v.collDone d).trans (collDone_sending (s := s) (c := d) hr ho (.inl h40))
  have moved := settle_goes_on put hk notDone
  obtain ⟨ins, last⟩ := moved.coll
  rw [ran]
  exact ⟨_, r.2, last, rfl, (Tab.find_put _ _ _ _).trans (if_pos rfl), rfl, (moved.read State.fresh fun _ => rfl).trans but.fresh⟩

/-! ### The pitch pass -/

theorem foldl_fixes {α β γ : Type} (g : β → γ) (f : β → α → β) (hf : ∀ b a, g (f b a) = g b) (xs : List α) (b : β) :
    g (xs.foldl f b) = g b := by
  induction xs generalizing b with
  | nil => rfl
  | cons x xs ih => exact (ih _).trans (hf b x)

theorem takePitch_kept (c : Coll) (j : Nat) (data : List Byte) : (c.takePitch j data).queue = c.queue ∧
    (c.takePitch j data).tok = c.tok ∧ (c.takePitch j data).pitchSent = c.pitchSent := by
  have kept : ((c.takePitch j data).queue, (c.takePitch j data).tok, (c.takePitch j data).pitchSent) = (c.queue, c.tok, c.pitchSent) := by
    unfold Coll.takePitch
    dsimp only
    split
    · refine foldl_fixes (fun x : Coll => (x.queue, x.tok, x.pitchSent)) _ (fun b a => ?_) _ c
      rfl
    · refine foldl_fixes (fun x : Coll => (x.queue, x.tok, x.pitchSent)) _ (fun b a => ?_) _ c
      rfl
  simpa [Prod.ext_iff] using kept

theorem putCtx_colls (s : State) (x : DCtx) : (s.putCtx x).ce.colls = s.ce.colls := by
  unfold State.putCtx
  split <;> rfl

theorem putCtx_ram (s : State) (x : DCtx) : (s.putCtx x).ram = s.ram := by
  unfold State.putCtx
  split <;> rfl

/-- R296: a fold leaves the collectives; what it gives goes to the owner of its context. -/
theorem foldCtx_gives (s : State) (e : Img.DTree) {x : DCtx} (ho : x.owner ≠ .none) : (s.foldCtx e x).1.ce.colls = s.ce.colls ∧
    (s.foldCtx e x).1.ram = s.ram ∧ ∀ g, (s.foldCtx e x).2 = some g → g.owner = x.owner ∧ g.dop = x.dop := by
  have notRelay : (x.owner == .none) = false := by simpa using ho
  have sent (u : State) (b : Bool) (gs : List Nat) (op : Descant) : (u.onlyIf b (·.readyOn gs op)).ce.colls = u.ce.colls ∧
      (u.onlyIf b (·.readyOn gs op)).ram = u.ram := by cases b <;> exact ⟨rfl, rfl⟩
  unfold State.foldCtx
  simp only [notRelay]
  split
  · obtain ⟨colls, ram⟩ := sent _ _ _ _
    refine ⟨colls, ram, fun g hg => ?_⟩
    rw [← Option.some.inj hg]
    exact ⟨rfl, rfl⟩
  · refine ⟨?_, ?_, nofun⟩
    · exact (putCtx_colls _ _)
    · exact (putCtx_ram _ _)

/-- R295, R296: a contribution to an operation that no context holds: what it gives, it gives to its owner. -/
theorem contribute_opens {s : State} {x : DCtx} (hx : s.ctx x.dtree x.dop x.dseq = none) (ho : x.owner ≠ .none) :
    (s.contribute x).1.ce.colls = s.ce.colls ∧ (s.contribute x).1.ram = s.ram ∧
      ∀ g, (s.contribute x).2 = some g → g.owner = x.owner ∧ g.dop = x.dop := by
  have self : x.isFor x.dtree x.dop x.dseq = true := by simp [DCtx.isFor]
  have notListed : s.ce.ctxs.any (·.isFor x.dtree x.dop x.dseq) = false := by
    rw [List.any_eq_false]
    exact fun y hy => List.find?_eq_none.mp hx y hy
  let u : State := { s with ce.ctxs := s.ce.ctxs ++ [x] }
  have opened : s.putCtx x = u := if_neg (by rw [notListed]; decide)
  have found : u.ctx x.dtree x.dop x.dseq = some x := by
    have none : s.ce.ctxs.find? (·.isFor x.dtree x.dop x.dseq) = none := hx
    show (s.ce.ctxs ++ [x]).find? (·.isFor x.dtree x.dop x.dseq) = some x
    rw [List.find?_append, none, List.find?_cons, self]
    rfl
  have ran : s.contribute x = u.tryFold x.dtree x.dop x.dseq := by
    unfold State.contribute
    rw [hx]
    dsimp only
    rw [opened]
  rw [ran]
  unfold State.tryFold
  rw [found]
  split
  · next c e hc he =>
    cases hc
    split
    · exact foldCtx_gives u e ho
    · exact ⟨rfl, rfl, nofun⟩
  · exact ⟨rfl, rfl, nofun⟩

/-- R288: what a PITCH operation gives to a collective outside the descant lane leaves its count of pitches. -/
theorem given_pitch {s : State} {c : Coll} {g : Given} (h : s.collOf c.queue c.tok = some c) (hg : g.owner = .command c.queue c.tok)
    (hd : g.dop = Dop.pitch) (ha : c.alg ≠ some .descant) : ∃ d, (s.given g).collOf c.queue c.tok = some d ∧ d.pitchSent = c.pitchSent ∧
      (s.given g).ram = s.ram := by
  let d : Coll := { c with sat := c.sat + g.sat, flush := c.flush + g.flush }
  have notCounts : ¬ (g.dop = Dop.counts ∧ d.opcode ≠ 0x45) := fun e => absurd (hd.symm.trans e.1) (by decide)
  have ran : s.given g = match d.groupOf (g.dseq / 4096) with
      | some j => s.putColl (d.takePitch j g.data)
      | none => s := by
    unfold State.given
    rw [hg]
    dsimp only
    rw [h]
    exact (if_neg notCounts).trans ((if_pos hd).trans (if_neg ha))
  rw [ran]
  split
  · next j _ =>
    obtain ⟨queue, tok, sent⟩ := takePitch_kept d j g.data
    refine ⟨d.takePitch j g.data, ?_, sent, rfl⟩
    rw [← queue, ← tok]
    exact collOf_put (by rw [queue, tok]; exact h)
  · exact ⟨c, h, rfl, rfl⟩

/-- R288: the next PITCH operation is injected. -/
theorem pitchNext_injects {s : State} {c : Coll} {bs : List Byte} (h : s.collOf c.queue c.tok = some c) (ha : c.alg ≠ some .descant)
    (hp : c.pitchSent < c.groups) (hw : Cc.kind c.cmd = .wide) (hk : c.keep = none) (hsz : c.sized = true)
    (hb : c.hostSrc = some bs) (hx : s.ctx c.dtree Dop.pitch (dseqOf c.optag c.pitchSent) = none) :
    ∃ d, (s.pitchNext c).collOf c.queue c.tok = some d ∧ d.pitchSent = c.pitchSent + 1 ∧ (s.pitchNext c).ram = s.ram := by
  have read (ks : List Nat) (acc : List Byte) : ∃ lanes, s.pitchData c ks acc = (s, .inl lanes) := by
    induction ks generalizing acc with
    | nil => exact ⟨acc, rfl⟩
    | cons k ks ih =>
      unfold State.pitchData
      dsimp only
      rw [if_neg (by rw [hw]; decide)]
      unfold State.readRows State.collRead
      dsimp only
      rw [hb]
      exact ih _
  obtain ⟨lanes, data⟩ := read ((List.range c.groupSize).filterMap fun i =>
    if c.pitchSent * c.groupSize + i < c.segCount then some (c.pitchSent * c.groupSize + i) else none) []
  let d : Coll := { c with pitchSent := c.pitchSent + 1 }
  let x := d.ctxFor Dop.pitch c.pitchSent 7 (fillLanes lanes) true 0
  have put : (s.putColl d).collOf d.queue d.tok = some d := collOf_put (d := d) h
  obtain ⟨colls, ram, gives⟩ := contribute_opens (s := s.putColl d) (x := x) hx (by simp [x, Coll.ctxFor])
  have ready : s.srcReady c = true := by simp [State.srcReady, hb]
  have due : ¬ (c.keep.isSome || !c.sized || !s.srcReady c || c.groups ≤ c.pitchSent ||
      (s.ctx c.dtree Dop.pitch (dseqOf c.optag c.pitchSent)).any (·.own.isSome)) = true := by
    rw [hk, hsz, ready, hx]
    simpa using hp
  have ran : s.pitchNext c = match (s.putColl d).contribute x with
      | (s, none) => s
      | (s, some g) => s.given g := by
    unfold State.pitchNext
    dsimp only
    rw [data]
    exact if_neg due
  rw [ran]
  generalize (s.putColl d).contribute x = r at colls ram gives
  obtain ⟨u, answer⟩ := r
  have found : u.collOf d.queue d.tok = some d := by
    rw [← put]
    unfold State.collOf
    exact congrArg (List.find? _) colls
  cases answer with
  | none => exact ⟨d, found, rfl, ram⟩
  | some g =>
    obtain ⟨owner, dop⟩ := gives g rfl
    obtain ⟨e, last, sent, same⟩ := given_pitch found owner dop ha
    exact ⟨e, last, sent, same.trans ram⟩

/-! ### The obligation -/

/-- Settles O51. A segment is combined and checked as a whole (log entry 101), and RETRY_GIVE_UP is due from the second downbeat
(log entry 56). -/
theorem collectiveEvents : Obligations.CollectiveEvents := by
  refine ⟨fun s part optag k ph c own hwf hc hf => ⟨fun hm => ?notYet, fun hm hk ho hs hout hr hrd hown => ?combines,
      fun hm hn hre => ?adder⟩,
    fun s part optag k n c i hwf hc hi hk hsz hp hg ha => ⟨fun hinc hret => ?asks, fun hinc hb => ?whole⟩,
    fun s part optag k n d c i cause hwf hc hf hi ha => ⟨fun h => ?waits, fun hd hres hdn hr hk h40 hout => ?givesUp⟩,
    fun s part optag c hwf hc hf => ⟨fun h => ?noPitch, fun bs ha hp hw hk hsz hsrc hb hx => ?injects⟩,
    fun s part optag b c hwf hc hk => ⟨fun h => ?ends, fun o ho hb hd hrel => ?keeps⟩,
    fun s dtree optag b part x hwf hx hb hpart => ⟨fun h => ?discards, fun h => ?early⟩⟩
  case notYet =>
    refine exec_of rfl hwf ?_
    rw [hc]
    exact if_neg (by rw [hm]; decide)
  case combines =>
    obtain ⟨j, n, combined⟩ := combined_native hk ho hs hrd hown
    let u := (s.modCtrl j (·.touch (ph / 2048 * 2048))).drawn
    let d : Coll := { (c.addCounts n) with breach := c.breach || u.ownBreach c k }
    have open' : c.keep = none ∧ k < c.segCount ∧ c.written.contains k = false := by
      simp only [State.mayCombine, State.combines, Bool.and_eq_true, Option.isNone_iff_eq_none, decide_eq_true_eq, Bool.not_eq_true'] at hm
      exact ⟨hm.1.1.1.1.1.1.1.1.1, hm.1.1.1.1.1.1.2, hm.1.2⟩
    obtain ⟨unkept, inside, unwritten⟩ := open'
    have notDone : u.collDone d = false := collDone_sending (s := s) (c := d) hr hout (.inr ⟨k, inside, unwritten⟩)
    obtain ⟨c', found, ready, ram⟩ := place_forms (s := u) (c := d) (k := k) (bs := (c.combineAll k (shuffle s.fresh
      ((s.upInputs c k).length + 1) (own :: (s.upInputs c k).map (·.payload k)))).1)
      (Option.isSome_iff_exists.mpr ⟨c, hf⟩) hr unkept notDone
    refine ⟨_, exec_of rfl hwf ?_, c', found, ready, ram⟩
    rw [hc]
    refine (if_pos hm).trans ((if_neg Bool.false_ne_true).trans ?_)
    rw [combined]
  case adder =>
    have unit : UnitCounter (Cnt.ce c.ceOf 1) := by
      unfold UnitCounter Cnt.ce Coll.ceOf
      omega
    have same : ButReports s (s.count (Cnt.ce c.ceOf 1)) := ButReports.rfl' s
    let u := s.residueFault c c.adderDet k
    have but : ButReports (containedBy s c.adderDet (40 + c.ceOf)) u := raiseOn_but k rfl (hre.of_but same) same
    have counted : u.counter (Cnt.ce c.ceOf 1) = risen (s.counter (Cnt.ce c.ceOf 1)) 1 :=
      (counter_raiseOn_other k rfl (hre.of_but same) (unit.not_mem_reportCells _)).trans (counter_count_self s _)
    refine ⟨u.putColl { c with adderRetried := k :: c.adderRetried }, exec_of rfl hwf ?_, but.map (fun v => v.putColl _) rfl, counted⟩
    rw [hc]
    exact (if_pos hm).trans ((if_pos rfl).trans (if_neg (by rw [hn]; decide)))
  case asks =>
    refine exec_of rfl hwf ?_
    rw [hc]
    dsimp only
    rw [hi]
    dsimp only
    rw [if_neg (by simp [hk, hsz, hp, hg, ha]), if_pos (by simp [hinc])]
    exact if_neg (by rw [hret]; decide)
  case whole =>
    refine exec_of rfl hwf ?_
    rw [hc]
    dsimp only
    rw [hi]
    dsimp only
    rw [if_neg (by simp [hk, hsz, hp, hg, ha])]
    exact if_neg (by simp [hinc, hb])
  case waits =>
    refine exec_of rfl hwf ?_
    rw [hc]
    dsimp only
    rw [hi]
    dsimp only
    rw [ha]
    refine if_neg ?_
    rintro ⟨late, unsent⟩
    obtain h | h := h
    · omega
    · rw [h] at unsent
      exact Bool.false_ne_true unsent
  case givesUp =>
    refine ⟨s.giveUp c false k cause.status, exec_of rfl hwf ?_, giveUp_poisons hf hr hk h40 hout⟩
    rw [hc]
    dsimp only
    rw [hi]
    dsimp only
    rw [ha, hdn]
    exact if_pos ⟨hd, by rw [hres]; rfl⟩
  case noPitch =>
    refine exec_of rfl hwf ?_
    rw [hc]
    dsimp only
    split
    · rfl
    · next ha =>
      obtain h | h := h
      · exact absurd h ha
      · exact if_pos (by simp [h])
  case injects =>
    refine ⟨_, exec_of rfl hwf ?_, pitchNext_injects hf ha hp hw hk hsz hb hx⟩
    rw [hc]
    exact if_neg ha
  case ends =>
    refine exec_of rfl hwf ?_
    rw [hc]
    dsimp only
    rw [hk]
    refine if_pos (h.imp_right fun all => ?_)
    rw [List.all_eq_true]
    intro o ho
    cases hd : o.down
    · rfl
    · exact decide_eq_true (all o ho hd)
  case keeps =>
    refine exec_of rfl hwf ?_
    rw [hc]
    dsimp only
    rw [hk]
    refine if_neg ?_
    rintro (late | all)
    · omega
    · have covered := List.all_eq_true.mp all o ho
      rw [hd] at covered
      simp at covered
      omega
  case discards =>
    subst hpart
    have unit : UnitCounter (Cnt.ce (((s.dtree dtree).map (·.part)).getD 0 % 4) 4) := by
      unfold UnitCounter Cnt.ce
      omega
    let u : State := { s.dropCtx dtree Dop.max (dseqOf optag 15) with ce.discarded := (dtree, dseqOf optag 15) :: s.ce.discarded }
    refine ⟨u.ceEvent (((s.dtree dtree).map (·.part)).getD 0) 4 Det.lateDiscard optag, exec_of rfl hwf ?_, ?_, ?_⟩
    · rw [hx]
      dsimp only
      rw [hb]
      exact if_pos h
    · simp [u, State.ceEvent, ButReports.rfl']
    · exact (counter_eventC_other _ _ _ _ _ _ (unit.not_mem_reportCells _)).trans (counter_count_self u _)
  case early =>
    refine exec_of rfl hwf ?_
    rw [hx]
    dsimp only
    rw [hb]
    exact if_neg (by omega)

end Sys2Proof
end

section
/-!
O52 LostMembers.
-/
namespace Sys2Proof
open Sys2Proof.Machine

/-! ### What leaves the CE and the barriers -/

/-- The collective engines and the barriers are as they were. -/
structure CeLeft (s t : State) : Prop where
  ce : t.ce = s.ce
  barriers : t.sync.barriers = s.sync.barriers

theorem CeLeft.rfl' (s : State) : CeLeft s s := ⟨rfl, rfl⟩

theorem CeLeft.trans {s t u : State} (h : CeLeft s t) (h' : CeLeft t u) : CeLeft s u := ⟨h'.ce.trans h.ce, h'.barriers.trans h.barriers⟩

theorem ButReports.ceLeft {s t : State} (h : ButReports s t) : CeLeft s t := ⟨h.ce, congrArg Sync.barriers h.sync⟩

theorem ceLeft_originate (s : State) (key : Nat) (c : Cue) : CeLeft s (s.originate key c).1 := by
  unfold State.originate
  split
  · dsimp only [State.numberCue, State.useSeq]
    split
    · exact ⟨rfl, rfl⟩
    · exact ⟨rfl, rfl⟩
  · exact ⟨rfl, rfl⟩

theorem ceLeft_flood (s : State) (relayed : Bool) (except avoid : Option Nat) (c : Cue) : CeLeft s (s.flood relayed except avoid c) := by
  obtain ⟨-, -, -, -, ce, -⟩ := flood_kept s relayed except avoid c
  refine ⟨ce, ?_⟩
  refine foldl_keeps (fun u : State => u.sync.barriers) _ (fun u ps => ?_) s.floodGangs s
  dsimp only
  split
  · rfl
  · split
    · rfl
    · split
      · unfold State.numberCue State.useSeq
        dsimp only
        split <;> rfl
      · split <;> rfl

/-- R215: a command that ends with a failure waits for its record. -/
theorem finish_sync (s : State) (q tok : Nat) {d : Done} (hd : d.status ≠ St.ok) : (s.finish q tok d).sync = s.sync := by
  unfold State.finish
  split
  · rfl
  · next x _ =>
    have recorded : needsRecord x.cmd { d with order := s.finished } = true := by simp [needsRecord, hd]
    dsimp only
    rw [if_pos recorded]
    simp [State.modQueue]

theorem endHead_sync (s : State) (q obj : Nat) : (s.endHead q St.abandoned obj).sync = s.sync := by
  unfold State.endHead
  dsimp only
  split
  · split
    · unfold State.completeHead
      rw [finish_sync _ _ _ (by decide : St.abandoned ≠ St.ok)]
      simp
    · simp
  · rfl

/-! ### Barriers that become ABANDONED -/

theorem State.barrier_of_barriers {s t : State} (h : t.sync.barriers = s.sync.barriers) (b : Nat) : t.barrier b = s.barrier b := by
  unfold State.barrier
  rw [h]

theorem wakeAbandoned_barriers (s : State) (k : WakeKind) (obj : Nat) : (s.wakeAbandoned k obj).sync.barriers = s.sync.barriers :=
  foldl_keeps (fun u : State => u.sync.barriers) _ (fun u w => by simp [State.fireWire]) _ s

/-- R419: a context that becomes ABANDONED; nothing else of the contexts or the CE changes. -/
theorem abandonBarrier_abandons (s : State) (b cause : Nat) : (s.abandonBarrier b cause).ce = s.ce ∧
    ∀ j, (s.abandonBarrier b cause).barrier j = if b = j ∧ (s.barrier j).state ≠ .abandoned then
      { s.barrier j with state := .abandoned, cause := cause } else s.barrier j := by
  unfold State.abandonBarrier
  dsimp only
  split
  · next ha =>
    refine ⟨rfl, fun j => (if_neg ?_).symm⟩
    rintro ⟨rfl, h⟩
    exact h ha
  · next ha =>
    let u := (s.setBarrier b { s.barrier b with state := .abandoned, cause := cause }).wakeAbandoned .barrier b
    have ended (qs : List Nat) : (forEach qs (fun q st => st.endHead q St.abandoned (2 ^ 31 + b)) u).ce = u.ce ∧
        (forEach qs (fun q st => st.endHead q St.abandoned (2 ^ 31 + b)) u).sync = u.sync := by
      have kept : ((forEach qs (fun q st => st.endHead q St.abandoned (2 ^ 31 + b)) u).ce,
          (forEach qs (fun q st => st.endHead q St.abandoned (2 ^ 31 + b)) u).sync) = (u.ce, u.sync) :=
        foldl_keeps (fun v : State => (v.ce, v.sync)) (fun v q => v.endHead q St.abandoned (2 ^ 31 + b))
          (fun v q => Prod.ext_iff.mpr ⟨by simp, endHead_sync v q _⟩) qs u
      exact Prod.ext_iff.mp kept
    obtain ⟨ce, sync⟩ := ended (s.queueIds.filter fun q => s.headWaits q == some (2 ^ 31 + b))
    refine ⟨ce.trans (by simp [u, State.setBarrier]), fun j => ?_⟩
    refine (State.barrier_of_barriers (congrArg Sync.barriers sync) j).trans
      ((State.barrier_of_barriers (wakeAbandoned_barriers _ _ _) j).trans ((Tab.get_put _ _ _ _ _).trans ?_))
    by_cases e : b = j
    · subst e
      rw [if_pos rfl, if_pos ⟨rfl, ha⟩]
    · rw [if_neg e, if_neg fun h => e h.1]
      rfl

theorem abandonBarriers_abandon (bs : List Nat) (cause : Nat) (s : State) :
    (forEach bs (fun b st => st.abandonBarrier b cause) s).ce = s.ce ∧
    ∀ j, (forEach bs (fun b st => st.abandonBarrier b cause) s).barrier j = if j ∈ bs ∧ (s.barrier j).state ≠ .abandoned then
      { s.barrier j with state := .abandoned, cause := cause } else s.barrier j := by
  induction bs generalizing s with
  | nil => exact ⟨rfl, fun j => (if_neg (by simp)).symm⟩
  | cons b bs ih =>
    obtain ⟨ce, first⟩ := abandonBarrier_abandons s b cause
    obtain ⟨ce', rest⟩ := ih (s.abandonBarrier b cause)
    refine ⟨ce'.trans ce, fun j => (rest j).trans ?_⟩
    rw [first]
    by_cases ha : (s.barrier j).state = .abandoned
    · simp [ha]
    · by_cases e : b = j
      · simp [e, ha]
      · simp [e, ha, Ne.symm e]

/-! ### Collectives that stop -/

/-- R324: a collective that stops is gone, and no other appears. -/
theorem stopColl_gone (s : State) (c : Coll) (d : Done) : (s.stopColl c d).ce.lost = s.ce.lost ∧ (s.stopColl c d).ce.declared = s.ce.declared ∧
    (s.stopColl c d).score = s.score ∧
    ∀ y ∈ (s.stopColl c d).ce.colls, y ∈ s.ce.colls ∧ ¬ (y.part = c.part ∧ y.optag = c.optag) := by
  have ce : (s.stopColl c d).ce = s.ce.dropColl c.part c.optag := by simp [State.stopColl]
  have score : (s.stopColl c d).score = s.score := by simp [State.stopColl]
  rw [ce]
  unfold Collectives.dropColl
  split
  · next none =>
    refine ⟨rfl, rfl, score, fun y hy => ⟨hy, ?_⟩⟩
    have := List.find?_eq_none.mp none y hy
    simpa using this
  · refine ⟨rfl, rfl, score, fun y hy => ?_⟩
    obtain ⟨listed, other⟩ := List.mem_filter.mp hy
    exact ⟨listed, fun ⟨h, h'⟩ => by simp [h, h'] at other⟩

theorem stopColls_gone (cs : List Coll) {d : Done} (hd : d.status ≠ St.ok) (s : State) :
    (forEach cs (fun c st => st.stopColl c d) s).ce.lost = s.ce.lost ∧
    (forEach cs (fun c st => st.stopColl c d) s).ce.declared = s.ce.declared ∧
    (forEach cs (fun c st => st.stopColl c d) s).score = s.score ∧
    (forEach cs (fun c st => st.stopColl c d) s).sync = s.sync ∧
    ∀ y ∈ (forEach cs (fun c st => st.stopColl c d) s).ce.colls, y ∈ s.ce.colls ∧ y ∉ cs := by
  induction cs generalizing s with
  | nil => exact ⟨rfl, rfl, rfl, rfl, fun y hy => ⟨hy, by simp⟩⟩
  | cons c cs ih =>
    obtain ⟨lost, declared, score, gone⟩ := stopColl_gone s c d
    obtain ⟨lost', declared', score', sync', gone'⟩ := ih (s.stopColl c d)
    have sync : (s.stopColl c d).sync = s.sync := by
      unfold State.stopColl
      exact finish_sync _ _ _ hd
    refine ⟨lost'.trans lost, declared'.trans declared, score'.trans score, sync'.trans sync, fun y hy => ?_⟩
    obtain ⟨listed, notIn⟩ := gone' y hy
    obtain ⟨old, other⟩ := gone y listed
    refine ⟨old, fun mem => ?_⟩
    obtain rfl | mem := List.mem_cons.mp mem
    · exact other ⟨rfl, rfl⟩
    · exact notIn mem

/-! ### Transfers to a lost member -/

theorem ceLeft_sendCue (s : State) (typ dest : Nat) (body : List Byte) : CeLeft s (s.sendCue typ dest body).1 := by
  unfold State.sendCue
  split
  · exact ceLeft_originate _ _ _
  · exact .rfl' s

theorem ceLeft_closeTrail (s : State) (ch : Nat) : CeLeft s (s.closeTrail ch) := by
  let u := s.modChan ch fun c => { c with trail := none }
  have closed : CeLeft s u := ⟨rfl, rfl⟩
  have reserved : CeLeft u (u.sendReserve ch) := by
    unfold State.sendReserve
    dsimp only
    split
    · exact .rfl' u
    · next r _ =>
      split
      · exact .rfl' u
      · have sent := ceLeft_sendCue u 0x10 r.member (streamBody r.optag r.member r.total 0)
        generalize u.sendCue 0x10 r.member (streamBody r.optag r.member r.total 0) = x at sent ⊢
        obtain ⟨v, ok⟩ := x
        cases ok
        · exact sent
        · exact ⟨sent.ce, sent.barriers⟩
  exact closed.trans reserved

/-- Table FLT-4: a class-U event of a channel touches neither the CE nor the barriers. -/
theorem ceLeft_raiseOn_chan (s : State) (det ch detail : Nat) : CeLeft s (s.raiseOn det (.chan ch) detail) := by
  obtain ⟨ts, u, but, e⟩ := raise_writes s det (.chan ch) (some (320 + ch)) detail [] id
  have ran : s.raiseOn det (.chan ch) detail = u := by
    have unheld : u.holdEffect (320 + ch) = u := if_neg (by omega)
    obtain e | e | ⟨t, ht, e⟩ := e
    · exact e
    · exact e
    · cases ht
      exact e.trans unheld
  rw [ran]
  exact ⟨but.ceLeft.ce, but.ceLeft.barriers⟩

theorem ceLeft_chanLost (s : State) (x ch : Nat) : CeLeft s (s.chanLost x ch) := by
  have failed (u : State) (status detail : Nat) : CeLeft u (u.failXfer ch status detail) := by
    unfold State.failXfer State.endXfer
    dsimp only
    split <;> exact ⟨rfl, rfl⟩
  have late (u : State) (owner : Option Nat) (a : Nat) : CeLeft u (u.lateFailure ch owner true a) := by
    cases owner with
    | none =>
      have raised := ceLeft_raiseOn_chan ((u.modChan ch fun c => { c with lateFail := true }).count (Cnt.dma 4)) Det.lateFail ch a
      exact ⟨raised.ce, raised.barriers⟩
    | some q =>
      have raised := ceLeft_raiseOn_chan (State.count { u with
        dma.lateFails := u.dma.lateFails ++ [({ queue := q, page := a / 2048, remote := true } : LateFail)] } (Cnt.dma 4)) Det.lateFail ch a
      exact ⟨raised.ce, raised.barriers⟩
  have trail : CeLeft s (match (s.chan ch).trail with
      | some r => if r.member = x then s.failSide ch true r St.memberLost x r.released else s
      | none => s) := by
    split
    · split
      · exact (ceLeft_closeTrail s ch).trans (late _ _ _)
      · exact .rfl' s
    · exact .rfl' s
  have running (u : State) : CeLeft u (match (u.chan ch).remote with
      | some r => if r.member = x then u.failXfer ch St.memberLost x else u
      | none => u) := by
    split
    · split
      · exact failed _ _ _
      · exact .rfl' u
    · exact .rfl' u
  exact trail.trans (running _)

theorem ceLeft_chansLost (xs : List Nat) (x : Nat) (s : State) : CeLeft s (forEach xs (fun ch st => st.chanLost x ch) s) := by
  induction xs generalizing s with
  | nil => exact .rfl' s
  | cons ch xs ih => exact (ceLeft_chanLost s x ch).trans (ih _)

/-! ### A lost member -/

theorem inPart_of_score {s t : State} (h : t.score = s.score) (p x : Nat) : t.inPart p x = s.inPart p x := by
  simp [State.inPart, State.img, State.activeBank, h]

/-- R324, R325: what ends when member `x` is lost. -/
structure MemberGone (x : Nat) (s t : State) : Prop where
  lost : t.ce.lost = insertAsc x s.ce.lost
  declared : t.ce.declared = s.ce.declared
  colls : ∀ c ∈ t.ce.colls, s.inPart c.part x = false
  barriers : ∀ b, (s.barrier b).chorus = true → (s.barrier b).state = .armed → s.inPart (s.barrier b).part x = true →
    (t.barrier b).state = .abandoned ∧ (t.barrier b).cause = 2

theorem loseMember_gone (s : State) (x : Nat) : MemberGone x s (s.loseMember x) := by
  let s0 : State := { s with ce.lost := insertAsc x s.ce.lost }
  let cs := s0.ce.colls.filter fun c => s0.inPart c.part x
  let s1 := forEach cs (fun c st => st.stopColl c { status := St.memberLost, detail := x }) s0
  let bs := (s1.sync.barriers.filter fun y => y.2.chorus && y.2.state == .armed && s1.inPart y.2.part x).map (·.1)
  let s2 := forEach bs (fun b st => st.abandonBarrier b 2) s1
  obtain ⟨lost, declared, score, sync, gone⟩ := stopColls_gone cs (d := { status := St.memberLost, detail := x }) (by simp [St.memberLost, St.ok]) s0
  obtain ⟨ce, abandoned⟩ := abandonBarriers_abandon bs 2 s1
  have chans := ceLeft_chansLost (List.range 64) x s2
  have ce' : (s.loseMember x).ce = s1.ce := chans.ce.trans ce
  refine ⟨?_, ?_, fun c hc => ?_, fun b hch hst hin => ?_⟩
  · rw [ce']
    exact lost
  · rw [ce']
    exact declared
  · rw [ce'] at hc
    obtain ⟨old, notIn⟩ := gone c hc
    have : ¬ s.inPart c.part x = true := fun h => notIn (List.mem_filter.mpr ⟨old, h⟩)
    simpa using this
  · have same : s1.barrier b = s.barrier b := State.barrier_of_barriers (congrArg Sync.barriers sync) b
    have armed : (s.barrier b).state ≠ .abandoned := by
      rw [hst]
      exact fun e => BarState.noConfusion e
    have listed : (b, s1.barrier b) ∈ s1.sync.barriers := mem_of_get fun e => by
      have unlisted : (s.barrier b).state = .idle := by
        rw [← same]
        exact congrArg Barrier.state e
      rw [hst] at unlisted
      exact BarState.noConfusion unlisted
    have chosen : b ∈ bs := by
      refine List.mem_map.mpr ⟨_, List.mem_filter.mpr ⟨listed, ?_⟩, rfl⟩
      have part : s1.inPart (s.barrier b).part x = true := (inPart_of_score score _ _).trans hin
      rw [same, hch, hst, part]
      rfl
    have final : (s.loseMember x).barrier b = s2.barrier b := State.barrier_of_barriers chans.barriers b
    rw [final, abandoned, same, if_pos ⟨chosen, armed⟩]
    exact ⟨rfl, rfl⟩

theorem MemberGone.of_left {x : Nat} {s u t : State} (h : MemberGone x u t) (hl : CeLeft s u) (hs : u.score = s.score) :
    MemberGone x s t := by
  refine ⟨by rw [h.lost, hl.ce], by rw [h.declared, hl.ce], fun c hc => (inPart_of_score hs _ _).symm.trans (h.colls c hc),
    fun b hch hst hin => ?_⟩
  have same : u.barrier b = s.barrier b := State.barrier_of_barriers hl.barriers b
  exact h.barriers b (by rw [same]; exact hch) (by rw [same]; exact hst) (by rw [same]; exact (inPart_of_score hs _ _).trans hin)

/-- Settles O52. -/
theorem lostMembers : Obligations.LostMembers := by
  have okM {x : Nat} (h : x < 1024) : okMember x = true := decide_eq_true h
  have wf {p : Nat} {c : Cue} (hp : p < 16) (hc : okCue c = true) : (okPort p && okCue c) = true := by
    rw [hc, okPort, decide_eq_true hp]
    rfl
  refine ⟨fun s x r h1 hl hm hb hx => ⟨fun hr => ?noReason, fun hr => ?declares⟩, fun s x h1 h => ?notDue,
    fun s p c h1 hok hl hm => ⟨fun he => ?foreign, fun he hx hst hre => ?stepsOut, fun he hx hlost => ?repeated, fun he hx hlost => ?taken⟩,
    fun s v x hl hx => ⟨fun hb => ?unset, fun hb h => ?refused, fun hb hm hself hin hlost => ?declared⟩⟩
  case noReason =>
    have due : (s.live && s.score.member && s.beat == 0 && !s.ce.lost.contains x) = true := by
      rw [hl, hm, hb, hx]
      rfl
    refine exec_of rfl (okM h1) ((if_pos due).trans ?_)
    rw [hr]
  case declares =>
    have due : (s.live && s.score.member && s.beat == 0 && !s.ce.lost.contains x) = true := by
      rw [hl, hm, hb, hx]
      rfl
    let s0 : State := { s with ce.declared := s.ce.declared.filter fun y => y != x }
    let s1 := s0.flood false none (some x) { typ := 0x40, neighbour := true, dest := 0x3FF, body := s0.lostBody x r }
    let s2 := s1.raise Det.neighbourLost (.ce 0) none x
    have raised := raise_untargeted s1 Det.neighbourLost (.ce 0) x
    have left : CeLeft s0 s2 := (ceLeft_flood s0 _ _ _ _).trans raised.ceLeft
    have score : s2.score = s0.score := raised.score.trans (flood_kept s0 _ _ _ _).1
    obtain ⟨lost, declared, colls, barriers⟩ := (loseMember_gone s2 x).of_left left score
    refine ⟨s2.loseMember x, exec_of rfl (okM h1) ((if_pos due).trans ?_), ?_, fun y hy => ?_, colls, ?_, barriers⟩
    · rw [hr]
      rfl
    · rw [lost]
      exact mem_insertAsc.mpr (.inl rfl)
    · rw [lost]
      exact mem_insertAsc.mpr (.inr hy)
    · rw [declared]
      simp [s0]
  case notDue =>
    refine exec_of rfl (okM h1) (if_neg ?_)
    simp only [Bool.and_eq_true, beq_iff_eq, Bool.not_eq_true']
    rintro ⟨⟨⟨live, member⟩, beat⟩, fresh⟩
    obtain h | h | h | h := h
    · exact Bool.false_ne_true (h.symm.trans live)
    · exact Bool.false_ne_true (h.symm.trans member)
    · exact h beat
    · exact Bool.false_ne_true (fresh.symm.trans h)
  case foreign =>
    exact exec_of rfl (wf h1 hok) ((if_pos hl).trans (if_pos (by simp [he])))
  case stepsOut =>
    have timed : s.timed = true := by
      unfold State.timed
      rw [hst]
    obtain ⟨out, member, -⟩ := stepOut_leaves 0 timed hre
    exact ⟨_, exec_of rfl (wf h1 hok) ((if_pos hl).trans ((if_neg (by simp [he, hm])).trans (if_pos hx))), out, member⟩
  case repeated =>
    exact exec_of rfl (wf h1 hok) ((if_pos hl).trans ((if_neg (by simp [he, hm])).trans ((if_neg hx).trans (if_pos hlost))))
  case taken =>
    let x := c.at 0 2 % 1024
    let s1 := (s.count (Cnt.ceMw 2)).eventC Det.memberLostRx .engine x
    let s2 := s1.flood true (some p) (some x) c
    have noted : ButReports s s1 := by simp [s1, ButReports.rfl']
    have left : CeLeft s s2 := noted.ceLeft.trans (ceLeft_flood s1 _ _ _ _)
    have score : s2.score = s.score := (flood_kept s1 _ _ _ _).1.trans noted.score
    obtain ⟨lost, -, colls, barriers⟩ := (loseMember_gone s2 x).of_left left score
    refine ⟨s2.loseMember x, exec_of rfl (wf h1 hok) ((if_pos hl).trans ((if_neg (by simp [he, hm])).trans ((if_neg hx).trans
      (if_neg (by rw [hlost]; decide))))), ?_, fun y hy => ?_, colls, barriers⟩
    · rw [lost]
      exact mem_insertAsc.mpr (.inl rfl)
    · rw [lost]
      exact mem_insertAsc.mpr (.inr hy)
  case unset =>
    exact exec_of rfl rfl ((if_pos hl).trans (if_pos (by rw [hb]; rfl)))
  case refused =>
    subst hx
    refine exec_of rfl rfl ((if_pos hl).trans ((if_neg (by rw [hb]; decide)).trans (if_pos ?_)))
    obtain h | h | h := h
    · simp [h]
    · simp [h]
    · simp [h]
  case declared =>
    subst hx
    exact exec_of rfl rfl ((if_pos hl).trans ((if_neg (by rw [hb]; decide)).trans
      ((if_neg (by simp [hm, hself, hin])).trans (if_neg (by rw [hlost]; decide)))))

end Sys2Proof
end

section
/-!
O53 FaultCollectorCommands.
-/
namespace Sys2Proof
open Sys2Proof.Machine

/-! ### Queues whose work ends: each stays in its state or halts -/

/-- Queue `k` is in the state it had in `s`, or halted. -/
def HaltStep (k : Nat) (s t : State) : Prop := (t.queue k).state = (s.queue k).state ∨ (t.queue k).state = .halted

theorem HaltStep.trans {k : Nat} {s t u : State} (h : HaltStep k s t) (h' : HaltStep k t u) : HaltStep k s u := by
  obtain e | e := h'
  · obtain e' | e' := h
    · exact .inl (e.trans e')
    · exact .inr (e.trans e')
  · exact .inr e

theorem HaltStep.stays {k : Nat} {s t : State} (h : HaltStep k s t) (hs : (s.queue k).state = .halted) : (t.queue k).state = .halted :=
  h.elim (·.trans hs) id

theorem haltStep_of_queues {k : Nat} {s t : State} (h : t.queues = s.queues) : HaltStep k s t :=
  .inl (congrArg Queue.state (State.queue_of_queues h k))

theorem haltStep_modQueue {k q : Nat} (s : State) (f : Queue → Queue) (hf : (f (s.queue q)).state = (s.queue q).state) :
    HaltStep k s (s.modQueue q f) := by
  by_cases h : q = k
  · subst h
    exact .inl ((congrArg Queue.state (s.queue_modQueue_self q f)).trans hf)
  · exact .inl (congrArg Queue.state (queueLeft_modQueue s h f).queue)

theorem haltStep_forEach {α : Type} {k : Nat} (f : α → State → State) (hf : ∀ x s, HaltStep k s (f x s)) (xs : List α) (s : State) :
    HaltStep k s (forEach xs f s) := by
  induction xs generalizing s with
  | nil => exact .inl rfl
  | cons x xs ih => exact (hf x s).trans (ih _)

theorem haltStep_haltQueue {k q : Nat} (s : State) (cause : HaltCause) (idx : Word) (force : Bool) :
    HaltStep k s (s.haltQueue q cause idx force) := by
  by_cases h : q = k
  · subst h
    unfold State.haltQueue
    dsimp only
    split
    · refine .inr ?_
      rw [State.queue_writeHead, State.queue_setQueue_self]
    · exact .inl rfl
  · exact .inl (congrArg Queue.state (queueLeft_haltQueue s h cause idx force).queue)

/-- R215: a command that ends with ABANDONED halts its queue, or leaves it in its state. -/
theorem haltStep_finish {k q : Nat} (s : State) (tok : Nat) {d : Done} (hd : d.status = St.abandoned) :
    HaltStep k s (s.finish q tok d) := by
  unfold State.finish
  split
  · exact .inl rfl
  · next x _ =>
    have recorded : needsRecord x.cmd { d with order := s.finished } = true := by simp [needsRecord, hd, St.abandoned, St.ok]
    let f : Queue → Queue := fun y => { y with
      inflight := y.inflight.map fun z => if z.tok == tok then { z with done := some { d with order := s.finished } } else z
      progress := true }
    have ended : HaltStep k s { s.modQueue q f with finished := s.finished + 1 } :=
      (haltStep_modQueue s f rfl).trans (haltStep_of_queues rfl)
    dsimp only
    rw [if_pos recorded]
    refine ended.trans ?_
    unfold State.failPolicy
    split
    · exact .inl rfl
    · exact haltStep_haltQueue _ _ _ _

theorem haltStep_issue {k q : Nat} (s : State) (idx : Word) (c : BitVec 512) (chan : Option Nat) : HaltStep k s (s.issue q idx c chan) := by
  let f : Queue → Queue := fun x => { x with
    inflight := x.inflight ++ [{ tok := s.issued, idx := idx, cmd := c, since := s.now, chan := chan }] }
  have advanced : HaltStep k s (s.advance q) := haltStep_modQueue s (fun _ => _) rfl
  have issued : HaltStep k s { (s.advance q).modQueue q f with issued := s.issued + 1 } :=
    advanced.trans ((haltStep_modQueue _ f rfl).trans (haltStep_of_queues rfl))
  unfold State.issue
  dsimp only
  split
  · split
    · exact issued.trans (haltStep_of_queues rfl)
    · exact issued
  · exact issued

theorem haltStep_endHead {k q : Nat} (s : State) (obj : Nat) : HaltStep k s (s.endHead q St.abandoned obj) := by
  unfold State.endHead
  dsimp only
  split
  · split
    · exact (haltStep_issue s _ _ _).trans (haltStep_finish _ _ rfl)
    · exact haltStep_haltQueue s _ _ _
  · exact .inl rfl

theorem haltStep_abandonTally {k : Nat} (n : Nat) (s : State) : HaltStep k s (s.abandonTally n) := by
  unfold State.abandonTally
  dsimp only
  split
  · exact .inl rfl
  · refine HaltStep.trans (t := (s.setTally n { s.tally n with abandoned := true }).wakeAbandoned .tallyGe n)
      (haltStep_of_queues (by simp)) ?_
    exact haltStep_forEach _ (fun q u => haltStep_endHead u _) _ _

theorem haltStep_abandonBarrier {k : Nat} (b cause : Nat) (s : State) : HaltStep k s (s.abandonBarrier b cause) := by
  unfold State.abandonBarrier
  dsimp only
  split
  · exact .inl rfl
  · refine HaltStep.trans (t := (s.setBarrier b { s.barrier b with state := .abandoned, cause := cause }).wakeAbandoned .barrier b)
      (haltStep_of_queues (by simp)) ?_
    exact haltStep_forEach _ (fun q u => haltStep_endHead u _) _ _

theorem haltStep_abandonOwned {k : Nat} (o : Owner → Bool) (s : State) : HaltStep k s (s.abandonOwned o) :=
  (haltStep_forEach _ (fun n u => haltStep_abandonTally n u) _ _).trans
    (haltStep_forEach _ (fun b u => haltStep_abandonBarrier b 1 u) _ _)

theorem haltStep_cancelQueue {k : Nat} (q : Nat) (s : State) : HaltStep k s (s.cancelQueue q) :=
  haltStep_forEach _ (fun x u => (haltStep_of_queues (by simp) : HaltStep k u (u.stripCommand q x)).trans
    (haltStep_finish _ _ rfl)) _ _

theorem haltStep_resetBlock {k : Nat} (i : Nat) (s : State) : HaltStep k s (s.resetBlock i) := by
  unfold State.resetBlock
  split
  · exact haltStep_of_queues rfl
  · split
    · exact haltStep_of_queues rfl
    · split
      · exact HaltStep.trans (t := s.resetCores (i - 32)) (haltStep_of_queues (by simp)) (haltStep_abandonOwned _ _)
      · split
        · exact haltStep_of_queues rfl
        · exact haltStep_of_queues (by simp)

/-- R441: HALT for its unit's reset stops a queue that runs. -/
theorem haltQueue_forced {s : State} {q : Nat} (h : (s.queue q).state = .running ∨ (s.queue q).state = .halted) (cause : HaltCause)
    (idx : Word) : ((s.haltQueue q cause idx true).queue q).state = .halted := by
  obtain h | h := h
  · rw [State.queue_haltQueue_running h]
  · exact (haltStep_haltQueue s cause idx true).stays h

/-- R441.1: of the queues listed, each that runs halts. -/
theorem resetQueues_halt {q : Nat} (qs : List Nat) (hq : q ∈ qs) {s : State}
    (h : (s.queue q).state = .running ∨ (s.queue q).state = .halted) :
    ((forEach qs (fun q st => ((st.haltQueue q .unitReset (st.queue q).fetch true).cancelQueue q).abandonOwned
      (fun o => o == .queue q)) s).queue q).state = .halted := by
  have after (x : Nat) (u v : State) (hv : HaltStep q u v) : HaltStep q u ((v.cancelQueue x).abandonOwned fun o => o == .queue x) :=
    hv.trans ((haltStep_cancelQueue x v).trans (haltStep_abandonOwned _ _))
  have turn (x : Nat) (u : State) : HaltStep q u (((u.haltQueue x .unitReset (u.queue x).fetch true).cancelQueue x).abandonOwned
      fun o => o == .queue x) := after x u _ (haltStep_haltQueue u _ _ _)
  induction qs generalizing s with
  | nil => simp at hq
  | cons x xs ih =>
    by_cases e : q = x
    · subst e
      have halted : ((s.haltQueue q .unitReset (s.queue q).fetch true).queue q).state = .halted := haltQueue_forced h _ _
      exact (haltStep_forEach _ turn xs _).stays ((after q _ _ (.inl rfl)).stays halted)
    · refine ih ((List.mem_cons.mp hq).resolve_left e) ?_
      obtain kept | halted := turn x s
      · exact h.imp kept.trans kept.trans
      · exact .inr halted

theorem resetOf_setResetOf (s : State) (i k : Nat) (r : ResetState) :
    (s.setResetOf i r).resetOf k = if i = k then r else s.resetOf k := Tab.get_put _ _ _ _ _

/-! ### What the collector's commands come to -/

theorem okUnit_of_lt {i : Nat} (h : i < 48) : okUnit i = true := by
  unfold okUnit
  simp only [decide_eq_true_eq]
  omega

theorem blockResetRelease_due {s : State} {i b : Nat} (hi : i < 48) (hl : s.live = true) (hu : (s.unit i).state ≠ .out)
    (hr : (s.resetOf i).inReset = some b) (h : b + 256 ≤ s.now) : Machine.exec (.blockResetRelease i) s = .next (s.resetOver i) :=
  exec_of rfl (okUnit_of_lt hi) (if_pos (by simp [hl, hu, hr, h]))

/-- R451: what an injection does, by its class. -/
theorem fcInject_kind {s : State} {v : DWord} {u : UnitId} {n : Nat} (hl : s.live = true)
    (hu : UnitId.ofCode (fld v.toNat 24 8) (fld v.toNat 16 8) = some u) (hb : bitAt v.toNat 63 = true) (hn : fld v.toNat 0 2 = n) :
    Machine.exec (.fcInject v) s = .next (match (generalizing := false) n with
      | 0 => State.logIrq s (State.eventCN 2 s Det.injectC u u.target 0 false true)
      | 1 => if okTarget (fld v.toNat 40 9) then (s.contain Det.injectU u (fld v.toNat 40 9) 0 true).1 else s
      | 2 => s.injectF u
      | _ => s) := by
  subst hn
  refine exec_of rfl rfl ((if_pos hl).trans ?_)
  unfold State.inject
  have go : ¬ (!bitAt v.toNat 63) = true := by rw [hb]; decide
  rw [hu]
  exact if_neg go

/-- R527: a write of OLS_CTRL that asks for a reset. -/
theorem olsBlockReset_due {s : State} {v : Word} (hl : s.live = true) (hb : bitAt v.toNat 31 = true) :
    Machine.exec (.olsBlockReset v) s = .next (match unitOfId (fld v.toNat 0 16) with
      | none => { s with sys.ctrlUnit := fld v.toNat 0 16, sys.blockRefused := true }
      | some i => if i < 48 ∧ ((s.unit i).state = .in_ ∨ (s.unit i).state = .drain ∨ (s.unit i).state = .quiesced) then
          { s with sys.ctrlUnit := fld v.toNat 0 16 }.blockReset i
        else { s with sys.ctrlUnit := fld v.toNat 0 16, sys.blockRefused := true }) :=
  exec_of rfl rfl ((if_pos hl).trans (if_neg (by rw [hb]; decide)))

theorem olsBlockReset_unit {s : State} {v : Word} {i : Nat} (hl : s.live = true) (hb : bitAt v.toNat 31 = true)
    (hi : unitOfId (fld v.toNat 0 16) = some i) (hlt : i < 48)
    (hst : (s.unit i).state = .in_ ∨ (s.unit i).state = .drain ∨ (s.unit i).state = .quiesced) :
    Machine.exec (.olsBlockReset v) s = .next ({ s with sys.ctrlUnit := fld v.toNat 0 16 }.blockReset i) := by
  rw [olsBlockReset_due hl hb, hi]
  exact congrArg Host.Outcome.next (if_pos ⟨hlt, hst⟩)

/-- Settles O53: a REACTION_LOOP counts the resets of the last phrase (log entry 100), and the release of a tier-2 port's reset brings
its link up (log entry 174), both choices of the model. -/
theorem faultCollectorCommands : Obligations.FaultCollectorCommands := by
  unfold Obligations.FaultCollectorCommands
  refine ⟨fun s i b hi hl hu hr => ⟨fun h => ?early, fun h h16 h44 => ?released, fun h h16 hst hh => ?port, fun h h44 => ?link⟩,
    fun s i hi h => ?notReset,
    fun s i hi => ⟨fun h => exec_of rfl (okUnit_of_lt hi) (if_pos h), fun h => exec_of rfl (okUnit_of_lt hi) (if_neg h)⟩,
    fun s k g hk hg => ⟨fun hc hn hq => ?recovered, fun h => ?notQuiet, fun hl hk' hh => ?refused, fun hl h => ?cleared⟩,
    fun s v u k hl hu hk => ⟨fun hb => ?noGo, fun hb hc => ?injectC, fun hb hc hok hh => ⟨fun hr => ?injectU, fun hr => ?injectHeld⟩,
      fun hb hc => ?injectF⟩,
    fun s v hl => exec_of rfl rfl (if_pos hl),
    fun s v hl => ⟨fun hb => ?noReset, fun hb hn => ?noUnit, fun i hb hi hlt hst => ⟨fun hr => ?blockReset, fun hr => ?loop⟩⟩⟩
  case early =>
    refine exec_of rfl (okUnit_of_lt hi) (if_neg ?_)
    rw [hr]
    simp only [Option.any_some, Bool.and_eq_true, decide_eq_true_eq]
    omega
  case notReset =>
    refine exec_of rfl (okUnit_of_lt hi) (if_neg ?_)
    obtain h | h := h
    · simp [h]
    · simp [h]
  case released =>
    exact (blockResetRelease_due hi hl hu hr h).trans (congrArg Host.Outcome.next ((if_neg (by omega)).trans (if_neg (by omega))))
  case port =>
    have ran : s.resetOver i = (s.releaseReset i).train i := (if_pos h16).trans (if_pos ⟨hst, by
      rw [show (s.releaseReset i).port i = s.port i from rfl, hh]
      rfl⟩)
    refine ⟨_, (blockResetRelease_due hi hl hu hr h).trans (congrArg Host.Outcome.next ran), ?_, ?_, ?_, ?_, fun k hk => ⟨?_, ?_⟩⟩
    · exact congrArg Port.state (Tab.get_put_self _ _ _ _)
    · exact congrArg Port.since (Tab.get_put_self _ _ _ _)
    · exact congrArg ResetState.inReset (Tab.get_put_self _ _ _ _)
    · exact congrArg ResetState.shadow (Tab.get_put_self _ _ _ _)
    · exact (Tab.get_put _ _ _ _ _).trans (if_neg (Ne.symm hk))
    · exact (resetOf_setResetOf s i k _).trans (if_neg (Ne.symm hk))
  case link =>
    have ran : s.resetOver i = (s.releaseReset i).modCxl (i - 44) fun x => { x with linkUp := true } :=
      (if_neg (by omega)).trans (if_pos h44)
    refine ⟨_, (blockResetRelease_due hi hl hu hr h).trans (congrArg Host.Outcome.next ran), ?_, ?_⟩
    · exact congrArg Cxl.linkUp (Tab.get_put_self _ _ _ _)
    · exact congrArg ResetState.inReset (Tab.get_put_self _ _ _ _)
  case recovered =>
    subst hg
    let w : State := s.setTgt k { s.tgt k with state := .serving, recoveries := min 255 ((s.tgt k).recoveries + 1) }
    refine ⟨(w.eventC Det.recovered (unitAt k)).irqSet 0x04#6, exec_of rfl hk (if_pos ⟨hc, by simp [hn], hq⟩), ?_, ?_⟩
    · rw [butReports_irqSet, butReports_eventC]
      exact ButReports.rfl' w
    · rw [counter_irqSet _ _ _ (by decide), counter_eventC_self w Det.recovered _ _ _ (by decide) (by decide)]
      rfl
  case notQuiet =>
    subst hg
    refine exec_of rfl hk (if_neg ?_)
    simp only [Bool.not_eq_true', not_and_or, Bool.not_eq_false, Nat.not_le]
    exact h
  case refused =>
    subst hg
    exact exec_of rfl hk ((if_pos hl).trans ((if_neg (by rw [State.not_safe_of_live hl]; decide)).trans (if_pos ⟨hk', hh⟩)))
  case cleared =>
    subst hg
    refine exec_of rfl hk ((if_pos hl).trans ((if_neg (by rw [State.not_safe_of_live hl]; decide)).trans (if_neg ?_)))
    rintro ⟨below, held⟩
    exact h.elim (fun h => by omega) fun h => h held
  case noGo =>
    refine exec_of rfl rfl ((if_pos hl).trans ?_)
    unfold State.inject
    rw [hu]
    exact if_pos (by rw [hb]; rfl)
  case injectC =>
    have ran := fcInject_kind hl hu hb hc
    refine ⟨State.logIrq s (State.eventCN 2 s Det.injectC u u.target 0 false true), ran, ?_, ?_⟩
    · rw [butReports_logIrq, butReports_eventCN]
      exact ButReports.rfl' s
    · rw [counter_logIrq _ _ _ (by decide), counter_eventCN _ _ _ _ _ _ _ _ _ (by decide), counter_count_ne _ (by decide),
        State.countDet, counter_count_self]
  case injectU =>
    have ran := fcInject_kind hl hu hb hc
    rw [← hk] at ran
    have contained : s.contain Det.injectU u k 0 true =
        ((containedBy s Det.injectU k).logU Det.injectU u (some k) 0 true 0x01#6, .react) := by
      unfold State.contain
      dsimp only
      split
      · next e => exact absurd e hh
      · exact if_pos hr
      · exact if_pos hr
    refine ⟨_, ran.trans (congrArg Host.Outcome.next ((if_pos hok).trans (congrArg Prod.fst contained))), ?_, ?_⟩
    · dsimp only
      rw [butReports_logU]
      exact ButReports.rfl' _
    · exact counter_logU_self _ _ _ _ _ _ _ (by decide) (by decide)
  case injectHeld =>
    have ran := fcInject_kind hl hu hb hc
    rw [← hk] at ran
    let w : State := s.setTgt k { s.tgt k with state := .held, lastDetector := Det.injectU, named := true }
    have held : s.contain Det.injectU u k 0 true = ((w.logU Det.injectU u (some k) 0 true 0x03#6).eventC Det.holdEntered u, .hold) := by
      unfold State.contain
      dsimp only
      split
      · next e => exact absurd e hh
      · exact if_neg (by omega)
      · exact if_neg (by omega)
    refine ⟨_, ran.trans (congrArg Host.Outcome.next ((if_pos hok).trans (congrArg Prod.fst held))), ?_⟩
    dsimp only
    rw [butReports_eventC, butReports_logU]
    exact ButReports.rfl' w
  case injectF =>
    have ran := fcInject_kind hl hu hb hc
    refine ⟨_, ran, ?_⟩
    exact enterSafe_enters u (by rw [butReports_logIrq]; rfl) (by decide)
  case noReset =>
    exact exec_of rfl rfl ((if_pos hl).trans (if_pos (by rw [hb]; rfl)))
  case noUnit =>
    exact (olsBlockReset_due hl hb).trans (by rw [hn])
  case blockReset =>
    let w : State := { s with sys.ctrlUnit := fld v.toNat 0 16 }
    have resets := olsBlockReset_unit hl hb hi hlt hst
    let x := w.resetQueues i
    let y := x.resetBlock i
    have ran : w.blockReset i = y.markReset i := if_neg (Nat.not_le.mpr hr)
    have now : y.now = s.now := by simp [y, x, w]
    have reset : (y.markReset i).resetOf i = { asserted := y.now :: (y.resetOf i).asserted.filter (fun t => decide (y.now < t + 262144))
                                               inReset := some y.now, shadow := none } := Tab.get_put_self _ _ _ _
    refine ⟨_, resets.trans (congrArg Host.Outcome.next ran), ?_, ?_, ?_, fun h => ?_, fun h h' => ?_, fun h => ?_, fun q hq hrun => ?_⟩
    · rw [reset, now]
    · rw [reset]
    · rw [reset, now]
      exact List.mem_cons_self
    · have down : y = x.modPort i (·.toDown x.now) := if_pos h
      show (y.port i).state = _
      rw [down]
      exact congrArg Port.state (Tab.get_put_self _ _ _ _)
    · have cleared : y = (x.setMe (i - 16) { (x.me (i - 16)).disarm with sram := [], batches := [], undef := some x.fresh }).drawn :=
        (if_neg (by omega)).trans (if_pos h')
      have me : y.me (i - 16) = { (x.me (i - 16)).disarm with sram := [], batches := [], undef := some x.fresh } := by
        rw [cleared]
        exact Tab.get_put_self _ _ _ _
      show (y.me (i - 16)).topk = none ∧ (y.me (i - 16)).sram = []
      rw [me]
      exact ⟨rfl, rfl⟩
    · have unbacked : y = x.unbackCxl (i - 44) :=
        (if_neg (by omega)).trans ((if_neg (by omega)).trans ((if_neg (by omega)).trans (if_neg (by omega))))
      show (y.cxl (i - 44)).linkUp = false ∧ (y.cxl (i - 44)).backed = false
      have link : y.cxl (i - 44) = { x.cxl (i - 44) with linkUp := false, backed := false } := by
        rw [unbacked]
        exact Tab.get_put_self _ _ _ _
      rw [link]
      exact ⟨rfl, rfl⟩
    · exact (haltStep_resetBlock i x).stays (resetQueues_halt (s := w) _ hq (.inl hrun))
  case loop =>
    let w : State := { s with sys.ctrlUnit := fld v.toNat 0 16 }
    have resets := olsBlockReset_unit hl hb hi hlt hst
    have ran : w.blockReset i = w.raiseF Det.reactionLoop (unitAt i) 0 := if_pos hr
    exact ⟨_, resets.trans (congrArg Host.Outcome.next ran), raiseF_enters w _ _ _ (State.not_safe_of_live hl) (by decide)⟩

end Sys2Proof
end

section
/-!
O54 StartUpAndResets.
-/
namespace Sys2Proof
open Sys2Proof.Machine

/-- A released engine with its host link up, whose table of tallies has two entries of tally 0: the one that is read belongs to nobody, and
behind it stands one that belongs to the host. -/
def shadowedTally : State :=
  { State.reset with
    sys.pwrgd := true, sys.run := true, host.linkUp := true
    sync.tallies := [(0, {}), (0, { owner := .host })] }

/-- R479: FLR abandons what the table lists under an owner, and so tally 0 of `shadowedTally`. -/
theorem flr_abandons_shadowed : Answers .flr shadowedTally fun t => (t.tally 0).abandoned = true :=
  answers_of (t := (shadowedTally.eventC Det.flrRx .host).flrAll) (ok := true) rfl rfl (by decide)

/-- Refutes O54: its clause about FLR leaves every tally as it was whose owner is neither the host nor a queue, but it is said of every
state, also of one whose table of tallies has two entries of one tally. In `shadowedTally` tally 0 has no owner; FLR finds its number
under the host, whose entry stands behind, and abandons it. -/
theorem not_startUpAndResets : ¬ Obligations.StartUpAndResets := by
  unfold Obligations.StartUpAndResets
  rintro ⟨-, -, -, flr, -⟩
  obtain ⟨-, -, released⟩ := flr shadowedTally
  obtain ⟨t, ht, -, -, -, -, -, -, -, kept⟩ := released rfl rfl rfl
  obtain ⟨u, hu, abandoned⟩ := flr_abandons_shadowed
  obtain rfl : t = u := by rw [ht] at hu; injection hu
  have same : t.tally 0 = shadowedTally.tally 0 := kept 0 rfl
  rw [same] at abandoned
  exact absurd abandoned (by decide)

end Sys2Proof
end

section
/-!
O55 Joining.
-/
namespace Sys2Proof
open Sys2Proof.Machine

/-- R105, R106: with no target and a READY image, a phrase at least a measure ahead becomes the target. -/
theorem setTarget_ahead {s : State} {f : Nat} (ht : s.score.target = none) (hr : s.score.standby = .ready)
    (h : (s.beatsTo f).any (fun d => decide (4096 ≤ d)) = true) : (s.setTarget f).1 = { s with score.target := some f } := by
  unfold State.setTarget
  rw [if_neg (by rw [ht]; decide), if_neg (fun e => e hr), if_pos h]

theorem setTarget_past {s : State} {f : Nat} (ht : s.score.target = none) (hr : s.score.standby = .ready)
    (h : (s.beatsTo f).any (fun d => decide (4096 ≤ d)) = false) :
    (s.setTarget f).1 = { s with score.targetPast := true }.eventC Det.targetRefused .engine f := by
  unfold State.setTarget
  rw [if_neg (by rw [ht]; decide), if_neg (fun e => e hr), if_neg (by rw [h]; decide)]

/-- R472, R473: an ADMIT's phrase without a target before. -/
theorem admitted_first {s : State} {f : Nat} (ht : s.score.target = none) : s.admitted f = (s.setTarget f).1 :=
  if_neg (by rw [ht]; simp)

theorem freshAdmit_member {s : State} (go : Bool) (h : s.score.member = true) : s.freshAdmit go = s :=
  if_neg (by simp [h])

/-- R472: the convener of a fresh start takes the phrase of its ADMIT as its target, if it lies far enough ahead. -/
theorem admitted_takes {s : State} {f : Nat} (ht : s.score.target = none) (hr : s.score.standby = .ready) :
    ((s.beatsTo f).any (fun d => decide (4096 ≤ d)) = true → (s.admitted f).score.target = some f) ∧
    (s.admitted f).score.member = s.score.member ∧ (s.admitted f).sys = s.sys ∧ (s.admitted f).ram = s.ram := by
  rw [admitted_first ht]
  by_cases h : (s.beatsTo f).any (fun d => decide (4096 ≤ d)) = true
  · rw [setTarget_ahead ht hr h]
    exact ⟨fun _ => rfl, rfl, rfl, rfl⟩
  · rw [setTarget_past ht hr (Bool.not_eq_true _ ▸ h)]
    exact ⟨fun e => absurd e h, by simp, by simp, by simp⟩

theorem standby_of_ready {s : State} (h : s.ready = true) (hm : s.score.member = false) : s.score.standby = .ready := by
  simp only [State.ready, hm, Bool.false_or, Bool.and_eq_true, beq_iff_eq] at h
  exact h.1.2

/-- R473: an ADMIT addressed to this engine that names its image, its member number and its serial number. -/
theorem takeAdmit_named {s : State} {c : Cue} (hb : bitAt (c.at 1 1) 0 = false) (hm : s.score.member = false)
    (hr : s.score.standby = .ready) (hs : (Img.sequence s.standbyBank).toNat = c.at 12 4)
    (hf : (Img.fingerprint s.standbyBank).toNat = c.at 16 8) (hk : c.at 2 2 % 1024 = Img.self s.standbyBank)
    (he : c.at 4 8 = s.sys.serial.toNat) : s.takeAdmit c = s.admitted (fld (c.at 32 8) 0 38) := by
  unfold State.takeAdmit
  dsimp only
  rw [if_neg (by rw [hm]; decide), if_neg (fun e => e hr), if_pos ⟨hs, hf, by simp [hb, hk, he]⟩]

/-- R471: a REQUEST of a member whose entry, if it has one, has its EUI. -/
theorem not_conflict {s : State} {c : Cue} {k : Nat} (hv : ∀ e, Tab.find s.sys.join k = some e → e.eui.toNat = c.at 4 8) :
    ((Tab.find s.sys.join k).map fun e => e.eui.toNat != c.at 4 8).getD false = false := by
  cases h : Tab.find s.sys.join k with
  | none => rfl
  | some e => simp [hv e h]

/-- Settles O55: that a REQUEST comes from the member its body names, that a repeated ADMIT is known by its phrase, the order of the
refusals and that a refused entry stays are the model's choices (log entry 169). -/
theorem joining : Obligations.Joining := by
  unfold Obligations.Joining
  have wf {p : Nat} {c : Cue} (hp : p < 16) (hc : okCue c = true) : (okPort p && okCue c) = true := by simp [okPort, hp, hc]
  have okM {m : Nat} (hm : m < 1024) : okMember m = true := by simp [okMember, hm]
  refine ⟨fun s p k c hp hc hl hk => ⟨fun hd hn => ?other, fun e hd hv he hne => ?conflict, fun hd hv he => ⟨fun hr hm => ?entered,
      fun r hr => ?refusedEntry⟩, fun hd h => ?notRelayed, fun hd hf hj => ?relayed⟩,
    fun s hl => ⟨fun h => ?noGo, fun hm hr ha hcv ht => ?go⟩,
    fun s p f c hp hc hl hb hf => ⟨fun hd hm => ?member, fun hd hm hr => ?noImage, fun hd hm hr ht hs hfp hk he => ⟨fun h => ?ahead,
      fun h => ?past⟩, fun hd h => ?admitDropped, fun hd h => ?admitRelayed⟩,
    fun s p c hp hc hl hb hseen => ?repeated,
    fun s p c hp hc hl => ⟨fun h => ?refuseEnds, fun hd h => ?refuseRelayed⟩,
    fun s m hm => ⟨fun e he hl hu => ?expired, fun e he hu => ?heard, fun hn => ?noEntry⟩⟩
  case other =>
    exact exec_of rfl (wf hp hc) ((if_pos hl).trans ((if_pos hd).trans (if_neg (by rw [hn]; decide))))
  case conflict =>
    have differs : ((Tab.find s.sys.join (c.at 2 2 % 1024)).map fun e => e.eui.toNat != c.at 4 8).getD false = true := by
      rw [← hk, he]
      simpa using hne
    exact ⟨_, exec_of rfl (wf hp hc) ((if_pos hl).trans ((if_pos hd).trans ((if_pos hv).trans (if_pos differs)))),
      reported_eventC _ Det.joinConflict _ _ _ (by decide) (by decide)⟩
  case entered =>
    have agrees : ¬ ((Tab.find s.sys.join (c.at 2 2 % 1024)).map fun e => e.eui.toNat != c.at 4 8).getD false = true := by
      rw [← hk, not_conflict he]
      decide
    refine exec_of rfl (wf hp hc) ((if_pos hl).trans ((if_pos hd).trans ((if_pos hv).trans ((if_neg agrees).trans ?_))))
    dsimp only
    rw [hr, ← hk]
    exact freshAdmit_member false hm
  case refusedEntry =>
    have agrees : ¬ ((Tab.find s.sys.join (c.at 2 2 % 1024)).map fun e => e.eui.toNat != c.at 4 8).getD false = true := by
      rw [← hk, not_conflict he]
      decide
    let u : State := { s with sys.join := Tab.put s.sys.join k (joinEntry c (some r)) }
    let v : State := (u.sendCue joinType k (joinBody 3 r k (c.at 4 8) 0 0 (u.routeImg.getD []))).1
    refine ⟨v.eventC Det.rollcallReject (.vp p) k, exec_of rfl (wf hp hc)
      ((if_pos hl).trans ((if_pos hd).trans ((if_pos hv).trans ((if_neg agrees).trans ?_)))), ?_, ?_, ?_⟩
    · dsimp only
      rw [hr]
      subst hk
      rfl
    · simp [v, u, Tab.find_put]
    · rw [counter_eventC_self v Det.rollcallReject _ _ _ (by decide) (by decide)]
      simp [v, u, State.counter]
    · simp [v, u]
  case notRelayed =>
    refine exec_of rfl (wf hp hc) ((if_pos hl).trans ((if_neg hd).trans (if_neg ?_)))
    rw [← hk]
    simp only [Bool.and_eq_true, Bool.not_eq_true']
    rintro ⟨holds, fresh⟩
    exact h.elim (fun h => Bool.false_ne_true (h.symm.trans holds)) fun h => Bool.false_ne_true (fresh.symm.trans h)
  case relayed =>
    refine exec_of rfl (wf hp hc) ((if_pos hl).trans ((if_neg hd).trans ?_))
    dsimp only
    rw [← hk]
    exact if_pos (by rw [hf, hj]; rfl)
  case noGo =>
    refine exec_of rfl rfl ((if_pos hl).trans (if_neg ?_))
    simp only [Bool.and_eq_true, Bool.not_eq_true', beq_iff_eq]
    rintro ⟨⟨⟨⟨member, ready⟩, convener⟩, admitted⟩, -⟩
    obtain h | h | h | h := h
    · exact Bool.false_ne_true (member.symm.trans h)
    · exact Bool.false_ne_true (h.symm.trans ready)
    · exact Bool.false_ne_true (admitted.symm.trans h)
    · exact h convener
  case go =>
    let u : State := { s with sys.admitted := true, sys.admitSeen := some s.admitPhrase }
    let v := u.flood false none none
      { typ := joinType, body := joinBody 2 1 0x3FF 0 (Img.epoch s.standbyBank) s.admitPhrase s.standbyBank }
    obtain ⟨score, -, tact, -, -, sys, -⟩ := flood_kept u false none none
      { typ := joinType, body := joinBody 2 1 0x3FF 0 (Img.epoch s.standbyBank) s.admitPhrase s.standbyBank }
    have image := standby_of_ready hr hm
    obtain ⟨target, member, sysKept, ram⟩ := admitted_takes (s := v) (f := s.admitPhrase) ((congrArg ScoreCtl.target score).trans ht)
      ((congrArg ScoreCtl.standby score).trans image)
    have beats : v.beatsTo s.admitPhrase = s.beatsTo s.admitPhrase := by
      unfold State.beatsTo
      rw [show v.tact = s.tact from tact]
    refine ⟨v.admitted s.admitPhrase, exec_of rfl rfl ((if_pos hl).trans (if_pos (by simp [hm, hr, ha, hcv]))), ?_, ?_, ?_, ?_, ?_⟩
    · rw [sysKept, sys]
    · rw [sysKept, sys]
    · rw [← beats]
      exact target
    · rw [member, score]
      exact hm
    · rw [ram]
      simp [v, u]
  case member =>
    exact exec_of rfl (wf hp hc) ((if_pos hl).trans ((if_neg (by rw [hb]; decide)).trans ((if_pos hd).trans (if_pos hm))))
  case noImage =>
    exact ⟨_, exec_of rfl (wf hp hc) ((if_pos hl).trans ((if_neg (by rw [hb]; decide)).trans ((if_pos hd).trans
      ((if_neg (by rw [hm]; decide)).trans (if_pos hr))))), reported_eventC _ Det.targetRefused _ _ _ (by decide) (by decide)⟩
  case ahead =>
    have taken : s.takeAdmit c = s.admitted f := hf ▸ takeAdmit_named hb hm hr hs hfp hk he
    exact exec_of rfl (wf hp hc) ((if_pos hl).trans ((if_neg (by rw [hb]; decide)).trans ((if_pos hd).trans
      (taken.trans ((admitted_first ht).trans (setTarget_ahead ht hr h))))))
  case past =>
    have taken : s.takeAdmit c = s.admitted f := hf ▸ takeAdmit_named hb hm hr hs hfp hk he
    exact ⟨_, exec_of rfl (wf hp hc) ((if_pos hl).trans ((if_neg (by rw [hb]; decide)).trans ((if_pos hd).trans
      (taken.trans ((admitted_first ht).trans (setTarget_past ht hr h)))))), reported_eventC _ Det.targetRefused _ _ _ (by decide) (by decide)⟩
  case admitDropped =>
    exact exec_of rfl (wf hp hc) ((if_pos hl).trans ((if_neg (by rw [hb]; decide)).trans ((if_neg hd).trans (if_neg (by rw [h]; decide)))))
  case admitRelayed =>
    exact exec_of rfl (wf hp hc) ((if_pos hl).trans ((if_neg (by rw [hb]; decide)).trans ((if_neg hd).trans (if_pos h))))
  case repeated =>
    exact exec_of rfl (wf hp hc) ((if_pos hl).trans ((if_pos hb).trans (if_pos hseen)))
  case refuseEnds =>
    exact exec_of rfl (wf hp hc) ((if_pos hl).trans (if_pos (by simpa using h)))
  case refuseRelayed =>
    exact exec_of rfl (wf hp hc) ((if_pos hl).trans (if_neg (by simp [hd, h])))
  case expired =>
    refine exec_of rfl (okM hm) ?_
    rw [he]
    exact if_pos (by simp [hl, hu])
  case heard =>
    refine exec_of rfl (okM hm) ?_
    rw [he]
    exact if_neg (by simp only [Bool.and_eq_true, decide_eq_true_eq]; omega)
  case noEntry =>
    refine exec_of rfl (okM hm) ?_
    rw [hn]

end Sys2Proof
end

section
/-!
O56 HostPortAccesses.
-/
namespace Sys2Proof
open Sys2Proof.Machine

/-- A FENCE that waits for the queue's host writes: MASK 2 in its second quarter. -/
def hostFence : BitVec 512 := lowCommand 0x02_00000000000000000000000000000025

/-- Queue 0 runs with `hostFence` of index 5 in flight, and its flush read is outstanding at the host. -/
def fenceAtHost : State :=
  { withQueueZero { state := .running, tail := 6, fetch := 6, inflight := [{ tok := 0, idx := 5, cmd := hostFence, since := 0 }] } with
    host.reads := [{ id := 0, addr := 0, len := 0, cmd := some (0, 0), flush := true }] }

theorem hostFence_waits : opcodeOf hostFence = 0x25 ∧ bitAt (cf hostFence 16 1) 1 = true := by decide

/-- R207, R492: the FENCE ends with DATA_UE, its queue halts, and HEAD is written at Q_HEAD_ADDR, which is 0. -/
theorem linkDown_writes_head : Answers .hostLinkDown fenceAtHost fun t => t.ram.read 0 = 5 :=
  answers_of (t := fenceAtHost.linkDown) (ok := true) rfl rfl (by decide)

/-- Refutes O56: its clause about the loss of the host link says that no byte of memory changes. In `fenceAtHost` the lost read is the
flush of a FENCE; the FENCE ends with DATA_UE, the queue halts (ERR_POLICY HALT), and the halt writes HEAD, which is 5, at address 0. -/
theorem not_hostPortAccesses : ¬ Obligations.HostPortAccesses := by
  unfold Obligations.HostPortAccesses
  rintro ⟨-, -, -, -, -, -, -, lost, -⟩
  obtain ⟨-, down, -⟩ := lost fenceAtHost
  obtain ⟨t, ht, -, -, -, -, kept⟩ := down rfl rfl
  obtain ⟨u, hu, written⟩ := linkDown_writes_head
  obtain rfl : t = u := by rw [ht] at hu; injection hu
  rw [kept] at written
  exact absurd written (by decide)

end Sys2Proof
end

section
/-!
O57 RegisterAccesses.
-/
namespace Sys2Proof
open Sys2Proof.Machine

/-! ### Where counters and windows lie -/

theorem inArr_eq_none {o base stride n : Nat} (h : o < base ∨ base + stride * n ≤ o) : inArr o base stride n = none :=
  if_neg fun hb => h.elim (Nat.not_lt_of_le hb.1) (Nat.not_le_of_lt hb.2)

/-- No counter lies among the windows. -/
theorem not_counter_gap {a lo hi : Nat} (h : (lo, hi) = (0x48000, 0x300000) ∨ (lo, hi) = (0x688000, 0x1000000)) (hl : lo ≤ a)
    (hh : a < hi) : isCounter a = false := by
  have arr (base stride n : Nat) (hb : base + stride * n ≤ lo ∨ hi ≤ base) : inArr a base stride n = none :=
    inArr_eq_none (by omega)
  have range (x y : Nat) (hx : y < lo ∨ hi ≤ x) : (decide (x ≤ a) && decide (a ≤ y)) = false := by
    rw [Bool.and_eq_false_iff, decide_eq_false_iff_not, decide_eq_false_iff_not]
    omega
  have off : (a == 0x340034) = false := beq_false_of_ne (by simp only [Prod.mk.injEq] at h; omega)
  obtain h | h := h
  all_goals
    obtain ⟨rfl, rfl⟩ := Prod.ext_iff.mp h
    simp [isCounter, arr, range, off]

theorem window_counter (s : State) {a : Nat} (n : Nat) (h : isCounter a = true) (hb : a < 0x1000000) : s.window a n = none := by
  have low : ¬ (0x48000 ≤ a ∧ a < 0x300000) := fun hw => by simp [not_counter_gap (.inl rfl) hw.1 hw.2] at h
  have high : ¬ 0x688000 ≤ a := fun hw => by simp [not_counter_gap (.inr rfl) hw hb] at h
  unfold State.window
  rw [if_neg (by omega), if_neg (by omega), if_neg (by omega), if_neg (by omega), if_neg (by omega), if_neg (by omega)]

/-- R8, R525: a read of an RC counter answers its value and clears it. -/
theorem barRead_counter {s : State} {a : Nat} (hc : isCounter a = true) (hb : a < 0x1000000) (hp : s.sys.pwrgd = true)
    (hs : s.fc.safe = false) (hh : (heldBlock a && !s.sys.run) = false) (hlatch : s.host.latch = none) : s.barRead a false =
      { s.barAnswer (some (s.counter (cntKey a)).toNat) with counters := Tab.put s.counters (cntKey a) 0 } := by
  have value : s.reg a = some (false, (s.counter (cntKey a)).toNat) := by
    unfold State.reg
    dsimp only
    rw [hc, hh]
    rfl
  have half : s.readHalf a = (s.barAnswer (some (s.counter (cntKey a)).toNat)).consume a := by
    unfold State.readHalf
    rw [value]
  have read : s.barRead a false = s.readHalf a := by
    unfold State.barRead
    rw [if_neg (by simp [hp, hs]), if_neg (by decide), window_counter s 4 hc hb]
    exact State.read32_of_unlatched fun v h => by simp [hlatch] at h
  have consumed : (s.barAnswer (some (s.counter (cntKey a)).toNat)).consume a =
      (s.barAnswer (some (s.counter (cntKey a)).toNat)).regRead a := if_neg (by
    show ¬ (heldBlock a && !s.sys.run) = true
    rw [hh]
    decide)
  refine read.trans (half.trans (consumed.trans ?_))
  unfold State.regRead
  rw [if_pos hc]
  rfl

/-! ### Lateness registers (R549) -/

theorem lateAddr {c o : Nat} (hc : c < 4) (ho : o = 0x18 ∨ o = 0x20) : isCounter (0x480000 + o + 0x4000 * c) = false ∧
    heldBlock (0x480000 + o + 0x4000 * c) = false := by
  have all : ∀ c < 4, isCounter (0x480018 + 0x4000 * c) = false ∧ heldBlock (0x480018 + 0x4000 * c) = false ∧
    isCounter (0x480020 + 0x4000 * c) = false ∧ heldBlock (0x480020 + 0x4000 * c) = false := by decide
  obtain ⟨h1, h2, h3, h4⟩ := all c hc
  obtain rfl | rfl := ho
  · exact ⟨h1, h2⟩
  · exact ⟨h3, h4⟩

theorem lateReg (s : State) {c o : Nat} (hc : c < 4) (ho : o = 0x18 ∨ o = 0x20) :
    s.reg (0x480000 + o + 0x4000 * c) = s.ceReg c o := by
  obtain ⟨counter, held⟩ := lateAddr hc ho
  have block : (0x480000 + o + 0x4000 * c) / 0x40000 = 0x12 := by omega
  have inner : (0x480000 + o + 0x4000 * c) % 0x40000 = o + 0x4000 * c := by omega
  have below : o + 0x4000 * c < 0x10000 := by omega
  have inst : (o + 0x4000 * c) / 0x4000 = c := by omega
  have offs : (o + 0x4000 * c) % 0x4000 = o := by omega
  simp [State.reg, counter, held, State.blockReg, block, inner, below, inst, offs]

theorem lateRead (s : State) {c o : Nat} (hc : c < 4) (ho : o = 0x18 ∨ o = 0x20) :
    s.consume (0x480000 + o + 0x4000 * c) = s.readLate c (decide (o = 0x20)) := by
  obtain ⟨counter, held⟩ := lateAddr hc ho
  have queues : inArr (0x480000 + o + 0x4000 * c) 0x400000 0x100 256 = none := inArr_eq_none (by omega)
  have ces : inArr (0x480000 + o + 0x4000 * c) 0x480000 0x4000 4 = some (c, o) := by
    unfold inArr
    rw [if_pos (by omega)]
    exact congrArg some (Prod.ext (by simp only; omega) (by simp only; omega))
  unfold State.consume State.regRead
  rw [held, counter, queues, ces]
  obtain rfl | rfl := ho
  · rfl
  · rfl

theorem readLate_part {s : State} {c i : Nat} (h : Tab.get (false, 0) s.ce.lateSel c = (false, i)) : s.readLate c true =
    { s with ce.lateLatch := Tab.del s.ce.lateLatch c, ce.lateParts := Tab.put s.ce.lateParts i {} } := by
  unfold State.readLate
  rw [if_pos rfl]
  dsimp only
  rw [h]

theorem readLate_member {s : State} {c i : Nat} (h : Tab.get (false, 0) s.ce.lateSel c = (true, i)) : s.readLate c true =
    { s with ce.lateLatch := Tab.del s.ce.lateLatch c, ce.lateMembers := Tab.put s.ce.lateMembers i {} } := by
  unfold State.readLate
  rw [if_pos rfl]
  dsimp only
  rw [h]

/-- R549: a 64-bit read of a lateness register. -/
theorem exec_ceLateRead {s : State} {c : Nat} (hc : c < 4) (hp : s.sys.pwrgd = true) (hs : s.fc.safe = false) (data1 : Bool) :
    Machine.exec (.ceLateRead c data1) s =
      .next ((s.barAnswer (some (if data1 then s.lateData1 c else (s.lateData c).1))).readLate c data1) := by
  let o := if data1 then 0x20 else 0x18
  have ho : o = 0x18 ∨ o = 0x20 := by cases data1 <;> simp [o]
  have addr : 0x480018 + 0x4000 * c + (if data1 then 8 else 0) = 0x480000 + o + 0x4000 * c := by
    cases data1
    · simp [o]
    · simp [o]
      omega
  have window : s.window (0x480000 + o + 0x4000 * c) 8 = none := by
    unfold State.window
    rw [if_neg (by omega), if_neg (by omega), if_neg (by omega), if_neg (by omega), if_neg (by omega), if_neg (by omega)]
  have value : s.ceReg c o = some (true, if data1 then s.lateData1 c else (s.lateData c).1) := by cases data1 <;> rfl
  refine exec_of rfl (by simpa [Instr.wf] using hc) ?_
  rw [addr]
  unfold State.barRead State.read64
  rw [if_neg (by simp [hp, hs]), if_pos rfl, window]
  dsimp only
  rw [if_pos rfl, lateReg s hc ho, value]
  dsimp only
  rw [lateRead _ hc ho]
  cases data1 <;> rfl

/-! ### Writes -/

/-- R7: a 64-bit write to a 64-bit register outside the windows. -/
theorem barWrite_wide {s : State} {a v x : Nat} (hw : s.putWindow a 8 (v % 2 ^ 64) = none) (hr : s.reg a = some (true, x)) :
    s.barWrite a true v = (s.writeReg a (v % 2 ^ 64)).1 := by
  have window : (if s.live = true then s.putWindow a 8 (v % 2 ^ 64) else none) = none := by
    split
    · exact hw
    · rfl
  unfold State.barWrite
  dsimp only
  rw [if_pos rfl, if_pos rfl, window]
  dsimp only
  rw [if_pos rfl, hr]

/-- R7: a 32-bit write outside the windows. -/
theorem barWrite_narrow {s : State} {a v : Nat} (hw : s.live = true → s.putWindow a 4 (v % 2 ^ 32) = none) :
    s.barWrite a false v = s.write32 a (v % 2 ^ 32) := by
  have window : (if s.live = true then s.putWindow a 4 (v % 2 ^ 32) else none) = none := by
    split
    · next h => exact hw h
    · rfl
  unfold State.barWrite
  dsimp only
  rw [if_neg Bool.false_ne_true, if_neg Bool.false_ne_true, window]
  exact if_neg Bool.false_ne_true

theorem putWindow_none (s : State) {a : Nat} (n v : Nat) (h : a < 0x48000 ∨ (0x300000 ≤ a ∧ a < 0x688000)) : s.putWindow a n v = none := by
  unfold State.putWindow
  rw [if_neg (by omega), if_neg (by omega), if_neg (by omega), if_neg (by omega), if_neg (by omega), if_neg (by omega)]

theorem pwrgd_of_live {s : State} (h : s.live = true) : s.sys.pwrgd = true := by
  rw [State.live, Bool.and_eq_true] at h
  exact h.1

/-- R447, R454: a live engine lets a write through outside the blocks that release opens. -/
theorem writeReg_live {s : State} {a : Nat} (v : Nat) (hl : s.live = true) (hb : heldBlock a = false) : s.writeReg a v = s.putReg a v :=
  if_neg (by simp [pwrgd_of_live hl, State.not_safe_of_live hl, hb])

/-- R447: without power and in the safe state a write changes nothing, but for three registers of the collector. -/
theorem writeReg_dead {s : State} {a : Nat} (v : Nat) (hl : s.live = false) (ha : safeWrite a = false) : s.writeReg a v = (s, false) := by
  refine if_pos ?_
  simp only [State.live, Bool.and_eq_false_iff, Bool.not_eq_false'] at hl
  obtain h | h := hl
  · simp [h]
  · simp [h, ha]

/-! ### VP_EQ, a register of 64 bits -/

theorem eqAddr {p o : Nat} (hp : p < 16) (ho : o = 8 ∨ o = 0xC) : isCounter (0x20000 + o + 0x1000 * p) = false ∧
    heldBlock (0x20000 + o + 0x1000 * p) = false := by
  have all : ∀ p < 16, isCounter (0x20008 + 0x1000 * p) = false ∧ heldBlock (0x20008 + 0x1000 * p) = false ∧
    isCounter (0x2000C + 0x1000 * p) = false ∧ heldBlock (0x2000C + 0x1000 * p) = false := by decide
  obtain ⟨h1, h2, h3, h4⟩ := all p hp
  obtain rfl | rfl := ho
  · exact ⟨h1, h2⟩
  · exact ⟨h3, h4⟩

theorem eqAligned {p : Nat} (hp : p < 16) : okBar0 (0x20008 + 0x1000 * p) true = true ∧ okBar0 (0x20008 + 0x1000 * p) false = true ∧
    okBar0 (0x2000C + 0x1000 * p) false = true := by
  have all : ∀ p < 16, okBar0 (0x20008 + 0x1000 * p) true = true ∧ okBar0 (0x20008 + 0x1000 * p) false = true ∧
    okBar0 (0x2000C + 0x1000 * p) false = true := by decide
  exact all p hp

theorem eqReg (s : State) {p o : Nat} (hp : p < 16) (ho : o = 8 ∨ o = 0xC) : s.reg (0x20000 + o + 0x1000 * p) = s.vpReg p o := by
  obtain ⟨counter, held⟩ := eqAddr hp ho
  have block : (0x20000 + o + 0x1000 * p) / 0x40000 = 0 := by omega
  have inst : (0x20000 + o + 0x1000 * p) / 0x1000 % 16 = p := by omega
  have offs : (0x20000 + o + 0x1000 * p) % 0x1000 = o := by omega
  have range : ¬ 0x20000 + o + 0x1000 * p < 0x20000 ∧ ¬ 0x20000 + o + 0x1000 * p < 0x10000 ∧ 0x20000 + o + 0x1000 * p < 0x30000 := by omega
  simp only [State.reg, counter, held, State.blockReg, block, inst, offs, if_neg range.1, if_neg range.2.1, if_pos range.2.2]
  rfl

/-- R530: VP_EQ takes any value. -/
theorem writeReg_eq {s : State} {p : Nat} (v : Nat) (hp : p < 16) (hl : s.live = true) :
    (s.writeReg (0x20008 + 0x1000 * p) v).1 = s.setPort p { s.port p with eq := BitVec.ofNat 64 v } := by
  rw [writeReg_live v hl (eqAddr (o := 8) hp (.inl rfl)).2]
  have block : (0x20008 + 0x1000 * p) / 0x40000 = 0 := by omega
  have inst : (0x20008 + 0x1000 * p) / 0x1000 % 16 = p := by omega
  have offs : (0x20008 + 0x1000 * p) % 0x1000 = 8 := by omega
  unfold State.putReg
  rw [block]
  dsimp only
  rw [if_neg (by omega), if_neg (by omega), if_pos (by omega), inst, offs]
  rfl

theorem butReports_flushVectors (s : State) : ButReports s s.flushVectors := by
  unfold State.flushVectors
  refine ButReports.forEach _ _ (fun v u => ?_) (ButReports.rfl' s)
  split
  · exact ButReports.rfl' u
  · rfl

theorem fld_mod {i w m : Nat} (n : Nat) (h : i + w ≤ m) : fld (n % 2 ^ m) i w = fld n i w := by
  unfold fld
  obtain ⟨k, rfl⟩ := Nat.exists_eq_add_of_le h
  rw [show i + w + k = i + (w + k) by omega, Nat.pow_add 2 i (w + k), Nat.mod_mul_right_div_self, Nat.pow_add 2 w k, Nat.mod_mul_right_mod]

/-- R520: the write of OLS_CAP. -/
theorem exec_capWrite {s : State} (v : DWord) (hl : s.live = true) : Machine.exec (.registerWrite 0x20 false v) s =
    .next (s.putIf (within2 (fld v.toNat 0 10) 300 690) fun s => { s with power.cap := fld v.toNat 0 10 }).1 := by
  refine exec_of rfl rfl ((barWrite_narrow fun _ => putWindow_none s _ _ (by omega)).trans ?_)
  unfold State.write32
  rw [State.reg_global s (a := 0x20) (by decide)]
  show (s.writeReg 0x20 (v.toNat % 2 ^ 32)).1 = _
  rw [writeReg_live _ hl (by decide), ← fld_mod (i := 0) (w := 10) (m := 32) v.toNat (by decide)]
  rfl

/-- R438, R442: the write of FC_POLICY. -/
theorem exec_policyWrite {s : State} (v : DWord) (hl : s.live = true) : Machine.exec (.registerWrite 0x600010 true v) s =
    .next (s.putIf (decide (1 ≤ fld v.toNat 0 16) && decide (1 ≤ fld v.toNat 24 6)) fun s =>
      { s with fc.quietMeasures := fld v.toNat 0 16, fc.recoveryLimit := fld v.toNat 16 8, fc.resetShadow := fld v.toNat 24 6 }).1 := by
  have reg : s.reg 0x600010 = r64 (pack [(s.fc.quietMeasures, 0), (s.fc.recoveryLimit, 16), (s.fc.resetShadow, 24)]) := by
    unfold State.reg
    rw [show isCounter 0x600010 = false by decide, show heldBlock 0x600010 = false by decide]
    rfl
  refine exec_of rfl rfl ((barWrite_wide (putWindow_none s _ _ (by omega)) reg).trans ?_)
  rw [Nat.mod_eq_of_lt v.isLt, writeReg_live _ hl (by decide)]
  rfl

/-- Settles O57: that a lower half which no upper half follows is kept (log entry 176) is the model's choice. -/
theorem registerAccesses : Obligations.RegisterAccesses := by
  unfold Obligations.RegisterAccesses
  refine ⟨fun s off hok hc hp hs hr hlatch => ?counter, fun s off wide hok h => ?closed,
    fun s c i member hc hp hs hsel => ⟨?late0, fun hm => ?latePart, fun hm => ?lateMember⟩,
    fun s off x v hok hreg hl h1 h2 h3 => ?dead,
    fun s v hl => ⟨fun h h' => ?cap, fun h => ?noCap, fun h h' => ?policy, fun h => ?noPolicy, fun p hp => ⟨?whole, ?lower, fun lo hlo hlt => ?upper⟩⟩,
    fun s k v e hk hl he o x h => ?msix⟩
  case counter =>
    obtain ⟨hb, -⟩ : off < 0x1000000 ∧ off % 4 = 0 := by simpa [okBar0] using hok
    exact exec_of rfl hok (barRead_counter hc hb hp hs (by simp [hr]) hlatch)
  case closed =>
    refine exec_of rfl hok (if_pos ?_)
    obtain h | ⟨safe, h0, h⟩ := h
    · simp [h]
    · have barred : safeRead off = false := by
        simp only [safeRead, Bool.or_eq_false_iff, beq_eq_false_iff_ne, Bool.and_eq_false_iff, decide_eq_false_iff_not]
        omega
      simp [safe, barred]
  case late0 =>
    exact (exec_ceLateRead hc hp hs false).trans rfl
  case latePart =>
    subst hm
    exact (exec_ceLateRead hc hp hs true).trans (congrArg Host.Outcome.next (readLate_part (s := s.barAnswer _) hsel))
  case lateMember =>
    subst hm
    exact (exec_ceLateRead hc hp hs true).trans (congrArg Host.Outcome.next (readLate_member (s := s.barAnswer _) hsel))
  case dead =>
    refine exec_of rfl hok ((barWrite_narrow fun h => by rw [hl] at h; exact Bool.noConfusion h).trans ?_)
    unfold State.write32
    rw [hreg]
    exact congrArg Prod.fst (writeReg_dead _ hl (by simp [safeWrite, h1, h2, h3]))
  case cap =>
    refine (exec_capWrite v hl).trans (congrArg Host.Outcome.next ?_)
    exact congrArg Prod.fst (if_pos (by simp [within2, h, h']))
  case noCap =>
    refine (exec_capWrite v hl).trans (congrArg Host.Outcome.next ?_)
    refine congrArg Prod.fst (if_neg ?_)
    simp only [within2, Bool.and_eq_true, decide_eq_true_eq]
    omega
  case policy =>
    refine (exec_policyWrite v hl).trans (congrArg Host.Outcome.next ?_)
    exact congrArg Prod.fst (if_pos (by simp [h, h']))
  case noPolicy =>
    refine (exec_policyWrite v hl).trans (congrArg Host.Outcome.next ?_)
    refine congrArg Prod.fst (if_neg ?_)
    simp only [Bool.and_eq_true, decide_eq_true_eq]
    omega
  case whole =>
    refine exec_of rfl (eqAligned hp).1 ((barWrite_wide (putWindow_none s _ _ (by omega)) (eqReg (o := 8) s hp (.inl rfl))).trans ?_)
    rw [Nat.mod_eq_of_lt v.isLt]
    refine (writeReg_eq v.toNat hp hl).trans ?_
    rw [BitVec.ofNat_toNat, BitVec.setWidth_eq]
  case lower =>
    refine exec_of rfl (eqAligned hp).2.1 ((barWrite_narrow fun _ => putWindow_none s _ _ (by omega)).trans ?_)
    unfold State.write32
    rw [eqReg (o := 8) s hp (.inl rfl)]
    rfl
  case upper =>
    refine exec_of rfl (eqAligned hp).2.2 ((barWrite_narrow fun _ => putWindow_none s _ _ (by omega)).trans ?_)
    unfold State.write32
    rw [eqReg (o := 0xC) s hp (.inr rfl), show 0x20000 + 0xC + 0x1000 * p - 4 = 0x20000 + 8 + 0x1000 * p by omega,
      eqReg (o := 8) s hp (.inl rfl), hlo]
    exact (if_pos (by omega)).trans (writeReg_eq _ hp hl)
  case msix =>
    subst he
    have offset : o = 0 ∨ o = 4 ∨ o = 8 ∨ o = 12 := by
      obtain ⟨h, -⟩ | ⟨h, -⟩ | ⟨h, -⟩ | ⟨h, -⟩ := h <;> simp [h]
    have entry : (16 * k + o) / 16 = k := by omega
    have field : (16 * k + o) % 16 = o := by omega
    have wf : (Instr.msixTableWrite (16 * k + o) v).wf = true := by
      simp only [Instr.wf, Bool.and_eq_true, decide_eq_true_eq]
      omega
    refine ⟨{ s with host.vectors := Tab.put s.host.vectors k x }.flushVectors, exec_of rfl wf ((if_pos hl).trans ?_),
      butReports_flushVectors _⟩
    unfold State.writeMsix
    dsimp only
    rw [entry, field]
    obtain ⟨rfl, rfl⟩ | ⟨rfl, rfl⟩ | ⟨rfl, rfl⟩ | ⟨rfl, rfl⟩ := h
    · rfl
    · rfl
    · rw [show BitVec.ofNat 32 v.toNat = v by simp]
      rfl
    · rfl

end Sys2Proof
end

section
/-!
O58 ManagementCommands.
-/
namespace Sys2Proof
open Sys2Proof.Machine

/-! ### The end of a management command (R497–R499) -/

/-- R498: a command that an idle controller takes on an open path ends as `mgmtEnd` says. -/
theorem mgmtEnds_of {c : Instr} {r : MReq} {s u : State} {b : Bool} {f : State → State} {a : Answer} {out : List Byte}
    (e : Machine.exec c s = within c.wf (s.mgmtRun r b f)) (hw : c.wf = true) (ho : s.pathOpen r.path = true)
    (hp : s.sys.pwrgd = true ∨ b = true) (hb : s.mgmt.busy = false) (hf : f s = u.mgmtEnd r a out) : MgmtEnds c r s u a out := by
  have runs : Machine.exec c s = .next (u.mgmtEnd r a out) := by
    refine exec_of e hw ?_
    unfold State.mgmtRun
    rw [if_neg (by obtain h | h := hp <;> simp [ho, h]), if_neg (by rw [hb]; decide), hf]
  refine ⟨fun hm => runs.trans (congrArg Host.Outcome.next ?_), fun hm => ⟨_, runs, ?_⟩⟩
  · unfold State.mgmtEnd
    split
    · next h => exact absurd h hm
    · rfl
    · rfl
  · unfold State.mgmtEnd
    rw [hm]
    exact mboxDone_but u a out

theorem mgmtRun_closed {s : State} {r : MReq} {b : Bool} (f : State → State) (h : s.pathOpen r.path = false ∨ (s.sys.pwrgd = false ∧ b = false)) :
    s.mgmtRun r b f = s := by
  refine if_pos ?_
  obtain h | ⟨hp, hb⟩ := h
  · simp [h]
  · simp [hp, hb]

/-! ### Tokens (R505) -/

theorem withToken_spent {s : State} (r : MReq) (kind : Nat) (k g : Bool) (f : List Byte → State → State) (h : 8 ≤ s.mgmt.failedTokens) :
    s.withToken r kind k g f = s.mgmtEnd r (8, 0) [] := if_pos h

theorem withToken_good {s : State} {r : MReq} {kind : Nat} {k g : Bool} (f : List Byte → State → State) (h : s.mgmt.failedTokens < 8)
    (hf : s.tokenFault kind (s.mgmtInput r 256) k g = none) :
    s.withToken r kind k g f = f (s.mgmtInput r 256) { s with mgmt.nonce := none } := by
  unfold State.withToken
  dsimp only
  rw [if_neg (by omega), hf]
  rfl

theorem withToken_bad {s : State} {r : MReq} {kind n : Nat} {k g : Bool} (f : List Byte → State → State) (h : s.mgmt.failedTokens < 8)
    (hf : s.tokenFault kind (s.mgmtInput r 256) k g = some n) : s.withToken r kind k g f =
    { s with mgmt.nonce := if n ≤ 3 then s.mgmt.nonce else none, mgmt.failedTokens := s.mgmt.failedTokens + 1 }.mgmtEnd r (8, n) [] := by
  unfold State.withToken State.useNonce
  dsimp only
  rw [if_neg (by omega), hf]
  dsimp only
  split
  · rfl
  · rfl

/-- Settles O58: that a command runs whole (log entry 155), the layout of responses (190), when FLASH_WRITE erases and what its refusals
mean (194, 195) and the order of a token's checks (196) are the model's choices. -/
theorem managementCommands : Obligations.ManagementCommands := by
  unfold Obligations.ManagementCommands
  refine ⟨fun s r hw ho hp hb => ⟨?info, ?sensors, fun g hg => ?gasp, fun hg => ?noGasp, ?clear, fun nonce => ?nonce,
      fun h1 h2 h3 => ?advanced, fun h => ?notAdvanced⟩,
    fun s r k g tok hw ho hp hb ht => ⟨fun h => ⟨?spentUnlock, ?spentRevoke⟩, fun h hf => ?unlock, fun n h hf => ?unlockFails,
      fun h hf hk hn => ?revoke, fun h hf hk => ?revokeFails⟩,
    fun s u r sigOk failAt o a n bs hw ho hp hb hoe hae hne => ⟨fun hm => ?notMailbox, fun hm hr => ?notRunning,
      fun hm hr hu => ?updating, fun hm hr hu h1 h2 h3 h4 h5 hload him => ?starts⟩,
    fun s r hw => ⟨fun h => ⟨?closedInfo, ?closedGasp⟩, fun h => ?noPower, fun ho hp hb => ⟨fun hm => ?busyMailbox, fun hm => ?busyMctp⟩,
      fun g ho hp hb hg => ?standbyGasp⟩⟩
  case info => exact mgmtEnds_of (f := fun s => s.doInfo r) rfl hw ho (.inl hp) hb rfl
  case sensors => exact mgmtEnds_of (f := fun s => s.doSensors r) rfl hw ho (.inl hp) hb rfl
  case gasp =>
    refine mgmtEnds_of (f := fun s => s.doReadGasp r) rfl hw ho (.inl hp) hb ?_
    unfold State.doReadGasp
    rw [hg]
    rfl
  case noGasp =>
    refine mgmtEnds_of (f := fun s => s.doReadGasp r) rfl hw ho (.inl hp) hb ?_
    unfold State.doReadGasp
    rw [hg]
    rfl
  case clear => exact mgmtEnds_of (f := fun s => s.doClearGasp r) rfl hw ho (.inl hp) hb rfl
  case nonce => exact mgmtEnds_of (f := fun s => s.doNonce r nonce) rfl hw ho (.inl hp) hb rfl
  case advanced => exact mgmtEnds_of (f := fun s => s.doRollback r) rfl hw ho (.inl hp) hb (if_pos ⟨h1, h2, h3⟩)
  case notAdvanced =>
    refine mgmtEnds_of (f := fun s => s.doRollback r) rfl hw ho (.inl hp) hb (if_neg ?_)
    rintro ⟨h1, h2, h3⟩
    omega
  case spentUnlock => exact mgmtEnds_of (f := fun s => s.doUnlock r k g) rfl hw ho (.inl hp) hb (withToken_spent r 1 k g _ h)
  case spentRevoke => exact mgmtEnds_of (f := fun s => s.doRevoke r k g) rfl hw ho (.inl hp) hb (withToken_spent r 2 k g _ h)
  case unlock =>
    subst ht
    exact mgmtEnds_of (f := fun s => s.doUnlock r k g) rfl hw ho (.inl hp) hb (withToken_good _ h hf)
  case unlockFails =>
    subst ht
    exact mgmtEnds_of (f := fun s => s.doUnlock r k g) rfl hw ho (.inl hp) hb (withToken_bad _ h hf)
  case revoke =>
    subst ht
    refine mgmtEnds_of (f := fun s => s.doRevoke r k g) rfl hw ho (.inl hp) hb ((withToken_good _ h hf).trans (if_neg ?_))
    exact fun e => e.elim hk hn
  case revokeFails =>
    subst ht
    exact mgmtEnds_of (f := fun s => s.doRevoke r k g) rfl hw ho (.inl hp) hb ((withToken_good _ h hf).trans (if_pos hk))
  case notMailbox =>
    refine mgmtEnds_of (f := fun s => s.doFlashWrite r sigOk failAt) rfl hw ho (.inl hp) hb ?_
    unfold State.doFlashWrite
    dsimp only
    split
    · rfl
    · rfl
    · next h => exact absurd h hm
  case notRunning =>
    refine mgmtEnds_of (f := fun s => s.doFlashWrite r sigOk failAt) rfl hw ho (.inl hp) hb ?_
    unfold State.doFlashWrite
    rw [hm]
    exact if_pos (by rw [hr]; rfl)
  case updating =>
    refine mgmtEnds_of (f := fun s => s.doFlashWrite r sigOk failAt) rfl hw ho (.inl hp) hb ?_
    unfold State.doFlashWrite
    rw [hm]
    exact (if_neg (by rw [hr]; decide)).trans (if_pos hu)
  case starts =>
    refine exec_of (b := s.mgmtRun r false fun s => s.doFlashWrite r sigOk failAt) rfl hw ?_
    unfold State.mgmtRun State.doFlashWrite
    rw [if_neg (by simp [ho, hp]), if_neg (by rw [hb]; decide)]
    dsimp only
    rw [← hoe, ← hae, ← hne, hm]
    refine (if_neg (by rw [hr]; decide)).trans ((if_neg (by rw [hu]; decide)).trans ((if_neg (by omega)).trans
      ((if_neg (by simp [h3, h4])).trans ((if_neg (by omega)).trans ?_))))
    rw [hload]
    dsimp only
    rw [him]
    unfold State.startFlash
    dsimp only
    rw [Bool.or_true]
  case closedInfo => exact exec_of rfl hw (mgmtRun_closed _ (.inl h))
  case closedGasp => exact exec_of rfl hw (mgmtRun_closed _ (.inl h))
  case noPower => exact exec_of rfl hw (mgmtRun_closed _ (.inr ⟨h, rfl⟩))
  case busyMailbox =>
    refine exec_of rfl hw ((if_neg (by simp [ho, hp])).trans ((if_pos hb).trans ?_))
    rw [hm]
  case busyMctp =>
    refine exec_of rfl hw ((if_neg (by simp [ho, hp])).trans ((if_pos hb).trans ?_))
    have answered : s.mgmtEnd r (Res.busy, 0) [] = { s with mgmt.mctpReply := leBytes 1 1 ++ leBytes 0 4 } := by
      unfold State.mgmtEnd
      split
      · next h => exact absurd h hm
      · simp [Res.busy]
      · simp [Res.busy]
    split
    · next h => exact absurd h hm
    · exact answered
    · exact answered
  case standbyGasp =>
    refine mgmtEnds_of (f := fun s => s.doReadGasp r) rfl hw ho (.inr rfl) hb ?_
    unfold State.doReadGasp
    rw [hg]
    rfl

end Sys2Proof
end

section
/-!
O59 ManagementProtocols.
-/
namespace Sys2Proof
open Sys2Proof.Machine

/-! ### The service path (R508) -/

theorem aligned_of_counter {a : Nat} (h : isCounter a = true) : a % 4 = 0 := by
  simp only [isCounter, Bool.and_eq_true, decide_eq_true_eq] at h
  exact h.1

theorem pack_two (v w i j : Nat) : pack [(v, i), (w, j)] = v * 2 ^ i + w * 2 ^ j := by simp [pack]

theorem pack_three (v w x i j k : Nat) : pack [(v, i), (w, j), (x, k)] = v * 2 ^ i + w * 2 ^ j + x * 2 ^ k := by simp [pack]

theorem pack_error (c : Nat) : pack [(c, 0), (1, 27)] = c + 2 ^ 27 := by
  rw [pack_two, Nat.pow_zero, Nat.mul_one, Nat.one_mul]

theorem pack_done (c d : Nat) : pack [(c, 0), (1, 26), (d, 64)] = c + 2 ^ 26 + d * 2 ^ 64 := by
  rw [pack_three, Nat.pow_zero, Nat.mul_one, Nat.one_mul]

/-! ### Sensors (R500) -/

theorem readSensor_sensors (s : State) (id : Nat) (v : Int) : (s.readSensor id v).mgmt = s.mgmt := by
  unfold State.readSensor
  (repeat' split) <;> rfl

theorem readSensor_hottest (s : State) (id : Nat) (v : Int) :
    (s.readSensor id v).power.hottest = if id = 1 then max s.power.hottest v else s.power.hottest := by
  unfold State.readSensor
  split
  · rfl
  · split <;> rfl

/-- Table HST-9: of a reading with an identifier of its own and the engine's own sensors, each is found. -/
theorem find_sensors (s : State) {id : Nat} (v : Nat) (h : id ∈ analogIds) (t : Tab Nat) :
    Tab.find (([(id, v)] ++ s.ownSensors).foldl (fun t x => Tab.put t x.1 x.2) t) id = some v ∧
    Tab.find (([(id, v)] ++ s.ownSensors).foldl (fun t x => Tab.put t x.1 x.2) t) 20 = some s.tact.state.code := by
  have below : id < 20 := by
    have all : ∀ i ∈ analogIds, i < 20 := by decide
    exact all id h
  unfold State.ownSensors
  dsimp only [List.singleton_append, List.foldl_cons, List.foldl_nil]
  simp only [Tab.find_put]
  constructor
  · rw [if_neg (by omega), if_neg (by omega), if_neg (by omega), if_neg (by omega), if_neg (by omega), if_neg (by omega),
      if_neg (by omega), if_pos trivial]
  · simp

/-- Settles O59: the codes and the layouts of the protocols' answers (log entry 190) and the restart of the controller by its watchdog
(198) are the model's choices. -/
theorem managementProtocols : Obligations.ManagementProtocols := by
  unfold Obligations.ManagementProtocols
  refine ⟨fun s o im sigOk failAt hw => ⟨fun h => ?refused, fun x h hx => ?fault, fun h hx => ?starts⟩,
    fun s code bs hv hp hr => ⟨fun h => ?measured, fun hc hw => ?unknown⟩,
    fun s v hv hw => ⟨fun h h' => ?setEid, fun h => ?badEid, ?getEid, fun hr => ?receiver, fun x hr hx => ?reading⟩,
    fun s code v hv => ⟨?offControl, ?offPlatform⟩,
    fun s id v hv => ⟨fun hp hid => ?refreshed, fun hp => ?standby, fun hp hid => ?unavailable⟩,
    fun s => ⟨fun hv => ?watchdog, fun hv => ?noWatchdog⟩,
    fun s ir hir hp => ⟨?idcode, fun h => ?bypass, fun h => ?service⟩,
    fun s dr hp => ⟨fun h => ?closed, fun hj hi hb => ?barred, fun hj hi hc hh hb hr hw hs hl => ?counter⟩⟩
  case refused =>
    exact ⟨_, exec_of rfl hw (if_pos (by rw [h]; rfl)), reported_eventC _ Det.fwUpdateFail _ _ _ (by decide) (by decide)⟩
  case fault =>
    refine ⟨(s.eventC Det.rollbackRefused .mgmt).eventC Det.fwUpdateFail .mgmt, exec_of rfl hw ((if_neg (by rw [h]; decide)).trans ?_), ?_, ?_⟩
    · rw [hx]
    · rw [butReports_eventC, butReports_eventC]
      exact ButReports.rfl' s
    · rw [counter_eventC_self _ Det.fwUpdateFail _ _ _ (by decide) (by decide),
        counter_eventC_other s Det.rollbackRefused _ _ _ _ (by decide)]
  case starts =>
    refine exec_of rfl hw ((if_neg (by rw [h]; decide)).trans ?_)
    rw [hx]
    unfold State.startFlash
    dsimp only
    rw [Bool.or_false]
  case measured =>
    refine exec_of rfl rfl ((if_neg (by simp [hv, hp, hr])).trans ((if_pos rfl).trans ?_))
    rw [h]
    rfl
  case unknown =>
    refine ⟨_, exec_of rfl hw ((if_neg (by simp [hv, hp, hr])).trans ((if_neg ?_).trans (if_neg (by rw [hc]; decide)))),
      reported_eventC _ Det.spdmFail _ _ _ (by decide) (by decide)⟩
    rintro rfl
    exact absurd hc (by decide)
  case setEid => exact exec_of rfl hw ((if_neg (by rw [hv]; decide)).trans (if_pos ⟨h, h'⟩))
  case badEid => exact exec_of rfl hw ((if_neg (by rw [hv]; decide)).trans (if_neg (by omega)))
  case getEid => exact exec_of rfl rfl (if_neg (by rw [hv]; decide))
  case receiver => exact exec_of rfl rfl (if_neg (by simp [hv, hr]))
  case reading =>
    refine exec_of rfl rfl ((if_neg (by simp [hv, hr])).trans ?_)
    dsimp only
    rw [hx]
    rfl
  case offControl => exact exec_of rfl rfl (if_pos (by rw [hv]; rfl))
  case offPlatform => exact exec_of rfl rfl (if_pos (by rw [hv]; rfl))
  case refreshed =>
    let w : State := { s with mgmt.sensors := ([(id, v)] ++ s.ownSensors).foldl (fun t x => Tab.put t x.1 x.2) s.mgmt.sensors }
    let x : State := w.readSensor id (sext v 16)
    let hot := [(id, v)].filter fun x => decide (2 ≤ x.1) && decide (x.1 ≤ 9) && decide (85 * 8 ≤ sext x.2 16)
    have mine : [(id, v)].filter (fun x => analogIds.contains x.1) = [(id, v)] :=
      List.filter_cons_of_pos (by simpa using hid)
    let u : State := forEach hot (fun x st => st.eventC Det.hbmTempHigh (.stack (x.1 - 2))) x
    have but : ButReports x u :=
      ButReports.forEach _ _ (fun y u => by simp) (ButReports.rfl' x)
    obtain ⟨own, tact⟩ := find_sensors s v hid s.mgmt.sensors
    have sensors : u.mgmt.sensors = w.mgmt.sensors :=
      (but.read fun u => u.mgmt.sensors).trans (congrArg Mgmt.sensors (readSensor_sensors w id _))
    have hottest : u.power.hottest =
        if id = 1 then max s.power.hottest (sext v 16) else s.power.hottest :=
      (congrArg Power.hottest but.power).trans (readSensor_hottest w id _)
    refine ⟨u, exec_of rfl rfl ((if_neg (by rw [hv]; decide)).trans ((if_neg (by rw [hp]; decide)).trans ?_)), ?_, ?_, fun h => ?_,
      fun h => ?_⟩
    · dsimp only
      rw [mine]
      rfl
    · rw [sensors]
      exact own
    · rw [sensors]
      exact tact
    · rw [hottest, if_pos h]
    · rw [hottest, if_neg h]
  case standby => exact exec_of rfl rfl ((if_neg (by rw [hv]; decide)).trans (if_pos (by rw [hp]; rfl)))
  case unavailable =>
    refine exec_of rfl rfl ((if_neg (by rw [hv]; decide)).trans ((if_pos (by rw [hp]; rfl)).trans ?_))
    rw [List.filter_cons_of_neg (by simpa using hid)]
    rfl
  case watchdog =>
    exact ⟨_, exec_of rfl rfl (if_neg (by rw [hv]; decide)), raise_untargeted _ _ _ _⟩
  case noWatchdog => exact exec_of rfl rfl (if_pos (by rw [hv]; rfl))
  case idcode => exact exec_of rfl rfl (if_neg (by rw [hp]; decide))
  case bypass =>
    refine exec_of rfl (decide_eq_true hir) ((if_neg (by rw [hp]; decide)).trans ?_)
    dsimp only
    rw [h]
    rfl
  case service =>
    have allowed : s.irAllowed 0x10 = true := by simp [State.irAllowed, h]
    refine exec_of rfl rfl ((if_neg (by rw [hp]; decide)).trans ?_)
    dsimp only
    rw [allowed]
    rfl
  case closed =>
    refine exec_of rfl rfl (if_pos ?_)
    obtain h | h := h
    · simp [h]
    · simp [h]
  case barred =>
    refine exec_of rfl rfl ((if_neg (by simp [hp, hj, hi])).trans ((if_pos (by rw [hb]; rfl)).trans ?_))
    dsimp only
    rw [pack_error]
  case counter =>
    have read := barRead_counter hc (show fld dr.toNat 0 24 < 0x1000000 from Nat.mod_lt _ (by decide)) hp hs (by simp [hh]) hl
    refine exec_of rfl rfl ((if_neg (by simp [hp, hj, hi])).trans ((if_neg ?_).trans ((if_neg (by rw [hr]; decide)).trans ?_)))
    · rw [hb, hw]
      simp [aligned_of_counter hc]
    · dsimp only
      rw [hw, read]
      simp [State.barAnswer, pack_done]

end Sys2Proof
end
